-- ==== Sys2Proof/Word.lean ====
section
/-!
DEFINITION. The word types: a byte and a 64-bit word. Unit numbers, counts and header fields that are computed
with are natural numbers, each kept below its field's range by the operation that writes it.
-/
namespace Sys2Proof

/-- A byte. -/
abbrev Byte := BitVec 8

/-- A 64-bit word. -/
abbrev Word := BitVec 64

end Sys2Proof
end

