-- ==== Sys2Proof/Syntax.lean ====
section
/-!
DEFINITION. The commands of the block: one constructor of `Instr` per row of spec/opcode_table.json, in the
table's order, and the plain types of their operands. A command is an event at the boundary of the block or
inside it (a register write, a packet's arrival, a timer's expiry, one Soref instruction of one engine); its
operands say where it happens and what comes from outside.
-/
namespace Sys2Proof

/-- Who writes or reads a control-space register (R13, R14, R125, R250): the physical function of host port k
through its PF BAR0; a Soref program on engine e; the management controller; the driver of FN n through its own
function area. -/
inductive Writer where
  | host (k : Fin 2)
  | prog (e : Fin 64)
  | mgc
  | drv (fn : Fin 2048)
deriving DecidableEq, Repr, Inhabited

/-- What the receiver of a flit finds in it (R23, R80): nothing wrong, an illegal code on a control pair, or a
double-bit HECC error of a head flit. -/
inductive FlitError where
  | ok | ctlCode | heccDouble
deriving DecidableEq, Repr, Inhabited

/-- Width codes of loads (Table 7-6). -/
inductive LdWidth where
  | b | h | w | d | sb | sh | sw
deriving DecidableEq, Repr, Inhabited

/-- Width codes of stores (R171). -/
inductive StWidth where
  | b | h | w | d
deriving DecidableEq, Repr, Inhabited

/-- Width codes of LOCK and UNLOCK (R171). -/
inductive LockWidth where
  | w | d | q
deriving DecidableEq, Repr, Inhabited

/-- Space codes of LOCK and UNLOCK (R171). -/
inductive LockSpace where
  | stg | loc
deriving DecidableEq, Repr, Inhabited

/-- Condition codes (Table 7-4). -/
inductive Cond where
  | al | eq | ne | lt | ge | ltu | geu | gt | le | gtu | leu | mi | pl | vs | vc
deriving DecidableEq, Repr, Inhabited

/-- Link states of a host port (Table 12-10, STATE). -/
inductive LinkState where
  | down | training | l0 | l0p | l1 | l11 | l12 | hotReset | disabled | flushing
deriving DecidableEq, Repr, Inhabited

/-- A memory TLP of a host as the port's transaction layer takes it: the byte address, the bytes from it to the
last byte covered, the byte enables of the first and last 8-byte word (R77), the data of a write or the operands
of an AtomicOp, the attributes (R293), the tag and requester, and whether its ECRC failed (R300). -/
structure Tlp where
  addr : Nat
  len : Nat
  fbe : BitVec 8
  lbe : BitVec 8
  data : List (BitVec 8)
  ro : Bool
  ido : Bool
  ns : Bool
  ep : Bool
  tag : Nat
  requester : Nat
  ecrcErr : Bool
deriving DecidableEq, Repr, Inhabited

/-- The AtomicOps the port completes (R294), with the operand width in bytes. -/
inductive AtomOp where
  | fetchAdd (width : Nat) | swap (width : Nat) | cas (width : Nat)
deriving DecidableEq, Repr, Inhabited

/-- The configuration-space fields whose values this spec gives a meaning (R284 to R309, R389, R419, R421). -/
inductive CfgField where
  | vendorId | deviceId | revisionId | classCode | headerType | subsystemVendorId | subsystemId | capPointer
  | memorySpaceEnable | busMasterEnable | bar0 | bar2
  | powerState | pmeEn | pmeStatus
  | maxPayloadSize | maxReadRequestSize | extTagEn | initiateFlr | ctoValue | ctoDisable | ltrEnable
  | tag10En | tag14En | msixEnable | functionMask | msixTableSize
  | numVfs | vfEnable | vfMse | vfBar0 | vfBar2
  | aerUncorStatus | aerUncorMask | aerUncorSeverity | aerCorStatus | aerCorMask
  | ecrcGenEn | ecrcCheckEn | maxSnoop | maxNoSnoop | serialNumber | atomicRequesterEn
deriving DecidableEq, Repr, Inhabited

/-- A configuration request: a read or a write of one named field. -/
inductive CfgReq where
  | read (f : CfgField) | write (f : CfgField) (value : Nat)
deriving DecidableEq, Repr, Inhabited

/-- A completion from a host (R296 to R300): its tag, the routing ID of its requester as an offset from the PF's,
its status (0 success, 1 UR, 4 CA), its data, the bytes it completes with, and its poison and ECRC marks. -/
structure Cpl where
  tag : Nat
  rid : Nat
  status : Nat
  data : List (BitVec 8)
  ep : Bool
  ecrcErr : Bool
deriving DecidableEq, Repr, Inhabited

/-- A Drevlink frame as the link layer hands it on (Tables 14-2 and 14-3): errored or not (R339), its SEQ and
CLASS, and the fields of its transaction header and its payload. `sts` is STS of a completion; `ido` stands in
the same bits of a request. `nblk` is the number of data blocks the SOF names. -/
structure Frame where
  errored : Bool
  seq : Nat
  cls : Nat
  nblk : Nat
  tt : Nat
  fn : Nat
  tag : Nat
  addr : Nat
  len : Nat
  fbe : BitVec 8
  lbe : BitVec 8
  sts : Nat
  ro : Bool
  ns : Bool
  ep : Bool
  ido : Bool
  last : Bool
  data : List (BitVec 8)
deriving DecidableEq, Repr, Inhabited

/-- The maintenance activities of Table 18-4. -/
inductive Activity where
  | stagingScrub (k : Fin 4) | psScrub (c : Fin 8) | psUpdate (c : Fin 8) | migration (groups : BitVec 4)
  | laneMargin (p : Fin 8) | hostMargin (k : Fin 2) | retrain (p : Fin 8) | traceDump
deriving DecidableEq, Repr, Inhabited

/-- The wake sources of Table 19-3. -/
inductive WakeSource where
  | packet | timerLead | stagingAccess | scrubEnable | clkreq | packetToSend | perst | wakePattern | lnkEn
  | forceOn | retry | wakeSense
deriving DecidableEq, Repr, Inhabited

/-- The commands, one constructor per row of spec/opcode_table.json. -/
inductive Instr where
  /-- R14: A write to a register that has no row of its own takes effect whole at the owning block, in arrival order, under its fields' access codes. -/
  | registerWrite (w : Writer) (off : Nat) (width : Nat) (value : BitVec 64)
  /-- R456: Assertion of PORST_N resets every register, memory, domain state and the TBU count. -/
  | porstNAssert
  /-- R458: Deassertion of PORST_N samples the pin fields and starts bring-up. -/
  | porstNDeassert (perst0 perst1 : Bool)
  /-- R479: VAUX falls below 2.90 V, and the monitor holds the device in power-on reset. -/
  | vauxBelowThreshold
  /-- R479: VAUX rises above 3.00 V, and the monitor releases power-on reset. -/
  | vauxAboveThreshold
  /-- R30: Each 100 ns average of VDD_CORE updates VMIN and sets BELOW_FLOOR if it lies below the threshold. -/
  | vmon100nsAverage (uv : Nat)
  /-- R31: A 50 ns average below the CORE_UV threshold sets CORE_UV, reports a fatal error and enters the error state. -/
  | vmon50nsAverage (uv : Nat)
  /-- R36: Every 1 µs, VNOW takes the latest 100 ns average. -/
  | vnowUpdate
  /-- R36: A write of 1 to VMIN_CLR sets VMIN to 0xFF. -/
  | vminClr (w : Writer)
  /-- R37: A write to WINDOW, or a write of 0 to RUN, clears VALID and starts a new counting window. -/
  | stepMonCtlWrite (w : Writer) (value : BitVec 32)
  /-- R37: At the end of a counting window, STEPS takes the count of the replica ring and VALID sets. -/
  | stepMonWindowEnd (steps : Nat)
  /-- R40: The time-base PLL locks to TBCLK, and PLL_LOCK reads 1. -/
  | tbPllLock
  /-- R40: A write of SRC = 1 while PLL_LOCK is 1 requests switch-over; otherwise the write is ignored. -/
  | tbSrcWrite (w : Writer) (src : Bool)
  /-- R40: At the next ring period, the count moves to the PLL, TB_COARSE_END records it, COARSE clears and an anchor is written. -/
  | tbSwitchOver
  /-- R41: Loss of PLL lock after switch-over returns the count to the ring, clears SRC, sets LOCK_LOST and COARSE, and writes an anchor. -/
  | tbFallback
  /-- R42: A write of n to TB_STEP schedules a forward step of the count. -/
  | tbStepWrite (w : Writer) (value : BitVec 32)
  /-- R42: At the next 256 ns boundary, the count advances by the scheduled n ns. -/
  | tbStepApply
  /-- R42: A write to TB_SLEW sets the rate adjustment of the count. -/
  | tbSlewWrite (w : Writer) (value : BitVec 32)
  /-- R42: A spread slew adjustment advances the count by 2 or holds it for one nanosecond. -/
  | tbSlewAdjust
  /-- R43: Every 256 ns, the full 48-bit time reaches every NI, which checks its local copy against it and may then stamp after a power return. -/
  | timeSerialLoad
  /-- R54: When 32 ns have passed without a packet or milestone toward a gate, the feeder sends a milestone. -/
  | milestoneSend (ni : Fin 46) (g : Fin 10)
  /-- R56: A milestone arrives at a gate's keeper and raises the watermark, or is kept pending. -/
  | milestoneArrive (i : Nat)
  /-- R59: When the feeder's local time reaches u + 128 ns, it may stamp packets again. -/
  | unparkHoldExpire (ni : Fin 46)
  /-- R56: A packet's tail arrives at a reorder gate, which holds it, counts it and may raise the feeder's watermark. -/
  | gatePacketArrive (g : Fin 10) (i : Nat)
  /-- R61: The gate releases the eligible, unblocked packet that has the lowest order key, and returns its allowance. -/
  | gateRelease (g : Fin 10)
  /-- R52: An allowance return arrives at a feeder and frees allowance toward the gate. -/
  | allowanceReturn (ni : Fin 46) (i : Nat)
  /-- R69: A write of GATE_CTL.COMMIT activates the GATE_ALLOW shadows, or refuses them and sets ALLOW_ERR. -/
  | gateCommit (w : Writer) (g : Fin 10)
  /-- R68: A write of LAT_CLR sets MAX_ADDED to 0. -/
  | gateLatClr (w : Writer) (g : Fin 10)
  /-- R67: Every 2^32 ns, TRC writes a periodic anchor record that holds TB_NOW and COARSE. -/
  | anchorRecord
  /-- R87: An NI injects an offered packet if its reach table has a route, and otherwise answers UR or discards it. -/
  | niInject (ni : Fin 46) (q : Fin 25)
  /-- R84: A head flit arrives at a router, which checks HECC, looks up the voted route entry and requests output channels. -/
  | routerHeadArrive (l : Fin 352) (up : Bool) (vc : Fin 8) (singleErr : Bool)
  /-- R84: After 12 steps without a grant, the head also requests the switchback channel. -/
  | routeSwitchbackRequest (l : Fin 352) (up : Bool) (vc : Fin 8)
  /-- R84: After DETOUR_WAIT link cycles without a grant, an eligible head also requests a side-link detour. -/
  | routeDetourRequest (l : Fin 352) (up : Bool) (vc : Fin 8)
  /-- R88: In each link cycle an output link sends one flit, chosen by level, then age, then SRC. -/
  | linkOutputArbitration (l : Fin 352) (up : Bool)
  /-- R80: A flit arrives at a receiver, which returns ACCEPT, or returns REPEAT on a header or control-code error. -/
  | flitArrive (l : Fin 352) (up : Bool) (err : FlitError) (par : BitVec 8)
  /-- R74: A credit for a virtual channel returns on the link's return bundle. -/
  | creditReturn (l : Fin 352) (up : Bool)
  /-- R90: Every 64 ns, each enabled injection limiter adds RATE tokens, up to its ceiling. -/
  | limiterTokenAdd (ni : Fin 46) (qc : Fin 8)
  /-- R96: A write of FAB_CTL.COMMIT activates the INJ_LIM shadows, or refuses them and sets LIM_ERR. -/
  | fabCommit (w : Writer)
  /-- R95: A write of FORCE_OUT takes the selected link out of service or returns it, unless it is the group's last in-service link. -/
  | forceOutWrite (w : Writer) (out : Bool)
  /-- R94: An MGC write of RT_DATA replaces all three copies of the selected entry between two lookups; a write from any other source is discarded. -/
  | rtDataWrite (w : Writer) (value : BitVec 64)
  /-- R413: A packet arrives at a destination NI outside a gate, which checks parity, type and service before it executes, poisons or rejects the packet. -/
  | destNiPacketArrive (ni : Fin 46) (i : Nat)
  /-- R98: A whole request enters its requester's presentation slot at an arbiter. -/
  | arbRequestDeliver (a : Fin 29) (idx : Fin 47)
  /-- R99: A contest opens when a request presents at a free resource, or when a grant ends while requests present. -/
  | arbContestOpen (a : Fin 29)
  /-- R99: 2 steps after it opens, the contest closes, the highest input wins, and the losers receive backoff. -/
  | arbContestDecide (a : Fin 29)
  /-- R100: A requester's backoff runs out, and its request presents again. -/
  | arbBackoffExpire (a : Fin 29) (idx : Fin 47)
  /-- R107: A grant's service completes, or a closing write completes at the resource and ends its belay. -/
  | arbGrantEnd (a : Fin 29)
  /-- R108: A grant or belay that reaches HOLD_LIMIT is cut off, the holder is notified, a far lock is aborted and the cut is logged. -/
  | arbHoldCut (a : Fin 29)
  /-- R102: A write of ARB_CTL.COMMIT activates the map, COMPAT_EN and HOLD_LIMIT together between two contests. -/
  | arbCommit (w : Writer) (a : Fin 29)
  /-- R105: A write to C52_PRIO_LO or C52_PRIO_HI acts at once if the set is consistent, and otherwise sets PAIR_SKEW. -/
  | c52PrioWrite (w : Writer) (a : Fin 29) (hi : Bool) (value : BitVec 32)
  /-- R499: SEM executes an acquire, which succeeds, returns BUSY, or is refused under the order and maintenance rules. -/
  | semExecAcquire
  /-- R111: SEM executes a release, which frees the semaphore for its owner and otherwise completes with CA. -/
  | semExecRelease
  /-- R111: SEM executes a force release, which frees the semaphore for a PF or the MGC and is refused for an engine. -/
  | semExecForceRelease
  /-- R111: A semaphore packet with OP 0b00 is answered with UR and logged. -/
  | semExecNoOp
  /-- R113: A host write of SEM_CMD with OP acquire passes the mutual-exclusion element toward SEM. -/
  | semCmdAcquire (k : Fin 2) (num : BitVec 11)
  /-- R113: A host write of SEM_CMD with OP release passes the mutual-exclusion element toward SEM. -/
  | semCmdRelease (k : Fin 2) (num : BitVec 11)
  /-- R113: A host write of SEM_CMD with OP force release passes the mutual-exclusion element toward SEM. -/
  | semCmdForceRelease (k : Fin 2) (num : BitVec 11)
  /-- R114: Once the operations stamped before a reset fence have drained, SEM frees the semaphores of the reset FNs. -/
  | semResetFree (fn : Fin 2048)
  /-- R130: A queue wake or cluster message arrives and takes an entry in the cluster's wake list. -/
  | clusterWakeArrive (c : Fin 8) (i : Nat)
  /-- R131: The cluster gives the best wake to the lowest idle engine and sets its registers for the task. -/
  | dispatch (c : Fin 8)
  /-- R130: A wake credit that the cluster returns arrives at QM. -/
  | wakeCreditReturn (i : Nat)
  /-- R198: s.now reaches a non-zero s.tmr, and TIMER sets in s.evt. -/
  | timerExpire (e : Fin 64)
  /-- R135: An enabled event or FNRST releases an engine in WAIT, which returns to RUN within 12 steps. -/
  | waitRelease (e : Fin 64)
  /-- R142: The fault notice of a cut reaches an engine, which takes BELAY_CUT if its s.belay is 1. -/
  | faultNoticeArrive (e : Fin 64) (i : Nat)
  /-- R140: Once every context owned at END has completed, the contexts are returned and the task ends. -/
  | endContextsDrained (e : Fin 64)
  /-- R150: A write of RUN = 1 lets the cluster take wakes, and after a load it starts INIT on engine 0. -/
  | pclRunStart (w : Writer) (c : Fin 8)
  /-- R150: A write of RUN = 0 stops the cluster from taking wakes, while running tasks continue to END. -/
  | pclRunStop (w : Writer) (c : Fin 8)
  /-- R158: A write of PCL_LIMITS.COMMIT activates CTX_CAP and BUDGET for tasks dispatched after it. -/
  | pclLimitsCommit (w : Writer) (c : Fin 8)
  /-- R158: A write of RESTART makes a HALTED engine IDLE with s.fault cleared. -/
  | engineRestart (w : Writer) (e : Fin 64)
  /-- R134: A write of KICK sets KICK in the engine's s.evt. -/
  | engineKick (w : Writer) (e : Fin 64)
  /-- R158: A write of PCL_PS_DATA stores a word with its check bits and advances WORD. -/
  | psDataWrite (w : Writer) (c : Fin 8) (value : BitVec 32)
  /-- R158: A read of PCL_PS_DATA returns the word, corrected where possible, and logs an uncorrectable word. -/
  | psDataRead (w : Writer) (c : Fin 8)
  /-- R174: A fetched word with a reserved encoding raises ILLEGAL and has no other effect. -/
  | reservedEncoding (e : Fin 64)
  /-- R183: Adds two registers and sets Z, N, C and V. -/
  | add (e : Fin 64) (rd ra rb : Fin 32)
  /-- R183: Subtracts two registers and sets Z, N, C and V. -/
  | sub (e : Fin 64) (rd ra rb : Fin 32)
  /-- R183: Takes the bitwise AND of two registers. -/
  | and (e : Fin 64) (rd ra rb : Fin 32)
  /-- R183: Takes the bitwise OR of two registers. -/
  | or (e : Fin 64) (rd ra rb : Fin 32)
  /-- R183: Takes the bitwise XOR of two registers. -/
  | xor (e : Fin 64) (rd ra rb : Fin 32)
  /-- R183: Takes a AND NOT b. -/
  | andn (e : Fin 64) (rd ra rb : Fin 32)
  /-- R183: Sets the flags of a − b and writes no register. -/
  | cmp (e : Fin 64) (ra rb : Fin 32)
  /-- R183: Sets the flags of a AND b and writes no register. -/
  | tst (e : Fin 64) (ra rb : Fin 32)
  /-- R184: Shifts left by a register amount. -/
  | sll (e : Fin 64) (rd ra rb : Fin 32)
  /-- R184: Shifts right logically by a register amount. -/
  | srl (e : Fin 64) (rd ra rb : Fin 32)
  /-- R184: Shifts right arithmetically by a register amount. -/
  | sra (e : Fin 64) (rd ra rb : Fin 32)
  /-- R185: Writes the low 64 bits of the product. -/
  | mul (e : Fin 64) (rd ra rb : Fin 32)
  /-- R185: Writes the high 64 bits of the unsigned product. -/
  | mulhu (e : Fin 64) (rd ra rb : Fin 32)
  /-- R185: Writes the number of leading zero bits. -/
  | clz (e : Fin 64) (rd ra : Fin 32)
  /-- R183: Adds a sign-extended immediate. -/
  | addi (e : Fin 64) (rd ra : Fin 32) (imm : BitVec 12)
  /-- R183: ANDs with a zero-extended immediate. -/
  | andi (e : Fin 64) (rd ra : Fin 32) (imm : BitVec 12)
  /-- R183: ORs with a zero-extended immediate. -/
  | ori (e : Fin 64) (rd ra : Fin 32) (imm : BitVec 12)
  /-- R183: XORs with a zero-extended immediate. -/
  | xori (e : Fin 64) (rd ra : Fin 32) (imm : BitVec 12)
  /-- R184: Shifts left by an immediate amount. -/
  | slli (e : Fin 64) (rd ra : Fin 32) (n : BitVec 6)
  /-- R184: Shifts right logically by an immediate amount. -/
  | srli (e : Fin 64) (rd ra : Fin 32) (n : BitVec 6)
  /-- R184: Shifts right arithmetically by an immediate amount. -/
  | srai (e : Fin 64) (rd ra : Fin 32) (n : BitVec 6)
  /-- R183: Sets the flags of a minus an immediate. -/
  | cmpi (e : Fin 64) (ra : Fin 32) (imm : BitVec 12)
  /-- R183: Sets the flags of a AND an immediate. -/
  | tsti (e : Fin 64) (ra : Fin 32) (imm : BitVec 12)
  /-- R186: Loads a sign-extended 44-bit immediate. -/
  | li (e : Fin 64) (rd : Fin 32) (imm : BitVec 44)
  /-- R186: Adds a 44-bit immediate and sets the flags. -/
  | addl (e : Fin 64) (rd ra : Fin 32) (imm : BitVec 44)
  /-- R186: ORs IMML shifted left by 32. -/
  | orh (e : Fin 64) (rd ra : Fin 32) (imm : BitVec 32)
  /-- R186: Sets the flags of a minus a 44-bit immediate. -/
  | cmpl (e : Fin 64) (ra : Fin 32) (imm : BitVec 44)
  /-- R190: Loads from the engine's own scratch. -/
  | ldx (e : Fin 64) (w : LdWidth) (rd ra : Fin 32) (imm : BitVec 12)
  /-- R191: Sends a staging read and stalls for its reply. -/
  | ldg (e : Fin 64) (w : LdWidth) (rd ra : Fin 32) (imm : BitVec 12)
  /-- R192: Sends a control-register read and stalls for its reply. -/
  | ldc (e : Fin 64) (w : LdWidth) (rd ra : Fin 32) (imm : BitVec 12)
  /-- R190: Stores to the engine's own scratch. -/
  | stx (e : Fin 64) (w : StWidth) (rs ra : Fin 32) (imm : BitVec 12)
  /-- R191: Sends a posted staging write. -/
  | stg (e : Fin 64) (w : StWidth) (rs ra : Fin 32) (imm : BitVec 12)
  /-- R192: Sends a posted control-register write. -/
  | stc (e : Fin 64) (w : StWidth) (rs ra : Fin 32) (imm : BitVec 12)
  /-- R194: Sends a staging fetch-and-add and stalls for the old value. -/
  | fadd (e : Fin 64) (d : Bool) (rd ra rb : Fin 32)
  /-- R194: Sends a staging swap and stalls for the old value. -/
  | swp (e : Fin 64) (d : Bool) (rd ra rb : Fin 32)
  /-- R194: Sends a staging compare-and-swap and stalls for the old value. -/
  | cas (e : Fin 64) (d : Bool) (rd ra rb : Fin 32)
  /-- R187: Branches to s.pc + OFF if the condition holds. -/
  | bCc (e : Fin 64) (cond : Cond) (off : BitVec 20)
  /-- R187: Pushes the return address and branches if the condition holds. -/
  | callCc (e : Fin 64) (cond : Cond) (off : BitVec 20)
  /-- R188: Jumps to the address in a register. -/
  | jr (e : Fin 64) (ra : Fin 32)
  /-- R188: Calls the address in a register. -/
  | callr (e : Fin 64) (ra : Fin 32)
  /-- R188: Returns to the address popped from the return stack. -/
  | ret (e : Fin 64)
  /-- R195: Reads a special register. -/
  | srd (e : Fin 64) (rd : Fin 32) (sreg : BitVec 8)
  /-- R196: Writes a special register. -/
  | swr (e : Fin 64) (ra : Fin 32) (sreg : BitVec 8)
  /-- R197: Sets bits in a special register. -/
  | sbis (e : Fin 64) (ra : Fin 32) (sreg : BitVec 8)
  /-- R197: Clears bits in a special register. -/
  | sbic (e : Fin 64) (ra : Fin 32) (sreg : BitVec 8)
  /-- R172: Does nothing for 2 steps. -/
  | nop (e : Fin 64)
  /-- R135: Ends at once if an event is pending, and otherwise enters WAIT. -/
  | wait (e : Fin 64)
  /-- R202: Ends the task, after waiting for owned contexts, returns the QID and makes the engine IDLE. -/
  | end_ (e : Fin 64)
  /-- R200: Computes the signed 48-bit elapsed time. -/
  | tdiff (e : Fin 64) (rd ra rb : Fin 32)
  /-- R201: Compares two TIMEs into Z and N. -/
  | tcmp (e : Fin 64) (ra rb : Fin 32)
  /-- R206: Opens a transfer context from the descriptor block, or returns a refusal code. -/
  | move (e : Fin 64) (rd : Fin 32)
  /-- R212: Acknowledges the completed context in s.ctx and loads the next one. -/
  | ctxack (e : Fin 64) (rd : Fin 32)
  /-- R213: Sends a translation request to an XU and stalls for the translation word. -/
  | xlt (e : Fin 64) (rd ra : Fin 32) (xu : Fin 4)
  /-- R215: Clears the translation hold, sends a drain request and stalls until the drain reports. -/
  | xltDrain (e : Fin 64) (rd ra : Fin 32)
  /-- R216: Sets the engine's marker to s.now. -/
  | fmark (e : Fin 64)
  /-- R217: Sends reads of LEN 0 to every destination of earlier posted packets and waits for their answers. -/
  | fenceP (e : Fin 64) (rd : Fin 32)
  /-- R218: Sends a locked read that opens a belay, and stalls for its reply. -/
  | lock (e : Fin 64) (w : LockWidth) (sp : LockSpace) (rd ra : Fin 32)
  /-- R219: Sends a posted write that closes the belay, and clears s.belay. -/
  | unlock (e : Fin 64) (w : LockWidth) (sp : LockSpace) (rs ra : Fin 32)
  /-- R221: Acquires the semaphore named by an immediate. -/
  | acq (e : Fin 64) (rd : Fin 32) (num : BitVec 11)
  /-- R221: Releases the semaphore named by an immediate. -/
  | rel (e : Fin 64) (rd : Fin 32) (num : BitVec 11)
  /-- R221: Acquires the semaphore named by a register. -/
  | acqr (e : Fin 64) (rd ra : Fin 32)
  /-- R221: Releases the semaphore named by a register. -/
  | relr (e : Fin 64) (rd ra : Fin 32)
  /-- R222: Sends g16–g22 as a unit message. -/
  | umsg (e : Fin 64) (unit : BitVec 12)
  /-- R225: Sends an interrupt request for an immediate vector. -/
  | raise (e : Fin 64) (v : BitVec 11)
  /-- R225: Sends an interrupt request for a vector taken from a register. -/
  | raiser (e : Fin 64) (ra : Fin 32)
  /-- R127: The reply to a blocking access reaches the stalled engine, which writes its result or faults. -/
  | engineReplyArrive (e : Fin 64) (i : Nat)
  /-- R217: Once every fence read is answered, FENCE.P counts the posted-fault records and writes RD. -/
  | fencePAnswersDone (e : Fin 64)
  /-- R173: A posted packet that was waiting enters its injection queue, and the stalled engine continues. -/
  | engineStallResume (e : Fin 64)
  /-- R208: Once a landing block is free, the mover issues the next source read of at most 512 B. -/
  | moverReadIssue (c : Fin 8) (k : Fin 512)
  /-- R211: A source-read completion lands in the re-packing buffer, or records the context's first failure. -/
  | moverReadComplete (c : Fin 8) (i : Nat)
  /-- R209: Once all of a write packet's bytes lie in the buffer, the mover sends it in address order. -/
  | moverWriteSend (c : Fin 8) (k : Fin 512)
  /-- R210: A transfer context completes, joins the engine's completion list and may set XFER. -/
  | contextComplete (c : Fin 8) (k : Fin 512)
  /-- R226: Once the FN's earlier host-bound contexts have handed over their last writes, the RAISE request presents at the mover egress. -/
  | raiseRequestPresent (e : Fin 64)
  /-- R223: A unit message lands in a free slot and sets MSG, or waits in the message hold, or is discarded. -/
  | unitMessageArrive (ni : Fin 46) (i : Nat)
  /-- R223: A held message lands once STX frees a slot. -/
  | unitMessageLandFromHold (e : Fin 64)
  /-- R233: A host write of SQ_TAIL_DB sends a doorbell packet of KIND 0 to QM. -/
  | sqTailDb (fn : Fin 2048) (q : Fin 4) (tail : BitVec 16)
  /-- R233: A host write of CQ_HEAD_DB sends a doorbell packet of KIND 1 to QM. -/
  | cqHeadDb (fn : Fin 2048) (q : Fin 4) (head : BitVec 16)
  /-- R234: QM executes a new-submission-tail doorbell, which it accepts, discards or rejects. -/
  | doorbellSqTail (i : Nat)
  /-- R234: QM executes a new-completion-head doorbell, which it accepts, discards or rejects. -/
  | doorbellCqHead (i : Nat)
  /-- R236: Once every wake condition holds, QM sends a queue wake that carries the queue state. -/
  | queueWakeSend (qid : Fin 8192)
  /-- R238: QM executes a head write from the holding task, which advances SQHEAD and CQTAIL or is refused. -/
  | qmQheadWrite (i : Nat)
  /-- R244: A write of QM_QERR sets the queue's ERR with its code. -/
  | qmQerrWrite (i : Nat)
  /-- R239: QM executes the QID return of END, clears the hold and keeps a wake pending if DOORBELL was set. -/
  | qidReturn (i : Nat)
  /-- R240: QM answers a read of Q_SQ_PTR, Q_CQ_PTR or Q_STS with a completion stamped after the head write it reflects. -/
  | qPointerRead (i : Nat)
  /-- R246: A write of Q_CTL.EN = 1 fills the queue state, or is refused and sets CFG_ERR. -/
  | queueEnable (fn : Fin 2048) (q : Fin 4)
  /-- R247: A write of Q_CTL.EN = 0 removes the pending wake and discards later doorbells. -/
  | queueDisable (fn : Fin 2048) (q : Fin 4)
  /-- R244: A write of SKIP while ERR is 1 advances SQHEAD by one record, if there is one, and clears ERR. -/
  | queueSkip (fn : Fin 2048) (q : Fin 4)
  /-- R244: A clear of Q_STS.ERR lets the queue resume, and the record at SQHEAD is served again. -/
  | queueErrClear (fn : Fin 2048) (q : Fin 4)
  /-- R252: An XU translates a window, offset and function into a translation word. -/
  | xltLookup (x : Fin 4)
  /-- R255: A descriptor or entry copy read on a miss arrives, and the XU resolves it by vote. -/
  | xuMissCopyArrive (x : Fin 4) (m : Nat) (copy : Fin 5)
  /-- R259: The sequencer executes a rewrite of a differing copy, or discards it as stale. -/
  | copyRewriteExecute
  /-- R256: A translation reply reaches an HPI, which caches the result and completes the BAR2 access. -/
  | hpiTranslationReply (k : Fin 2) (i : Nat)
  /-- R263: A write of WIN_CMD with OP commit copies the edit set's shadows into a sequencer command. -/
  | winCmdCommit (w : Writer)
  /-- R263: Once M39 is free, the sequencer checks a commit, writes the three copies and sends the invalidates. -/
  | commitExecute
  /-- R263: Once all six invalidates are acknowledged, BUSY clears and the commit has taken effect. -/
  | commitAcksDone
  /-- R266: A write of WIN_CMD with OP bump requests a bump of XV. -/
  | winCmdBump (w : Writer)
  /-- R269: The sequencer raises a window's XV by 1, and drains the window first if a reset bump would reach the version limit. -/
  | bumpExecute
  /-- R267: A write of WIN_CMD with OP drain sends a drain of the selected window to its XU. -/
  | winCmdDrain (w : Writer)
  /-- R267: Once no command of the window remains in the sequencer, the XU reports at once or sends the ten probes. -/
  | drainStart (x : Fin 4) (i : Nat)
  /-- R267: A drain or reset probe arrives at an HPI or cluster and is held until its condition holds. -/
  | probeArrive (ni : Fin 46) (i : Nat)
  /-- R267: Once the earlier translated work has cleared, the source answers the probe. -/
  | probeAnswer (ni : Fin 46) (i : Nat)
  /-- R267: Once all ten probes are answered, the XU queues the DXV write. -/
  | drainProbesDone (x : Fin 4) (i : Nat)
  /-- R267: The sequencer writes DXV, and the drain reports v. -/
  | dxvWriteExecute
  /-- R265: A write of TE_CMD with OP write queues an entry write, or is ignored while BUSY. -/
  | teCmdWrite (w : Writer)
  /-- R265: A write of TE_CMD with OP read loads TE_DATA and TE_WVER with the resolved entry. -/
  | teCmdRead (w : Writer)
  /-- R265: The sequencer writes copies A and B with a new WVER and invalidates the caches. -/
  | entryWriteExecute
  /-- R280: A write of WIN_SEL loads WIN_CW, WIN_ACC and WIN_TAG with the active descriptor. -/
  | winSelWrite (w : Writer) (value : BitVec 32)
  /-- R256: A write of F_WIN_n binds BAR2 of FN n and removes its cached results. -/
  | fWinWrite (w : Writer) (fn : Fin 2048) (value : BitVec 32)
  /-- R278: An MGC write of XLT_LOC moves the table copies between two lookups. -/
  | xltLocWrite (w : Writer) (value : BitVec 32)
  /-- R303: Assertion of PERST_Nk starts a port flush and a fundamental reset of Hk. -/
  | perstAssert (k : Fin 2)
  /-- R304: Deassertion of PERST_Nk ends the reset, and the port trains within 1 ms. -/
  | perstDeassert (k : Fin 2)
  /-- R303: A hot reset received in training flushes the port. -/
  | hotResetReceived (k : Fin 2)
  /-- R303: A link disable received in training flushes the port. -/
  | linkDisableReceived (k : Fin 2)
  /-- R306: DL_Down with PERST_Nk deasserted flushes the port, sets LOST and counts the removal. -/
  | surpriseRemoval (k : Fin 2)
  /-- R303: DL_Down for any other reason flushes the port. -/
  | dlDown (k : Fin 2)
  /-- R304: The host link reaches DL_Active, the port unparks and the functions become ready. -/
  | hostLinkUp (k : Fin 2) (speed : Fin 7) (width : Nat) (flit : Bool)
  /-- R282: The host link moves between L0, L0p, L1 and the L1 substates. -/
  | hostLinkStateChange (k : Fin 2) (st : LinkState) (width : Nat)
  /-- R290: An inbound memory-write TLP is decoded against the BARs and becomes a fabric packet, or is discarded. -/
  | hostMemWrite (k : Fin 2) (t : Tlp)
  /-- R290: An inbound memory-read TLP is decoded and forwarded, or completed with UR. -/
  | hostMemRead (k : Fin 2) (t : Tlp)
  /-- R294: An inbound AtomicOp to BAR2 is translated into an atomic packet, or completed with UR. -/
  | hostAtomicop (k : Fin 2) (op : AtomOp) (t : Tlp)
  /-- R287: A configuration request is served, or answered with Request Retry Status during reset or before READY. -/
  | hostConfigRequest (k : Fin 2) (rid : Nat) (r : CfgReq)
  /-- R298: A completion from the host lands in its tag's landing block, or is discarded as late or unmatched. -/
  | hostCompletionArrive (k : Fin 2) (cpl : Cpl)
  /-- R381: A vendor-defined message with Vendor ID 0x1F6B is tunnelled to a port, or discarded. -/
  | hostVdmArrive (k : Fin 2) (fn : Fin 2048) (vendor : BitVec 16) (dw3 : BitVec 32) (msg : List (BitVec 8))
  /-- R295: Once a tag is free within the mode and cap, a non-posted request leaves on the lanes. -/
  | hostRequestIssue (k : Fin 2) (i : Nat)
  /-- R297: A request's completion limit passes, the request completes TIMEOUT, AER reports it and the tag is cooled. -/
  | hostCompletionTimeout (k : Fin 2) (tag : Fin 4096)
  /-- R297: Four limits after a timeout, a cooled tag and its landing block become free. -/
  | tagCoolExpire (g : Fin 10) (tag : Fin 4096)
  /-- R305: A write of Initiate Function Level Reset starts the reset of that function. -/
  | flrInitiate (fn : Fin 2048)
  /-- R286: Clearing VF Enable resets every VF of the port as a function-level reset. -/
  | vfEnableClear (k : Fin 2)
  /-- R301: An LTR requirement change that lasts at least 1 µs sends an LTR message. -/
  | ltrSend (k : Fin 2)
  /-- R396: At each opportunity to send, the slot table chooses an egress queue and sends its TLPs. -/
  | hostEgressSend (k : Fin 2)
  /-- R323: A write of LNK_CTL.EN = 1 starts training from DETECT. -/
  | lnkEnable (w : Writer) (p : Fin 8)
  /-- R326: A write of LNK_CTL.EN = 0 puts the port in DISABLED at once. -/
  | lnkDisable (w : Writer) (p : Fin 8)
  /-- R326: A write of MODE moves the port to TEST, with a link-down, or back to DETECT. -/
  | lnkModeWrite (w : Writer) (p : Fin 8) (test : Bool)
  /-- R325: A write of RETRAIN starts a retrain while the port is ACTIVE. -/
  | lnkCtlRetrain (w : Writer) (p : Fin 8)
  /-- R500: An accepted WIDTH write regroups the gates, feed sets, allowances and counts of the ports concerned. -/
  | widthChange (w : Writer) (p : Fin 8) (width : BitVec 2)
  /-- R323: In DETECT, and in CONFIG after loss, the port sends HELLO every 10 µs. -/
  | helloSend (p : Fin 8)
  /-- R323: A received HELLO moves the port to CONFIG, or restarts training if the port was in EQ, LOCK or ACTIVE. -/
  | hello (p : Fin 8) (rate : BitVec 2) (loopOk : Bool) (width : BitVec 2) (ident : BitVec 64)
  /-- R324: A received RATE equal to the port's own target moves the port to EQ. -/
  | rate (p : Fin 8) (rate : BitVec 2)
  /-- R329: A received EQ_REQ adjusts one tap of one lane under the clamps and is answered with EQ_ACK. -/
  | eqReq (p : Fin 8) (lane : Fin 16) (tap : Fin 3) (up : Bool)
  /-- R321: A received EQ_ACK reports the partner's effective taps. -/
  | eqAck (p : Fin 8) (lane : Fin 16) (pre main post : BitVec 8) (clamped : Bool)
  /-- R323: A received EQ_DONE, together with the port's own, moves the port to LOCK. -/
  | eqDone (p : Fin 8)
  /-- R323: A received LOCKED, together with the port's own, moves the port to ACTIVE. -/
  | locked (p : Fin 8)
  /-- R325: A received RETRAIN moves an ACTIVE port to LOCK. -/
  | retrain (p : Fin 8)
  /-- R323: A received LINK_DOWN moves the port to DETECT. -/
  | linkDown (p : Fin 8)
  /-- R353: A received SLEEP, once both sides have sent SLEEP, moves the port to SLEEP. -/
  | sleep (p : Fin 8)
  /-- R326: A received LOOP_REQ enters or leaves far-end loopback, or is refused. -/
  | loopReq (p : Fin 8) (mask : BitVec 16) (enter : Bool)
  /-- R321: A received LOOP_ACK reports whether the partner accepted a loopback request. -/
  | loopAck (p : Fin 8) (done : Bool)
  /-- R321: A management message of unknown TYPE or wrong LEN is discarded and logged. -/
  | mlInvalidMessage (p : Fin 8) (type : BitVec 8)
  /-- R324: A training state's timer expires, which counts as a failed attempt and may step the rate down or fail the port. -/
  | trainingTimeout (p : Fin 8)
  /-- R323: Once every lane's checker has counted no error for 100 µs, the port sends EQ_DONE. -/
  | eqCheckPass (p : Fin 8)
  /-- R317: A codeword is decoded, its corrections are counted and its blocks are delivered. -/
  | codewordReceive (p : Fin 8) (lane : Fin 4) (corrected : Nat) (uncorrectable : Bool)
  /-- R319: Three good headers in a row give codeword lock on a lane. -/
  | codewordLockGain (p : Fin 8) (lane : Fin 4) (inverted : Bool)
  /-- R319: Four failed headers in a row lose lock on a lane and start a retrain. -/
  | codewordLockLoss (p : Fin 8) (lane : Fin 4)
  /-- R322: The wake detector of Lp.M1 recognises the wake pattern and sets WAKE_SEEN. -/
  | wakePatternDetect (p : Fin 8)
  /-- R332: LANE_INJ GO with KIND single flips one transmitted bit. -/
  | laneInjSingle (w : Writer) (p : Fin 8) (lane : Fin 4)
  /-- R332: LANE_INJ GO with KIND burst flips BURST + 1 consecutive bits. -/
  | laneInjBurst (w : Writer) (p : Fin 8) (lane : Fin 4)
  /-- R332: LANE_INJ GO with KIND rate starts flipping one bit every 2^EXP bits. -/
  | laneInjRate (w : Writer) (p : Fin 8) (lane : Fin 4)
  /-- R332: LANE_INJ GO with KIND 0b11 stops a rate injection. -/
  | laneInjStop (w : Writer) (p : Fin 8) (lane : Fin 4)
  /-- R330: Setting CHK_EN from 0 to 1 zeroes LANE_ERR and starts the checker. -/
  | laneCheckerEnable (w : Writer) (p : Fin 8) (lane : Fin 4)
  /-- R330: After 64 correct bits, the checker sets CHK_LOCK and starts counting errors. -/
  | checkerLock (p : Fin 8) (lane : Fin 4)
  /-- R330: After 64 wrong bits in 256, the checker clears CHK_LOCK and seeds itself again. -/
  | checkerLoss (p : Fin 8) (lane : Fin 4) (wrong : Nat)
  /-- R336: At every 95th block, the link sends an LCB, NAK, INIT or RESUME. -/
  | controlSlotSend (p : Fin 8)
  /-- R348: A received LCB applies ACKSEQ and then the credit counter of its class. -/
  | lcb (p : Fin 8) (ackseq : BitVec 12) (np : Bool) (hcnt : BitVec 16) (dcnt : BitVec 24)
  /-- R345: A received NAK applies ACKSEQ and replays every frame still held. -/
  | nak (p : Fin 8) (ackseq : BitVec 12)
  /-- R347: A received INIT sets the initial credits of one class, or sets INIT_ERR. -/
  | init (p : Fin 8) (np : Bool) (hcred : BitVec 16) (dcred : BitVec 24)
  /-- R353: A received RESUME resumes the link state if both sides keep it, and otherwise flushes. -/
  | resume (p : Fin 8) (ackseq : BitVec 12) (keep : Bool)
  /-- R343: An errored or out-of-sequence frame is discarded and may set NAK_DUE. -/
  | erroredFrame (p : Fin 8) (f : Frame)
  /-- R374: An accepted partner read is decoded to host memory or the staging aperture, or answered with UR or RETRY. -/
  | partnerRead (p : Fin 8) (f : Frame)
  /-- R377: An accepted partner write becomes a write packet to the host or to a bank, or is discarded. -/
  | partnerWrite (p : Fin 8) (f : Frame)
  /-- R359: An accepted doorbell message becomes a doorbell packet to QM. -/
  | partnerDoorbellMessage (p : Fin 8) (f : Frame)
  /-- R380: An accepted interrupt message becomes an interrupt request to the IRT. -/
  | partnerInterruptMessage (p : Fin 8) (f : Frame)
  /-- R359: An accepted unit message is delivered to an engine, cluster or the MGC, or discarded. -/
  | partnerUnitMessage (p : Fin 8) (f : Frame)
  /-- R382: An accepted tunnelled frame is delivered to a host, a peer port or the MGC, as LB_TUN gives. -/
  | partnerTunnelledMessage (p : Fin 8) (f : Frame)
  /-- R355: An accepted completion answers a device request, a far lock or a prefetch, or is discarded as a violation. -/
  | partnerCompletion (p : Fin 8) (f : Frame)
  /-- R358: A locked read, unlock write or lock abort from the partner is answered with UR or discarded. -/
  | partnerLockTransaction (p : Fin 8) (f : Frame)
  /-- R361: A released packet, once it has credits, is sent as a frame and held in the replay buffer. -/
  | frameSend (p : Fin 8)
  /-- R345: REPLAY_TO passes without a purge, and the transmitter replays; after four replays it asks for a retrain. -/
  | replayTimeout (p : Fin 8)
  /-- R351: A stall microsecond is counted, and a drought event is raised at DR_TH. -/
  | stallMicrosecond (p : Fin 8)
  /-- R351: At each 1 ms epoch boundary, DR_CNT restarts. -/
  | droughtEpochEnd (p : Fin 8)
  /-- R352: After 10 µs with an empty replay buffer, LL_LEAK shows the credit shortfall. -/
  | leakSnapshot (p : Fin 8)
  /-- R353: A departure from ACTIVE starts the grace hold, or flushes at once when GRACE is 0. -/
  | linkDeparture (p : Fin 8)
  /-- R354: The grace hold expires, and the Drevlink port flushes. -/
  | graceExpire (p : Fin 8)
  /-- R356: A request to the partner passes CTO, and it times out and its tag is cooled. -/
  | llCompletionTimeout (p : Fin 8) (tag : Fin 4096)
  /-- R371: A prefetched block whose LIFE has passed is dropped. -/
  | prefetchExpire (p : Fin 8) (i : Nat)
  /-- R372: Once a far-lock slot is free and no open lock covers the bytes, the LPI sends the locked read of a host AtomicOp. -/
  | farLockOpen (p : Fin 8)
  /-- R377: A host or bank response to a partner request reaches the LPI and becomes completion frames. -/
  | portResponseArrive (p : Fin 8) (i : Nat)
  /-- R390: The IRT discards an interrupt request, sets its pending bit, or delivers it under moderation. -/
  | interruptRequest (i : Nat)
  /-- R227: Once the IRT's local time is 5 ns past the request's stamp, the MSI-X write is stamped and sent. -/
  | msixWriteStamp (i : Nat)
  /-- R391: At the end of an entry's moderation interval with requests held, one write is sent. -/
  | modIntervalExpire (entry : Fin 32768)
  /-- R392: An entry with its pending bit set becomes deliverable, the bit clears and one write is delivered. -/
  | pendingVectorDeliver (fn : Fin 2048) (v : Fin 1024)
  /-- R389: A host write to an MSI-X table entry takes effect at the IRT in order. -/
  | msixTableWrite (fn : Fin 2048) (off : Nat) (width : Nat) (value : BitVec 64)
  /-- R388: A write of F_VEC_n binds a vector range, or is refused if it overflows or overlaps. -/
  | fVecWrite (w : Writer) (fn : Fin 2048) (value : BitVec 32)
  /-- R393: A write of F_SVC_n sets the function's service class and tag cap for later packets. -/
  | fSvcWrite (w : Writer) (fn : Fin 2048) (value : BitVec 32)
  /-- R403: A write of SVC_CTL.COMMIT activates the SVC_LV levels. -/
  | svcLvCommit (w : Writer)
  /-- R397: A write of SLOT_CTL_k.COMMIT schedules the shadow slot table for the next round boundary. -/
  | slotCommit (w : Writer) (k : Fin 2)
  /-- R398: A fence notice reaches an NI or block, which applies the reset steps for the FN. -/
  | fenceApply (ni : Fin 46) (i : Nat)
  /-- R399: Once every operation before the fence has drained, the reset sets the service class, clears the registers and ends. -/
  | fnResetDrainDone (fn : Fin 2048)
  /-- R410: A count query reaches a source, which answers with its injection count. -/
  | countQuery (ni : Fin 46) (i : Nat)
  /-- R410: A count answer confirms a count, and waiting damaged packets are assigned their counts. -/
  | countAnswer (ni : Fin 46) (i : Nat)
  /-- R411: A fault notice of KIND 0x1 completes the source's request that has that count with CA. -/
  | damagedRequestNotice (ni : Fin 46) (i : Nat)
  /-- R411: A fault notice of KIND 0x2 tells a source that its posted packet was discarded. -/
  | damagedPostedNotice (ni : Fin 46) (i : Nat)
  /-- R416: A violation notice reaches TRC, which writes the next violation-log record. -/
  | violationRecord (i : Nat)
  /-- R418: A posted-fault notice reaches TRC, which writes the function's ring, counts TOTAL, reports AER and may raise the fault vector. -/
  | postedFaultRecord (i : Nat)
  /-- R422: A trace notice reaches TRC, which writes a trace record if its class is enabled. -/
  | traceRecord (i : Nat)
  /-- R414: Every GAP µs, a bank scrubber reads one line, corrects or poisons it and asks for copy resolution. -/
  | scrubRead (bank : Fin 16)
  /-- R414: Every GAP µs, the program-store scrubber checks and corrects one word. -/
  | psScrubRead (c : Fin 8)
  /-- R424: A write of TRC_MARK writes a mark record. -/
  | trcMark (w : Writer) (value : BitVec 64)
  /-- R422: Clearing TRC_STS.FULL restarts the trace buffer at record 0. -/
  | trcFullClear (w : Writer)
  /-- R427: A read of LOG_DATA returns the selected word and advances WORD and INDEX. -/
  | logDataRead (w : Writer)
  /-- R425: ERR_INJ GO with KIND 0x1 arms a payload-parity flip for the NI's next packet with payload. -/
  | errInjPayloadParity (w : Writer) (ni : BitVec 6)
  /-- R425: ERR_INJ GO with KIND 0x2 arms a flip of data word 0 in the NI's next head flit. -/
  | errInjHeaderParity (w : Writer) (ni : BitVec 6)
  /-- R425: ERR_INJ GO with KIND 0x3 arms a flip of the stamp word in the NI's next tail flit. -/
  | errInjStampParity (w : Writer) (ni : BitVec 6)
  /-- R425: ERR_INJ GO with KIND 0x4 flips one bit of a staging word. -/
  | errInjStagingSingle (w : Writer) (addr : BitVec 26)
  /-- R425: ERR_INJ GO with KIND 0x5 flips two bits of a staging word. -/
  | errInjStagingDouble (w : Writer) (addr : BitVec 26)
  /-- R425: ERR_INJ GO with KIND 0x6 flips one bit of a program-store word. -/
  | errInjPsSingle (w : Writer) (ni : BitVec 6) (addr : BitVec 26)
  /-- R425: ERR_INJ GO with KIND 0x7 flips two bits of a program-store word. -/
  | errInjPsDouble (w : Writer) (ni : BitVec 6) (addr : BitVec 26)
  /-- R425: ERR_INJ GO with KIND 0x8 puts an illegal control code on a link. -/
  | errInjControlCode (w : Writer) (addr : BitVec 26)
  /-- R425: ERR_INJ GO with KIND 0x9 arms an ECRC error on the next outbound TLP of NI 0 or 1. -/
  | errInjEcrc (w : Writer) (ni : BitVec 6)
  /-- R434: A requested maintenance activity acquires its claim set in ascending order, or answers BUSY. -/
  | maintenanceClaim (act : Activity) (src : Writer)
  /-- R441: A domain's idle timer reaches IDLE_T, and the PWC tests entry and either refuses or starts entry. -/
  | idleTimerExpire (d : Fin 24)
  /-- R443: A packet that arrives before isolation aborts entry, unparks the NI and counts a refusal. -/
  | domainEntryAbort (d : Fin 24) (src : Fin 46)
  /-- R445: A wake source for a domain in RET or OFF starts its wake sequence. -/
  | domainWakeRequest (d : Fin 24) (src : WakeSource)
  /-- R446: Power-good arrives during a wake attempt, and PLLs start or state is restored. -/
  | powerGood (d : Fin 24)
  /-- R446: 2 ms pass without power-good, and the wake attempt fails. -/
  | wakePowerTimeout (d : Fin 24)
  /-- R446: The PLLs of a waking HD or LD domain lock, and state is restored and isolation removed. -/
  | wakePllLock (d : Fin 24)
  /-- R446: 200 µs pass without PLL lock, and the wake attempt fails. -/
  | wakePllTimeout (d : Fin 24)
  /-- R446: 10 µs after a failed attempt, the next wake attempt starts. -/
  | wakeRetryDelayExpire (d : Fin 24)
  /-- R448: 2 µs before the earliest engine deadline, the PWC wakes PDc from RET. -/
  | pdTimerLead (c : Fin 8)
  /-- R450: WAKE_SENSE held above threshold for 1 µs while armed sets TRIG and wakes the masked and FAILED domains. -/
  | wakeSenseTrigger
  /-- R451: After DEEP_T with every switchable domain down, the MGC island moves to its ring oscillator. -/
  | deepIdleEnter
  /-- R446: A write of RETRY wakes a FAILED domain anew. -/
  | domainRetry (w : Writer) (d : Fin 24)
  /-- R445: A write of FORCE_ON = 1 wakes the domain and keeps it ON. -/
  | domainForceOn (w : Writer) (d : Fin 24)
  /-- R451: A write of MGC_SRC = 1 while MGC_PLL_LOCK is 1 moves the MGC island to its PLL. -/
  | mgcSrcWrite (w : Writer) (src : Bool)
  /-- R452: The host asserts CLKREQ_Nk, and HDk wakes from RET. -/
  | clkreqAssert (k : Fin 2)
  /-- R458: SEC reads the fuse map and loads every fuse field. -/
  | bootFuseStage
  /-- R458: The MGC starts its ROM, and staging memory and the tables are initialised. -/
  | bootRomStage
  /-- R458: A slot's container and trailer are read from flash into the boot buffer. -/
  | bootReadSlot (b : Bool)
  /-- R463: The slot is checked for format, key, signatures and versions, and is accepted or refused with a cause. -/
  | bootVerifySlot
  /-- R464: The key records of the verified slot are applied to the fuses, or refused. -/
  | bootKeyRecords
  /-- R458: Firmware, presets, equalisation, calibration, tables and programs are loaded, with RUN left at 0. -/
  | bootLoad
  /-- R460: Firmware enables the PLLs, frees the boot buffer and writes RUN = 1 in every named cluster. -/
  | bootStart
  /-- R460: Once both locks have held for 1 ms, firmware switches the TBU and the MGC island to their PLLs, or sets NO_TBCLK. -/
  | clockLockHoldExpire
  /-- R461: 100 ms after RUN = 1 without INIT ending, the MGC stops the cluster and sets INIT_TMO. -/
  | initTimeout (c : Fin 8)
  /-- R466: The image fields take their preset or recovery values, and the device becomes ready toward both hosts. -/
  | bootReady
  /-- R466: Neither slot verifies, and the device enters recovery with recovery values. -/
  | bootRecovery
  /-- R465: BOOT_CMD raises the fused owner count to the running image's OSVN. -/
  | commitOwnerCount (w : Writer)
  /-- R465: BOOT_CMD raises the fused vendor count to the running firmware's VSVN. -/
  | commitVendorCount (w : Writer)
  /-- R472: BOOT_CMD erases BOOT_LEN bytes of flash at BOOT_DST, unless the slot is the one booted. -/
  | flashErase (w : Writer)
  /-- R472: BOOT_CMD writes BOOT_LEN bytes from staging to flash, unless the slot is the one booted. -/
  | flashWr (w : Writer)
  /-- R472: A flash command ends, and BOOT_RES reports its result. -/
  | flashOpComplete (ok : Bool)
  /-- R468: A DOE Discovery request is answered with the supported protocols. -/
  | doeDiscovery (k : Fin 2) (index : BitVec 8)
  /-- R468: The SPDM responder answers GET_VERSION. -/
  | getVersion (k : Fin 2)
  /-- R468: The SPDM responder answers GET_CAPABILITIES. -/
  | getCapabilities (k : Fin 2)
  /-- R468: The SPDM responder answers NEGOTIATE_ALGORITHMS. -/
  | negotiateAlgorithms (k : Fin 2)
  /-- R468: The SPDM responder answers GET_DIGESTS. -/
  | getDigests (k : Fin 2)
  /-- R468: The SPDM responder returns part of the chain in certificate slot 0 or 1. -/
  | getCertificate (k : Fin 2) (slot : BitVec 8) (off len : BitVec 16)
  /-- R468: The SPDM responder signs a CHALLENGE response with the device key. -/
  | challenge (k : Fin 2) (slot : BitVec 8) (nonce : BitVec 256)
  /-- R469: The SPDM responder returns the measurement blocks as SHA-512 digests. -/
  | getMeasurements (k : Fin 2) (index : BitVec 8) (sign : Bool) (nonce : BitVec 256)
  /-- R468: Any other SPDM request receives ERROR UnsupportedRequest. -/
  | spdmUnsupportedRequest (k : Fin 2) (code : BitVec 8)
  /-- R468: SEC finishes signing a response, and the next queued signature starts. -/
  | spdmSignComplete
  /-- R468: A DOE Abort discards the SPDM state of that mailbox only. -/
  | doeAbort (k : Fin 2)
  /-- R490: Every 100 µs, the sensors update TEMP and HOT is set at or above HOT_TH. -/
  | thermUpdate (t0 t1 t2 t3 : BitVec 16)
  /-- R489: A sensor at 120 °C for 10 µs asserts THERMTRIP_N until PORST_N. -/
  | thermtripAssert (sensor : Fin 4) (t : BitVec 16)
  /-- R491: LREFCLK stops, every Drevlink port leaves ACTIVE and the grace holds run. -/
  | lrefclkLoss
  /-- R320: A management-lane message with a bad CRC, a bad LEN or a new SOM inside it is discarded and counted in ML_STS.CRC_ERRS. -/
  | mgmtMessageCrcError (p : Fin 8)
  /-- R417: A frame with a correct FCRC whose TT is undefined or belongs to another CLASS, or whose LEN, NBLK or byte enables disagree, is accepted, its credits are freed, and it is answered with UR or discarded under violation 0x0101. -/
  | undefinedTtFrame (p : Fin 8) (f : Frame)
  /-- R443: During entry the PWC isolates the domain's outputs, saves or drops state and lowers or removes the supply, after which the domain is in RET or OFF and packets toward it wait. -/
  | domainIsolation (d : Fin 24)
  /-- R442: When an LD domain has sent SLEEP and the partner has not sent SLEEP within 100 µs, entry is refused with CAUSE 0x08 and the idle timer restarts. -/
  | partnerSleepTimeout (d : Fin 24)
  /-- R460: The MGC PLL locks to TBCLK, and PWC_CLK.MGC_PLL_LOCK reads 1. -/
  | mgcPllLock
  /-- R460: A PLL lock drops before switch-over, which restarts the 1 ms uninterrupted-lock wait and, at bring-up, leads to BOOT_STS.NO_TBCLK. -/
  | pllLockDrop (tbu : Bool)
deriving DecidableEq, Repr, Inhabited

end Sys2Proof
end

