-- ==== Sys2Proof/Machine/Bits.lean ====
section
/-!
DEFINITION. Bit fields of a register, little-endian bytes (R6), saturating counts, and the comparison of TIMEs
(R48).
-/
namespace Sys2Proof.Machine

/-- Bits [hi:lo] of a register value. -/
def bitsGet (v : Word) (hi lo : Nat) : Nat := v.toNat / 2 ^ lo % 2 ^ (hi + 1 - lo)

/-- A register value with bits [hi:lo] replaced by the low bits of `x`. -/
def bitsPut (v : Word) (hi lo x : Nat) : Word :=
  let m := 2 ^ (hi + 1 - lo)
  BitVec.ofNat 64 (v.toNat - (v.toNat / 2 ^ lo % m) * 2 ^ lo + (x % m) * 2 ^ lo)

/-- `n` bytes of a number, the byte at the lowest address first (R6). -/
def leBytes : Nat → Nat → List Byte
  | 0, _ => []
  | n + 1, v => BitVec.ofNat 8 v :: leBytes n (v / 256)

/-- The number whose little-endian bytes these are (R6). -/
def leNat : List Byte → Nat
  | [] => 0
  | b :: t => b.toNat + 256 * leNat t

/-- A count that saturates at `top`. -/
def satAdd (x k top : Nat) : Nat := min (x + k) top

/-- `x` taken as a signed number of `w` bits. -/
def signedOf (w x : Nat) : Int :=
  let y := x % 2 ^ w
  if 2 * y < 2 ^ w then (y : Int) else (y : Int) - 2 ^ w

/-- `x` of `w` bits sign-extended to 64 bits. -/
def sext64 (w x : Nat) : Word := BitVec.ofInt 64 (signedOf w x)

/-- `(b - a)` modulo 2^48. -/
def timeDiff (a b : Nat) : Nat := (b % 2 ^ 48 + 2 ^ 48 - a % 2 ^ 48) % 2 ^ 48

/-- TIME a is before TIME b (R48). -/
def timeBefore (a b : Nat) : Bool := 1 ≤ timeDiff a b && timeDiff a b < 2 ^ 47

/-- TIME a is at or before TIME b (R48). -/
def timeLe (a b : Nat) : Bool := a % 2 ^ 48 == b % 2 ^ 48 || timeBefore a b

/-- `x` is below `lo`, above `hi`, or between them. -/
def clampInt (x lo hi : Int) : Int := max lo (min x hi)

/-- Bit `i` of a number. -/
def natBit (x i : Nat) : Bool := x / 2 ^ i % 2 == 1

/-- A Boolean as a bit. -/
def b2n (b : Bool) : Nat := if b then 1 else 0

/-- `n` numbers from `a` on. -/
def span (a n : Nat) : List Nat := (List.range n).map (· + a)

/-- The list with its element `i` removed. -/
def dropAt {α : Type} (l : List α) (i : Nat) : List α := l.eraseIdx i

end Sys2Proof.Machine
end

