-- ==== Sys2Proof/Machine/Regs.lean ====
section
/-!
DEFINITION. The control-space registers: their names (Table 22-3), where each lies (Tables 22-1 and 22-2), the
bits and access codes of their fields (Table 0-4 and the register tables of each chapter), their stated reset
values and the encodings the tables reserve.
-/
namespace Sys2Proof.Machine

/-- The registers of Table 22-3, but for the MSI-X table and PBA and the posted-fault ring, which are memories. -/
inductive RegId where
  | arbAct
  | arbCtl
  | arbCutTime
  | arbCutWho
  | arbMap
  | arbSts
  | bootCmd
  | bootDst
  | bootLen
  | bootRes
  | bootSrc
  | bootSts
  | bootSvn
  | bootVer
  | c52PrioHi
  | c52PrioLo
  | c52Sts
  | calEff
  | calSel
  | coreVmonSts
  | cqHeadDb
  | errCnt
  | errInj
  | fSvc
  | fVec
  | fWin
  | fabCtl
  | fabFltLast
  | fabSts
  | fecCorr
  | fecUnc
  | fnrSts
  | gateAllow
  | gateCtl
  | gateLag
  | gateSts
  | hpiCfg
  | hpiCtoLast
  | hpiLinkSts
  | hpiLtr
  | hpiSentinel
  | hpiTags
  | injLim
  | irtCnt
  | irtMod
  | irtPort
  | irtSel
  | keySts
  | laneEq
  | laneErr
  | laneInj
  | lanePat
  | laneTst
  | lbFn
  | lbPf
  | lbPfcnt
  | lbStg
  | lbSts
  | lbTun
  | linkSel
  | linkSts
  | llCnt
  | llCred
  | llCtl
  | llDr
  | llLeak
  | llSeq
  | llSts
  | llTmr
  | lnkCtl
  | lnkSts
  | logData
  | logSel
  | mlPartner
  | mlSts
  | mvDrop
  | mvSts
  | pclCtl
  | pclEng
  | pclFaultCnt
  | pclLimits
  | pclPsAddr
  | pclPsData
  | pclSts
  | pfrCtl
  | pfrSts
  | pwcClk
  | pwrCtl
  | pwrDom
  | pwrRef
  | pwrSts
  | qCfg
  | qCqPtr
  | qCqbase
  | qCtl
  | qParam
  | qSqPtr
  | qSqbase
  | qSts
  | qmDrop
  | qmQbind
  | qmQerr
  | qmQhead
  | rtData
  | rtSel
  | scrubCtl
  | scrubSts
  | semCmd
  | semResult
  | semSts
  | slotCtl
  | slot
  | slotSts
  | sqTailDb
  | stepMonCtl
  | stepMonResult
  | svcCtl
  | svcLv
  | tbCoarseEnd
  | tbCtl
  | tbNow
  | tbSlew
  | tbStep
  | teCmd
  | teData
  | teSel
  | teSts
  | teWver
  | thermCtl
  | thermSts
  | trcCtl
  | trcMark
  | trcSts
  | vlogSts
  | winAcc
  | winCmd
  | winCw
  | winSel
  | winSts
  | winTag
  | wsCtl
  | wsMask
  | xltCnt
  | xltLoc
deriving DecidableEq, Repr, Inhabited

/-- Access codes (R7, Table 0-4). -/
inductive Acc where
  | ro | rw | rwc | rws | rwl | wo
deriving DecidableEq, Repr, Inhabited

/-- One field of a register: its bits and its access code. -/
structure Field where
  hi : Nat
  lo : Nat
  acc : Acc
deriving DecidableEq, Repr, Inhabited

/-- A named field of a register. -/
structure Fld where
  reg : RegId
  hi : Nat
  lo : Nat
deriving DecidableEq, Repr, Inhabited

/-- Where the instances of a register lie: `n1` groups `s1` bytes apart, each of `n2` registers `s2` bytes apart,
from `base`; the first instance has number `first`. `fa` marks the function area (Table 22-2), whose offsets count
from its own base. -/
structure RegRow where
  reg : RegId
  fa : Bool
  base : Nat
  n1 : Nat
  s1 : Nat
  n2 : Nat
  s2 : Nat
  first : Nat
  width : Nat
deriving DecidableEq, Repr, Inhabited

/-- Tables 22-1 to 22-3, part 1. -/
def regRows1 : List RegRow := [
  ⟨.arbAct, false, 0x8040, 29, 0x100, 6, 0x4, 0, 32⟩,
  ⟨.arbCtl, false, 0x8000, 29, 0x100, 1, 0x1, 0, 32⟩,
  ⟨.arbCutTime, false, 0x8010, 29, 0x100, 1, 0x1, 0, 64⟩,
  ⟨.arbCutWho, false, 0x8008, 29, 0x100, 1, 0x1, 0, 32⟩,
  ⟨.arbMap, false, 0x8020, 29, 0x100, 6, 0x4, 0, 32⟩,
  ⟨.arbSts, false, 0x8004, 29, 0x100, 1, 0x1, 0, 32⟩,
  ⟨.bootCmd, false, 0x2010, 1, 0x1000, 1, 0x1, 0, 32⟩,
  ⟨.bootDst, false, 0x201C, 1, 0x1000, 1, 0x1, 0, 32⟩,
  ⟨.bootLen, false, 0x2020, 1, 0x1000, 1, 0x1, 0, 32⟩,
  ⟨.bootRes, false, 0x2014, 1, 0x1000, 1, 0x1, 0, 32⟩,
  ⟨.bootSrc, false, 0x2018, 1, 0x1000, 1, 0x1, 0, 32⟩,
  ⟨.bootSts, false, 0x2000, 1, 0x1000, 1, 0x1, 0, 32⟩,
  ⟨.bootSvn, false, 0x2008, 1, 0x1000, 1, 0x1, 0, 32⟩,
  ⟨.bootVer, false, 0x2004, 1, 0x1000, 1, 0x1, 0, 32⟩,
  ⟨.c52PrioHi, false, 0x6004, 29, 0x10, 1, 0x1, 0, 32⟩,
  ⟨.c52PrioLo, false, 0x6000, 29, 0x10, 1, 0x1, 0, 32⟩,
  ⟨.c52Sts, false, 0x6008, 29, 0x10, 1, 0x1, 0, 32⟩,
  ⟨.calEff, false, 0x202C, 1, 0x1000, 1, 0x1, 0, 32⟩,
  ⟨.calSel, false, 0x2028, 1, 0x1000, 1, 0x1, 0, 32⟩,
  ⟨.coreVmonSts, false, 0x1100, 1, 0x1000, 1, 0x1, 0, 32⟩,
  ⟨.cqHeadDb, true, 0x4, 1, 0x10000, 4, 0x8, 0, 32⟩,
  ⟨.errCnt, false, 0x3010, 1, 0x1000, 1, 0x1, 0, 64⟩,
  ⟨.errInj, false, 0x3040, 1, 0x1000, 1, 0x1, 0, 64⟩,
  ⟨.fSvc, false, 0x15000, 1, 0x4000, 2048, 0x4, 0, 32⟩,
  ⟨.fVec, false, 0x11000, 1, 0x4000, 2048, 0x4, 0, 32⟩]

/-- Tables 22-1 to 22-3, part 2. -/
def regRows2 : List RegRow := [
  ⟨.fWin, false, 0x19000, 1, 0x4000, 2048, 0x4, 0, 32⟩,
  ⟨.fabCtl, false, 0x4000, 1, 0x2000, 1, 0x1, 0, 32⟩,
  ⟨.fabFltLast, false, 0x4008, 1, 0x2000, 1, 0x1, 0, 64⟩,
  ⟨.fabSts, false, 0x4004, 1, 0x2000, 1, 0x1, 0, 32⟩,
  ⟨.fecCorr, false, 0x30008, 8, 0x4000, 1, 0x1, 0, 32⟩,
  ⟨.fecUnc, false, 0x3000C, 8, 0x4000, 1, 0x1, 0, 32⟩,
  ⟨.fnrSts, false, 0x14008, 1, 0x4000, 1, 0x1, 0, 64⟩,
  ⟨.gateAllow, false, 0x22100, 2, 0x4000, 46, 0x4, 0, 32⟩,
  ⟨.gateAllow, false, 0x32100, 8, 0x4000, 46, 0x4, 92, 32⟩,
  ⟨.gateCtl, false, 0x22000, 2, 0x4000, 1, 0x1, 0, 32⟩,
  ⟨.gateCtl, false, 0x32000, 8, 0x4000, 1, 0x1, 2, 32⟩,
  ⟨.gateLag, false, 0x22008, 2, 0x4000, 1, 0x1, 0, 32⟩,
  ⟨.gateLag, false, 0x32008, 8, 0x4000, 1, 0x1, 2, 32⟩,
  ⟨.gateSts, false, 0x22004, 2, 0x4000, 1, 0x1, 0, 32⟩,
  ⟨.gateSts, false, 0x32004, 8, 0x4000, 1, 0x1, 2, 32⟩,
  ⟨.hpiCfg, false, 0x2001C, 2, 0x4000, 1, 0x1, 0, 32⟩,
  ⟨.hpiCtoLast, false, 0x20010, 2, 0x4000, 1, 0x1, 0, 64⟩,
  ⟨.hpiLinkSts, false, 0x20000, 2, 0x4000, 1, 0x1, 0, 32⟩,
  ⟨.hpiLtr, false, 0x20018, 2, 0x4000, 1, 0x1, 0, 32⟩,
  ⟨.hpiSentinel, false, 0x20004, 2, 0x4000, 1, 0x1, 0, 32⟩,
  ⟨.hpiTags, false, 0x20008, 2, 0x4000, 1, 0x1, 0, 32⟩,
  ⟨.injLim, false, 0x5000, 1, 0x2000, 368, 0x4, 0, 32⟩,
  ⟨.irtCnt, false, 0x10000, 1, 0x4000, 1, 0x1, 0, 64⟩,
  ⟨.irtMod, false, 0x1000C, 1, 0x4000, 1, 0x1, 0, 32⟩,
  ⟨.irtPort, false, 0x10010, 1, 0x4000, 2, 0x4, 0, 32⟩]

/-- Tables 22-1 to 22-3, part 3. -/
def regRows3 : List RegRow := [
  ⟨.irtSel, false, 0x10008, 1, 0x4000, 1, 0x1, 0, 32⟩,
  ⟨.keySts, false, 0x200C, 1, 0x1000, 1, 0x1, 0, 32⟩,
  ⟨.laneEq, false, 0x30100, 8, 0x4000, 4, 0x20, 0, 32⟩,
  ⟨.laneErr, false, 0x3010C, 8, 0x4000, 4, 0x20, 0, 32⟩,
  ⟨.laneInj, false, 0x30108, 8, 0x4000, 4, 0x20, 0, 32⟩,
  ⟨.lanePat, false, 0x30110, 8, 0x4000, 4, 0x20, 0, 64⟩,
  ⟨.laneTst, false, 0x30104, 8, 0x4000, 4, 0x20, 0, 32⟩,
  ⟨.lbFn, false, 0x30300, 8, 0x4000, 1, 0x1, 0, 32⟩,
  ⟨.lbPf, false, 0x30304, 8, 0x4000, 1, 0x1, 0, 32⟩,
  ⟨.lbPfcnt, false, 0x30318, 8, 0x4000, 1, 0x1, 0, 64⟩,
  ⟨.lbStg, false, 0x30308, 8, 0x4000, 1, 0x1, 0, 32⟩,
  ⟨.lbSts, false, 0x30310, 8, 0x4000, 1, 0x1, 0, 32⟩,
  ⟨.lbTun, false, 0x30400, 8, 0x4000, 64, 0x4, 0, 32⟩,
  ⟨.linkSel, false, 0x4010, 1, 0x2000, 1, 0x1, 0, 32⟩,
  ⟨.linkSts, false, 0x4014, 1, 0x2000, 1, 0x1, 0, 32⟩,
  ⟨.llCnt, false, 0x30218, 8, 0x4000, 1, 0x1, 0, 64⟩,
  ⟨.llCred, false, 0x30220, 8, 0x4000, 1, 0x1, 0, 64⟩,
  ⟨.llCtl, false, 0x30200, 8, 0x4000, 1, 0x1, 0, 32⟩,
  ⟨.llDr, false, 0x30208, 8, 0x4000, 1, 0x1, 0, 32⟩,
  ⟨.llLeak, false, 0x30228, 8, 0x4000, 1, 0x1, 0, 32⟩,
  ⟨.llSeq, false, 0x30210, 8, 0x4000, 1, 0x1, 0, 32⟩,
  ⟨.llSts, false, 0x3020C, 8, 0x4000, 1, 0x1, 0, 32⟩,
  ⟨.llTmr, false, 0x30204, 8, 0x4000, 1, 0x1, 0, 32⟩,
  ⟨.lnkCtl, false, 0x30000, 8, 0x4000, 1, 0x1, 0, 32⟩,
  ⟨.lnkSts, false, 0x30004, 8, 0x4000, 1, 0x1, 0, 32⟩]

/-- Tables 22-1 to 22-3, part 4. -/
def regRows4 : List RegRow := [
  ⟨.logData, false, 0x3038, 1, 0x1000, 1, 0x1, 0, 64⟩,
  ⟨.logSel, false, 0x3030, 1, 0x1000, 1, 0x1, 0, 32⟩,
  ⟨.mlPartner, false, 0x30018, 8, 0x4000, 1, 0x1, 0, 64⟩,
  ⟨.mlSts, false, 0x30010, 8, 0x4000, 1, 0x1, 0, 32⟩,
  ⟨.mvDrop, false, 0x80084, 8, 0x1000, 1, 0x1, 0, 32⟩,
  ⟨.mvSts, false, 0x80080, 8, 0x1000, 1, 0x1, 0, 32⟩,
  ⟨.pclCtl, false, 0x80000, 8, 0x1000, 1, 0x1, 0, 32⟩,
  ⟨.pclEng, false, 0x80010, 8, 0x1000, 8, 0x4, 0, 32⟩,
  ⟨.pclFaultCnt, false, 0x80048, 8, 0x1000, 1, 0x1, 0, 32⟩,
  ⟨.pclLimits, false, 0x80008, 8, 0x1000, 1, 0x1, 0, 32⟩,
  ⟨.pclPsAddr, false, 0x80040, 8, 0x1000, 1, 0x1, 0, 32⟩,
  ⟨.pclPsData, false, 0x80044, 8, 0x1000, 1, 0x1, 0, 32⟩,
  ⟨.pclSts, false, 0x80004, 8, 0x1000, 1, 0x1, 0, 32⟩,
  ⟨.pfrCtl, true, 0x4204, 1, 0x10000, 1, 0x1, 0, 32⟩,
  ⟨.pfrSts, true, 0x4200, 1, 0x10000, 1, 0x1, 0, 32⟩,
  ⟨.pwcClk, false, 0x100C, 1, 0x1000, 1, 0x1, 0, 32⟩,
  ⟨.pwrCtl, false, 0x1000, 1, 0x1000, 1, 0x1, 0, 32⟩,
  ⟨.pwrDom, false, 0x1200, 1, 0x1000, 24, 0x4, 0, 32⟩,
  ⟨.pwrRef, false, 0x1300, 1, 0x1000, 24, 0x8, 0, 64⟩,
  ⟨.pwrSts, false, 0x1004, 1, 0x1000, 1, 0x1, 0, 64⟩,
  ⟨.qCfg, true, 0x118, 1, 0x10000, 4, 0x40, 0, 32⟩,
  ⟨.qCqPtr, true, 0x128, 1, 0x10000, 4, 0x40, 0, 32⟩,
  ⟨.qCqbase, true, 0x108, 1, 0x10000, 4, 0x40, 0, 64⟩,
  ⟨.qCtl, true, 0x11C, 1, 0x10000, 4, 0x40, 0, 32⟩,
  ⟨.qParam, true, 0x110, 1, 0x10000, 4, 0x40, 0, 64⟩]

/-- Tables 22-1 to 22-3, part 5. -/
def regRows5 : List RegRow := [
  ⟨.qSqPtr, true, 0x124, 1, 0x10000, 4, 0x40, 0, 32⟩,
  ⟨.qSqbase, true, 0x100, 1, 0x10000, 4, 0x40, 0, 64⟩,
  ⟨.qSts, true, 0x120, 1, 0x10000, 4, 0x40, 0, 32⟩,
  ⟨.qmDrop, false, 0x200000, 1, 0x200000, 1, 0x1, 0, 32⟩,
  ⟨.qmQbind, false, 0x208000, 1, 0x200000, 8192, 0x4, 0, 32⟩,
  ⟨.qmQerr, false, 0x300004, 1, 0x200000, 8192, 0x8, 0, 32⟩,
  ⟨.qmQhead, false, 0x300000, 1, 0x200000, 8192, 0x8, 0, 32⟩,
  ⟨.rtData, false, 0x4020, 1, 0x2000, 1, 0x1, 0, 64⟩,
  ⟨.rtSel, false, 0x4018, 1, 0x2000, 1, 0x1, 0, 32⟩,
  ⟨.scrubCtl, false, 0x3000, 1, 0x1000, 1, 0x1, 0, 32⟩,
  ⟨.scrubSts, false, 0x3004, 1, 0x1000, 1, 0x1, 0, 32⟩,
  ⟨.semCmd, false, 0xC000, 1, 0x4000, 1, 0x1, 0, 32⟩,
  ⟨.semResult, false, 0xC004, 1, 0x4000, 1, 0x1, 0, 32⟩,
  ⟨.semSts, false, 0xD000, 1, 0x4000, 1088, 0x4, 0, 32⟩,
  ⟨.slotCtl, false, 0x14200, 1, 0x4000, 2, 0x100, 0, 32⟩,
  ⟨.slot, false, 0x14280, 2, 0x100, 32, 0x4, 0, 32⟩,
  ⟨.slotSts, false, 0x14204, 1, 0x4000, 2, 0x100, 0, 32⟩,
  ⟨.sqTailDb, true, 0x0, 1, 0x10000, 4, 0x8, 0, 32⟩,
  ⟨.stepMonCtl, false, 0x1104, 1, 0x1000, 1, 0x1, 0, 32⟩,
  ⟨.stepMonResult, false, 0x1108, 1, 0x1000, 1, 0x1, 0, 32⟩,
  ⟨.svcCtl, false, 0x14000, 1, 0x4000, 1, 0x1, 0, 32⟩,
  ⟨.svcLv, false, 0x14004, 1, 0x4000, 1, 0x1, 0, 32⟩,
  ⟨.tbCoarseEnd, false, 0x18, 1, 0x1000, 1, 0x1, 0, 64⟩,
  ⟨.tbCtl, false, 0x0, 1, 0x1000, 1, 0x1, 0, 32⟩,
  ⟨.tbNow, false, 0x8, 1, 0x1000, 1, 0x1, 0, 64⟩]

/-- Tables 22-1 to 22-3, part 6. -/
def regRows6 : List RegRow := [
  ⟨.tbSlew, false, 0x14, 1, 0x1000, 1, 0x1, 0, 32⟩,
  ⟨.tbStep, false, 0x10, 1, 0x1000, 1, 0x1, 0, 32⟩,
  ⟨.teCmd, false, 0x18050, 1, 0x4000, 1, 0x1, 0, 32⟩,
  ⟨.teData, false, 0x18048, 1, 0x4000, 1, 0x1, 0, 64⟩,
  ⟨.teSel, false, 0x18040, 1, 0x4000, 1, 0x1, 0, 32⟩,
  ⟨.teSts, false, 0x18054, 1, 0x4000, 1, 0x1, 0, 32⟩,
  ⟨.teWver, false, 0x18058, 1, 0x4000, 1, 0x1, 0, 32⟩,
  ⟨.thermCtl, false, 0x1120, 1, 0x1000, 1, 0x1, 0, 32⟩,
  ⟨.thermSts, false, 0x1110, 1, 0x1000, 4, 0x4, 0, 32⟩,
  ⟨.trcCtl, false, 0x3020, 1, 0x1000, 1, 0x1, 0, 32⟩,
  ⟨.trcMark, false, 0x3028, 1, 0x1000, 1, 0x1, 0, 64⟩,
  ⟨.trcSts, false, 0x3024, 1, 0x1000, 1, 0x1, 0, 32⟩,
  ⟨.vlogSts, false, 0x3008, 1, 0x1000, 1, 0x1, 0, 64⟩,
  ⟨.winAcc, false, 0x18010, 1, 0x4000, 1, 0x1, 0, 64⟩,
  ⟨.winCmd, false, 0x18020, 1, 0x4000, 1, 0x1, 0, 32⟩,
  ⟨.winCw, false, 0x18008, 1, 0x4000, 1, 0x1, 0, 64⟩,
  ⟨.winSel, false, 0x18000, 1, 0x4000, 1, 0x1, 0, 32⟩,
  ⟨.winSts, false, 0x18024, 1, 0x4000, 1, 0x1, 0, 32⟩,
  ⟨.winTag, false, 0x18018, 1, 0x4000, 1, 0x1, 0, 64⟩,
  ⟨.wsCtl, false, 0x1010, 1, 0x1000, 1, 0x1, 0, 32⟩,
  ⟨.wsMask, false, 0x1014, 1, 0x1000, 1, 0x1, 0, 32⟩,
  ⟨.xltCnt, false, 0x18060, 1, 0x4000, 1, 0x1, 0, 32⟩,
  ⟨.xltLoc, false, 0x18068, 1, 0x4000, 1, 0x1, 0, 32⟩]

/-- Where every register lies (Tables 22-1 to 22-3). -/
def regRows : List RegRow :=
  regRows1 ++ regRows2 ++ regRows3 ++ regRows4 ++ regRows5 ++ regRows6

/-- The fields of each register, reserved bits left out, as its chapter's table gives them. -/
def RegId.fields : RegId → List Field
  | .arbAct => [⟨3, 0, .ro⟩, ⟨7, 4, .ro⟩, ⟨11, 8, .ro⟩, ⟨15, 12, .ro⟩, ⟨19, 16, .ro⟩, ⟨23, 20, .ro⟩, ⟨27, 24, .ro⟩, ⟨31, 28, .ro⟩]
  | .arbCtl => [⟨31, 31, .wo⟩, ⟨30, 30, .rws⟩, ⟨15, 0, .rws⟩]
  | .arbCutTime => [⟨47, 0, .ro⟩]
  | .arbCutWho => [⟨16, 11, .ro⟩, ⟨10, 0, .ro⟩]
  | .arbMap => [⟨3, 0, .rws⟩, ⟨7, 4, .rws⟩, ⟨11, 8, .rws⟩, ⟨15, 12, .rws⟩, ⟨19, 16, .rws⟩, ⟨23, 20, .rws⟩, ⟨27, 24, .rws⟩, ⟨31, 28, .rws⟩]
  | .arbSts => [⟨31, 28, .ro⟩, ⟨27, 22, .ro⟩, ⟨21, 21, .ro⟩, ⟨20, 20, .rwc⟩, ⟨19, 19, .rwc⟩, ⟨15, 0, .ro⟩]
  | .bootCmd => [⟨2, 0, .wo⟩]
  | .bootDst => [⟨24, 0, .rw⟩]
  | .bootLen => [⟨31, 0, .rw⟩]
  | .bootRes => [⟨31, 31, .ro⟩, ⟨2, 0, .ro⟩]
  | .bootSrc => [⟨25, 0, .rw⟩]
  | .bootSts => [⟨31, 28, .ro⟩, ⟨27, 26, .ro⟩, ⟨25, 25, .ro⟩, ⟨24, 24, .ro⟩, ⟨23, 20, .ro⟩, ⟨19, 16, .ro⟩, ⟨7, 0, .ro⟩]
  | .bootSvn => [⟨31, 24, .ro⟩, ⟨23, 16, .ro⟩, ⟨15, 8, .ro⟩, ⟨7, 0, .ro⟩]
  | .bootVer => [⟨31, 0, .ro⟩]
  | .c52PrioHi => [⟨3, 0, .rw⟩, ⟨7, 4, .rw⟩, ⟨11, 8, .rw⟩, ⟨15, 12, .rw⟩, ⟨19, 16, .rw⟩, ⟨23, 20, .rw⟩, ⟨27, 24, .rw⟩, ⟨31, 28, .rw⟩]
  | .c52PrioLo => [⟨3, 0, .rw⟩, ⟨7, 4, .rw⟩, ⟨11, 8, .rw⟩, ⟨15, 12, .rw⟩, ⟨19, 16, .rw⟩, ⟨23, 20, .rw⟩, ⟨27, 24, .rw⟩, ⟨31, 28, .rw⟩]
  | .c52Sts => [⟨1, 1, .rwc⟩, ⟨0, 0, .ro⟩]
  | .calEff => [⟨31, 24, .ro⟩, ⟨23, 16, .ro⟩, ⟨7, 0, .ro⟩]
  | .calSel => [⟨31, 24, .rw⟩, ⟨15, 0, .rw⟩]
  | .coreVmonSts => [⟨23, 16, .ro⟩, ⟨15, 8, .ro⟩, ⟨2, 2, .wo⟩, ⟨1, 1, .rwc⟩, ⟨0, 0, .ro⟩]
  | .cqHeadDb => [⟨15, 0, .wo⟩]
  | .errCnt => [⟨63, 48, .ro⟩, ⟨47, 32, .ro⟩, ⟨31, 16, .ro⟩, ⟨15, 0, .ro⟩]
  | .errInj => [⟨63, 63, .wo⟩, ⟨57, 52, .rw⟩, ⟨51, 48, .rw⟩, ⟨25, 0, .rw⟩]
  | .fSvc => [⟨23, 16, .rw⟩, ⟨2, 0, .rw⟩]
  | .fVec => [⟨31, 31, .rwl⟩, ⟨14, 0, .rwl⟩]
  | .fWin => [⟨31, 31, .rw⟩, ⟨11, 0, .rw⟩]
  | .fabCtl => [⟨15, 8, .rw⟩, ⟨0, 0, .wo⟩]
  | .fabFltLast => [⟨63, 16, .ro⟩, ⟨15, 13, .ro⟩, ⟨8, 0, .ro⟩]
  | .fabSts => [⟨31, 24, .ro⟩, ⟨6, 6, .ro⟩, ⟨5, 5, .rwc⟩, ⟨4, 4, .rwc⟩, ⟨3, 3, .rwc⟩, ⟨2, 2, .rwc⟩, ⟨1, 1, .rwc⟩, ⟨0, 0, .rwc⟩]
  | .fecCorr => [⟨31, 0, .ro⟩]
  | .fecUnc => [⟨31, 0, .ro⟩]
  | .fnrSts => [⟨63, 40, .ro⟩, ⟨27, 16, .ro⟩, ⟨10, 0, .ro⟩]
  | .gateAllow => [⟨6, 0, .rws⟩]
  | .gateCtl => [⟨2, 2, .rwc⟩, ⟨0, 0, .wo⟩]
  | .gateLag => [⟨31, 31, .wo⟩, ⟨29, 24, .ro⟩, ⟨15, 0, .ro⟩]
  | .gateSts => [⟨31, 16, .ro⟩, ⟨15, 0, .ro⟩]
  | .hpiCfg => [⟨13, 8, .ro⟩, ⟨5, 0, .ro⟩]
  | .hpiCtoLast => [⟨63, 16, .ro⟩, ⟨14, 14, .ro⟩, ⟨13, 0, .ro⟩]
  | .hpiLinkSts => [⟨27, 24, .ro⟩, ⟨23, 16, .ro⟩, ⟨15, 12, .ro⟩, ⟨11, 11, .ro⟩, ⟨10, 10, .ro⟩]
  | .hpiLtr => [⟨28, 26, .rw⟩, ⟨25, 16, .rw⟩, ⟨12, 10, .rw⟩, ⟨9, 0, .rw⟩]
  | .hpiSentinel => [⟨31, 16, .ro⟩, ⟨15, 8, .ro⟩, ⟨0, 0, .rwc⟩]
  | .hpiTags => [⟨31, 16, .ro⟩, ⟨15, 0, .ro⟩]
  | .injLim => [⟨31, 31, .rws⟩, ⟨27, 20, .rws⟩, ⟨15, 0, .rws⟩]
  | .irtCnt => [⟨63, 48, .ro⟩, ⟨47, 32, .ro⟩, ⟨31, 0, .ro⟩]
  | .irtMod => [⟨15, 8, .rw⟩, ⟨7, 0, .rw⟩]
  | .irtPort => [⟨26, 16, .ro⟩, ⟨10, 0, .ro⟩]
  | .irtSel => [⟨14, 0, .rw⟩]
  | .keySts => [⟨13, 13, .rwc⟩, ⟨12, 12, .ro⟩, ⟨11, 10, .ro⟩, ⟨7, 4, .ro⟩, ⟨3, 0, .ro⟩]
  | .laneEq => [⟨28, 24, .ro⟩, ⟨21, 16, .ro⟩, ⟨14, 8, .ro⟩, ⟨4, 0, .ro⟩]
  | .laneErr => [⟨31, 0, .ro⟩]
  | .laneInj => [⟨31, 31, .wo⟩, ⟨30, 29, .rw⟩, ⟨17, 8, .rw⟩, ⟨5, 0, .rw⟩]
  | .lanePat => [⟨63, 0, .rw⟩]
  | .laneTst => [⟨31, 31, .ro⟩, ⟨30, 30, .ro⟩, ⟨11, 10, .rw⟩, ⟨9, 9, .rw⟩, ⟨8, 8, .rw⟩, ⟨2, 0, .rw⟩]
  | .lbFn => [⟨26, 16, .rw⟩, ⟨10, 0, .rw⟩]
  | .lbPf => [⟨19, 16, .rw⟩, ⟨9, 0, .rw⟩]
  | .lbPfcnt => [⟨63, 32, .ro⟩, ⟨31, 0, .ro⟩]
  | .lbStg => [⟨31, 31, .rw⟩, ⟨25, 12, .rw⟩, ⟨4, 0, .rw⟩]
  | .lbSts => [⟨31, 16, .ro⟩, ⟨15, 8, .ro⟩, ⟨7, 0, .ro⟩]
  | .lbTun => [⟨31, 31, .rw⟩, ⟨30, 29, .rw⟩, ⟨21, 16, .rw⟩, ⟨13, 11, .rw⟩, ⟨10, 0, .rw⟩]
  | .linkSel => [⟨8, 0, .rw⟩]
  | .linkSts => [⟨31, 31, .ro⟩, ⟨30, 30, .rw⟩, ⟨29, 29, .ro⟩, ⟨15, 8, .ro⟩, ⟨7, 0, .ro⟩]
  | .llCnt => [⟨63, 48, .ro⟩, ⟨47, 32, .ro⟩, ⟨31, 16, .ro⟩, ⟨15, 0, .ro⟩]
  | .llCred => [⟨63, 48, .ro⟩, ⟨47, 32, .ro⟩, ⟨23, 0, .ro⟩]
  | .llCtl => [⟨31, 31, .rw⟩, ⟨19, 0, .rw⟩]
  | .llDr => [⟨31, 22, .rw⟩, ⟨21, 12, .ro⟩, ⟨11, 0, .ro⟩]
  | .llLeak => [⟨31, 16, .ro⟩, ⟨15, 0, .ro⟩]
  | .llSeq => [⟨27, 16, .ro⟩, ⟨11, 0, .ro⟩]
  | .llSts => [⟨31, 30, .ro⟩, ⟨29, 29, .rwc⟩, ⟨28, 28, .rwc⟩, ⟨26, 16, .ro⟩, ⟨15, 0, .ro⟩]
  | .llTmr => [⟨31, 16, .rw⟩, ⟨15, 0, .rw⟩]
  | .lnkCtl => [⟨11, 10, .rwl⟩, ⟨9, 8, .rwl⟩, ⟨3, 3, .rw⟩, ⟨2, 2, .rw⟩, ⟨1, 1, .wo⟩, ⟨0, 0, .rw⟩]
  | .lnkSts => [⟨31, 28, .ro⟩, ⟨27, 26, .ro⟩, ⟨25, 24, .ro⟩, ⟨23, 20, .ro⟩, ⟨19, 16, .ro⟩, ⟨15, 0, .ro⟩]
  | .logData => [⟨63, 0, .ro⟩]
  | .logSel => [⟨31, 30, .rw⟩, ⟨19, 17, .rw⟩, ⟨16, 0, .rw⟩]
  | .mlPartner => [⟨63, 0, .ro⟩]
  | .mlSts => [⟨31, 24, .ro⟩, ⟨23, 16, .ro⟩, ⟨1, 1, .rwc⟩, ⟨0, 0, .ro⟩]
  | .mvDrop => [⟨31, 16, .ro⟩, ⟨5, 0, .ro⟩]
  | .mvSts => [⟨25, 16, .ro⟩, ⟨9, 0, .ro⟩]
  | .pclCtl => [⟨0, 0, .rw⟩]
  | .pclEng => [⟨31, 30, .ro⟩, ⟨29, 29, .wo⟩, ⟨28, 28, .wo⟩, ⟨23, 16, .ro⟩, ⟨15, 0, .ro⟩]
  | .pclFaultCnt => [⟨31, 16, .ro⟩, ⟨15, 0, .ro⟩]
  | .pclLimits => [⟨31, 31, .wo⟩, ⟨30, 24, .rws⟩, ⟨23, 0, .rws⟩]
  | .pclPsAddr => [⟨16, 0, .rwl⟩]
  | .pclPsData => [⟨31, 0, .rwl⟩]
  | .pclSts => [⟨31, 24, .ro⟩, ⟨23, 16, .ro⟩, ⟨15, 8, .ro⟩, ⟨2, 2, .rwc⟩, ⟨1, 1, .ro⟩, ⟨0, 0, .ro⟩]
  | .pfrCtl => [⟨31, 31, .rw⟩, ⟨10, 0, .rw⟩]
  | .pfrSts => [⟨31, 0, .ro⟩]
  | .pwcClk => [⟨2, 2, .ro⟩, ⟨1, 1, .rw⟩, ⟨0, 0, .rw⟩]
  | .pwrCtl => [⟨31, 31, .rw⟩, ⟨19, 0, .rw⟩]
  | .pwrDom => [⟨31, 30, .ro⟩, ⟨29, 28, .ro⟩, ⟨27, 27, .wo⟩, ⟨26, 26, .rw⟩, ⟨25, 25, .rw⟩, ⟨24, 22, .ro⟩, ⟨19, 0, .rw⟩]
  | .pwrRef => [⟨63, 32, .ro⟩, ⟨31, 30, .ro⟩, ⟨23, 16, .ro⟩, ⟨10, 0, .ro⟩]
  | .pwrSts => [⟨63, 48, .ro⟩, ⟨32, 32, .ro⟩, ⟨23, 0, .ro⟩]
  | .qCfg => [⟨20, 16, .rwl⟩, ⟨4, 0, .rwl⟩]
  | .qCqPtr => [⟨31, 16, .ro⟩, ⟨15, 0, .ro⟩]
  | .qCqbase => [⟨63, 0, .rwl⟩]
  | .qCtl => [⟨1, 1, .wo⟩, ⟨0, 0, .rw⟩]
  | .qParam => [⟨63, 0, .rwl⟩]
  | .qSqPtr => [⟨31, 16, .ro⟩, ⟨15, 0, .ro⟩]
  | .qSqbase => [⟨63, 0, .rwl⟩]
  | .qSts => [⟨31, 31, .ro⟩, ⟨30, 30, .rwc⟩, ⟨29, 29, .rwc⟩, ⟨28, 28, .ro⟩, ⟨7, 0, .ro⟩]
  | .qmDrop => [⟨31, 16, .ro⟩, ⟨15, 0, .ro⟩]
  | .qmQbind => [⟨31, 24, .rwl⟩, ⟨19, 17, .rwl⟩, ⟨16, 0, .rwl⟩]
  | .qmQerr => [⟨7, 0, .wo⟩]
  | .qmQhead => [⟨15, 0, .wo⟩]
  | .rtData => [⟨15, 15, .rw⟩, ⟨14, 10, .rw⟩, ⟨9, 5, .rw⟩, ⟨4, 0, .rw⟩]
  | .rtSel => [⟨14, 8, .rw⟩, ⟨5, 0, .rw⟩]
  | .scrubCtl => [⟨31, 24, .rw⟩, ⟨19, 16, .rw⟩, ⟨15, 0, .rw⟩]
  | .scrubSts => [⟨31, 16, .ro⟩, ⟨15, 0, .ro⟩]
  | .semCmd => [⟨31, 30, .wo⟩, ⟨10, 0, .wo⟩]
  | .semResult => [⟨2, 0, .ro⟩]
  | .semSts => [⟨31, 31, .ro⟩, ⟨30, 29, .ro⟩, ⟨28, 23, .ro⟩, ⟨22, 12, .ro⟩, ⟨11, 0, .ro⟩]
  | .slotCtl => [⟨31, 31, .wo⟩]
  | .slot => [⟨3, 0, .rws⟩, ⟨7, 4, .rws⟩, ⟨11, 8, .rws⟩, ⟨15, 12, .rws⟩, ⟨19, 16, .rws⟩, ⟨23, 20, .rws⟩, ⟨27, 24, .rws⟩, ⟨31, 28, .rws⟩]
  | .slotSts => [⟨31, 31, .ro⟩, ⟨7, 0, .ro⟩]
  | .sqTailDb => [⟨15, 0, .wo⟩]
  | .stepMonCtl => [⟨2, 2, .rw⟩, ⟨1, 0, .rw⟩]
  | .stepMonResult => [⟨31, 31, .ro⟩, ⟨19, 0, .ro⟩]
  | .svcCtl => [⟨31, 31, .wo⟩, ⟨6, 4, .rw⟩, ⟨2, 0, .rw⟩]
  | .svcLv => [⟨2, 0, .rws⟩, ⟨6, 4, .rws⟩, ⟨10, 8, .rws⟩, ⟨14, 12, .rws⟩, ⟨18, 16, .rws⟩, ⟨22, 20, .rws⟩, ⟨26, 24, .rws⟩, ⟨30, 28, .rws⟩]
  | .tbCoarseEnd => [⟨63, 0, .ro⟩]
  | .tbCtl => [⟨7, 7, .ro⟩, ⟨6, 6, .ro⟩, ⟨2, 2, .rwc⟩, ⟨1, 1, .rw⟩, ⟨0, 0, .rw⟩]
  | .tbNow => [⟨63, 0, .ro⟩]
  | .tbSlew => [⟨15, 0, .rw⟩]
  | .tbStep => [⟨31, 0, .wo⟩]
  | .teCmd => [⟨1, 0, .wo⟩]
  | .teData => [⟨22, 22, .rw⟩, ⟨21, 21, .rw⟩, ⟨20, 18, .rw⟩, ⟨17, 0, .rw⟩]
  | .teSel => [⟨17, 0, .rwl⟩]
  | .teSts => [⟨31, 31, .ro⟩, ⟨30, 30, .ro⟩, ⟨29, 29, .rwc⟩]
  | .teWver => [⟨31, 0, .ro⟩]
  | .thermCtl => [⟨31, 31, .ro⟩, ⟨30, 30, .rwc⟩, ⟨15, 0, .rw⟩]
  | .thermSts => [⟨15, 0, .ro⟩]
  | .trcCtl => [⟨31, 31, .rw⟩, ⟨30, 30, .rw⟩, ⟨7, 0, .rw⟩]
  | .trcMark => [⟨63, 0, .wo⟩]
  | .trcSts => [⟨31, 31, .rwc⟩, ⟨30, 17, .ro⟩, ⟨16, 0, .ro⟩]
  | .vlogSts => [⟨63, 32, .ro⟩, ⟨31, 0, .ro⟩]
  | .winAcc => [⟨43, 43, .rws⟩, ⟨42, 32, .rws⟩, ⟨26, 16, .rws⟩, ⟨10, 0, .rws⟩]
  | .winCmd => [⟨1, 0, .wo⟩]
  | .winCw => [⟨49, 32, .rws⟩, ⟨20, 16, .rws⟩, ⟨15, 8, .ro⟩, ⟨5, 3, .rws⟩, ⟨2, 2, .rws⟩, ⟨1, 1, .rws⟩, ⟨0, 0, .rws⟩]
  | .winSel => [⟨11, 0, .rwl⟩]
  | .winSts => [⟨31, 31, .ro⟩, ⟨30, 30, .ro⟩, ⟨29, 29, .ro⟩, ⟨23, 16, .ro⟩, ⟨15, 8, .ro⟩, ⟨3, 0, .ro⟩]
  | .winTag => [⟨63, 0, .rws⟩]
  | .wsCtl => [⟨31, 31, .rw⟩, ⟨30, 30, .rwc⟩, ⟨29, 29, .ro⟩]
  | .wsMask => [⟨23, 0, .rw⟩]
  | .xltCnt => [⟨31, 16, .ro⟩, ⟨15, 0, .ro⟩]
  | .xltLoc => [⟨19, 16, .rw⟩, ⟨15, 12, .rw⟩, ⟨11, 8, .rw⟩, ⟨7, 4, .rw⟩, ⟨3, 0, .rw⟩]

/-- The reset value of each register as its table gives it: 0 where the cell names the image, the fuses, a pin,
the ROM or another table (those values are set where they are loaded). -/
def RegId.resetBits : RegId → Nat
  | .arbCtl => 0x7D0
  | .arbSts => 0xFC00000
  | .c52PrioHi => 0xFEDCBA98
  | .c52PrioLo => 0x76543210
  | .calSel => 0x1000000
  | .coreVmonSts => 0xFF0000
  | .fabCtl => 0x800
  | .hpiSentinel => 0x70000000
  | .injLim => 0x100FFFF
  | .laneInj => 0xA
  | .lanePat => 0xAAAAAAAA55555555
  | .laneTst => 0x3
  | .lbPf => 0x2000A
  | .lbStg => 0xC
  | .linkSts => 0x80000000
  | .llCtl => 0x800003E8
  | .llDr => 0x32000000
  | .llSeq => 0xFFF
  | .llTmr => 0x3E807D0
  | .pclEng => 0xFFFF
  | .pclLimits => 0x40000000
  | .pclSts => 0xFF000001
  | .pwrCtl => 0x3E8
  | .qSts => 0x10000000
  | .scrubCtl => 0x64
  | .slot => 0x88888888
  | .stepMonCtl => 0x1
  | .svcLv => 0x76543210
  | .tbCtl => 0x40
  | .thermCtl => 0x1A4
  | .trcCtl => 0x80000081
  | .xltLoc => 0xD71C0
  | _ => 0

/-- arbCtl[31:31]. -/
def F.arbCtlCommit : Fld := ⟨.arbCtl, 31, 31⟩
/-- arbCtl[30:30]. -/
def F.arbCtlCompatEn : Fld := ⟨.arbCtl, 30, 30⟩
/-- arbCtl[15:0]. -/
def F.arbCtlHoldLimit : Fld := ⟨.arbCtl, 15, 0⟩
/-- arbCutTime[47:0]. -/
def F.arbCutTimeTime : Fld := ⟨.arbCutTime, 47, 0⟩
/-- arbCutWho[16:11]. -/
def F.arbCutWhoNi : Fld := ⟨.arbCutWho, 16, 11⟩
/-- arbCutWho[10:0]. -/
def F.arbCutWhoFn : Fld := ⟨.arbCutWho, 10, 0⟩
/-- arbSts[31:28]. -/
def F.arbStsLastWin : Fld := ⟨.arbSts, 31, 28⟩
/-- arbSts[27:22]. -/
def F.arbStsHolder : Fld := ⟨.arbSts, 27, 22⟩
/-- arbSts[21:21]. -/
def F.arbStsBelay : Fld := ⟨.arbSts, 21, 21⟩
/-- arbSts[20:20]. -/
def F.arbStsCut : Fld := ⟨.arbSts, 20, 20⟩
/-- arbSts[19:19]. -/
def F.arbStsLockRef : Fld := ⟨.arbSts, 19, 19⟩
/-- arbSts[15:0]. -/
def F.arbStsCapped : Fld := ⟨.arbSts, 15, 0⟩
/-- bootCmd[2:0]. -/
def F.bootCmdOp : Fld := ⟨.bootCmd, 2, 0⟩
/-- bootDst[24:0]. -/
def F.bootDstOffset : Fld := ⟨.bootDst, 24, 0⟩
/-- bootLen[31:0]. -/
def F.bootLenLen : Fld := ⟨.bootLen, 31, 0⟩
/-- bootRes[31:31]. -/
def F.bootResBusy : Fld := ⟨.bootRes, 31, 31⟩
/-- bootRes[2:0]. -/
def F.bootResResult : Fld := ⟨.bootRes, 2, 0⟩
/-- bootSrc[25:0]. -/
def F.bootSrcAddr : Fld := ⟨.bootSrc, 25, 0⟩
/-- bootSts[31:28]. -/
def F.bootStsStage : Fld := ⟨.bootSts, 31, 28⟩
/-- bootSts[27:26]. -/
def F.bootStsSlot : Fld := ⟨.bootSts, 27, 26⟩
/-- bootSts[25:25]. -/
def F.bootStsNoTbclk : Fld := ⟨.bootSts, 25, 25⟩
/-- bootSts[24:24]. -/
def F.bootStsCalIgn : Fld := ⟨.bootSts, 24, 24⟩
/-- bootSts[23:20]. -/
def F.bootStsFailA : Fld := ⟨.bootSts, 23, 20⟩
/-- bootSts[19:16]. -/
def F.bootStsFailB : Fld := ⟨.bootSts, 19, 16⟩
/-- bootSts[7:0]. -/
def F.bootStsInitTmo : Fld := ⟨.bootSts, 7, 0⟩
/-- bootSvn[31:24]. -/
def F.bootSvnOsvnFuse : Fld := ⟨.bootSvn, 31, 24⟩
/-- bootSvn[23:16]. -/
def F.bootSvnOsvnImg : Fld := ⟨.bootSvn, 23, 16⟩
/-- bootSvn[15:8]. -/
def F.bootSvnVsvnFuse : Fld := ⟨.bootSvn, 15, 8⟩
/-- bootSvn[7:0]. -/
def F.bootSvnVsvnImg : Fld := ⟨.bootSvn, 7, 0⟩
/-- bootVer[31:0]. -/
def F.bootVerVersion : Fld := ⟨.bootVer, 31, 0⟩
/-- c52Sts[1:1]. -/
def F.c52StsSkewSeen : Fld := ⟨.c52Sts, 1, 1⟩
/-- c52Sts[0:0]. -/
def F.c52StsPairSkew : Fld := ⟨.c52Sts, 0, 0⟩
/-- calEff[31:24]. -/
def F.calEffFactory : Fld := ⟨.calEff, 31, 24⟩
/-- calEff[23:16]. -/
def F.calEffOffset : Fld := ⟨.calEff, 23, 16⟩
/-- calEff[7:0]. -/
def F.calEffEffective : Fld := ⟨.calEff, 7, 0⟩
/-- calSel[31:24]. -/
def F.calSelField : Fld := ⟨.calSel, 31, 24⟩
/-- calSel[15:0]. -/
def F.calSelIndex : Fld := ⟨.calSel, 15, 0⟩
/-- coreVmonSts[23:16]. -/
def F.coreVmonStsVmin : Fld := ⟨.coreVmonSts, 23, 16⟩
/-- coreVmonSts[15:8]. -/
def F.coreVmonStsVnow : Fld := ⟨.coreVmonSts, 15, 8⟩
/-- coreVmonSts[2:2]. -/
def F.coreVmonStsVminClr : Fld := ⟨.coreVmonSts, 2, 2⟩
/-- coreVmonSts[1:1]. -/
def F.coreVmonStsBelowFloor : Fld := ⟨.coreVmonSts, 1, 1⟩
/-- coreVmonSts[0:0]. -/
def F.coreVmonStsCoreUv : Fld := ⟨.coreVmonSts, 0, 0⟩
/-- cqHeadDb[15:0]. -/
def F.cqHeadDbHead : Fld := ⟨.cqHeadDb, 15, 0⟩
/-- errCnt[63:48]. -/
def F.errCntDamaged : Fld := ⟨.errCnt, 63, 48⟩
/-- errCnt[47:32]. -/
def F.errCntParPoison : Fld := ⟨.errCnt, 47, 32⟩
/-- errCnt[31:16]. -/
def F.errCntSecdedUe : Fld := ⟨.errCnt, 31, 16⟩
/-- errCnt[15:0]. -/
def F.errCntSecdedCe : Fld := ⟨.errCnt, 15, 0⟩
/-- errInj[63:63]. -/
def F.errInjGo : Fld := ⟨.errInj, 63, 63⟩
/-- errInj[57:52]. -/
def F.errInjNi : Fld := ⟨.errInj, 57, 52⟩
/-- errInj[51:48]. -/
def F.errInjKind : Fld := ⟨.errInj, 51, 48⟩
/-- errInj[25:0]. -/
def F.errInjAddr : Fld := ⟨.errInj, 25, 0⟩
/-- fSvc[23:16]. -/
def F.fSvcTagCap : Fld := ⟨.fSvc, 23, 16⟩
/-- fSvc[2:0]. -/
def F.fSvcQc : Fld := ⟨.fSvc, 2, 0⟩
/-- fVec[31:31]. -/
def F.fVecEn : Fld := ⟨.fVec, 31, 31⟩
/-- fVec[14:0]. -/
def F.fVecBase : Fld := ⟨.fVec, 14, 0⟩
/-- fWin[31:31]. -/
def F.fWinEn : Fld := ⟨.fWin, 31, 31⟩
/-- fWin[11:0]. -/
def F.fWinWin : Fld := ⟨.fWin, 11, 0⟩
/-- fabCtl[15:8]. -/
def F.fabCtlDetourWait : Fld := ⟨.fabCtl, 15, 8⟩
/-- fabCtl[0:0]. -/
def F.fabCtlCommit : Fld := ⟨.fabCtl, 0, 0⟩
/-- fabFltLast[63:16]. -/
def F.fabFltLastTime : Fld := ⟨.fabFltLast, 63, 16⟩
/-- fabFltLast[15:13]. -/
def F.fabFltLastKind : Fld := ⟨.fabFltLast, 15, 13⟩
/-- fabFltLast[8:0]. -/
def F.fabFltLastWhere : Fld := ⟨.fabFltLast, 8, 0⟩
/-- fabSts[31:24]. -/
def F.fabStsLinksOut : Fld := ⟨.fabSts, 31, 24⟩
/-- fabSts[6:6]. -/
def F.fabStsLinkFail : Fld := ⟨.fabSts, 6, 6⟩
/-- fabSts[5:5]. -/
def F.fabStsRtCorr : Fld := ⟨.fabSts, 5, 5⟩
/-- fabSts[4:4]. -/
def F.fabStsLinkOut : Fld := ⟨.fabSts, 4, 4⟩
/-- fabSts[3:3]. -/
def F.fabStsRepeat : Fld := ⟨.fabSts, 3, 3⟩
/-- fabSts[2:2]. -/
def F.fabStsCtlCode : Fld := ⟨.fabSts, 2, 2⟩
/-- fabSts[1:1]. -/
def F.fabStsHeccCorr : Fld := ⟨.fabSts, 1, 1⟩
/-- fabSts[0:0]. -/
def F.fabStsLimErr : Fld := ⟨.fabSts, 0, 0⟩
/-- fecCorr[31:0]. -/
def F.fecCorrSymbols : Fld := ⟨.fecCorr, 31, 0⟩
/-- fecUnc[31:0]. -/
def F.fecUncCodewords : Fld := ⟨.fecUnc, 31, 0⟩
/-- fnrSts[63:40]. -/
def F.fnrStsLastUs : Fld := ⟨.fnrSts, 63, 40⟩
/-- fnrSts[27:16]. -/
def F.fnrStsInReset : Fld := ⟨.fnrSts, 27, 16⟩
/-- fnrSts[10:0]. -/
def F.fnrStsLastFn : Fld := ⟨.fnrSts, 10, 0⟩
/-- gateAllow[6:0]. -/
def F.gateAllowAllow : Fld := ⟨.gateAllow, 6, 0⟩
/-- gateCtl[2:2]. -/
def F.gateCtlAllowErr : Fld := ⟨.gateCtl, 2, 2⟩
/-- gateCtl[0:0]. -/
def F.gateCtlCommit : Fld := ⟨.gateCtl, 0, 0⟩
/-- gateLag[31:31]. -/
def F.gateLagLatClr : Fld := ⟨.gateLag, 31, 31⟩
/-- gateLag[29:24]. -/
def F.gateLagLagNi : Fld := ⟨.gateLag, 29, 24⟩
/-- gateLag[15:0]. -/
def F.gateLagMaxAdded : Fld := ⟨.gateLag, 15, 0⟩
/-- gateSts[31:16]. -/
def F.gateStsHeld : Fld := ⟨.gateSts, 31, 16⟩
/-- gateSts[15:0]. -/
def F.gateStsHoldKib : Fld := ⟨.gateSts, 15, 0⟩
/-- hpiCfg[13:8]. -/
def F.hpiCfgVfBar2Log2 : Fld := ⟨.hpiCfg, 13, 8⟩
/-- hpiCfg[5:0]. -/
def F.hpiCfgPfBar2Log2 : Fld := ⟨.hpiCfg, 5, 0⟩
/-- hpiCtoLast[63:16]. -/
def F.hpiCtoLastTime : Fld := ⟨.hpiCtoLast, 63, 16⟩
/-- hpiCtoLast[14:14]. -/
def F.hpiCtoLastLate : Fld := ⟨.hpiCtoLast, 14, 14⟩
/-- hpiCtoLast[13:0]. -/
def F.hpiCtoLastTag : Fld := ⟨.hpiCtoLast, 13, 0⟩
/-- hpiLinkSts[27:24]. -/
def F.hpiLinkStsSpeed : Fld := ⟨.hpiLinkSts, 27, 24⟩
/-- hpiLinkSts[23:16]. -/
def F.hpiLinkStsWidth : Fld := ⟨.hpiLinkSts, 23, 16⟩
/-- hpiLinkSts[15:12]. -/
def F.hpiLinkStsState : Fld := ⟨.hpiLinkSts, 15, 12⟩
/-- hpiLinkSts[11:11]. -/
def F.hpiLinkStsFlit : Fld := ⟨.hpiLinkSts, 11, 11⟩
/-- hpiLinkSts[10:10]. -/
def F.hpiLinkStsPerst : Fld := ⟨.hpiLinkSts, 10, 10⟩
/-- hpiLtr[28:26]. -/
def F.hpiLtrIdleScale : Fld := ⟨.hpiLtr, 28, 26⟩
/-- hpiLtr[25:16]. -/
def F.hpiLtrIdleValue : Fld := ⟨.hpiLtr, 25, 16⟩
/-- hpiLtr[12:10]. -/
def F.hpiLtrActiveScale : Fld := ⟨.hpiLtr, 12, 10⟩
/-- hpiLtr[9:0]. -/
def F.hpiLtrActiveValue : Fld := ⟨.hpiLtr, 9, 0⟩
/-- hpiSentinel[31:16]. -/
def F.hpiSentinelMark : Fld := ⟨.hpiSentinel, 31, 16⟩
/-- hpiSentinel[15:8]. -/
def F.hpiSentinelLostCnt : Fld := ⟨.hpiSentinel, 15, 8⟩
/-- hpiSentinel[0:0]. -/
def F.hpiSentinelLost : Fld := ⟨.hpiSentinel, 0, 0⟩
/-- hpiTags[31:16]. -/
def F.hpiTagsCooled : Fld := ⟨.hpiTags, 31, 16⟩
/-- hpiTags[15:0]. -/
def F.hpiTagsInUse : Fld := ⟨.hpiTags, 15, 0⟩
/-- injLim[31:31]. -/
def F.injLimEn : Fld := ⟨.injLim, 31, 31⟩
/-- injLim[27:20]. -/
def F.injLimBurst : Fld := ⟨.injLim, 27, 20⟩
/-- injLim[15:0]. -/
def F.injLimRate : Fld := ⟨.injLim, 15, 0⟩
/-- irtCnt[63:48]. -/
def F.irtCntFencedDrops : Fld := ⟨.irtCnt, 63, 48⟩
/-- irtCnt[47:32]. -/
def F.irtCntBadVec : Fld := ⟨.irtCnt, 47, 32⟩
/-- irtCnt[31:0]. -/
def F.irtCntSent : Fld := ⟨.irtCnt, 31, 0⟩
/-- irtMod[15:8]. -/
def F.irtModModCnt : Fld := ⟨.irtMod, 15, 8⟩
/-- irtMod[7:0]. -/
def F.irtModModInt : Fld := ⟨.irtMod, 7, 0⟩
/-- irtPort[26:16]. -/
def F.irtPortVfVec : Fld := ⟨.irtPort, 26, 16⟩
/-- irtPort[10:0]. -/
def F.irtPortPfVec : Fld := ⟨.irtPort, 10, 0⟩
/-- irtSel[14:0]. -/
def F.irtSelEntry : Fld := ⟨.irtSel, 14, 0⟩
/-- keySts[13:13]. -/
def F.keyStsRecRef : Fld := ⟨.keySts, 13, 13⟩
/-- keySts[12:12]. -/
def F.keyStsDebugLock : Fld := ⟨.keySts, 12, 12⟩
/-- keySts[11:10]. -/
def F.keyStsInUse : Fld := ⟨.keySts, 11, 10⟩
/-- keySts[7:4]. -/
def F.keyStsRevoked : Fld := ⟨.keySts, 7, 4⟩
/-- keySts[3:0]. -/
def F.keyStsEnrolled : Fld := ⟨.keySts, 3, 0⟩
/-- laneEq[28:24]. -/
def F.laneEqCtle : Fld := ⟨.laneEq, 28, 24⟩
/-- laneEq[21:16]. -/
def F.laneEqPost : Fld := ⟨.laneEq, 21, 16⟩
/-- laneEq[14:8]. -/
def F.laneEqMain : Fld := ⟨.laneEq, 14, 8⟩
/-- laneEq[4:0]. -/
def F.laneEqPre : Fld := ⟨.laneEq, 4, 0⟩
/-- laneErr[31:0]. -/
def F.laneErrErrors : Fld := ⟨.laneErr, 31, 0⟩
/-- laneInj[31:31]. -/
def F.laneInjGo : Fld := ⟨.laneInj, 31, 31⟩
/-- laneInj[30:29]. -/
def F.laneInjKind : Fld := ⟨.laneInj, 30, 29⟩
/-- laneInj[17:8]. -/
def F.laneInjBurst : Fld := ⟨.laneInj, 17, 8⟩
/-- laneInj[5:0]. -/
def F.laneInjExp : Fld := ⟨.laneInj, 5, 0⟩
/-- lanePat[63:0]. -/
def F.lanePatPattern : Fld := ⟨.lanePat, 63, 0⟩
/-- laneTst[31:31]. -/
def F.laneTstChkLock : Fld := ⟨.laneTst, 31, 31⟩
/-- laneTst[30:30]. -/
def F.laneTstPolInv : Fld := ⟨.laneTst, 30, 30⟩
/-- laneTst[11:10]. -/
def F.laneTstLoop : Fld := ⟨.laneTst, 11, 10⟩
/-- laneTst[9:9]. -/
def F.laneTstChkEn : Fld := ⟨.laneTst, 9, 9⟩
/-- laneTst[8:8]. -/
def F.laneTstGenEn : Fld := ⟨.laneTst, 8, 8⟩
/-- laneTst[2:0]. -/
def F.laneTstPat : Fld := ⟨.laneTst, 2, 0⟩
/-- lbFn[26:16]. -/
def F.lbFnFnLast : Fld := ⟨.lbFn, 26, 16⟩
/-- lbFn[10:0]. -/
def F.lbFnFnFirst : Fld := ⟨.lbFn, 10, 0⟩
/-- lbPf[19:16]. -/
def F.lbPfDepth : Fld := ⟨.lbPf, 19, 16⟩
/-- lbPf[9:0]. -/
def F.lbPfLife : Fld := ⟨.lbPf, 9, 0⟩
/-- lbPfcnt[63:32]. -/
def F.lbPfcntHits : Fld := ⟨.lbPfcnt, 63, 32⟩
/-- lbPfcnt[31:0]. -/
def F.lbPfcntMisses : Fld := ⟨.lbPfcnt, 31, 0⟩
/-- lbStg[31:31]. -/
def F.lbStgEn : Fld := ⟨.lbStg, 31, 31⟩
/-- lbStg[25:12]. -/
def F.lbStgBase : Fld := ⟨.lbStg, 25, 12⟩
/-- lbStg[4:0]. -/
def F.lbStgSizeLog2 : Fld := ⟨.lbStg, 4, 0⟩
/-- lbSts[31:16]. -/
def F.lbStsRetries : Fld := ⟨.lbSts, 31, 16⟩
/-- lbSts[15:8]. -/
def F.lbStsLocks : Fld := ⟨.lbSts, 15, 8⟩
/-- lbSts[7:0]. -/
def F.lbStsBlocksPf : Fld := ⟨.lbSts, 7, 0⟩
/-- lbTun[31:31]. -/
def F.lbTunEn : Fld := ⟨.lbTun, 31, 31⟩
/-- lbTun[30:29]. -/
def F.lbTunKind : Fld := ⟨.lbTun, 30, 29⟩
/-- lbTun[21:16]. -/
def F.lbTunPeerCh : Fld := ⟨.lbTun, 21, 16⟩
/-- lbTun[13:11]. -/
def F.lbTunPeerPort : Fld := ⟨.lbTun, 13, 11⟩
/-- lbTun[10:0]. -/
def F.lbTunFn : Fld := ⟨.lbTun, 10, 0⟩
/-- linkSel[8:0]. -/
def F.linkSelLink : Fld := ⟨.linkSel, 8, 0⟩
/-- linkSts[31:31]. -/
def F.linkStsInService : Fld := ⟨.linkSts, 31, 31⟩
/-- linkSts[30:30]. -/
def F.linkStsForceOut : Fld := ⟨.linkSts, 30, 30⟩
/-- linkSts[29:29]. -/
def F.linkStsFailed : Fld := ⟨.linkSts, 29, 29⟩
/-- linkSts[15:8]. -/
def F.linkStsRepeats : Fld := ⟨.linkSts, 15, 8⟩
/-- linkSts[7:0]. -/
def F.linkStsCorrections : Fld := ⟨.linkSts, 7, 0⟩
/-- llCnt[63:48]. -/
def F.llCntCrcErr : Fld := ⟨.llCnt, 63, 48⟩
/-- llCnt[47:32]. -/
def F.llCntNakTx : Fld := ⟨.llCnt, 47, 32⟩
/-- llCnt[31:16]. -/
def F.llCntNakRx : Fld := ⟨.llCnt, 31, 16⟩
/-- llCnt[15:0]. -/
def F.llCntReplayTmo : Fld := ⟨.llCnt, 15, 0⟩
/-- llCred[63:48]. -/
def F.llCredNpHdr : Fld := ⟨.llCred, 63, 48⟩
/-- llCred[47:32]. -/
def F.llCredPHdr : Fld := ⟨.llCred, 47, 32⟩
/-- llCred[23:0]. -/
def F.llCredPData : Fld := ⟨.llCred, 23, 0⟩
/-- llCtl[31:31]. -/
def F.llCtlDrRetrain : Fld := ⟨.llCtl, 31, 31⟩
/-- llCtl[19:0]. -/
def F.llCtlGrace : Fld := ⟨.llCtl, 19, 0⟩
/-- llDr[31:22]. -/
def F.llDrDrTh : Fld := ⟨.llDr, 31, 22⟩
/-- llDr[21:12]. -/
def F.llDrDrCnt : Fld := ⟨.llDr, 21, 12⟩
/-- llDr[11:0]. -/
def F.llDrDrEvents : Fld := ⟨.llDr, 11, 0⟩
/-- llLeak[31:16]. -/
def F.llLeakHdrShort : Fld := ⟨.llLeak, 31, 16⟩
/-- llLeak[15:0]. -/
def F.llLeakDataShort : Fld := ⟨.llLeak, 15, 0⟩
/-- llSeq[27:16]. -/
def F.llSeqTxNext : Fld := ⟨.llSeq, 27, 16⟩
/-- llSeq[11:0]. -/
def F.llSeqRxAck : Fld := ⟨.llSeq, 11, 0⟩
/-- llSts[31:30]. -/
def F.llStsLstate : Fld := ⟨.llSts, 31, 30⟩
/-- llSts[29:29]. -/
def F.llStsInitErr : Fld := ⟨.llSts, 29, 29⟩
/-- llSts[28:28]. -/
def F.llStsFlushed : Fld := ⟨.llSts, 28, 28⟩
/-- llSts[26:16]. -/
def F.llStsReplayFr : Fld := ⟨.llSts, 26, 16⟩
/-- llSts[15:0]. -/
def F.llStsFlushes : Fld := ⟨.llSts, 15, 0⟩
/-- llTmr[31:16]. -/
def F.llTmrCto : Fld := ⟨.llTmr, 31, 16⟩
/-- llTmr[15:0]. -/
def F.llTmrReplayTo : Fld := ⟨.llTmr, 15, 0⟩
/-- lnkCtl[11:10]. -/
def F.lnkCtlMaxRate : Fld := ⟨.lnkCtl, 11, 10⟩
/-- lnkCtl[9:8]. -/
def F.lnkCtlWidth : Fld := ⟨.lnkCtl, 9, 8⟩
/-- lnkCtl[3:3]. -/
def F.lnkCtlFarLoopOk : Fld := ⟨.lnkCtl, 3, 3⟩
/-- lnkCtl[2:2]. -/
def F.lnkCtlMode : Fld := ⟨.lnkCtl, 2, 2⟩
/-- lnkCtl[1:1]. -/
def F.lnkCtlRetrain : Fld := ⟨.lnkCtl, 1, 1⟩
/-- lnkCtl[0:0]. -/
def F.lnkCtlEn : Fld := ⟨.lnkCtl, 0, 0⟩
/-- lnkSts[31:28]. -/
def F.lnkStsState : Fld := ⟨.lnkSts, 31, 28⟩
/-- lnkSts[27:26]. -/
def F.lnkStsRate : Fld := ⟨.lnkSts, 27, 26⟩
/-- lnkSts[25:24]. -/
def F.lnkStsWidth : Fld := ⟨.lnkSts, 25, 24⟩
/-- lnkSts[23:20]. -/
def F.lnkStsAttempts : Fld := ⟨.lnkSts, 23, 20⟩
/-- lnkSts[19:16]. -/
def F.lnkStsFail : Fld := ⟨.lnkSts, 19, 16⟩
/-- lnkSts[15:0]. -/
def F.lnkStsRetrains : Fld := ⟨.lnkSts, 15, 0⟩
/-- logData[63:0]. -/
def F.logDataData : Fld := ⟨.logData, 63, 0⟩
/-- logSel[31:30]. -/
def F.logSelLog : Fld := ⟨.logSel, 31, 30⟩
/-- logSel[19:17]. -/
def F.logSelWord : Fld := ⟨.logSel, 19, 17⟩
/-- logSel[16:0]. -/
def F.logSelIndex : Fld := ⟨.logSel, 16, 0⟩
/-- mlPartner[63:0]. -/
def F.mlPartnerId : Fld := ⟨.mlPartner, 63, 0⟩
/-- mlSts[31:24]. -/
def F.mlStsLastType : Fld := ⟨.mlSts, 31, 24⟩
/-- mlSts[23:16]. -/
def F.mlStsCrcErrs : Fld := ⟨.mlSts, 23, 16⟩
/-- mlSts[1:1]. -/
def F.mlStsWakeSeen : Fld := ⟨.mlSts, 1, 1⟩
/-- mlSts[0:0]. -/
def F.mlStsHelloOk : Fld := ⟨.mlSts, 0, 0⟩
/-- mvDrop[31:16]. -/
def F.mvDropDrops : Fld := ⟨.mvDrop, 31, 16⟩
/-- mvDrop[5:0]. -/
def F.mvDropHeld : Fld := ⟨.mvDrop, 5, 0⟩
/-- mvSts[25:16]. -/
def F.mvStsBlocks : Fld := ⟨.mvSts, 25, 16⟩
/-- mvSts[9:0]. -/
def F.mvStsCtx : Fld := ⟨.mvSts, 9, 0⟩
/-- pclCtl[0:0]. -/
def F.pclCtlRun : Fld := ⟨.pclCtl, 0, 0⟩
/-- pclEng[31:30]. -/
def F.pclEngState : Fld := ⟨.pclEng, 31, 30⟩
/-- pclEng[29:29]. -/
def F.pclEngRestart : Fld := ⟨.pclEng, 29, 29⟩
/-- pclEng[28:28]. -/
def F.pclEngKick : Fld := ⟨.pclEng, 28, 28⟩
/-- pclEng[23:16]. -/
def F.pclEngLastFault : Fld := ⟨.pclEng, 23, 16⟩
/-- pclEng[15:0]. -/
def F.pclEngQid : Fld := ⟨.pclEng, 15, 0⟩
/-- pclFaultCnt[31:16]. -/
def F.pclFaultCntHalts : Fld := ⟨.pclFaultCnt, 31, 16⟩
/-- pclFaultCnt[15:0]. -/
def F.pclFaultCntFaults : Fld := ⟨.pclFaultCnt, 15, 0⟩
/-- pclLimits[31:31]. -/
def F.pclLimitsCommit : Fld := ⟨.pclLimits, 31, 31⟩
/-- pclLimits[30:24]. -/
def F.pclLimitsCtxCap : Fld := ⟨.pclLimits, 30, 24⟩
/-- pclLimits[23:0]. -/
def F.pclLimitsBudget : Fld := ⟨.pclLimits, 23, 0⟩
/-- pclPsAddr[16:0]. -/
def F.pclPsAddrWord : Fld := ⟨.pclPsAddr, 16, 0⟩
/-- pclPsData[31:0]. -/
def F.pclPsDataData : Fld := ⟨.pclPsData, 31, 0⟩
/-- pclSts[31:24]. -/
def F.pclStsIdle : Fld := ⟨.pclSts, 31, 24⟩
/-- pclSts[23:16]. -/
def F.pclStsHalt : Fld := ⟨.pclSts, 23, 16⟩
/-- pclSts[15:8]. -/
def F.pclStsWaiting : Fld := ⟨.pclSts, 15, 8⟩
/-- pclSts[2:2]. -/
def F.pclStsPsCorr : Fld := ⟨.pclSts, 2, 2⟩
/-- pclSts[1:1]. -/
def F.pclStsInitDone : Fld := ⟨.pclSts, 1, 1⟩
/-- pclSts[0:0]. -/
def F.pclStsStopped : Fld := ⟨.pclSts, 0, 0⟩
/-- pfrCtl[31:31]. -/
def F.pfrCtlEn : Fld := ⟨.pfrCtl, 31, 31⟩
/-- pfrCtl[10:0]. -/
def F.pfrCtlVec : Fld := ⟨.pfrCtl, 10, 0⟩
/-- pfrSts[31:0]. -/
def F.pfrStsTotal : Fld := ⟨.pfrSts, 31, 0⟩
/-- pwcClk[2:2]. -/
def F.pwcClkMgcPllLock : Fld := ⟨.pwcClk, 2, 2⟩
/-- pwcClk[1:1]. -/
def F.pwcClkMgcSrc : Fld := ⟨.pwcClk, 1, 1⟩
/-- pwcClk[0:0]. -/
def F.pwcClkMgcPllEn : Fld := ⟨.pwcClk, 0, 0⟩
/-- pwrCtl[31:31]. -/
def F.pwrCtlDeepEn : Fld := ⟨.pwrCtl, 31, 31⟩
/-- pwrCtl[19:0]. -/
def F.pwrCtlDeepT : Fld := ⟨.pwrCtl, 19, 0⟩
/-- pwrDom[31:30]. -/
def F.pwrDomState : Fld := ⟨.pwrDom, 31, 30⟩
/-- pwrDom[29:28]. -/
def F.pwrDomTrans : Fld := ⟨.pwrDom, 29, 28⟩
/-- pwrDom[27:27]. -/
def F.pwrDomRetry : Fld := ⟨.pwrDom, 27, 27⟩
/-- pwrDom[26:26]. -/
def F.pwrDomOffOk : Fld := ⟨.pwrDom, 26, 26⟩
/-- pwrDom[25:25]. -/
def F.pwrDomForceOn : Fld := ⟨.pwrDom, 25, 25⟩
/-- pwrDom[24:22]. -/
def F.pwrDomAttempts : Fld := ⟨.pwrDom, 24, 22⟩
/-- pwrDom[19:0]. -/
def F.pwrDomIdleT : Fld := ⟨.pwrDom, 19, 0⟩
/-- pwrRef[63:32]. -/
def F.pwrRefRefusals : Fld := ⟨.pwrRef, 63, 32⟩
/-- pwrRef[31:30]. -/
def F.pwrRefKind : Fld := ⟨.pwrRef, 31, 30⟩
/-- pwrRef[23:16]. -/
def F.pwrRefCause : Fld := ⟨.pwrRef, 23, 16⟩
/-- pwrRef[10:0]. -/
def F.pwrRefWho : Fld := ⟨.pwrRef, 10, 0⟩
/-- pwrSts[63:48]. -/
def F.pwrStsLostRec : Fld := ⟨.pwrSts, 63, 48⟩
/-- pwrSts[32:32]. -/
def F.pwrStsDeep : Fld := ⟨.pwrSts, 32, 32⟩
/-- pwrSts[23:0]. -/
def F.pwrStsFailed : Fld := ⟨.pwrSts, 23, 0⟩
/-- qCfg[20:16]. -/
def F.qCfgCqLog2 : Fld := ⟨.qCfg, 20, 16⟩
/-- qCfg[4:0]. -/
def F.qCfgSqLog2 : Fld := ⟨.qCfg, 4, 0⟩
/-- qCqPtr[31:16]. -/
def F.qCqPtrCqtail : Fld := ⟨.qCqPtr, 31, 16⟩
/-- qCqPtr[15:0]. -/
def F.qCqPtrCqhead : Fld := ⟨.qCqPtr, 15, 0⟩
/-- qCqbase[63:0]. -/
def F.qCqbaseBase : Fld := ⟨.qCqbase, 63, 0⟩
/-- qCtl[1:1]. -/
def F.qCtlSkip : Fld := ⟨.qCtl, 1, 1⟩
/-- qCtl[0:0]. -/
def F.qCtlEn : Fld := ⟨.qCtl, 0, 0⟩
/-- qParam[63:0]. -/
def F.qParamParam : Fld := ⟨.qParam, 63, 0⟩
/-- qSqPtr[31:16]. -/
def F.qSqPtrSqtail : Fld := ⟨.qSqPtr, 31, 16⟩
/-- qSqPtr[15:0]. -/
def F.qSqPtrSqhead : Fld := ⟨.qSqPtr, 15, 0⟩
/-- qSqbase[63:0]. -/
def F.qSqbaseBase : Fld := ⟨.qSqbase, 63, 0⟩
/-- qSts[31:31]. -/
def F.qStsActive : Fld := ⟨.qSts, 31, 31⟩
/-- qSts[30:30]. -/
def F.qStsErr : Fld := ⟨.qSts, 30, 30⟩
/-- qSts[29:29]. -/
def F.qStsCfgErr : Fld := ⟨.qSts, 29, 29⟩
/-- qSts[28:28]. -/
def F.qStsPhase : Fld := ⟨.qSts, 28, 28⟩
/-- qSts[7:0]. -/
def F.qStsErrCode : Fld := ⟨.qSts, 7, 0⟩
/-- qmDrop[31:16]. -/
def F.qmDropDisDrops : Fld := ⟨.qmDrop, 31, 16⟩
/-- qmDrop[15:0]. -/
def F.qmDropViol : Fld := ⟨.qmDrop, 15, 0⟩
/-- qmQbind[31:24]. -/
def F.qmQbindLmask : Fld := ⟨.qmQbind, 31, 24⟩
/-- qmQbind[19:17]. -/
def F.qmQbindCluster : Fld := ⟨.qmQbind, 19, 17⟩
/-- qmQbind[16:0]. -/
def F.qmQbindTrail : Fld := ⟨.qmQbind, 16, 0⟩
/-- qmQerr[7:0]. -/
def F.qmQerrCode : Fld := ⟨.qmQerr, 7, 0⟩
/-- qmQhead[15:0]. -/
def F.qmQheadHead : Fld := ⟨.qmQhead, 15, 0⟩
/-- rtData[15:15]. -/
def F.rtDataReach : Fld := ⟨.rtData, 15, 15⟩
/-- rtData[14:10]. -/
def F.rtDataSwbGrp : Fld := ⟨.rtData, 14, 10⟩
/-- rtData[9:5]. -/
def F.rtDataDetourGrp : Fld := ⟨.rtData, 9, 5⟩
/-- rtData[4:0]. -/
def F.rtDataAdaptGrp : Fld := ⟨.rtData, 4, 0⟩
/-- rtSel[14:8]. -/
def F.rtSelUnit : Fld := ⟨.rtSel, 14, 8⟩
/-- rtSel[5:0]. -/
def F.rtSelDest : Fld := ⟨.rtSel, 5, 0⟩
/-- scrubCtl[31:24]. -/
def F.scrubCtlPsEn : Fld := ⟨.scrubCtl, 31, 24⟩
/-- scrubCtl[19:16]. -/
def F.scrubCtlGrpEn : Fld := ⟨.scrubCtl, 19, 16⟩
/-- scrubCtl[15:0]. -/
def F.scrubCtlGap : Fld := ⟨.scrubCtl, 15, 0⟩
/-- scrubSts[31:16]. -/
def F.scrubStsCorr : Fld := ⟨.scrubSts, 31, 16⟩
/-- scrubSts[15:0]. -/
def F.scrubStsUnc : Fld := ⟨.scrubSts, 15, 0⟩
/-- semCmd[31:30]. -/
def F.semCmdOp : Fld := ⟨.semCmd, 31, 30⟩
/-- semCmd[10:0]. -/
def F.semCmdNum : Fld := ⟨.semCmd, 10, 0⟩
/-- semResult[2:0]. -/
def F.semResultResult : Fld := ⟨.semResult, 2, 0⟩
/-- semSts[31:31]. -/
def F.semStsHeld : Fld := ⟨.semSts, 31, 31⟩
/-- semSts[30:29]. -/
def F.semStsOkind : Fld := ⟨.semSts, 30, 29⟩
/-- semSts[28:23]. -/
def F.semStsEngine : Fld := ⟨.semSts, 28, 23⟩
/-- semSts[22:12]. -/
def F.semStsFn : Fld := ⟨.semSts, 22, 12⟩
/-- semSts[11:0]. -/
def F.semStsGen : Fld := ⟨.semSts, 11, 0⟩
/-- slotCtl[31:31]. -/
def F.slotCtlCommit : Fld := ⟨.slotCtl, 31, 31⟩
/-- slotSts[31:31]. -/
def F.slotStsPending : Fld := ⟨.slotSts, 31, 31⟩
/-- slotSts[7:0]. -/
def F.slotStsSlot : Fld := ⟨.slotSts, 7, 0⟩
/-- sqTailDb[15:0]. -/
def F.sqTailDbTail : Fld := ⟨.sqTailDb, 15, 0⟩
/-- stepMonCtl[2:2]. -/
def F.stepMonCtlRun : Fld := ⟨.stepMonCtl, 2, 2⟩
/-- stepMonCtl[1:0]. -/
def F.stepMonCtlWindow : Fld := ⟨.stepMonCtl, 1, 0⟩
/-- stepMonResult[31:31]. -/
def F.stepMonResultValid : Fld := ⟨.stepMonResult, 31, 31⟩
/-- stepMonResult[19:0]. -/
def F.stepMonResultSteps : Fld := ⟨.stepMonResult, 19, 0⟩
/-- svcCtl[31:31]. -/
def F.svcCtlCommit : Fld := ⟨.svcCtl, 31, 31⟩
/-- svcCtl[6:4]. -/
def F.svcCtlDefQc1 : Fld := ⟨.svcCtl, 6, 4⟩
/-- svcCtl[2:0]. -/
def F.svcCtlDefQc0 : Fld := ⟨.svcCtl, 2, 0⟩
/-- tbCoarseEnd[63:0]. -/
def F.tbCoarseEndSwitchCount : Fld := ⟨.tbCoarseEnd, 63, 0⟩
/-- tbCtl[7:7]. -/
def F.tbCtlPllLock : Fld := ⟨.tbCtl, 7, 7⟩
/-- tbCtl[6:6]. -/
def F.tbCtlCoarse : Fld := ⟨.tbCtl, 6, 6⟩
/-- tbCtl[2:2]. -/
def F.tbCtlLockLost : Fld := ⟨.tbCtl, 2, 2⟩
/-- tbCtl[1:1]. -/
def F.tbCtlSrc : Fld := ⟨.tbCtl, 1, 1⟩
/-- tbCtl[0:0]. -/
def F.tbCtlPllEn : Fld := ⟨.tbCtl, 0, 0⟩
/-- tbNow[63:0]. -/
def F.tbNowCount : Fld := ⟨.tbNow, 63, 0⟩
/-- tbSlew[15:0]. -/
def F.tbSlewSlew : Fld := ⟨.tbSlew, 15, 0⟩
/-- tbStep[31:0]. -/
def F.tbStepStep : Fld := ⟨.tbStep, 31, 0⟩
/-- teCmd[1:0]. -/
def F.teCmdOp : Fld := ⟨.teCmd, 1, 0⟩
/-- teData[22:22]. -/
def F.teDataV : Fld := ⟨.teData, 22, 22⟩
/-- teData[21:21]. -/
def F.teDataWp : Fld := ⟨.teData, 21, 21⟩
/-- teData[20:18]. -/
def F.teDataPort : Fld := ⟨.teData, 20, 18⟩
/-- teData[17:0]. -/
def F.teDataLreg : Fld := ⟨.teData, 17, 0⟩
/-- teSel[17:0]. -/
def F.teSelEntry : Fld := ⟨.teSel, 17, 0⟩
/-- teSts[31:31]. -/
def F.teStsBusy : Fld := ⟨.teSts, 31, 31⟩
/-- teSts[30:30]. -/
def F.teStsQuar : Fld := ⟨.teSts, 30, 30⟩
/-- teSts[29:29]. -/
def F.teStsIgn : Fld := ⟨.teSts, 29, 29⟩
/-- teWver[31:0]. -/
def F.teWverWver : Fld := ⟨.teWver, 31, 0⟩
/-- thermCtl[31:31]. -/
def F.thermCtlTrip : Fld := ⟨.thermCtl, 31, 31⟩
/-- thermCtl[30:30]. -/
def F.thermCtlHot : Fld := ⟨.thermCtl, 30, 30⟩
/-- thermCtl[15:0]. -/
def F.thermCtlHotTh : Fld := ⟨.thermCtl, 15, 0⟩
/-- thermSts[15:0]. -/
def F.thermStsTemp : Fld := ⟨.thermSts, 15, 0⟩
/-- trcCtl[31:31]. -/
def F.trcCtlEn : Fld := ⟨.trcCtl, 31, 31⟩
/-- trcCtl[30:30]. -/
def F.trcCtlStop : Fld := ⟨.trcCtl, 30, 30⟩
/-- trcCtl[7:0]. -/
def F.trcCtlMask : Fld := ⟨.trcCtl, 7, 0⟩
/-- trcMark[63:0]. -/
def F.trcMarkData : Fld := ⟨.trcMark, 63, 0⟩
/-- trcSts[31:31]. -/
def F.trcStsFull : Fld := ⟨.trcSts, 31, 31⟩
/-- trcSts[30:17]. -/
def F.trcStsDrops : Fld := ⟨.trcSts, 30, 17⟩
/-- trcSts[16:0]. -/
def F.trcStsWp : Fld := ⟨.trcSts, 16, 0⟩
/-- vlogSts[63:32]. -/
def F.vlogStsLost : Fld := ⟨.vlogSts, 63, 32⟩
/-- vlogSts[31:0]. -/
def F.vlogStsNext : Fld := ⟨.vlogSts, 31, 0⟩
/-- winAcc[43:43]. -/
def F.winAccOwned : Fld := ⟨.winAcc, 43, 43⟩
/-- winAcc[42:32]. -/
def F.winAccOwner : Fld := ⟨.winAcc, 42, 32⟩
/-- winAcc[26:16]. -/
def F.winAccFnLast : Fld := ⟨.winAcc, 26, 16⟩
/-- winAcc[10:0]. -/
def F.winAccFnFirst : Fld := ⟨.winAcc, 10, 0⟩
/-- winCmd[1:0]. -/
def F.winCmdOp : Fld := ⟨.winCmd, 1, 0⟩
/-- winCw[49:32]. -/
def F.winCwBaseEntry : Fld := ⟨.winCw, 49, 32⟩
/-- winCw[20:16]. -/
def F.winCwSizeLog2 : Fld := ⟨.winCw, 20, 16⟩
/-- winCw[15:8]. -/
def F.winCwXv : Fld := ⟨.winCw, 15, 8⟩
/-- winCw[5:3]. -/
def F.winCwSwap : Fld := ⟨.winCw, 5, 3⟩
/-- winCw[2:2]. -/
def F.winCwWp : Fld := ⟨.winCw, 2, 2⟩
/-- winCw[1:1]. -/
def F.winCwSef : Fld := ⟨.winCw, 1, 1⟩
/-- winCw[0:0]. -/
def F.winCwEn : Fld := ⟨.winCw, 0, 0⟩
/-- winSel[11:0]. -/
def F.winSelWin : Fld := ⟨.winSel, 11, 0⟩
/-- winSts[31:31]. -/
def F.winStsBusy : Fld := ⟨.winSts, 31, 31⟩
/-- winSts[30:30]. -/
def F.winStsDraining : Fld := ⟨.winSts, 30, 30⟩
/-- winSts[29:29]. -/
def F.winStsQuar : Fld := ⟨.winSts, 29, 29⟩
/-- winSts[23:16]. -/
def F.winStsDxv : Fld := ⟨.winSts, 23, 16⟩
/-- winSts[15:8]. -/
def F.winStsXv : Fld := ⟨.winSts, 15, 8⟩
/-- winSts[3:0]. -/
def F.winStsErr : Fld := ⟨.winSts, 3, 0⟩
/-- winTag[63:0]. -/
def F.winTagTag : Fld := ⟨.winTag, 63, 0⟩
/-- wsCtl[31:31]. -/
def F.wsCtlArm : Fld := ⟨.wsCtl, 31, 31⟩
/-- wsCtl[30:30]. -/
def F.wsCtlTrig : Fld := ⟨.wsCtl, 30, 30⟩
/-- wsCtl[29:29]. -/
def F.wsCtlLevel : Fld := ⟨.wsCtl, 29, 29⟩
/-- wsMask[23:0]. -/
def F.wsMaskMask : Fld := ⟨.wsMask, 23, 0⟩
/-- xltCnt[31:16]. -/
def F.xltCntQuarEvents : Fld := ⟨.xltCnt, 31, 16⟩
/-- xltCnt[15:0]. -/
def F.xltCntCopyFix : Fld := ⟨.xltCnt, 15, 0⟩
/-- xltLoc[19:16]. -/
def F.xltLocD2 : Fld := ⟨.xltLoc, 19, 16⟩
/-- xltLoc[15:12]. -/
def F.xltLocD1 : Fld := ⟨.xltLoc, 15, 12⟩
/-- xltLoc[11:8]. -/
def F.xltLocD0 : Fld := ⟨.xltLoc, 11, 8⟩
/-- xltLoc[7:4]. -/
def F.xltLocTb : Fld := ⟨.xltLoc, 7, 4⟩
/-- xltLoc[3:0]. -/
def F.xltLocTa : Fld := ⟨.xltLoc, 3, 0⟩

/-- The encodings that the register tables reserve (R12): `false` when `v` is a reserved encoding of the field of
`r` whose lowest bit is `lo`. -/
def encodingOk (r : RegId) (lo v : Nat) : Bool :=
  match r, lo with
  | .tbSlew, 0 => v ≤ 5000 || 60536 ≤ v
  | .gateAllow, 0 => v ≤ 64
  | .linkSel, 0 => v < 352
  | .rtSel, 8 => v < 66
  | .rtSel, 0 => v < 46
  | .arbCtl, 0 => 256 ≤ v
  | .pclLimits, 24 => 1 ≤ v && v ≤ 64
  | .winCw, 3 => v < 5
  | .lnkCtl, 10 => v != 0
  | .lnkCtl, 8 => v != 3
  | .laneTst, 0 => v < 5
  | .laneInj, 0 => 10 ≤ v && v ≤ 40
  | .llCtl, 0 => v ≤ 1000000
  | .llTmr, 16 => 1 ≤ v
  | .llTmr, 0 => 256 ≤ v
  | .llDr, 22 => 1 ≤ v && v ≤ 1000
  | .lbPf, 16 => v ≤ 8
  | .lbPf, 0 => 1 ≤ v && v ≤ 1000
  | .lbStg, 0 => 12 ≤ v && v ≤ 26
  | .lbTun, 29 => v != 3
  | .slot, _ => v ≤ 8
  | .scrubCtl, 0 => 1 ≤ v
  | .logSel, 30 => v != 3
  | .errInj, 48 => v ≤ 9
  | .pwrCtl, 0 => 1 ≤ v && v ≤ 1000000
  | .pwrDom, 0 => v ≤ 1000000
  | _, _ => true

/-- Table 3-2: the default allowance of NI j at gate g, in KiB, for a group of `n` x4 ports (R52); 0 for an NI
outside the feed set. `members` says whether j is an LPI of the gate's own group. -/
def allowDefault (g j n : Nat) (member : Bool) : Nat :=
  if g < 2 then
    if j = g then 0
    else if j < 2 then 32
    else if j < 10 then 16
    else if j < 18 then 32
    else if j = 42 then 4
    else if j < 46 then 2 else 0
  else
    if j < 2 then min (32 * n) 64
    else if j < 10 then (if member then 0 else min (8 * n) 64)
    else if j < 18 then min (32 * n) 64
    else if j = 42 then min (4 * n) 64 else 0

/-- Table 5-2: the default input of requester index i at arbiter a. -/
def arbDefaultInput (a i : Nat) : Nat :=
  if a < 16 then
    if i = 42 then 15 else if i < 2 then 14 else if i < 10 then 13 else if 34 ≤ i && i < 38 then 12
    else if i = 38 then 11 else if i = 39 then 10 else if i = 43 then 9 else if 10 ≤ i && i < 18 then 8
    else if i = 41 then 2 else 0
  else if a < 20 then
    if i = 42 then 15 else if i < 2 then 14 else if i < 10 then 13 else if i = 38 then 12
    else if 10 ≤ i && i < 18 then 8 else 0
  else if a < 28 then (if i < 8 then 12 else i - 8)
  else
    if i = 42 then 15 else if i = 0 then 14 else if 10 ≤ i && i < 18 then 8 else 0

/-- The requester indices that Table 5-1 lists for arbiter a. -/
def arbHasIndex (a i : Nat) : Bool :=
  if a < 16 then i < 47 else if a < 20 then i < 46 else if a < 28 then i < 16
  else i == 0 || (10 ≤ i && i < 18) || i == 42

/-- The reset value of instance `i` of a register: its table's value, or the one the table it refers to gives for
that instance (Tables 3-2 and 5-2). -/
def RegId.reset (r : RegId) (i : Nat) : Word :=
  match r with
  | .gateAllow => BitVec.ofNat 64 (allowDefault (i / 46) (i % 46) 1 (i % 46 == i / 46))
  | .arbMap =>
    BitVec.ofNat 64 ((List.range 8).foldl (fun acc n =>
      acc + (if arbHasIndex (i / 6) (8 * (i % 6) + n) then arbDefaultInput (i / 6) (8 * (i % 6) + n) else 0)
        * 16 ^ n) 0)
  | r => BitVec.ofNat 64 r.resetBits

/-- The place of an instance of a register in the register file. -/
def regKey (r : RegId) (i : Nat) : Nat := r.ctorIdx * 65536 + i

/-- What a control-space offset names. -/
inductive RegHit where
  | reg (r : RegId) (inst : Nat) (width : Nat)
  | misaligned
  | none
deriving DecidableEq, Repr, Inhabited

/-- One row of the map against an offset from the row's base. -/
def RegRow.hit (row : RegRow) (off width : Nat) : RegHit :=
  if off < row.base then .none
  else
    let rel := off - row.base
    let i1 := rel / row.s1
    let r1 := rel % row.s1
    let i2 := if row.n2 = 1 then 0 else r1 / row.s2
    let r2 := if row.n2 = 1 then r1 else r1 % row.s2
    if i1 < row.n1 ∧ i2 < row.n2 ∧ r2 < row.width / 8 then
      if r2 = 0 ∧ width * 8 = row.width then .reg row.reg (row.first + i1 * row.n2 + i2) row.width else .misaligned
    else .none

/-- The register at an offset, for an access of `width` bytes (R13, R492, R493): the first row that covers it. -/
def regAt (rows : List RegRow) (fa : Bool) (off width : Nat) : RegHit :=
  match rows with
  | [] => .none
  | row :: t =>
    if row.fa = fa then
      match row.hit off width with
      | .none => regAt t fa off width
      | h => h
    else regAt t fa off width

end Sys2Proof.Machine
end

