-- ==== Sys2Proof/Machine/SMap.lean ====
section
/-!
DEFINITION. Sparse maps: lists of (key, value) pairs in one canonical form, keys strictly rising and no value
equal to what an unlisted key reads as. Every indexed part of the state is one of these, so that equal contents
are equal data.
-/
namespace Sys2Proof.Machine

/-- A sparse map. -/
abbrev SMap (α : Type) := List (Nat × α)

/-- The value at a key; an unlisted key reads as `d`. -/
def mget {α : Type} (d : α) : SMap α → Nat → α
  | [], _ => d
  | (k', v) :: t, k => if k = k' then v else mget d t k

/-- A pair put before the first larger key. -/
def mins {α : Type} : SMap α → Nat → α → SMap α
  | [], k, v => [(k, v)]
  | (k', v') :: t, k, v => if k < k' then (k, v) :: (k', v') :: t else (k', v') :: mins t k v

/-- The map with the value at a key replaced; writing `d` removes the entry. -/
def mput {α : Type} [DecidableEq α] (d : α) (m : SMap α) (k : Nat) (v : α) : SMap α :=
  if v = d then m.filter (fun p => p.1 != k) else mins (m.filter (fun p => p.1 != k)) k v

/-- Every listed key is above `lo`, the keys rise strictly, and no entry holds `d`. -/
def mwfFrom {α : Type} [DecidableEq α] (d : α) : Nat → SMap α → Bool
  | _, [] => true
  | lo, (k, v) :: t => decide (lo ≤ k) && decide (v ≠ d) && mwfFrom d (k + 1) t

/-- The canonical form. -/
def mwf {α : Type} [DecidableEq α] (d : α) (m : SMap α) : Bool := mwfFrom d 0 m

/-- Any list of pairs brought into the canonical form. -/
def mcanon {α : Type} [DecidableEq α] (d : α) (m : SMap α) : SMap α :=
  m.foldl (fun a p => mput d a p.1 p.2) []

/-- The map with the values of the keys that `p` selects brought back to `d`. -/
def mclear {α : Type} (p : Nat → Bool) (m : SMap α) : SMap α := m.filter (fun x => !p x.1)

end Sys2Proof.Machine
end

