-- ==== Sys2Proof/Machine/Types.lean ====
section
/-!
DEFINITION. The plain data the state is made of, unit by unit, in the order of the spec's chapters. Unit numbers
are the spec's: NI 0 to 45 (Table 4-1), gates 0 to 9 (Table 3-3), arbiters 0 to 28 (Table 5-1), engines 8c + e,
clusters 0 to 7, functions 0 to 2047, QIDs 0 to 8191, links 0 to 351 (Table 4-13).
-/
namespace Sys2Proof.Machine

/-! ## Packets -/

/-- A stamp (Table 3-1). -/
structure Stamp where
  time : Nat := 0
  ni : Nat := 0
  coarse : Bool := false
  seq : Nat := 0
deriving DecidableEq, Repr, Inhabited

/-- A fabric packet: the header of Table 4-4, its payload and its stamp. `marker` is the marker a FENCE.P read
carries in ADDR[47:0] (R412); `eng` the requester index that handed the packet to the mover egress; `bad` the
flits whose payload words have failed parity on the way, with the mask of those words; `hdrBad` whether a header or
stamp word has; `inj` whether an injection caused it (R425); `born` the time its block offered it to the NI; `sef`
the SEF of the window a host read was translated by, for which the header has no bits (log 15). -/
structure Packet where
  cls : Nat := 0
  ty : Nat := 0
  src : Nat := 0
  dst : Nat := 0
  lv : Nat := 0
  qc : Nat := 0
  fn : Nat := 0
  tag : Nat := 0
  addr : Nat := 0
  len : Nat := 0
  fbe : BitVec 8 := 0
  lbe : BitVec 8 := 0
  asp : Nat := 0
  csts : Nat := 0
  swap : Nat := 0
  xv : Nat := 0
  icnt : Nat := 0
  age : Nat := 0
  dt : Bool := false
  uo : Bool := false
  ep : Bool := false
  ns : Bool := false
  ido : Bool := false
  ro : Bool := false
  data : List Byte := []
  stamp : Stamp := {}
  eng : Nat := 0
  inj : Bool := false
  born : Nat := 0
  bad : List (Nat × Nat) := []
  hdrBad : Bool := false
  sef : Bool := false
deriving DecidableEq, Repr, Inhabited

/-- A packet in the fabric: its flits, how many of them have entered, and the output channels it asks for at its
NI (R84). -/
structure Flight where
  pkt : Packet := {}
  nfl : Nat := 0
  sent : Nat := 0
  req : List Nat := []
deriving DecidableEq, Repr, Inhabited

/-- A flit on its way: the packet's place in the table of flights, its index in the packet and whether it is the
tail. -/
structure Flit where
  pid : Nat := 0
  idx : Nat := 0
  last : Bool := false
deriving DecidableEq, Repr, Inhabited

/-- One virtual channel of one link direction (R81): the packet it is allocated to, the channel that feeds it
(none: the NI itself), the flits in its buffer at the receiving end, the credits the sender lacks, and the output
channels that the head flit in the buffer asks for (R84). -/
structure Chan where
  owner : Option Nat := none
  via : Option Nat := none
  buf : List Flit := []
  used : Nat := 0
  req : List Nat := []
  seen : Bool := false
deriving DecidableEq, Repr, Inhabited

/-- One link direction (R74): the flit awaiting its acknowledge with its channel, how often it has been repeated
in a row, and the credits on the return bundle. -/
structure LinkDir where
  wire : Option (Nat × Flit) := none
  tries : Nat := 0
  owed : List Nat := []
deriving DecidableEq, Repr, Inhabited

/-- One link (R91, Table 4-14): the times of the repeats of the last 1 ms are kept to count them. -/
structure Link where
  out : Bool := false
  forced : Bool := false
  failed : Bool := false
  repeats : Nat := 0
  corrections : Nat := 0
  recent : List Nat := []
deriving DecidableEq, Repr, Inhabited

/-! ## Time base, order restoration -/

/-- A milestone (Table 3-3) on its way to its gate. -/
structure Milestone where
  time : Nat := 0
  src : Nat := 0
  gate : Nat := 0
  count : Nat := 0
  coarse : Bool := false
  park : Bool := false
  unpark : Bool := false
deriving DecidableEq, Repr, Inhabited

/-- A packet held at a gate and the time it arrived. -/
structure Held where
  pkt : Packet := {}
  at_ : Nat := 0
deriving DecidableEq, Repr, Inhabited

/-- What a gate's keeper holds of one feeder (R56 to R58): the watermark as a full time, whether the feeder is
parked, the pending milestone, and the count of packets received. -/
structure Feeder where
  w : Nat := 0
  parked : Bool := false
  pend : Option Milestone := none
  recv : Nat := 0
deriving DecidableEq, Repr, Inhabited

/-- A reorder gate (R51, R52): its held packets. -/
structure Gate where
  held : List Held := []
deriving DecidableEq, Repr, Inhabited

/-! ## Arbiters and semaphores -/

/-- A request in a presentation slot (R98) and the time it entered. -/
structure Req where
  pkt : Packet := {}
  at_ : Nat := 0
deriving DecidableEq, Repr, Inhabited

/-- An open contest (R99, R102): the map and COMPAT_EN that were active when it opened. -/
structure Contest where
  map : List Nat := []
  compat : Bool := false
deriving DecidableEq, Repr, Inhabited

/-- A grant or an open belay (R106 to R108): the requester index, the locked read or request, when it began, the
limit active then, and whether its request is still to be served. -/
structure Grant where
  idx : Nat := 0
  pkt : Packet := {}
  at_ : Nat := 0
  limit : Nat := 0
  serving : Bool := true
deriving DecidableEq, Repr, Inhabited

/-- One arbiter (Table 5-1): requests delivered and not yet in a slot, the slots, the consecutive losses and the
running backoffs per requester index, the open contest, the grant in service and the open belay, and for each cut
belay its SRC, FN and the time of the cut (R108). -/
structure Arb where
  waiting : List (Nat × Packet) := []
  slots : SMap (Option Req) := []
  losses : SMap Nat := []
  backoff : SMap Bool := []
  contest : Option Contest := none
  grant : Option Grant := none
  belay : Option Grant := none
  cut : List (Nat × Nat × Nat) := []
  lastWin : Nat := 0
deriving DecidableEq, Repr, Inhabited

/-- One semaphore (Table 5-10, SEM_STS_n). -/
structure Sem where
  held : Bool := false
  okind : Nat := 0
  engine : Nat := 0
  fn : Nat := 0
  gen : Nat := 0
deriving DecidableEq, Repr, Inhabited

/-! ## Pacers and movers -/

/-- The states of an engine (R120). -/
inductive EngSt where
  | idle | run | wait | halted
deriving DecidableEq, Repr, Inhabited

/-- What a stalled engine waits for (R127, R173, R217). -/
inductive Stall where
  | none
  | load (rd : Nat) (w : LdWidth)
  | atomic (rd : Nat) (d : Bool)
  | lock (rd : Nat) (w : LockWidth) (local_ : Bool) (target : Nat) (addr : Nat)
  | xlt (rd : Nat)
  | drain (rd : Nat)
  | sem (rd : Nat)
  | fence (rd : Nat) (dests : List Nat) (dam refused : Bool)
  | egress
deriving DecidableEq, Repr, Inhabited

/-- An engine (Table 6-2 and R120 to R143). Its general registers lie beside it and its scratch in the memories;
s.semn, s.semhi and s.ctxn are counted from the semaphores and contexts themselves. `outq` holds what waits to enter
the engine's slot at the mover egress, a RAISE that occupies the slot without presenting among it; `holds` counts how often the translation hold has set. -/
structure Eng where
  st : EngSt := .idle
  ending : Bool := false
  fn : Nat := 0
  qid : Nat := 0xFFFF
  stamp : Word := 0
  evt : Nat := 0
  emask : Nat := 0
  tmr : Nat := 0
  flags : Nat := 0
  pc : Nat := 0
  fault : Nat := 0
  fpc : Nat := 0
  ctx : Nat := 0x3FF
  ctxsts : Nat := 0
  belay : Bool := false
  belayLoc : Bool := false
  belayTarget : Nat := 0
  belayAddr : Nat := 0
  cutPend : Option Nat := none
  icnt : Nat := 0
  stack : List Nat := []
  stall : Stall := .none
  stallTag : Nat := 0
  stallDst : Nat := 0
  stallAddr : Nat := 0
  marker : Nat := 0
  hold : Bool := false
  holds : Nat := 0
  budget : Nat := 0
  raised : Bool := false
  ctxCap : Nat := 0x40
  posted : List Nat := []
  done : List (Nat × Nat) := []
  slots : List Bool := [true, true, true]
  nextSlot : Nat := 0
  lastFault : Nat := 0
  outq : List Packet := []
deriving DecidableEq, Repr, Inhabited

/-- A wake in a cluster's wake list (R130): a queue wake with its level, or a message wake. -/
structure Wake where
  msg : Bool := false
  lv : Nat := 0
  age : Nat := 0
  pkt : Packet := {}
deriving DecidableEq, Repr, Inhabited

/-- One read of a transfer context on its way: its tag, the offset in the source and its length. -/
structure CtxRead where
  tag : Nat := 0
  off : Nat := 0
  len : Nat := 0
deriving DecidableEq, Repr, Inhabited

/-- A transfer context (R205 to R211): the descriptor as copied, how far it has read and written, the bytes it
holds, its reads on their way, its packets not yet released, and its status. -/
structure Ctx where
  used : Bool := false
  eng : Nat := 0
  fn : Nat := 0
  sasp : Nat := 0
  dasp : Nat := 0
  saddr : Nat := 0
  daddr : Nat := 0
  len : Nat := 0
  uo : Bool := false
  ro : Bool := false
  ns : Bool := false
  ido : Bool := false
  sxlt : Word := 0
  dxlt : Word := 0
  tag : Nat := 0
  rdOff : Nat := 0
  wrOff : Nat := 0
  reads : List CtxRead := []
  got : List (Nat × List Byte × Bool) := []
  unreleased : Nat := 0
  banks : List Nat := []
  bankAcks : List Nat := []
  fail : Nat := 0
  poisoned : Bool := false
  stopped : Bool := false
  done : Bool := false
  seq : Nat := 0
deriving DecidableEq, Repr, Inhabited

/-- What one cluster shares (R119, R130, R223): the wake list, the message hold and whether its INIT task has
ended, its program store is loaded, and the version of its program section. -/
structure Cluster where
  wakes : List Wake := []
  hold : List (Nat × Packet) := []
  nextCtx : Nat := 0
  initPend : Bool := false
  loaded : Bool := false
  initRun : Bool := false
  image : Nat := 0
  belays : List Nat := []
deriving DecidableEq, Repr, Inhabited

/-! ## Queues -/

/-- The state QM keeps of a queue (Table 10-1, R236, R247): the fields that the function page and QM_QBIND give
are copied at the enable. -/
structure Queue where
  en : Bool := false
  held : Bool := false
  sqbase : Nat := 0
  cqbase : Nat := 0
  sqhead : Nat := 0
  sqtail : Nat := 0
  cqhead : Nat := 0
  cqtail : Nat := 0
  sqmask : Nat := 0
  cqmask : Nat := 0
  bind : Nat := 0
  param : Nat := 0
  dbStamp : Nat := 0
  headTime : Nat := 0
deriving DecidableEq, Repr, Inhabited

/-! ## Windows and translation -/

/-- A cached line of an XU: a resolved descriptor (three words) or a resolved entry (two words). -/
structure Line where
  entry : Bool := false
  idx : Nat := 0
  words : List Nat := []
deriving DecidableEq, Repr, Inhabited

/-- A miss in progress at an XU (R255): the request, the resolved descriptor, the entry whose copies it reads, what
it has read of the descriptor copies 0 to 2 and the entry copies 0 (A) and 1 (B) (none: not intact), how often the
window and the entry had been written when it began, and whether it has answered. -/
structure Miss where
  pkt : Packet := {}
  desc : Option (List Nat) := none
  readD : Bool := false
  ent : Option Nat := none
  dGot : List (Nat × Option (List Nat)) := []
  eGot : List (Nat × Option (List Nat)) := []
  dEpoch : Nat := 0
  eEpoch : Nat := 0
  replied : Bool := false
deriving DecidableEq, Repr, Inhabited

/-- A command of the commit sequencer (R263): the edit set it came from (11: none), and its operands. -/
inductive SeqCmd where
  | commit (set win : Nat) (words : List Nat)
  | bump (set win : Nat) (own : Bool)
  | entry (set e : Nat) (w0 : Nat)
  | dxv (win v tag : Nat)
  | rewrite (isEntry : Bool) (idx epoch : Nat) (words : Option (List Nat)) (fixed : List Nat)
deriving DecidableEq, Repr, Inhabited

/-- A drain job at an XU (R267): its tag, the window, the edit set or the engine's request that asked for it, the
version it drains once it has started, and whether a reset bump runs it (R269). -/
structure Drain where
  tag : Nat := 0
  x : Nat := 0
  win : Nat := 0
  set : Option Nat := none
  req : Option Packet := none
  started : Bool := false
  v : Nat := 0
  forBump : Bool := false
deriving DecidableEq, Repr, Inhabited

/-- A probe held at its source (R267): its packet, when it arrived, and at a cluster the contexts and the engines'
translation holds that it waits for. -/
structure Probe where
  pkt : Packet := {}
  at_ : Nat := 0
  ctxs : List (Nat × Nat) := []
  engs : List (Nat × Nat) := []
deriving DecidableEq, Repr, Inhabited

/-- A result in an HPI's translation cache (R256): FN, window and offset bits [41:24], the entry it used and the
translation word. -/
structure HpiLine where
  fn : Nat := 0
  win : Nat := 0
  reg : Nat := 0
  ent : Nat := 0
  word : Word := 0
deriving DecidableEq, Repr, Inhabited

/-! ## Ports -/

/-- A host request in an HPI's pipeline (R260, R366): its kind (0 write, 1 read, 2 to 4 FetchAdd, Swap, CAS), the
function addressed, the window and the aperture offset it waits for with the tag of its translation request (0x3FFF: none), whether the
result may be kept, and the packet once it is ready to enter. -/
structure HostReq where
  kind : Nat := 0
  tlp : Tlp := default
  fn : Nat := 0
  win : Nat := 0
  off : Nat := 0
  xltTag : Nat := 0x3FFF
  nocache : Bool := false
  pkt : Option Packet := none
deriving DecidableEq, Repr, Inhabited

/-- A host request whose packet has entered and that waits for its answer: the fabric tag, the destination, the function addressed,
the request and the answer so far. -/
structure HostOpen where
  tag : Nat := 0
  dst : Nat := 0
  fn : Nat := 0
  tlp : Tlp := default
deriving DecidableEq, Repr, Inhabited

/-- A tag of a host or Drevlink port (R295 to R297, R356): out or cooled, the function, the part of a request it
stands for, when its time began, its limit, and the request it serves. At a Drevlink port `raw` keeps the bytes as the
partner sent them and `ep` their poison; `lock` marks the tag of an open far lock and `pf` the prefetched block. -/
structure Tag where
  out : Bool := false
  cooled : Bool := false
  quiet : Bool := false
  fn : Nat := 0
  off : Nat := 0
  len : Nat := 0
  got : Nat := 0
  at_ : Nat := 0
  limit : Nat := 0
  coolAt : Nat := 0
  req : Packet := {}
  raw : List Byte := []
  ep : Bool := false
  lock : Bool := false
  pf : Option Nat := none
deriving DecidableEq, Repr, Inhabited

/-- A packet in a port's egress (R361, R395): its place in release order, how far it has been sent (R292), and when
it was released. -/
structure Egress where
  pkt : Packet := {}
  order : Nat := 0
  off : Nat := 0
  at_ : Nat := 0
deriving DecidableEq, Repr, Inhabited

/-- The answer a port gathers for one request (R292, R368): the bytes whose parts have not ended, the parts landed
with their offsets and poison, and the first failure: its CSTS and, in XV, what tells a timeout, fence or flush. -/
structure Gather where
  req : Packet := {}
  left : Nat := 0
  parts : List (Nat × List Byte × Bool) := []
  csts : Nat := 0
  xv : Nat := 0
deriving DecidableEq, Repr, Inhabited

/-- A host port (chapter 12): `width` is the width it trained to, `np` the reads that wait for a tag, `slot` the
current slot, `inj` whether the next TLP carries an injected ECRC error. The other link fields that registers show lie
in the register file. -/
structure Hpi where
  link : LinkState := .down
  width : Nat := 0
  perst : Bool := true
  reqs : List HostReq := []
  opens : List HostOpen := []
  egress : List Egress := []
  np : List Egress := []
  order : Nat := 0
  slot : Nat := 0
  pendTable : Bool := false
  cache : List HpiLine := []
  gather : List Gather := []
  ltr : Nat := 0
  inj : Bool := false
deriving DecidableEq, Repr, Inhabited

/-- A frame in the replay buffer (R342): the packet it came from with its place in release order, when it was first
sent, whether it waits to be sent again, and whether it has taken credits since the latest INIT. -/
structure TxFrame where
  frame : Frame := default
  pkt : Packet := {}
  order : Nat := 0
  at_ : Nat := 0
  again : Bool := false
  paid : Bool := true
deriving DecidableEq, Repr, Inhabited

/-- What the transmitter keeps of the credits of one class (R346 to R350): the INIT values once a valid INIT has come,
the latest counters, the credits used, and when a credit last arrived. -/
structure Credits where
  init : Bool := false
  hInit : Nat := 0
  dInit : Nat := 0
  hCnt : Nat := 0
  dCnt : Nat := 0
  hUsed : Nat := 0
  dUsed : Nat := 0
  at_ : Nat := 0
deriving DecidableEq, Repr, Inhabited

/-- What the receiver keeps of the credits of one class: those taken by accepted frames since its INIT, and the
counters it has announced (R348, Table 14-7). -/
structure Given where
  hTaken : Nat := 0
  dTaken : Nat := 0
  hAnn : Nat := 0
  dAnn : Nat := 0
deriving DecidableEq, Repr, Inhabited

/-- A prefetched block (R370, R371): its name, local address and XV, whether its data has arrived and when, whether it
has been dropped, and the data as the partner sent it. -/
structure PfBlock where
  id : Nat := 0
  addr : Nat := 0
  xv : Nat := 0
  arrived : Bool := false
  at_ : Nat := 0
  dropped : Bool := false
  data : List Byte := []
  ep : Bool := false
deriving DecidableEq, Repr, Inhabited

/-- A host read that is answered from prefetched blocks (R371), with the blocks it waits for or uses. -/
structure PfWait where
  req : Packet := {}
  need : List Nat := []
deriving DecidableEq, Repr, Inhabited

/-- An open far lock (R358, R372): its tag, the partner's bytes it covers, the packet that opened it, whether the
LPI runs it for a host AtomicOp, and the answer that waits for its unlock write or abort to leave. -/
structure FarLock where
  tag : Nat := 0
  addr : Nat := 0
  len : Nat := 0
  req : Packet := {}
  host : Bool := false
  ans : Option Packet := none
deriving DecidableEq, Repr, Inhabited

/-- A partner request accepted and not yet answered (R357, R374, R376): its fabric tag, its destination, its frame, whether it holds a
return block, and whether a flush has struck it. -/
structure PartReq where
  tag : Nat := 0
  dst : Nat := 0
  frame : Frame := default
  host : Bool := false
  dead : Bool := false
deriving DecidableEq, Repr, Inhabited

/-- A Drevlink port (chapters 13 to 15). Fields that registers show lie in the register file. The first group is the
training of R323: the state and when it was entered, whether LOCK was entered by a retrain, what has been exchanged,
the partner's rate, the lanes with codeword lock, when HELLO was last sent, the lanes with a running rate injection and
those in far-end loopback. `gone` is a departure from ACTIVE that the link layer has not yet taken, with its time and
whether both sides had agreed to sleep. -/
structure Lpi where
  st : Nat := 0
  stAt : Nat := 0
  retr : Bool := false
  eqSent : Bool := false
  eqRecv : Bool := false
  lockSent : Bool := false
  lockRecv : Bool := false
  sleepSent : Bool := false
  sleepRecv : Bool := false
  sleepAt : Nat := 0
  partnerRate : Nat := 0
  locks : List Nat := []
  helloAt : Option Nat := none
  inj : List Nat := []
  farLoop : List Nat := []
  gone : Option (Nat × Bool) := none
  lst : Nat := 0
  holdEnd : Option Nat := none
  up : Nat := 0
  txNext : Nat := 0
  rxAck : Nat := 0xFFF
  nakDue : Bool := false
  nakLock : Bool := false
  nakAt : Nat := 0
  replay : List TxFrame := []
  purgeAt : Nat := 0
  repStart : Nat := 0
  replays : Nat := 0
  emptyAt : Nat := 0
  po : Credits := {}
  np : Credits := {}
  gaveP : Given := {}
  gaveN : Given := {}
  keep : Bool := false
  resumeSent : Bool := false
  resumeRecv : Bool := false
  initSent : Nat := 0
  lcbNp : Bool := false
  stallAt : Nat := 0
  epoch : Nat := 0
  egress : List Egress := []
  order : Nat := 0
  gather : List Gather := []
  far : List FarLock := []
  parts : List PartReq := []
  pf : List PfBlock := []
  pfNext : Nat := 0
  waits : List PfWait := []
deriving DecidableEq, Repr, Inhabited

/-! ## Functions -/

/-- A vector of the pool (R387, R391): the MSI-X table entry and its moderation state. -/
structure Vec where
  addr : Nat := 0
  data : Nat := 0
  mask : Bool := true
  pending : Bool := false
  modInt : Nat := 0
  modCnt : Nat := 0
  last : Option Nat := none
  held : Nat := 0
  reqTime : Nat := 0
deriving DecidableEq, Repr, Inhabited

/-- The reset of a function, or under 2048 + k the flush of port k (R303, R398, R399): the time of its fence, whether PERST caused it, and the NIs that have not applied the
fence. -/
structure FnReset where
  stamp : Nat := 0
  perst : Bool := false
  left : List Nat := []
deriving DecidableEq, Repr, Inhabited

/-! ## Power, boot, outputs -/

/-- A power domain (Tables 19-1 and 19-7): its state (0 ON, 1 RET, 2 OFF, 3 FAILED) and transition (0 none,
1 entering, 2 waking), whether it enters OFF, the attempts of the latest wake, the step of an attempt (0 supply, 1 PLLs,
2 between attempts) and since when, its latest activity with the IDLE_T that held then (Table 19-6), and since when it
has been down. -/
structure Dom where
  st : Nat := 0
  trans : Nat := 0
  toOff : Bool := false
  attempts : Nat := 0
  stage : Nat := 0
  at_ : Nat := 0
  last : Nat := 0
  limit : Nat := 0
  since : Nat := 0
deriving DecidableEq, Repr, Inhabited

/-- One owner key slot of the fuse map (R464, Table 20-8). -/
structure KeySlot where
  hash : Nat := 0
  enrolled : Bool := false
  revoked : Bool := false
deriving DecidableEq, Repr, Inhabited

/-- A flash command that runs (R472): a write or an erase, its place in flash, the staging address and the length. -/
structure FlashCmd where
  write : Bool := false
  dst : Nat := 0
  src : Nat := 0
  len : Nat := 0
deriving DecidableEq, Repr, Inhabited

/-- An SPDM response that waits for its signature (R468). -/
inductive SpdmReq where
  | challenge (slot : Nat)
  | measurements (index : Nat)
deriving DecidableEq, Repr, Inhabited

/-- What leaves the block, newest first: the model's own record of its outputs. -/
inductive Out where
  /-- A memory-write TLP of FN n from port k, with its byte enables. -/
  | tlpWrite (k fn addr : Nat) (data : List Byte) (en : List Bool) (ro ns ido ep ecrc : Bool)
  /-- A memory-read TLP of FN n from port k with its tag. -/
  | tlpRead (k fn addr len tag : Nat) (ro ns ido ecrc : Bool)
  /-- A completion from port k to a host request: status 0 success, 1 UR, 2 configuration retry, 4 CA. -/
  | tlpCpl (k fn requester tag status : Nat) (data : List Byte) (ep ecrc : Bool)
  /-- The TLP that leaves port k next carries an injected ECRC error (R425). -/
  | ecrcError (k : Nat)
  /-- A vendor-defined message from port k. -/
  | vdm (k fn dw3 : Nat) (data : List Byte)
  /-- An LTR message. -/
  | ltr (k value : Nat)
  /-- An AER report of FN n: 0 correctable, 1 non-fatal, 2 fatal, 3 advisory, with the error's name and header. -/
  | aer (fn sev : Nat) (err : String) (hdr : List Nat)
  /-- A frame on Drevlink port p. -/
  | frame (p : Nat) (f : Frame)
  /-- A control-slot block on port p. -/
  | ctlBlock (p : Nat) (w : Word)
  /-- A management message of port p: its TYPE and payload. -/
  | mgmt (p ty : Nat) (payload : List Nat)
  /-- The wake pattern on Lp.M0. -/
  | wakePattern (p : Nat)
  /-- Bits flipped in a lane's stream. -/
  | laneFlip (p lane count : Nat)
  /-- PME from FN n. -/
  | pme (fn : Nat)
  /-- CLKREQ of port k asserted. -/
  | clkreq (k : Nat)
  /-- A correctable error raised to the MGC. -/
  | mgcCorr (what : String)
  /-- A message of a unit or tunnel delivered to the MGC. -/
  | toMgc (pkt : Packet)
  /-- The MGC's answer to a maintenance request. -/
  | claim (ok : Bool)
  /-- A DOE or SPDM response of port k's mailbox. -/
  | doe (k : Nat) (kind : String) (data : List Nat)
  /-- The value a read of a register returned to its reader. -/
  | readValue (w : Writer) (v : Word) (ur : Bool)
  /-- THERMTRIP_N asserted. -/
  | thermtrip
deriving DecidableEq, Repr, Inhabited

end Sys2Proof.Machine
end

