-- ==== Sys2Proof/Config.lean ====
section
/-!
DEFINITION. What an implementation fixes and the free values: constants without a body wherever the spec leaves a
value open. Nothing can be proved of the value of one, so a claim holds whatever it is. Each has its row in the
assumption log.
-/
namespace Sys2Proof

/-- How far NI n's local copy of the time lies behind the count, in ns (R43: two copies differ by at most 2 ns). -/
opaque Config.niLag : Nat → Fin 3

/-- The threshold at which BELOW_FLOOR sets, in µV above 635,000: R30 gives 640 mV with 5 mV either way. -/
opaque Config.floorThr : Nat → Fin 10001

/-- The threshold at which CORE_UV sets, in µV above 570,000: R30 gives 580 mV with 10 mV either way. -/
opaque Config.uvThr : Nat → Fin 20001

/-- The error of a VDD_CORE reading in codes of 2 mV, from -5 to 5 (Table 2-5: accurate to 10 mV). -/
opaque Config.vmonErr : Nat → Fin 11

/-- The bits that an injected or real multi-bit error flips in a stored word. -/
opaque Config.errBits : Nat → BitVec 64

/-- An XU's or port's cache line that a full cache gives up: the spec names no policy. -/
opaque Config.evict : Nat → Nat

/-- The production value of the fuse map's serial number (Table 20-8). -/
opaque Config.serial : BitVec 64

/-- The factory trim of a calibration field at an index (R467), and of PRE, MAIN, POST, CTLE (0 to 3) of lane
4p + n at rate r (R328), taken with index 4 * (3 * lane + r) + tap under field 0x80. -/
opaque Config.factory : Nat → Nat → Int

/-- SHA-512 (R463, R469). -/
opaque Config.sha512 : List (BitVec 8) → Nat

/-- RSASSA-PSS verification under a 528-byte key block (R463). -/
opaque Config.rsaVerify : List (BitVec 8) → List (BitVec 8) → List (BitVec 8) → Bool

/-- The vendor key block whose hash the ROM holds (R463). -/
opaque Config.vendorKey : List (BitVec 8)

/-- The signature that SEC makes with the device key over a transcript (R468). -/
opaque Config.deviceSign : List Nat → Nat

/-- The certificate area of the fuse map (Table 20-8) and the measured ROM. -/
opaque Config.certArea : List (BitVec 8)

/-- The measured ROM (Table 20-7). -/
opaque Config.romImage : List (BitVec 8)

/-- The digest that measurement block 2 reports in recovery, where no firmware section is loaded: R469 keeps the block
and states no value. -/
opaque Config.recoveryFirmware : Nat

/-- The THERMTRIP threshold of a sensor, in steps of 0.25 °C above 117 °C: R489 gives 120 °C to within 3 °C. -/
opaque Config.tripThr : Nat → Fin 25

/-- A random number of SEC. -/
opaque Config.random : Nat → Nat

/-- The value that an instruction or a response carries where the spec states none. -/
opaque Config.freeWord : Nat → BitVec 64

/-- A byte that an answer carries where the request enabled none, at an index. -/
opaque Config.freeByte : Nat → Nat → BitVec 8

/-- The SECDED code HECC of the 17 routing bits of a header (Table 4-4): the spec names no matrix. -/
opaque Config.hecc : Nat → Fin 64

end Sys2Proof
end

