-- ==== Sys2Proof/Machine/State.lean ====
section
/-!
DEFINITION. The state of the block, group by group, the reasons a command could stop, and the state right after
reset. Memories and everything else with an index are sparse maps in one canonical form (Machine/SMap.lean);
register fields that no other part of the state holds lie in the register file.
-/
namespace Sys2Proof.Machine

/-- Power-on reset (R456, R479): PORST_N asserted, VAUX below its threshold. -/
structure PorGrp where
  porst : Bool := false
  vaux : Bool := false
deriving DecidableEq, Repr, Inhabited

/-- The time base (R38 to R42): the count TB_NOW, the step pending, the slew owed in units of 10^-7 ns, the 256 ns
period in which the time was last loaded, and the 2^32 ns period of the last periodic anchor. -/
structure TbGrp where
  count : Nat := 0
  step : Nat := 0
  slewAcc : Int := 0
  loaded : Nat := 0
  anchor : Nat := 0
  lockSince : Option Nat := none
  mgcLockSince : Option Nat := none
deriving DecidableEq, Repr, Inhabited

/-- The register file: the active values and the shadows of RWS fields. An instance that is not listed holds its
reset value. -/
structure RegGrp where
  act : SMap (Option Word) := []
  shad : SMap (Option Word) := []
deriving DecidableEq, Repr, Inhabited

/-- Staging memory (R275), its poison bits per 64-bit word, its uncorrected SECDED errors (1 single, 2 multiple;
+ 4 when injected); scratch of the 64 engines and its poison bits; the eight program stores and their errors. -/
structure MemGrp where
  cells : List Host.Cell := []
  poison : SMap Bool := []
  ecc : SMap Nat := []
  scratch : SMap Byte := []
  scrPoison : SMap Bool := []
  ps : SMap (BitVec 32) := []
  psEcc : SMap Nat := []
deriving DecidableEq, Repr, Inhabited

/-- The fabric (chapter 4): flights, channels (16 per link), link directions (2 per link), links, the three copies
of route and reach tables, injection queues (25 per NI), packets that have reached their NI, limiter tokens. -/
structure FabGrp where
  nextPid : Nat := 0
  flights : SMap (Option Flight) := []
  chans : SMap Chan := []
  dirs : SMap LinkDir := []
  links : SMap Link := []
  routes : SMap (Option Nat) := []
  inq : SMap (List Packet) := []
  arrived : SMap (List Packet) := []
  tokens : SMap (Option Int) := []
  tokenAt : SMap Nat := []
deriving DecidableEq, Repr, Inhabited

/-- NIs and gates (chapter 3): what each NI needs for stamping, the counts of R53 and R193, allowances used, the
milestones on their way, and each gate with its keeper. -/
structure OrdGrp where
  untimed : SMap Bool := []
  parked : SMap Bool := []
  holdTill : SMap Nat := []
  lastTime : SMap Nat := []
  lastSeq : SMap Nat := []
  lastSent : SMap Nat := []
  inj : SMap Nat := []
  recv : SMap Nat := []
  usedUnits : SMap Nat := []
  miles : List Milestone := []
  gates : SMap Gate := []
  feeders : SMap Feeder := []
  damaged : SMap (List Packet) := []
  damTime : SMap (Option Nat) := []
  confirmed : SMap Nat := []
  seen : SMap (List Nat) := []
deriving DecidableEq, Repr, Inhabited

/-- Arbiters, the compatibility block's sets in force, semaphores and the reset
fences SEM keeps (chapter 5). -/
structure ArbGrp where
  arbs : SMap Arb := []
  c52 : SMap (Option Word) := []
  sems : SMap Sem := []
  semFence : SMap Bool := []
deriving DecidableEq, Repr, Inhabited

/-- Pacers and movers (chapters 6 to 9): engines, general registers at 32e + r, clusters, transfer contexts at
512c + k. -/
structure PclGrp where
  engs : SMap Eng := []
  gregs : SMap Word := []
  clus : SMap Cluster := []
  ctxs : SMap Ctx := []
deriving DecidableEq, Repr, Inhabited

/-- QM (chapter 10): the queues and the wake credits spent per cluster. -/
structure QmGrp where
  queues : SMap Queue := []
  spent : SMap Nat := []
deriving DecidableEq, Repr, Inhabited

/-- Windows and translation (chapter 11): the XUs' caches and misses, quarantines (windows, then entries from
4,096), the sequencer with the commands that wait and the one whose invalidates are out, drains and probes, and
how often each window and entry has been written. -/
structure XltGrp where
  cache : SMap (List Line) := []
  misses : SMap (List Miss) := []
  quar : SMap Bool := []
  seq : List SeqCmd := []
  cur : Option SeqCmd := none
  drains : List Drain := []
  probes : SMap (List Probe) := []
  epoch : SMap Nat := []
deriving DecidableEq, Repr, Inhabited

/-- The ports (chapters 12 to 15): host ports, configuration space (64 fields per function), tags of the ten gates'
ports (4,096 each), Drevlink ports, and egress slot tables in force (256 slots per port). -/
structure PortGrp where
  hpis : SMap Hpi := []
  cfg : SMap (Option Nat) := []
  tags : SMap Tag := []
  lpis : SMap Lpi := []
  slots : SMap (Option Word) := []
deriving DecidableEq, Repr, Inhabited

/-- Functions (chapter 16): the vector pool, MSI-X writes that await their stamp,
resets in progress, the fences each NI has applied (NI * 2048 + FN), fence notices on their way. -/
structure FnGrp where
  vecs : SMap Vec := []
  msix : List (Nat × Nat × Nat × Nat) := []
  resets : SMap (Option FnReset) := []
  fenced : SMap Bool := []
  notices : SMap (List Nat) := []
deriving DecidableEq, Repr, Inhabited

/-- Error handling (chapter 17): violation records not yet read, scrubbers' places, records kept when SG3 cannot
take them, the waiting injections, AER's last report per port, ring overwrites, and the log readers' places. -/
structure ErrGrp where
  unread : SMap Bool := []
  scrubAt : SMap Nat := []
  psScrubAt : SMap Nat := []
  pktInj : SMap (Option Nat) := []
  lastCorr : SMap (Option Nat) := []
  ringOver : SMap (Option Nat) := []
deriving DecidableEq, Repr, Inhabited

/-- Power (chapters 2, 19, 21): the monitor's latest averages, the running step-monitor window, domains, the
WAKE_SENSE comparator, deep idle. -/
structure PwrGrp where
  avg : Nat := 0
  winStart : Option Nat := none
  winFor : Nat := 1
  doms : SMap Dom := []
  wsLevel : Bool := false
  deep : Bool := false
deriving DecidableEq, Repr, Inhabited

/-- Boot and attestation (chapter 20): the slot to be tried (0 A, 1 B, 2 neither left) with its container, the clusters
that the image names, the time of the stage's latest step and whether its clock step is over, the values of the "image"
fields, the fuses, flash with the slots that a reset has torn, the flash command that runs, board equalisation,
calibration offsets, the owner chain, SPDM's state and transcript per mailbox, the signing queue, the measurements. -/
structure BootGrp where
  trySlot : Nat := 0
  container : List Byte := []
  named : List Nat := []
  startAt : Nat := 0
  clocked : Bool := false
  image : SMap (Option Nat) := []
  fuseKeys : SMap KeySlot := []
  ownerCount : Nat := 0
  vendorCount : Nat := 0
  debugLock : Bool := false
  fuseBad : Bool := false
  flash : SMap Byte := []
  torn : SMap Bool := []
  cmd : Option FlashCmd := none
  eq : SMap Nat := []
  calOff : SMap Int := []
  chain : List Byte := []
  spdm : SMap Nat := []
  transcript : SMap (List Nat) := []
  signQ : List (Nat × SpdmReq) := []
  meas : SMap Nat := []
deriving DecidableEq, Repr, Inhabited

/-- The state of the block. `pending` is the queue of commands, first in, first out; `free` counts the free
values taken; `out` is what has left the block, newest first. -/
structure State where
  pending : List Instr := []
  free : Nat := 0
  por : PorGrp := {}
  tb : TbGrp := {}
  reg : RegGrp := {}
  mem : MemGrp := {}
  fab : FabGrp := {}
  ord : OrdGrp := {}
  arb : ArbGrp := {}
  pcl : PclGrp := {}
  qm : QmGrp := {}
  xlt : XltGrp := {}
  port : PortGrp := {}
  fn : FnGrp := {}
  err : ErrGrp := {}
  pwr : PwrGrp := {}
  boot : BootGrp := {}
  out : List Out := []
deriving DecidableEq, Repr, Inhabited

/-- The reasons a command could fault: none. The spec gives every command an effect, so no meaning raises one
(safe: nothing is said of a machine that stops). -/
inductive Fault where
deriving DecidableEq, Repr

/-- The reasons a command could be refused. -/
inductive Refusal where
  /-- Raised by an arm of exec whose command has no meaning yet (safe: the machine stops). -/
  | notModelled (mnemonic : String)
deriving DecidableEq, Repr

/-- The block right after reset: PORST_N has just been deasserted (R38, R458), bring-up stands before its first
stage, the count is 0, PERST_N0 and PERST_N1 are asserted, every memory and queue is empty. -/
def State.reset : State := {}

end Sys2Proof.Machine
end

