-- ==== Sys2Proof/Machine/Access.lean ====
section
/-!
DEFINITION. Reading and writing one entry of each indexed part of the state. Every write keeps the canonical form
of its map.
-/
namespace Sys2Proof.Machine

/-- Reads the byte of staging memory. -/
def State.byte (s : State) (k : Nat) : Byte := mget 0 s.mem.cells k
/-- Writes the byte of staging memory. -/
def State.setByte (s : State) (k : Nat) (v : Byte) : State :=
  { s with mem := { s.mem with cells := mput 0 s.mem.cells k v } }
/-- Reads the poison bit of a 64-bit staging word. -/
def State.poisonAt (s : State) (k : Nat) : Bool := mget false s.mem.poison k
/-- Writes the poison bit of a 64-bit staging word. -/
def State.setPoisonAt (s : State) (k : Nat) (v : Bool) : State :=
  { s with mem := { s.mem with poison := mput false s.mem.poison k v } }
/-- Reads the SECDED error of a 64-bit staging word. -/
def State.eccAt (s : State) (k : Nat) : Nat := mget 0 s.mem.ecc k
/-- Writes the SECDED error of a 64-bit staging word. -/
def State.setEccAt (s : State) (k : Nat) (v : Nat) : State :=
  { s with mem := { s.mem with ecc := mput 0 s.mem.ecc k v } }
/-- Reads a scratch byte, at 65536e + offset. -/
def State.scrByte (s : State) (k : Nat) : Byte := mget 0 s.mem.scratch k
/-- Writes a scratch byte, at 65536e + offset. -/
def State.setScrByte (s : State) (k : Nat) (v : Byte) : State :=
  { s with mem := { s.mem with scratch := mput 0 s.mem.scratch k v } }
/-- Reads the poison bit of a scratch word. -/
def State.scrPoisonAt (s : State) (k : Nat) : Bool := mget false s.mem.scrPoison k
/-- Writes the poison bit of a scratch word. -/
def State.setScrPoisonAt (s : State) (k : Nat) (v : Bool) : State :=
  { s with mem := { s.mem with scrPoison := mput false s.mem.scrPoison k v } }
/-- Reads a program-store word, at 131072c + word. -/
def State.psWord (s : State) (k : Nat) : BitVec 32 := mget 0 s.mem.ps k
/-- Writes a program-store word, at 131072c + word. -/
def State.setPsWord (s : State) (k : Nat) (v : BitVec 32) : State :=
  { s with mem := { s.mem with ps := mput 0 s.mem.ps k v } }
/-- Reads the SECDED error of a program-store word. -/
def State.psEccAt (s : State) (k : Nat) : Nat := mget 0 s.mem.psEcc k
/-- Writes the SECDED error of a program-store word. -/
def State.setPsEccAt (s : State) (k : Nat) (v : Nat) : State :=
  { s with mem := { s.mem with psEcc := mput 0 s.mem.psEcc k v } }
/-- Reads a packet in the fabric. -/
def State.flight (s : State) (k : Nat) : Option Flight := mget none s.fab.flights k
/-- Writes a packet in the fabric. -/
def State.setFlight (s : State) (k : Nat) (v : Option Flight) : State :=
  { s with fab := { s.fab with flights := mput none s.fab.flights k v } }
/-- Reads a virtual channel, at 16l + 8up + vc. -/
def State.chan (s : State) (k : Nat) : Chan := mget {} s.fab.chans k
/-- Writes a virtual channel, at 16l + 8up + vc. -/
def State.setChan (s : State) (k : Nat) (v : Chan) : State :=
  { s with fab := { s.fab with chans := mput {} s.fab.chans k v } }
/-- Reads a link direction, at 2l + up. -/
def State.dir (s : State) (k : Nat) : LinkDir := mget {} s.fab.dirs k
/-- Writes a link direction, at 2l + up. -/
def State.setDir (s : State) (k : Nat) (v : LinkDir) : State :=
  { s with fab := { s.fab with dirs := mput {} s.fab.dirs k v } }
/-- Reads a link. -/
def State.link (s : State) (k : Nat) : Link := mget {} s.fab.links k
/-- Writes a link. -/
def State.setLink (s : State) (k : Nat) (v : Link) : State :=
  { s with fab := { s.fab with links := mput {} s.fab.links k v } }
/-- Reads a copy of a route or reach entry. -/
def State.routeCopy (s : State) (k : Nat) : Option Nat := mget none s.fab.routes k
/-- Writes a copy of a route or reach entry. -/
def State.setRouteCopy (s : State) (k : Nat) (v : Option Nat) : State :=
  { s with fab := { s.fab with routes := mput none s.fab.routes k v } }
/-- Reads an injection queue, at 25ni + q. -/
def State.inq (s : State) (k : Nat) : List Packet := mget [] s.fab.inq k
/-- Writes an injection queue, at 25ni + q. -/
def State.setInq (s : State) (k : Nat) (v : List Packet) : State :=
  { s with fab := { s.fab with inq := mput [] s.fab.inq k v } }
/-- Reads the packets that have reached an NI. -/
def State.arrived (s : State) (k : Nat) : List Packet := mget [] s.fab.arrived k
/-- Writes the packets that have reached an NI. -/
def State.setArrived (s : State) (k : Nat) (v : List Packet) : State :=
  { s with fab := { s.fab with arrived := mput [] s.fab.arrived k v } }
/-- Reads a limiter token count, at 8ni + qc. -/
def State.token (s : State) (k : Nat) : Option Int := mget none s.fab.tokens k
/-- Writes a limiter token count, at 8ni + qc. -/
def State.setToken (s : State) (k : Nat) (v : Option Int) : State :=
  { s with fab := { s.fab with tokens := mput none s.fab.tokens k v } }
/-- Reads when a limiter last took tokens. -/
def State.tokenTime (s : State) (k : Nat) : Nat := mget 0 s.fab.tokenAt k
/-- Writes when a limiter last took tokens. -/
def State.setTokenTime (s : State) (k : Nat) (v : Nat) : State :=
  { s with fab := { s.fab with tokenAt := mput 0 s.fab.tokenAt k v } }
/-- Reads whether an NI awaits a load of the time. -/
def State.untimed (s : State) (k : Nat) : Bool := mget false s.ord.untimed k
/-- Writes whether an NI awaits a load of the time. -/
def State.setUntimed (s : State) (k : Nat) (v : Bool) : State :=
  { s with ord := { s.ord with untimed := mput false s.ord.untimed k v } }
/-- Reads whether an NI is parked. -/
def State.niParked (s : State) (k : Nat) : Bool := mget false s.ord.parked k
/-- Writes whether an NI is parked. -/
def State.setNiParked (s : State) (k : Nat) (v : Bool) : State :=
  { s with ord := { s.ord with parked := mput false s.ord.parked k v } }
/-- Reads the local time before which an NI stamps nothing. -/
def State.holdTill (s : State) (k : Nat) : Nat := mget 0 s.ord.holdTill k
/-- Writes the local time before which an NI stamps nothing. -/
def State.setHoldTill (s : State) (k : Nat) (v : Nat) : State :=
  { s with ord := { s.ord with holdTill := mput 0 s.ord.holdTill k v } }
/-- Reads the TIME of an NI stamp, plus 1. -/
def State.lastTime (s : State) (k : Nat) : Nat := mget 0 s.ord.lastTime k
/-- Writes the TIME of an NI stamp, plus 1. -/
def State.setLastTime (s : State) (k : Nat) (v : Nat) : State :=
  { s with ord := { s.ord with lastTime := mput 0 s.ord.lastTime k v } }
/-- Reads the SEQ of the latest stamp of an NI. -/
def State.lastSeq (s : State) (k : Nat) : Nat := mget 0 s.ord.lastSeq k
/-- Writes the SEQ of the latest stamp of an NI. -/
def State.setLastSeq (s : State) (k : Nat) (v : Nat) : State :=
  { s with ord := { s.ord with lastSeq := mput 0 s.ord.lastSeq k v } }
/-- Reads when a feeder last sent to a gate, at 10ni + g. -/
def State.lastSent (s : State) (k : Nat) : Nat := mget 0 s.ord.lastSent k
/-- Writes when a feeder last sent to a gate, at 10ni + g. -/
def State.setLastSent (s : State) (k : Nat) (v : Nat) : State :=
  { s with ord := { s.ord with lastSent := mput 0 s.ord.lastSent k v } }
/-- Reads the injection count of an NI toward an NI, at 46src + dst. -/
def State.injCnt (s : State) (k : Nat) : Nat := mget 0 s.ord.inj k
/-- Writes the injection count of an NI toward an NI, at 46src + dst. -/
def State.setInjCnt (s : State) (k : Nat) (v : Nat) : State :=
  { s with ord := { s.ord with inj := mput 0 s.ord.inj k v } }
/-- Reads the packets an NI has received from an NI, at 46dst + src. -/
def State.recvCnt (s : State) (k : Nat) : Nat := mget 0 s.ord.recv k
/-- Writes the packets an NI has received from an NI, at 46dst + src. -/
def State.setRecvCnt (s : State) (k : Nat) (v : Nat) : State :=
  { s with ord := { s.ord with recv := mput 0 s.ord.recv k v } }
/-- Reads unreleased 64 B units of a feeder, at 10ni + g. -/
def State.usedUnits (s : State) (k : Nat) : Nat := mget 0 s.ord.usedUnits k
/-- Writes unreleased 64 B units of a feeder, at 10ni + g. -/
def State.setUsedUnits (s : State) (k : Nat) (v : Nat) : State :=
  { s with ord := { s.ord with usedUnits := mput 0 s.ord.usedUnits k v } }
/-- Reads a gate. -/
def State.gate (s : State) (k : Nat) : Gate := mget {} s.ord.gates k
/-- Writes a gate. -/
def State.setGate (s : State) (k : Nat) (v : Gate) : State :=
  { s with ord := { s.ord with gates := mput {} s.ord.gates k v } }
/-- Reads a keeper entry, at 46g + ni. -/
def State.feeder (s : State) (k : Nat) : Feeder := mget {} s.ord.feeders k
/-- Writes a keeper entry, at 46g + ni. -/
def State.setFeeder (s : State) (k : Nat) (v : Feeder) : State :=
  { s with ord := { s.ord with feeders := mput {} s.ord.feeders k v } }
/-- Reads damaged packets that await a count, at 46dst + src. -/
def State.damagedAt (s : State) (k : Nat) : List Packet := mget [] s.ord.damaged k
/-- Writes damaged packets that await a count, at 46dst + src. -/
def State.setDamagedAt (s : State) (k : Nat) (v : List Packet) : State :=
  { s with ord := { s.ord with damaged := mput [] s.ord.damaged k v } }
/-- Reads when the latest damaged posted packet arrived, at 46dst + src. -/
def State.damTime (s : State) (k : Nat) : Option Nat := mget none s.ord.damTime k
/-- Writes when the latest damaged posted packet arrived, at 46dst + src. -/
def State.setDamTime (s : State) (k : Nat) (v : Option Nat) : State :=
  { s with ord := { s.ord with damTime := mput none s.ord.damTime k v } }
/-- Reads the largest confirmed count, at 46dst + src. -/
def State.confirmed (s : State) (k : Nat) : Nat := mget 0 s.ord.confirmed k
/-- Writes the largest confirmed count, at 46dst + src. -/
def State.setConfirmed (s : State) (k : Nat) (v : Nat) : State :=
  { s with ord := { s.ord with confirmed := mput 0 s.ord.confirmed k v } }
/-- Reads counts that undamaged packets carried, at 46dst + src. -/
def State.seenCnt (s : State) (k : Nat) : List Nat := mget [] s.ord.seen k
/-- Writes counts that undamaged packets carried, at 46dst + src. -/
def State.setSeenCnt (s : State) (k : Nat) (v : List Nat) : State :=
  { s with ord := { s.ord with seen := mput [] s.ord.seen k v } }
/-- Reads an arbiter. -/
def State.arbiter (s : State) (k : Nat) : Arb := mget {} s.arb.arbs k
/-- Writes an arbiter. -/
def State.setArbiter (s : State) (k : Nat) (v : Arb) : State :=
  { s with arb := { s.arb with arbs := mput {} s.arb.arbs k v } }
/-- Reads the consistent compatibility set in force. -/
def State.c52Force (s : State) (k : Nat) : Option Word := mget none s.arb.c52 k
/-- Writes the consistent compatibility set in force. -/
def State.setC52Force (s : State) (k : Nat) (v : Option Word) : State :=
  { s with arb := { s.arb with c52 := mput none s.arb.c52 k v } }
/-- Reads a semaphore. -/
def State.sem (s : State) (k : Nat) : Sem := mget {} s.arb.sems k
/-- Writes a semaphore. -/
def State.setSem (s : State) (k : Nat) (v : Sem) : State :=
  { s with arb := { s.arb with sems := mput {} s.arb.sems k v } }
/-- Reads whether SEM answers UR for an FN. -/
def State.semFence (s : State) (k : Nat) : Bool := mget false s.arb.semFence k
/-- Writes whether SEM answers UR for an FN. -/
def State.setSemFence (s : State) (k : Nat) (v : Bool) : State :=
  { s with arb := { s.arb with semFence := mput false s.arb.semFence k v } }
/-- Reads an engine. -/
def State.eng (s : State) (k : Nat) : Eng := mget {} s.pcl.engs k
/-- Writes an engine. -/
def State.setEng (s : State) (k : Nat) (v : Eng) : State :=
  { s with pcl := { s.pcl with engs := mput {} s.pcl.engs k v } }
/-- Reads a general register, at 32e + r. -/
def State.greg (s : State) (k : Nat) : Word := mget 0 s.pcl.gregs k
/-- Writes a general register, at 32e + r. -/
def State.setGreg (s : State) (k : Nat) (v : Word) : State :=
  { s with pcl := { s.pcl with gregs := mput 0 s.pcl.gregs k v } }
/-- Reads a cluster. -/
def State.clu (s : State) (k : Nat) : Cluster := mget {} s.pcl.clus k
/-- Writes a cluster. -/
def State.setClu (s : State) (k : Nat) (v : Cluster) : State :=
  { s with pcl := { s.pcl with clus := mput {} s.pcl.clus k v } }
/-- Reads a transfer context, at 512c + k. -/
def State.ctx (s : State) (k : Nat) : Ctx := mget {} s.pcl.ctxs k
/-- Writes a transfer context, at 512c + k. -/
def State.setCtx (s : State) (k : Nat) (v : Ctx) : State :=
  { s with pcl := { s.pcl with ctxs := mput {} s.pcl.ctxs k v } }
/-- Reads a queue. -/
def State.queue (s : State) (k : Nat) : Queue := mget {} s.qm.queues k
/-- Writes a queue. -/
def State.setQueue (s : State) (k : Nat) (v : Queue) : State :=
  { s with qm := { s.qm with queues := mput {} s.qm.queues k v } }
/-- Reads wake credits spent of a cluster. -/
def State.spent (s : State) (k : Nat) : Nat := mget 0 s.qm.spent k
/-- Writes wake credits spent of a cluster. -/
def State.setSpent (s : State) (k : Nat) (v : Nat) : State :=
  { s with qm := { s.qm with spent := mput 0 s.qm.spent k v } }
/-- Reads the cache of an XU. -/
def State.xcache (s : State) (k : Nat) : List Line := mget [] s.xlt.cache k
/-- Writes the cache of an XU. -/
def State.setXcache (s : State) (k : Nat) (v : List Line) : State :=
  { s with xlt := { s.xlt with cache := mput [] s.xlt.cache k v } }
/-- Reads the misses of an XU. -/
def State.missList (s : State) (k : Nat) : List Miss := mget [] s.xlt.misses k
/-- Writes the misses of an XU. -/
def State.setMissList (s : State) (k : Nat) (v : List Miss) : State :=
  { s with xlt := { s.xlt with misses := mput [] s.xlt.misses k v } }
/-- Reads a quarantine: window w, or entry at 4096 + e. -/
def State.quarAt (s : State) (k : Nat) : Bool := mget false s.xlt.quar k
/-- Writes a quarantine: window w, or entry at 4096 + e. -/
def State.setQuarAt (s : State) (k : Nat) (v : Bool) : State :=
  { s with xlt := { s.xlt with quar := mput false s.xlt.quar k v } }
/-- Reads the probes toward an NI. -/
def State.probesAt (s : State) (k : Nat) : List Probe := mget [] s.xlt.probes k
/-- Writes the probes toward an NI. -/
def State.setProbesAt (s : State) (k : Nat) (v : List Probe) : State :=
  { s with xlt := { s.xlt with probes := mput [] s.xlt.probes k v } }
/-- Reads how often a window or entry has been written. -/
def State.epochAt (s : State) (k : Nat) : Nat := mget 0 s.xlt.epoch k
/-- Writes how often a window or entry has been written. -/
def State.setEpochAt (s : State) (k : Nat) (v : Nat) : State :=
  { s with xlt := { s.xlt with epoch := mput 0 s.xlt.epoch k v } }
/-- Reads a host port. -/
def State.hpi (s : State) (k : Nat) : Hpi := mget {} s.port.hpis k
/-- Writes a host port. -/
def State.setHpi (s : State) (k : Nat) (v : Hpi) : State :=
  { s with port := { s.port with hpis := mput {} s.port.hpis k v } }
/-- Reads a configuration field, at 64fn + field. -/
def State.cfgAt (s : State) (k : Nat) : Option Nat := mget none s.port.cfg k
/-- Writes a configuration field, at 64fn + field. -/
def State.setCfgAt (s : State) (k : Nat) (v : Option Nat) : State :=
  { s with port := { s.port with cfg := mput none s.port.cfg k v } }
/-- Reads a tag, at 4096g + tag. -/
def State.tag (s : State) (k : Nat) : Tag := mget {} s.port.tags k
/-- Writes a tag, at 4096g + tag. -/
def State.setTag (s : State) (k : Nat) (v : Tag) : State :=
  { s with port := { s.port with tags := mput {} s.port.tags k v } }
/-- Reads a Drevlink port. -/
def State.lpi (s : State) (k : Nat) : Lpi := mget {} s.port.lpis k
/-- Writes a Drevlink port. -/
def State.setLpi (s : State) (k : Nat) (v : Lpi) : State :=
  { s with port := { s.port with lpis := mput {} s.port.lpis k v } }
/-- Reads a slot register in force, at 32k + j. -/
def State.slotWord (s : State) (k : Nat) : Option Word := mget none s.port.slots k
/-- Writes a slot register in force, at 32k + j. -/
def State.setSlotWord (s : State) (k : Nat) (v : Option Word) : State :=
  { s with port := { s.port with slots := mput none s.port.slots k v } }
/-- Reads a pool entry. -/
def State.vec (s : State) (k : Nat) : Vec := mget {} s.fn.vecs k
/-- Writes a pool entry. -/
def State.setVec (s : State) (k : Nat) (v : Vec) : State :=
  { s with fn := { s.fn with vecs := mput {} s.fn.vecs k v } }
/-- Reads a reset in progress. -/
def State.fnReset (s : State) (k : Nat) : Option FnReset := mget none s.fn.resets k
/-- Writes a reset in progress. -/
def State.setFnReset (s : State) (k : Nat) (v : Option FnReset) : State :=
  { s with fn := { s.fn with resets := mput none s.fn.resets k v } }
/-- Reads whether an NI has applied the reset fence of an FN, at 2048ni + fn. -/
def State.fenced (s : State) (k : Nat) : Bool := mget false s.fn.fenced k
/-- Writes whether an NI has applied the reset fence of an FN, at 2048ni + fn. -/
def State.setFenced (s : State) (k : Nat) (v : Bool) : State :=
  { s with fn := { s.fn with fenced := mput false s.fn.fenced k v } }
/-- Reads fence notices on their way to an NI. -/
def State.notices (s : State) (k : Nat) : List Nat := mget [] s.fn.notices k
/-- Writes fence notices on their way to an NI. -/
def State.setNotices (s : State) (k : Nat) (v : List Nat) : State :=
  { s with fn := { s.fn with notices := mput [] s.fn.notices k v } }
/-- Reads a violation slot that holds an unread record. -/
def State.unread (s : State) (k : Nat) : Bool := mget false s.err.unread k
/-- Writes a violation slot that holds an unread record. -/
def State.setUnread (s : State) (k : Nat) (v : Bool) : State :=
  { s with err := { s.err with unread := mput false s.err.unread k v } }
/-- Reads the line of a bank scrubber. -/
def State.scrubAt (s : State) (k : Nat) : Nat := mget 0 s.err.scrubAt k
/-- Writes the line of a bank scrubber. -/
def State.setScrubAt (s : State) (k : Nat) (v : Nat) : State :=
  { s with err := { s.err with scrubAt := mput 0 s.err.scrubAt k v } }
/-- Reads the word of a program-store scrubber. -/
def State.psScrubAt (s : State) (k : Nat) : Nat := mget 0 s.err.psScrubAt k
/-- Writes the word of a program-store scrubber. -/
def State.setPsScrubAt (s : State) (k : Nat) (v : Nat) : State :=
  { s with err := { s.err with psScrubAt := mput 0 s.err.psScrubAt k v } }
/-- Reads the packet injection that waits at an NI. -/
def State.pktInj (s : State) (k : Nat) : Option Nat := mget none s.err.pktInj k
/-- Writes the packet injection that waits at an NI. -/
def State.setPktInj (s : State) (k : Nat) (v : Option Nat) : State :=
  { s with err := { s.err with pktInj := mput none s.err.pktInj k v } }
/-- Reads when a port last reported a corrected error. -/
def State.lastCorr (s : State) (k : Nat) : Option Nat := mget none s.err.lastCorr k
/-- Writes when a port last reported a corrected error. -/
def State.setLastCorr (s : State) (k : Nat) (v : Option Nat) : State :=
  { s with err := { s.err with lastCorr := mput none s.err.lastCorr k v } }
/-- Reads when a posted-fault ring last overwrote a record. -/
def State.ringOver (s : State) (k : Nat) : Option Nat := mget none s.err.ringOver k
/-- Writes when a posted-fault ring last overwrote a record. -/
def State.setRingOver (s : State) (k : Nat) (v : Option Nat) : State :=
  { s with err := { s.err with ringOver := mput none s.err.ringOver k v } }
/-- Reads a power domain. -/
def State.dom (s : State) (k : Nat) : Dom := mget {} s.pwr.doms k
/-- Writes a power domain. -/
def State.setDom (s : State) (k : Nat) (v : Dom) : State :=
  { s with pwr := { s.pwr with doms := mput {} s.pwr.doms k v } }
/-- Reads an image field kept for reloads. -/
def State.imageVal (s : State) (k : Nat) : Option Nat := mget none s.boot.image k
/-- Writes an image field kept for reloads. -/
def State.setImageVal (s : State) (k : Nat) (v : Option Nat) : State :=
  { s with boot := { s.boot with image := mput none s.boot.image k v } }
/-- Reads an owner key slot. -/
def State.keySlot (s : State) (k : Nat) : KeySlot := mget {} s.boot.fuseKeys k
/-- Writes an owner key slot. -/
def State.setKeySlot (s : State) (k : Nat) (v : KeySlot) : State :=
  { s with boot := { s.boot with fuseKeys := mput {} s.boot.fuseKeys k v } }
/-- Reads whether a reset has torn a write of a flash slot. -/
def State.tornSlot (s : State) (k : Nat) : Bool := mget false s.boot.torn k
/-- Writes whether a reset has torn a write of a flash slot. -/
def State.setTornSlot (s : State) (k : Nat) (v : Bool) : State :=
  { s with boot := { s.boot with torn := mput false s.boot.torn k v } }
/-- Reads a flash byte. -/
def State.flashByte (s : State) (k : Nat) : Byte := mget 0xFF s.boot.flash k
/-- Writes a flash byte. -/
def State.setFlashByte (s : State) (k : Nat) (v : Byte) : State :=
  { s with boot := { s.boot with flash := mput 0xFF s.boot.flash k v } }
/-- Reads a board equalisation entry. -/
def State.eqWord (s : State) (k : Nat) : Nat := mget 0 s.boot.eq k
/-- Writes a board equalisation entry. -/
def State.setEqWord (s : State) (k : Nat) (v : Nat) : State :=
  { s with boot := { s.boot with eq := mput 0 s.boot.eq k v } }
/-- Reads a calibration offset, at 65536field + index. -/
def State.calOffset (s : State) (k : Nat) : Int := mget 0 s.boot.calOff k
/-- Writes a calibration offset, at 65536field + index. -/
def State.setCalOffset (s : State) (k : Nat) (v : Int) : State :=
  { s with boot := { s.boot with calOff := mput 0 s.boot.calOff k v } }
/-- Reads the SPDM state of a mailbox. -/
def State.spdmAt (s : State) (k : Nat) : Nat := mget 0 s.boot.spdm k
/-- Writes the SPDM state of a mailbox. -/
def State.setSpdmAt (s : State) (k : Nat) (v : Nat) : State :=
  { s with boot := { s.boot with spdm := mput 0 s.boot.spdm k v } }
/-- Reads the SPDM transcript of a mailbox. -/
def State.transcript (s : State) (k : Nat) : List Nat := mget [] s.boot.transcript k
/-- Writes the SPDM transcript of a mailbox. -/
def State.setTranscript (s : State) (k : Nat) (v : List Nat) : State :=
  { s with boot := { s.boot with transcript := mput [] s.boot.transcript k v } }
/-- Reads a measurement. -/
def State.measAt (s : State) (k : Nat) : Nat := mget 0 s.boot.meas k
/-- Writes a measurement. -/
def State.setMeasAt (s : State) (k : Nat) (v : Nat) : State :=
  { s with boot := { s.boot with meas := mput 0 s.boot.meas k v } }
end Sys2Proof.Machine
end

