-- ==== Sys2Proof/Machine/Ops.lean ====
section
/-!
DEFINITION. The named operations that the meanings share: registers, time and stamps, packets and their headers,
the records that blocks send to TRC, staging memory with its checks, and configuration space with AER.
-/
namespace Sys2Proof.Machine

/-! ## Reset, time, free values -/

/-- The block is held in power-on reset while PORST_N is asserted or the VAUX monitor holds it (R456, R479). -/
def State.inPor (s : State) : Bool := s.por.porst || s.por.vaux

/-- A command outside power-on reset has its effect `f`; in power-on reset nothing happens (R456, log 3). -/
def live (s : State) (f : State → State) : Host.Outcome State Fault Refusal :=
  if s.inPor then .next s else .next (f s)

/-- The count of the TBU (R38). -/
def State.now (s : State) : Nat := s.tb.count

/-- NI `ni`'s local copy of the time (R43), 48 bits. -/
def State.niTime (s : State) (ni : Nat) : Nat := (s.now + 2 ^ 48 - (Config.niLag ni).val) % 2 ^ 48

/-- The index of the next free value, and the state that has taken it. -/
def takeFree (s : State) : Nat × State := (s.free, { s with free := s.free + 1 })

/-- The state with one more output. -/
def State.emit (s : State) (o : Out) : State := { s with out := o :: s.out }

/-- `f` on the state when `c` holds. -/
def when (c : Bool) (f : State → State) (s : State) : State := if c then f s else s

/-- `f i` applied in turn for i from 0 below `n`. -/
def forN (n : Nat) (f : Nat → State → State) (s : State) : State := (List.range n).foldl (fun s i => f i s) s

/-- `f x` applied in turn for each `x` of a list. -/
def forL {α : Type} (l : List α) (f : α → State → State) (s : State) : State := l.foldl (fun s x => f x s) s

/-! ## Registers -/

/-- The active value of a register instance. -/
def State.rget (s : State) (r : RegId) (i : Nat) : Word := (mget none s.reg.act (regKey r i)).getD (r.reset i)

/-- The register with its active value replaced. -/
def State.rput (s : State) (r : RegId) (i : Nat) (v : Word) : State :=
  { s with reg := { s.reg with act := mput none s.reg.act (regKey r i) (if v = r.reset i then none else some v) } }

/-- The shadow of a register instance's RWS fields (R7). -/
def State.sget (s : State) (r : RegId) (i : Nat) : Word := (mget none s.reg.shad (regKey r i)).getD (r.reset i)

/-- The register with its shadow replaced. -/
def State.sput (s : State) (r : RegId) (i : Nat) (v : Word) : State :=
  { s with reg := { s.reg with shad := mput none s.reg.shad (regKey r i) (if v = r.reset i then none else some v) } }

/-- The active value of a field. -/
def State.fget (s : State) (f : Fld) (i : Nat) : Nat := bitsGet (s.rget f.reg i) f.hi f.lo

/-- The state with a field's active value replaced by the low bits of `x`. -/
def State.fset (s : State) (f : Fld) (i x : Nat) : State := s.rput f.reg i (bitsPut (s.rget f.reg i) f.hi f.lo x)

/-- The shadow value of a field. -/
def State.fgetS (s : State) (f : Fld) (i : Nat) : Nat := bitsGet (s.sget f.reg i) f.hi f.lo

/-- The state with a field's shadow replaced. -/
def State.fsetS (s : State) (f : Fld) (i x : Nat) : State := s.sput f.reg i (bitsPut (s.sget f.reg i) f.hi f.lo x)

/-- A one-bit field as a Boolean. -/
def State.flag (s : State) (f : Fld) (i : Nat) : Bool := s.fget f i == 1

/-- A count of a register that saturates at its field's largest value. -/
def State.fsat (s : State) (f : Fld) (i k : Nat) : State :=
  s.fset f i (satAdd (s.fget f i) k (2 ^ (f.hi + 1 - f.lo) - 1))

/-- A count of a register that wraps. -/
def State.fwrap (s : State) (f : Fld) (i k : Nat) : State :=
  s.fset f i ((s.fget f i + k) % 2 ^ (f.hi + 1 - f.lo))

/-- The shadows of instances `a` to `a + n - 1` become active (R9). -/
def commitRws (r : RegId) (a n : Nat) (s : State) : State := forN n (fun i s => s.rput r (a + i) (s.sget r (a + i))) s

/-! ## Power domains (Table 19-1) -/

/-- The power domain of an NI that is not always ON. -/
def domOfNi (ni : Nat) : Option Nat :=
  if ni < 10 then some (14 + ni) else if ni < 18 then some (ni - 4) else if ni < 34 then some (2 + (ni - 18) / 4)
  else none

/-- The NIs of a domain. -/
def nisOf (d : Nat) : List Nat := (List.range 46).filter (fun ni => domOfNi ni == some d)

/-- A power domain is ON. -/
def State.domOn (s : State) (d : Nat) : Bool := (s.dom d).st == 0

/-- An NI's domain is ON (R447). -/
def State.niAwake (s : State) (ni : Nat) : Bool :=
  match domOfNi ni with
  | none => true
  | some d => s.domOn d
/-- An NI's domain is FAILED. -/
def State.niFailed (s : State) (ni : Nat) : Bool :=
  match domOfNi ni with
  | none => false
  | some d => (s.dom d).st == 3

/-- Activity in a domain restarts its idle timer, which takes the IDLE_T of then (R441, R454). -/
def touch (d : Nat) (s : State) : State := s.setDom d { s.dom d with last := s.now, limit := s.fget F.pwrDomIdleT d }

/-- Activity at an NI. -/
def touchNi (ni : Nat) (s : State) : State :=
  match domOfNi ni with
  | none => s
  | some d => touch d s

/-! ## Stamps (R45 to R48) -/

/-- The SEQ that NI `ni`'s next stamp takes: 0 in a new nanosecond (R47). -/
def State.nextSeq (s : State) (ni : Nat) : Nat :=
  if s.lastTime ni = s.niTime ni + 1 then s.lastSeq ni + 1 else 0

/-- Whether NI `ni` may stamp a packet: it has the time (R44), fewer than 16 packets have taken this nanosecond (R47),
and toward a gate it is not parked and its unpark hold is over (R58, R59). -/
def State.mayStamp (s : State) (ni : Nat) (gate : Bool) : Bool :=
  !s.untimed ni && decide (s.nextSeq ni < 16) && (!gate || (!s.niParked ni && s.holdTill ni == 0))

/-- The stamp that NI `ni` takes now (Table 3-1). -/
def State.stampAt (s : State) (ni : Nat) : Stamp :=
  { time := s.niTime ni, ni := ni, coarse := s.flag F.tbCtlCoarse 0, seq := s.nextSeq ni }

/-- The state after NI `ni` has stamped a packet. -/
def State.stamped (s : State) (ni : Nat) : State :=
  (s.setLastSeq ni (s.nextSeq ni)).setLastTime ni (s.niTime ni + 1)

/-- A stamp as a 64-bit number (Table 3-1). -/
def Stamp.bits (x : Stamp) : Nat := x.time * 2 ^ 16 + x.ni * 2 ^ 10 + b2n x.coarse * 16 + x.seq % 16

/-- Stamp x precedes stamp y (R48). -/
def Stamp.precedes (x y : Stamp) : Bool :=
  timeBefore x.time y.time || (x.time == y.time && x.ni == y.ni && decide (x.seq < y.seq))

/-- Two stamps are concurrent (R48). -/
def Stamp.concurrent (x y : Stamp) : Bool :=
  x.ni != y.ni && (decide (timeDiff x.time y.time ≤ 4) || decide (timeDiff y.time x.time ≤ 4))

/-- x comes before y by the order key: TIME, then NI, then SEQ (R48). -/
def Stamp.keyLt (x y : Stamp) : Bool :=
  timeBefore x.time y.time
    || (x.time == y.time && (decide (x.ni < y.ni) || (x.ni == y.ni && decide (x.seq < y.seq))))

/-! ## Service classes (R79, R393) -/

/-- The service class of function `fn`. -/
def State.qcOf (s : State) (fn : Nat) : Nat := s.fget F.fSvcQc fn

/-- The fabric level of service class `q`. -/
def State.lvOf (s : State) (q : Nat) : Nat := bitsGet (s.rget .svcLv 0) (4 * q + 2) (4 * q)

/-- A packet of class `cls` for function `fn`, with the level and class of R79. -/
def State.mkPkt (s : State) (cls ty src dst fn : Nat) : Packet :=
  if cls = 3 then { cls := cls, ty := ty, src := src, dst := dst, fn := fn, lv := 7, qc := 0 }
  else { cls := cls, ty := ty, src := src, dst := dst, fn := fn, lv := s.lvOf (s.qcOf fn), qc := s.qcOf fn }

/-- The response to a request: it carries the LV, QC, FN and TAG of the request (R79). -/
def Packet.reply (p : Packet) (ty csts : Nat) (data : List Byte) : Packet :=
  { cls := 2, ty := ty, src := p.dst, dst := p.src, fn := p.fn, lv := p.lv, qc := p.qc, tag := p.tag,
    csts := csts, addr := p.addr % 4096, len := data.length, data := data, ido := p.ido, ns := p.ns,
    fbe := p.fbe, lbe := p.lbe, eng := p.eng }

/-! ## Headers and records -/

/-- The header of Table 4-4 as a number of 256 bits. -/
def Packet.hdrNat (p : Packet) : Nat :=
  let low := p.cls + p.lv * 4 + p.dst * 32 + p.src * 2 ^ 11
  low + (Config.hecc low).val * 2 ^ 17 + p.ty * 2 ^ 23 + p.fn * 2 ^ 29 + p.tag * 2 ^ 40 + p.len * 2 ^ 54
    + p.fbe.toNat * 2 ^ 67 + p.lbe.toNat * 2 ^ 75
    + (b2n p.ro + 2 * b2n p.ido + 4 * b2n p.ns + 8 * b2n p.ep + 16 * b2n p.uo) * 2 ^ 83
    + p.xv * 2 ^ 88 + p.swap * 2 ^ 96 + p.icnt * 2 ^ 99 + p.asp * 2 ^ 111 + p.csts * 2 ^ 114 + p.qc * 2 ^ 117
    + b2n p.dt * 2 ^ 120 + p.age * 2 ^ 128 + p.addr * 2 ^ 176

/-- The header as 32 bytes, low byte first. -/
def Packet.hdrBytes (p : Packet) : List Byte := leBytes 32 p.hdrNat

/-- The number of flits of a payload of `len` bytes (R76). -/
def flitsOf (len : Nat) : Nat :=
  if len ≤ 24 then 1 else if len ≤ 88 then 2 else 2 + (len - 88 + 63) / 64

/-- The flits of a packet (R76). -/
def Packet.flits (p : Packet) : Nat := flitsOf p.data.length

/-- The 64 B units a packet counts against an allowance (R52). -/
def Packet.units (p : Packet) : Nat := max 1 ((p.data.length + 63) / 64)

/-- Which of the LEN bytes of a packet are enabled (R77): FBE and LBE name bytes of the first and last 8-byte word
covered, and every byte between is enabled. -/
def byteEnables (addr len : Nat) (fbe lbe : BitVec 8) : List Bool :=
  let w0 := addr / 8
  let w1 := (addr + len - 1) / 8
  (List.range len).map (fun i =>
    let a := addr + i
    if a / 8 = w0 then fbe.getLsbD (a % 8) else if a / 8 = w1 then lbe.getLsbD (a % 8) else true)

/-- The FBE that enables every byte from `addr` for `len` bytes. -/
def fbeFor (addr len : Nat) : BitVec 8 :=
  BitVec.ofNat 8 ((List.range 8).foldl (fun acc i =>
    acc + b2n (decide (addr % 8 ≤ i ∧ i < addr % 8 + len)) * 2 ^ i) 0)

/-- The LBE that enables every byte of the last word covered, zero where only one word is covered (R77). -/
def lbeFor (addr len : Nat) : BitVec 8 :=
  if len = 0 ∨ addr / 8 = (addr + len - 1) / 8 then 0
  else BitVec.ofNat 8 (2 ^ ((addr + len - 1) % 8 + 1) - 1)

/-- Offers a packet to its NI's injection queue: one queue for each data class and QC, one for control (R89). -/
def offer (p : Packet) (s : State) : State :=
  let k := 25 * p.src + (if p.cls = 3 then 24 else 8 * p.cls + p.qc)
  s.setInq k (s.inq k ++ [{ p with born := s.now }])

/-- A fault notice from one NI to another (Table 17-4). -/
def notice (src dst kind count about fn : Nat) (data : List Byte) : Packet :=
  { cls := 3, ty := 0x33, src := src, dst := dst, lv := 7, fn := fn, len := data.length, data := data,
    addr := about * 2 ^ 16 + (count % 4096) * 16 + kind }

/-- What a violation record says (Table 17-5). -/
structure Viol where
  ni : Nat := 0
  code : Nat := 0
  fn : Nat := 0xFFFF
  port : Nat := 0xFFFF
  object : Nat := 0
  value : Nat := 0
  kind : Nat := 0
  hdr : List Byte := []
  inj : Bool := false

/-- The 64 bytes of a violation record, RECNO left to TRC (Table 17-5). -/
def Viol.bytes (v : Viol) (stamp : Stamp) : List Byte :=
  leBytes 8 stamp.bits ++ leBytes 2 v.code ++ leBytes 1 v.ni ++ leBytes 1 (b2n v.inj + 2 * v.kind)
    ++ leBytes 2 v.fn ++ leBytes 2 0
    ++ leBytes 8 (v.port * 2 ^ 48 + (v.object % 2 ^ 26) * 2 ^ 22 + v.value % 2 ^ 22)
    ++ leBytes 4 0 ++ leBytes 4 0 ++ (v.hdr ++ List.replicate 32 0).take 32

/-- A block sends a violation record to TRC (R416). -/
def viol (v : Viol) (s : State) : State :=
  offer (notice v.ni 41 5 0 v.ni 0 (v.bytes (s.stampAt v.ni))) s

/-- A violation whose header is that of a fabric packet. -/
def violPkt (ni code : Nat) (p : Packet) (object value : Nat) (s : State) : State :=
  viol { ni := ni, code := code, fn := p.fn, object := object, value := value, kind := 1, hdr := p.hdrBytes,
         inj := p.inj } s

/-- The 32 bytes of a posted-fault record, NUM left to TRC (Table 17-7). -/
def pfrBytes (at_ : Nat) (p : Packet) (cause info : Nat) : List Byte :=
  leBytes 8 p.stamp.bits ++ leBytes 4 0 ++ leBytes 1 cause ++ leBytes 1 p.src ++ leBytes 1 at_ ++ leBytes 1 p.asp
    ++ leBytes 8 p.addr ++ leBytes 2 p.len ++ leBytes 2 p.ty ++ leBytes 4 info

/-- A block records a failed posted packet in the posted-fault ring of its FN (R418). -/
def pfr (at_ : Nat) (p : Packet) (cause info : Nat) (s : State) : State :=
  offer (notice at_ 41 6 0 at_ p.fn (pfrBytes at_ p cause info)) s

/-- A block sends a trace event to TRC (R422). -/
def trace (ni cls event fn : Nat) (data : List Byte) (inj : Bool) (s : State) : State :=
  offer (notice ni 41 7 0 ni 0
    (leBytes 8 (s.stampAt ni).bits ++ leBytes 1 cls ++ leBytes 1 event ++ leBytes 1 ni ++ leBytes 1 (b2n inj)
      ++ leBytes 2 fn ++ leBytes 2 0 ++ (data ++ List.replicate 16 0).take 16)) s

/-! ## Configuration space (R284 to R288) and AER (R421) -/

/-- The host port of a function (R284). -/
def portOf (fn : Nat) : Nat := fn / 1024

/-- NI `ni` has applied a fence of function `fn`: its own, or that of a flush of its port (R398). -/
def State.under (s : State) (ni fn : Nat) : Bool := s.fenced (2048 * ni + fn) || s.fenced (94208 + 2 * ni + fn / 1024)

/-- The physical function of a function's port. -/
def pfOf (fn : Nat) : Nat := 1024 * (fn / 1024)

/-- Whether a function is a physical one. -/
def isPf (fn : Nat) : Bool := fn % 1024 == 0

/-- The number of vectors of a function (R387). -/
def State.vectorsOf (s : State) (fn : Nat) : Nat :=
  if isPf fn then s.fget F.irtPortPfVec (portOf fn) else s.fget F.irtPortVfVec (portOf fn)

/-- The value of a configuration field at reset (Tables 12-2 to 12-5; the AER registers as PCI Express resets
them: PRESUMED, log 9). -/
def State.cfgReset (s : State) (fn : Nat) (f : CfgField) : Nat :=
  match f with
  | .vendorId => if isPf fn then 0x1F6B else 0xFFFF
  | .deviceId => if isPf fn then 0x7000 else 0xFFFF
  | .revisionId => 0xB1
  | .classCode => 0x088000
  | .headerType => 0
  | .capPointer => if isPf fn then 0x40 else 0x50
  | .subsystemVendorId => ((s.imageVal 0x30).getD 0) % 2 ^ 16
  | .subsystemId => ((s.imageVal 0x30).getD 0) / 2 ^ 16
  | .msixTableSize => s.vectorsOf fn - 1
  | .serialNumber => Config.serial.toNat
  | .maxReadRequestSize => 2
  | .extTagEn => 1
  | .aerUncorMask => 0x400000
  | .aerUncorSeverity => 0x462030
  | .aerCorMask => 0xE000
  | _ => 0

/-- Fields that SR-IOV reserves in VFs, which use the PF's settings (R288; which they are is PCI Express: PRESUMED,
log 9). -/
def pfField : CfgField → Bool
  | .maxPayloadSize | .maxReadRequestSize | .extTagEn | .ctoValue | .ctoDisable | .ltrEnable | .tag10En | .tag14En
  | .aerUncorMask | .aerUncorSeverity | .aerCorMask | .ecrcGenEn | .ecrcCheckEn | .maxSnoop | .maxNoSnoop => true
  | _ => false

/-- The value of a configuration field that a function uses. -/
def State.cfgGet (s : State) (fn : Nat) (f : CfgField) : Nat :=
  let n := if pfField f then pfOf fn else fn
  (s.cfgAt (64 * n + f.ctorIdx)).getD (s.cfgReset n f)

/-- The state with a configuration field written. -/
def State.cfgPut (s : State) (fn : Nat) (f : CfgField) (v : Nat) : State :=
  s.setCfgAt (64 * fn + f.ctorIdx) (if v = s.cfgReset fn f then none else some v)

/-- Whether a function is in D0 (Table 12-4: D0 or D3hot only). -/
def State.inD0 (s : State) (fn : Nat) : Bool := s.cfgGet fn .powerState == 0

/-- An uncorrectable error of a function (R421): bit `bit` of its AER status sets, and an unmasked error is
reported with the severity of the severity register, or, advisory, as a correctable message. -/
def aerUncor (fn bit : Nat) (name : String) (hdr : List Nat) (advisory : Bool) (s : State) : State :=
  let st := s.cfgGet fn .aerUncorStatus
  let s1 := if natBit st bit then s else s.cfgPut fn .aerUncorStatus (st + 2 ^ bit)
  let masked := natBit (s1.cfgGet fn .aerUncorMask) bit
  if advisory then
    let c := s1.cfgGet fn .aerCorStatus
    let s2 := if natBit c 13 then s1 else s1.cfgPut fn .aerCorStatus (c + 2 ^ 13)
    if masked || natBit (s2.cfgGet fn .aerCorMask) 13 then s2 else s2.emit (.aer fn 3 name hdr)
  else if masked then s1
  else s1.emit (.aer fn (if natBit (s1.cfgGet fn .aerUncorSeverity) bit then 2 else 1) name hdr)

/-- Unsupported Request of a function. -/
def aerUr (fn : Nat) (hdr : List Nat) (advisory : Bool) : State → State :=
  aerUncor fn 20 "Unsupported Request" hdr advisory

/-- Uncorrectable Internal Error by the PF of each port in D0 (Table 17-8). -/
def aerInternal (s : State) : State :=
  forN 2 (fun k s => when (s.inD0 (1024 * k)) (aerUncor (1024 * k) 22 "Uncorrectable Internal Error" [] false) s) s

/-- Corrected Internal Error by the PF of port k in D0, at most once per 1 ms (Table 17-8). -/
def aerCorrectedAt (k : Nat) (s : State) : State :=
  let fn := 1024 * k
  let due := match s.lastCorr k with
    | none => true
    | some t => decide (s.now ≥ t + 1000000)
  when (s.inD0 fn && due) (fun s =>
    let st := s.cfgGet fn .aerCorStatus
    let s1 := if natBit st 14 then s else s.cfgPut fn .aerCorStatus (st + 2 ^ 14)
    let s2 := s1.setLastCorr k (some s.now)
    if natBit (s2.cfgGet fn .aerCorMask) 14 then s2 else s2.emit (.aer fn 0 "Corrected Internal Error" [])) s

/-- Corrected Internal Error by the PF of each port (Table 17-8). -/
def aerCorrected (s : State) : State := forN 2 aerCorrectedAt s

/-! ## Staging memory (R275, R406 to R408) -/

/-- The NI of the bank of a staging address (R275, Table 4-1). -/
def bankNi (a : Nat) : Nat := 18 + (a / 2 ^ 22) % 16

/-- A check of one 64-bit word on a read or before a partial write (R408): a single-bit error is corrected and
counted, an uncorrectable one poisons the word and is recorded once. -/
def stgCheck (w : Nat) (s : State) : State :=
  let e := s.eccAt w
  if e % 4 = 0 then s
  else if e % 4 = 1 then aerCorrected ((s.setEccAt w 0).fsat F.errCntSecdedCe 0 1)
  else
    let s1 := ((s.setEccAt w 0).setPoisonAt w true).fsat F.errCntSecdedUe 0 1
    viol { ni := bankNi (8 * w), code := 0x0504, object := 8 * w, value := 0, inj := decide (4 ≤ e) } s1

/-- The words that a range of bytes covers. -/
def wordsOf (a n : Nat) : List Nat :=
  if n = 0 then [] else (List.range ((a + n - 1) / 8 + 1 - a / 8)).map (· + a / 8)

/-- Every word of a range checked. -/
def stgCheckRange (a n : Nat) (s : State) : State := forL (wordsOf a n) stgCheck s

/-- The bytes of a range as they stand. -/
def State.stgBytes (s : State) (a n : Nat) : List Byte := (List.range n).map (fun i => s.byte (a + i))

/-- Whether any word of a range carries poison. -/
def State.stgPoisoned (s : State) (a n : Nat) : Bool := (wordsOf a n).any s.poisonAt

/-- One word of staging memory written with the enabled bytes of a packet (R407, R408): `full` when all eight are
enabled. -/
def stgWriteWord (ep : Bool) (a : Nat) (data : List Byte) (en : List Bool) (w : Nat) (s : State) : State :=
  let idx := (List.range data.length).filter (fun i => (a + i) / 8 == w && en.getD i true)
  if idx.isEmpty then s
  else
    let s1 := if idx.length = 8 then (s.setEccAt w 0).setPoisonAt w ep
      else
        let s0 := stgCheck w s
        if ep then s0.setPoisonAt w true else s0
    forL idx (fun i s => s.setByte (a + i) (data.getD i 0)) s1

/-- A write of bytes to staging memory. -/
def stgWrite (a : Nat) (data : List Byte) (en : List Bool) (ep : Bool) (s : State) : State :=
  forL (wordsOf a data.length) (stgWriteWord ep a data en) s

/-- A write of whole bytes without poison: what the device's own blocks write. -/
def stgPut (a : Nat) (data : List Byte) (s : State) : State :=
  stgWrite a data (List.replicate data.length true) false s

/-- A little-endian number of `n` bytes of staging memory. -/
def State.stgNat (s : State) (a n : Nat) : Nat := leNat (s.stgBytes a n)

/-! ## Port groups (R312) and feed sets (R51) -/

/-- The number of x4 ports in the group of LPI p: 1, 2 or 4 (R312). -/
def State.groupLen (s : State) (p : Nat) : Nat :=
  if s.fget F.lnkCtlWidth (p / 4 * 4) = 2 then 4
  else if s.fget F.lnkCtlWidth (p / 2 * 2) = 1 then 2 else 1

/-- The lowest-numbered LPI of the group of LPI p (R312). -/
def State.leadOf (s : State) (p : Nat) : Nat := p / s.groupLen p * s.groupLen p

/-- Whether NI `ni` is in the feed set of gate `g` (Table 3-2, R51): the LPIs of a group's own gate are not. -/
def State.feeds (s : State) (ni g : Nat) : Bool :=
  if g < 2 then ni != g && decide (ni < 46)
  else if s.leadOf (g - 2) != g - 2 then false
  else if ni < 2 then true
  else if ni < 10 then s.leadOf (ni - 2) != g - 2
  else decide (ni < 18) || ni == 42

/-- The hold memory of a gate in KiB (Table 3-2, R52). -/
def State.holdMem (s : State) (g : Nat) : Nat := if g < 2 then 512 else 384 * s.groupLen (g - 2)

/-! ## Who may write a register (R8, R13, R14, R94, R310, R388) -/

/-- The NI that a writer's accesses come from. -/
def writerNi : Writer → Nat
  | .host k => k.val
  | .prog e => 10 + e.val / 8
  | .mgc => 42
  | .drv fn => fn.val / 1024

/-- The function a writer acts for (R50; the MGC acts for FN 0: DESIGN CHOICE, log 10). -/
def State.writerFn (s : State) : Writer → Nat
  | .host k => 1024 * k.val
  | .prog e => (s.eng e.val).fn
  | .mgc => 0
  | .drv fn => fn.val

/-- The offset of a register instance in PF BAR0 or in its function area. -/
def regOffset (r : RegId) (i : Nat) : Nat :=
  match regRows.find? (fun row => row.reg == r && decide (row.first ≤ i) && decide (i < row.first + row.n1 * row.n2))
  with
  | none => 0
  | some row => row.base + (i - row.first) / row.n2 * row.s1 + (i - row.first) % row.n2 * row.s2

/-- The width of a register in bytes. -/
def regBytes (r : RegId) : Nat := ((regRows.find? (fun row => row.reg == r)).map (·.width / 8)).getD 4

/-- The NI of the block that owns a control-space offset (Tables 4-1 and 22-1; the MGC's NI for the blocks that
Table 4-1 gives none: DESIGN CHOICE, log 11). -/
def ownerNi (off : Nat) : Nat :=
  if off < 0x1000 then 45
  else if off < 0x2000 then 44
  else if off < 0x3000 then 43
  else if off < 0x4000 then 41
  else if off < 0xC000 then 42
  else if off < 0x10000 then 40
  else if off < 0x14000 then 39
  else if off < 0x18000 then 42
  else if off < 0x20000 then 34
  else if off < 0x30000 then (off - 0x20000) / 0x4000 % 2
  else if off < 0x80000 then 2 + (off - 0x30000) / 0x4000 % 8
  else if off < 0x200000 then 10 + (off - 0x80000) / 0x1000 % 8
  else if off < 0x400000 then 38
  else 42

/-- The write packet that a register write of a writer is: its header is what a violation record carries. -/
def State.regPkt (s : State) (w : Writer) (off bytes : Nat) (value : Word) : Packet :=
  { s.mkPkt 1 0x10 (writerNi w) (ownerNi off) (s.writerFn w) with
    addr := off, len := bytes, asp := 4, data := leBytes bytes value.toNat,
    fbe := fbeFor off bytes, lbe := lbeFor off bytes, stamp := s.stampAt (writerNi w) }

/-- The write packet of a register write that has a row of its own. -/
def State.writePkt (s : State) (w : Writer) (r : RegId) (i : Nat) (value : Word) : Packet :=
  s.regPkt w (regOffset r i) (regBytes r) value

/-- A register write discarded because its source is not permitted, or its content refused (code 0x0401). -/
def violSource (p : Packet) (s : State) : State := violPkt p.dst 0x0401 p p.addr 0 s

/-- Registers that only the MGC writes (R94, R280, Tables 6-9 to 6-13 and 19-8 as their cells say). -/
def mgcOnly : RegId → Bool
  | .rtData | .xltLoc | .pwcClk | .pclCtl | .pclSts | .pclLimits | .pclPsAddr | .pclPsData => true
  | _ => false

/-- Whether a writer may write a register (R13, R125, R250, R310, R402, R428). -/
def writerOk (w : Writer) (r : RegId) (i : Nat) : Bool :=
  match w with
  | .mgc => true
  | .drv _ =>
    match r with
    | .sqTailDb | .cqHeadDb | .qSqbase | .qCqbase | .qParam | .qCfg | .qCtl | .qSts | .pfrCtl => true
    | _ => false
  | .prog _ =>
    match r with
    | .winSel | .winCw | .winAcc | .winTag | .winCmd | .teSel | .teData | .teCmd | .fWin | .trcMark | .qmQhead | .qmQerr
      => true
    | _ => false
  | .host k =>
    if mgcOnly r then false
    else
      match r with
      | .hpiLtr | .hpiSentinel => k.val == i
      | .qmQhead | .qmQerr => false
      | _ => true

/-- A register write of a dedicated row: `f` when the writer may write it, else discarded and recorded. -/
def guarded (w : Writer) (r : RegId) (i : Nat) (value : Word) (f : State → State) (s : State) : State :=
  if writerOk w r i then f s else violSource (s.writePkt w r i value) s

/-- A register write that may be refused: `f` takes the packet, which a record of the refusal carries. -/
def guardedP (w : Writer) (r : RegId) (i : Nat) (value : Word) (f : Packet → State → State) (s : State) : State :=
  guarded w r i value (f (s.writePkt w r i value)) s

/-- An MGC write that an RWL field refuses with BUSY (R15). -/
def busyMgc (p : Packet) (s : State) : State := violPkt p.dst 0x0402 p p.addr p.len s

/-- A write that an RWL field refuses with BUSY (R15): a PF's goes to the posted-fault ring of the function, a
program's to that of s.fn, the MGC's to the violation log. -/
def busyWrite (w : Writer) (p : Packet) (s : State) : State :=
  match w with
  | .mgc => busyMgc p s
  | _ => pfr p.dst p 2 0 s

end Sys2Proof.Machine
end

