-- ==== Sys2Proof/Machine/Clock.lean ====
section
/-!
DEFINITION. The tick of the time base. No command of the table stands for the passing of a nanosecond; it passes in
a step that finds the queue empty (DESIGN CHOICE, log 2).
-/
namespace Sys2Proof.Machine

/-- One nanosecond of the count (R39, R40): outside power-on reset the count rises by 1, and TB_SLEW adds to the
correction that is owed (R42). -/
def tick (s : State) : State :=
  if s.inPor then s
  else { s with tb := { s.tb with
    count := (s.tb.count + 1) % 2 ^ 64
    slewAcc := s.tb.slewAcc + signedOf 16 (s.fget F.tbSlewSlew 0) } }

end Sys2Proof.Machine
end

