-- ==== Sys2Proof/Machine/Undef.lean ====
section
/-!
DEFINITION. What is undefined once VDD_CORE has been below 0.60 V (R31): staging memory, the program stores and
every register without a clock. Each takes a free value: an opaque constant applied to a counter.
-/
namespace Sys2Proof

/-- The undefined contents of a byte memory (0 staging, 1 scratch): pairs of address and byte. -/
opaque Config.undefBytes : Nat → Nat → List (Nat × Nat)

/-- The undefined contents of the program stores. -/
opaque Config.undefStore : Nat → List (Nat × Nat)

/-- The undefined poison and check bits of a memory. -/
opaque Config.undefMarks : Nat → Nat → List (Nat × Nat)

/-- The undefined values of the clockless control registers. -/
opaque Config.undefRegs : Nat → List (Nat × BitVec 64)

namespace Machine

/-- The undefined state of the fabric, the gates, the arbiters, the pacers, QM, the XUs and the IRT. -/
opaque undefFab : Nat → FabGrp
/-- The undefined state of the NIs and gates. -/
opaque undefOrd : Nat → OrdGrp
/-- The undefined state of the arbiters and semaphores. -/
opaque undefArb : Nat → ArbGrp
/-- The undefined state of the engines and movers. -/
opaque undefPcl : Nat → PclGrp
/-- The undefined state of QM. -/
opaque undefQm : Nat → QmGrp
/-- The undefined state of the XUs and the sequencer. -/
opaque undefXlt : Nat → XltGrp
/-- The undefined state of the IRT. -/
opaque undefFn : Nat → FnGrp

/-- Registers of the clocked islands (Table 2-4): TBU, PWC, BOOT and the link and lane registers of the ports keep
their values. -/
def clockedReg : RegId → Bool
  | .tbNow | .tbCtl | .tbStep | .tbSlew | .tbCoarseEnd
  | .pwrCtl | .pwrDom | .pwrRef | .pwrSts | .pwcClk | .wsCtl | .wsMask | .coreVmonSts | .stepMonCtl
  | .stepMonResult | .thermCtl | .thermSts
  | .bootCmd | .bootDst | .bootLen | .bootRes | .bootSrc | .bootSts | .bootSvn | .bootVer | .calEff | .calSel
  | .keySts
  | .hpiLinkSts | .hpiSentinel | .hpiLtr | .hpiCfg
  | .lnkCtl | .lnkSts | .fecCorr | .fecUnc | .mlSts | .mlPartner | .laneEq | .laneTst | .laneInj | .laneErr | .lanePat
  | .llCtl | .llTmr | .llDr | .llSts | .llSeq | .llCnt | .llCred | .llLeak => true
  | _ => false

/-- The keys of the clocked registers' instances. -/
def clockedKey (k : Nat) : Bool := regRows.any (fun row => clockedReg row.reg && row.reg.ctorIdx == k / 65536)

/-- A register map whose clockless part is undefined. -/
def undefRegMap (n : Nat) (m : SMap (Option Word)) : SMap (Option Word) :=
  mcanon none (m.filter (fun p => clockedKey p.1)
    ++ ((Config.undefRegs n).filter (fun p => !clockedKey p.1)).map (fun p => (p.1, some p.2)))

/-- The state with everything clockless undefined (R31): a free value in each place. -/
def undefCore (s : State) : State :=
  let n := s.free
  { s with
    free := s.free + 7
    reg := { act := undefRegMap n s.reg.act, shad := undefRegMap (n + 1) s.reg.shad }
    mem := {
      cells := mcanon 0 ((Config.undefBytes n 0).map (fun p => (p.1 % 2 ^ 26, BitVec.ofNat 8 p.2)))
      poison := mcanon false ((Config.undefMarks n 0).map (fun p => (p.1, p.2 % 2 == 1)))
      ecc := mcanon 0 (Config.undefMarks n 1)
      scratch := mcanon 0 ((Config.undefBytes n 1).map (fun p => (p.1 % 2 ^ 22, BitVec.ofNat 8 p.2)))
      scrPoison := mcanon false ((Config.undefMarks n 2).map (fun p => (p.1, p.2 % 2 == 1)))
      ps := mcanon 0 ((Config.undefStore n).map (fun p => (p.1 % 2 ^ 20, BitVec.ofNat 32 p.2)))
      psEcc := mcanon 0 (Config.undefMarks n 3) }
    fab := undefFab n
    ord := undefOrd n
    arb := undefArb n
    pcl := undefPcl n
    qm := undefQm n
    xlt := undefXlt n
    fn := undefFn n }

end Machine

end Sys2Proof
end

