-- ==== Sys2Proof/Machine/TimeBase.lean ====
section
/-!
DEFINITION. The supply monitor and the step monitor (chapter 2), and the time base (chapter 3, R38 to R44 and R67).
-/
namespace Sys2Proof.Machine

/-! ## Supply monitor -/

/-- The code of a VDD_CORE reading of `uv` microvolts: 0.5 V + 2 mV for each step, with the reading's error
(Table 2-5, log 5). -/
def vmonCode (uv n : Nat) : Nat :=
  let c : Int := ((uv : Int) - 500000) / 2000 + ((Config.vmonErr n).val : Int) - 5
  (clampInt c 0 255).toNat

/-- Below 0.60 V everything clockless becomes undefined (R31). -/
def droop (uv : Nat) (s : State) : State := when (decide (uv < 600000)) undefCore s

/-- R30: a 100 ns average sets BELOW_FLOOR when it lies below the threshold, and VMIN keeps the lowest. -/
def vmon100 (uv : Nat) (s : State) : State :=
  let (n, s1) := takeFree s
  let code := vmonCode uv n
  let s2 := { s1 with pwr := { s1.pwr with avg := code } }
  let s3 := when (decide (code < s2.fget F.coreVmonStsVmin 0)) (fun s => s.fset F.coreVmonStsVmin 0 code) s2
  let s4 := when (decide (uv < 635000 + (Config.floorThr n).val)) (fun s => s.fset F.coreVmonStsBelowFloor 0 1) s3
  droop uv s4

/-- VMON_100NS_AVERAGE (R30). -/
def execVmon100nsAverage (uv : Nat) (s : State) : Host.Outcome State Fault Refusal := live s (vmon100 uv)

/-- R31: CORE_UV sets once, the error is reported and recorded, and the device stays in its error state until
PORST_N. The contents are undefined before the record is written, so the record itself stands. -/
def coreUv (uv : Nat) (s : State) : State :=
  let (n, s1) := takeFree s
  let s2 := droop uv s1
  if uv < 570000 + (Config.uvThr n).val ∧ s.flag F.coreVmonStsCoreUv 0 = false then
    let s3 := s2.fset F.coreVmonStsCoreUv 0 1
    let s4 := aerInternal s3
    viol { ni := 42, code := 0x0507, value := s4.fget F.coreVmonStsVmin 0 } s4
  else s2

/-- VMON_50NS_AVERAGE (R30, R31). -/
def execVmon50nsAverage (uv : Nat) (s : State) : Host.Outcome State Fault Refusal := live s (coreUv uv)

/-- VNOW_UPDATE (R36): VNOW takes the latest 100 ns average. -/
def execVnowUpdate (s : State) : Host.Outcome State Fault Refusal :=
  live s (fun s => s.fset F.coreVmonStsVnow 0 s.pwr.avg)

/-- VMIN_CLR (R36): VMIN becomes 0xFF. -/
def execVminClr (w : Writer) (s : State) : Host.Outcome State Fault Refusal :=
  live s (guarded w .coreVmonSts 0 4 (fun s => s.fset F.coreVmonStsVmin 0 0xFF))

/-! ## Step monitor -/

/-- The counting window of a WINDOW code, in ns (Table 2-6: 256 ns, 1 µs, 4 µs, 16 µs). -/
def windowNs (w : Nat) : Nat := if w = 0 then 256 else if w = 1 then 1000 else if w = 2 then 4000 else 16000

/-- R37: a write clears VALID and starts the next window; with RUN = 0 the ring is stopped. -/
def stepMonWrite (v : Word) (s : State) : State :=
  let run := bitsGet v 2 2
  let s1 := ((s.fset F.stepMonCtlRun 0 run).fset F.stepMonCtlWindow 0 (bitsGet v 1 0)).fset F.stepMonResultValid 0 0
  { s1 with pwr := { s1.pwr with winStart := if run = 1 then some s.now else none, winFor := bitsGet v 1 0 } }

/-- STEP_MON_CTL_WRITE (R37). -/
def execStepMonCtlWrite (w : Writer) (value : BitVec 32) (s : State) : Host.Outcome State Fault Refusal :=
  live s (guarded w .stepMonCtl 0 (value.setWidth 64) (stepMonWrite (value.setWidth 64)))

/-- R37: the end of a running window. -/
def stepMonEnd (steps : Nat) (s : State) : State :=
  match s.pwr.winStart with
  | none => s
  | some t =>
    if s.now ≥ t + windowNs s.pwr.winFor then
      let s1 := (s.fset F.stepMonResultSteps 0 steps).fset F.stepMonResultValid 0 1
      { s1 with pwr := { s1.pwr with winStart := some (t + windowNs s.pwr.winFor) } }
    else s

/-- STEP_MON_WINDOW_END (R37). -/
def execStepMonWindowEnd (steps : Nat) (s : State) : Host.Outcome State Fault Refusal := live s (stepMonEnd steps)

/-! ## Time base -/

/-- An anchor record: TB_NOW and COARSE (R67, Table 17-9). -/
def anchor (event : Nat) (s : State) : State :=
  trace 45 7 event 0xFFFF (leBytes 8 s.tb.count ++ leBytes 8 (s.fget F.tbCtlCoarse 0)) false s

/-- TB_PLL_LOCK (R40): the PLL, once enabled, locks. -/
def execTbPllLock (s : State) : Host.Outcome State Fault Refusal :=
  live s (fun s =>
    if s.flag F.tbCtlPllEn 0 then
      let s1 := s.fset F.tbCtlPllLock 0 1
      { s1 with tb := { s1.tb with lockSince := some s.now } }
    else s)

/-- R40: a write of SRC = 1 counts only while PLL_LOCK is 1; a write of 0 is always ignored. -/
def srcWrite (src : Bool) (s : State) : State :=
  when (src && s.flag F.tbCtlPllLock 0) (fun s => s.fset F.tbCtlSrc 0 1) s

/-- TB_SRC_WRITE (R40). -/
def execTbSrcWrite (w : Writer) (src : Bool) (s : State) : Host.Outcome State Fault Refusal :=
  live s (guarded w .tbCtl 0 (BitVec.ofNat 64 (2 * b2n src)) (srcWrite src))

/-- TB_SWITCH_OVER (R40): the requested move to the PLL. -/
def execTbSwitchOver (s : State) : Host.Outcome State Fault Refusal :=
  live s (fun s =>
    if s.flag F.tbCtlSrc 0 && s.flag F.tbCtlCoarse 0 && s.flag F.tbCtlPllLock 0 then
      anchor 2 ((s.rput .tbCoarseEnd 0 (BitVec.ofNat 64 s.tb.count)).fset F.tbCtlCoarse 0 0)
    else s)

/-- TB_FALLBACK (R41): the PLL loses lock after switch-over. -/
def execTbFallback (s : State) : Host.Outcome State Fault Refusal :=
  live s (fun s =>
    if s.flag F.tbCtlSrc 0 && !s.flag F.tbCtlCoarse 0 then
      let s1 := (((s.fset F.tbCtlSrc 0 0).fset F.tbCtlLockLost 0 1).fset F.tbCtlCoarse 0 1).fset F.tbCtlPllLock 0 0
      let s2 := { s1 with tb := { s1.tb with lockSince := none } }
      anchor 3 (aerCorrected (s2.emit (.mgcCorr "LOCK_LOST")))
    else s)

/-- TB_STEP_WRITE (R42): n from 1 up is the step of the next boundary; 0 has no effect. -/
def execTbStepWrite (w : Writer) (value : BitVec 32) (s : State) : Host.Outcome State Fault Refusal :=
  live s (guarded w .tbStep 0 (value.setWidth 64) (fun s =>
    if value = 0 then s else { s with tb := { s.tb with step := value.toNat } }))

/-- TB_STEP_APPLY (R42): at a 256 ns boundary the count advances by the step. -/
def execTbStepApply (s : State) : Host.Outcome State Fault Refusal :=
  live s (fun s =>
    if s.tb.count % 256 = 0 then
      { s with tb := { s.tb with count := (s.tb.count + s.tb.step) % 2 ^ 64, step := 0 } }
    else s)

/-- TB_SLEW_WRITE (R42): values beyond ± 5,000 are reserved encodings and leave SLEW unchanged (R12). -/
def execTbSlewWrite (w : Writer) (value : BitVec 32) (s : State) : Host.Outcome State Fault Refusal :=
  live s (guarded w .tbSlew 0 (value.setWidth 64) (fun s =>
    let v := value.toNat % 65536
    if encodingOk .tbSlew 0 v then s.fset F.tbSlewSlew 0 v else s))

/-- TB_SLEW_ADJUST (R42): once a whole nanosecond is owed, this nanosecond advances the count by 2, or holds it. -/
def execTbSlewAdjust (s : State) : Host.Outcome State Fault Refusal :=
  live s (fun s =>
    if s.tb.slewAcc ≥ 10000000 then
      { s with tb := { s.tb with count := (s.tb.count + 2) % 2 ^ 64, slewAcc := s.tb.slewAcc - 10000000 } }
    else if s.tb.slewAcc ≤ -10000000 then
      { s with tb := { s.tb with slewAcc := s.tb.slewAcc + 10000000 } }
    else s)

/-- ANCHOR_RECORD (R67): once for every 2^32 ns of the count. -/
def execAnchorRecord (s : State) : Host.Outcome State Fault Refusal :=
  live s (fun s =>
    if s.tb.count / 2 ^ 32 ≠ s.tb.anchor then
      anchor 1 { s with tb := { s.tb with anchor := s.tb.count / 2 ^ 32 } }
    else s)

end Sys2Proof.Machine
end

