-- ==== Sys2Proof/Machine/Order.lean ====
section
/-!
DEFINITION. Milestones, watermarks and gates (chapter 3), and the counts by which a destination keeps a source's
packets in order and finds the counts of damaged ones (R193, R410).
-/
namespace Sys2Proof.Machine

/-! ## Counts modulo 4,096 -/

/-- A count received has reached a count sent (R53). -/
def reached (recv c : Nat) : Bool := decide ((recv + 4096 - c % 4096) % 4096 < 2048)

/-- How far count `c` lies beyond `base`. -/
def beyond (base c : Nat) : Nat := (c % 4096 + 4096 - base % 4096) % 4096

/-- The place of what a destination keeps of a source. -/
def ckey (dst src : Nat) : Nat := 46 * dst + src

/-! ## Milestones -/

/-- The full time that a milestone's 24 bits stand for: the one within 2^23 ns of the gate's own time (Table 3-3). -/
def fullTime (own m : Nat) : Nat :=
  let d := (m + 2 ^ 24 - own % 2 ^ 24) % 2 ^ 24
  if d < 2 ^ 23 then (own + d) % 2 ^ 48 else (own + 2 ^ 48 + d - 2 ^ 24) % 2 ^ 48

/-- A milestone of feeder `ni` toward gate `g` (Table 3-3). -/
def State.milestone (s : State) (ni g : Nat) (park unpark : Bool) : Milestone :=
  { time := s.niTime ni % 2 ^ 24, src := ni, gate := g, count := s.injCnt (ckey ni g) % 4096,
    coarse := s.flag F.tbCtlCoarse 0, park := park, unpark := unpark }

/-- A feeder sends a milestone (R54). -/
def sendMs (ni g : Nat) (park unpark : Bool) (s : State) : State :=
  let s1 := { s with ord := { s.ord with miles := s.ord.miles ++ [s.milestone ni g park unpark] } }
  s1.setLastSent (10 * ni + g) s.now

/-- MILESTONE_SEND (R54): 32 ns of local time have passed since the feeder last sent to the gate. -/
def execMilestoneSend (ni : Fin 46) (g : Fin 10) (s : State) : Host.Outcome State Fault Refusal :=
  live s (fun s =>
    if s.feeds ni.val g.val && !s.niParked ni.val && !s.untimed ni.val
        && decide (s.now ≥ s.lastSent (10 * ni.val + g.val) + 32) then
      sendMs ni.val g.val false false s
    else s)

/-- A feeder parks toward every gate it feeds (R58). -/
def parkNi (ni : Nat) (s : State) : State :=
  if s.niParked ni then s
  else (forN 10 (fun g s => when (s.feeds ni g) (sendMs ni g true false) s) s).setNiParked ni true

/-- A feeder whose domain has returned and that has the time again unparks (R59). -/
def unparkNi (ni : Nat) (s : State) : State :=
  let s1 := forN 10 (fun g s => when (s.feeds ni g) (sendMs ni g false true) s) s
  (s1.setNiParked ni false).setHoldTill ni (s.now + 128)

/-- The NI of a port whose link is down stays parked until the link is up (R303, R354). -/
def State.portDown (s : State) (ni : Nat) : Bool :=
  if ni < 2 then
    (match (s.hpi ni).link with
     | .l0 | .l0p | .l1 | .l11 | .l12 => false
     | _ => true)
  else decide (ni < 10) && (s.lpi (s.leadOf (ni - 2))).lst == 0

/-- TIME_SERIAL_LOAD (R43, R44, R59): once in each 256 ns period the full time reaches every NI; one that awaited it
unparks, unless its port is down. -/
def execTimeSerialLoad (s : State) : Host.Outcome State Fault Refusal :=
  live s (fun s =>
    if s.tb.count / 256 ≠ s.tb.loaded then
      forN 46 (fun ni s => when (s.untimed ni) (fun s =>
          when (!s.portDown ni) (unparkNi ni) (s.setUntimed ni false)) s)
        { s with tb := { s.tb with loaded := s.tb.count / 256 } }
    else s)

/-- UNPARK_HOLD_EXPIRE (R59): the feeder's local time reaches u + 128 ns. -/
def execUnparkHoldExpire (ni : Fin 46) (s : State) : Host.Outcome State Fault Refusal :=
  live s (fun s => if s.now ≥ s.holdTill ni.val then s.setHoldTill ni.val 0 else s)

/-! ## Watermarks (R56 to R59) -/

/-- The later of a watermark and a time: a watermark is never lowered (R56). -/
def raiseW (w t : Nat) : Nat := if timeBefore w t then t else w

/-- What a milestone does to the keeper's record of its feeder (R56, R58, R59). -/
def keepMs (own : Nat) (ms : Milestone) (f : Feeder) : Feeder :=
  let t := fullTime own ms.time
  if ms.unpark then { f with w := t, parked := false, pend := none }
  else if reached f.recv ms.count then { f with w := raiseW f.w t, parked := ms.park || f.parked, pend := none }
  else { f with pend := some ms }

/-- A pending milestone takes effect once its count is reached (R56). -/
def settle (own : Nat) (f : Feeder) : Feeder :=
  match f.pend with
  | none => f
  | some ms => if reached f.recv ms.count then keepMs own ms f else f

/-- What a packet's arrival does to the keeper's record: it counts, and where the count received then equals the
count it carries, its TIME raises the watermark (R56). A damaged packet carries neither. -/
def keepPkt (own : Nat) (p : Packet) (f : Feeder) : Feeder :=
  let r := (f.recv + 1) % 4096
  let f1 := { f with recv := r }
  settle own (if !p.hdrBad && r == p.icnt then { f1 with w := raiseW f.w p.stamp.time } else f1)

/-! ## Counts of packets received, and damaged packets (R193, R410, R411) -/

/-- The allowance return of a packet of `p.units` units released or discarded at gate `g` (R52, R65): ADDR[15:0]
holds the units, ADDR[16] marks a discard, and TAG copies the packet's own. -/
def allowanceReturn (g : Nat) (p : Packet) (discard : Bool) : Packet :=
  { cls := 3, ty := 0x31, src := g, dst := p.src, lv := 7, fn := p.fn, tag := p.tag, ep := p.ep,
    addr := p.units + 65536 * b2n discard }

/-- Whether a packet at an NI is one that its gate orders (R51): the responses of banks, XUs and SEM, control-class
packets and accesses to the port's own registers are not, nor are the probes
of R267, the answers that a flush gives outside the gate (R498), which XV = 6 marks, and those that an NI gives to
its own block (R87, R398, R411), which XV = 5 or 7 marks. -/
def passesGate (ni : Nat) (p : Packet) : Bool :=
  decide (ni < 10) && p.cls != 3 && p.asp != 4 && p.ty != 0x22 && p.ty != 0x23 && !(p.ty == 0 && p.asp == 6)
    && !(p.cls == 2 && ((18 ≤ p.src && p.src < 38) || p.src == 40 || decide (5 ≤ p.xv ∧ p.xv < 8)))

/-- A damaged packet that has its count is disposed of by its class (R411). A damaged response waits among the
arrived packets, marked by an ICNT of 4,096, which no packet carries. The notice of a request carries its TAG, by which the model finds what the source keeps
under the count. -/
def dispose (ni : Nat) (p : Packet) (c : Nat) (s : State) : State :=
  let s1 := violPkt ni 0x0502 p c (if p.ty < 0x40 then p.ty else 0x3F) s
  if p.cls = 1 then
    let s2 := offer (notice ni p.src 2 c ni p.fn []) s1
    let s3 := when (passesGate ni p) (offer (allowanceReturn ni p false)) s2
    when (decide (p.src < 2)) (aerUncor (1024 * p.src) 22 "Uncorrectable Internal Error" [] false) s3
  else if p.cls = 0 then
    let s2 := offer { notice ni p.src 1 c ni p.fn [] with tag := p.tag, qc := p.qc } s1
    when (passesGate ni p) (offer (allowanceReturn ni p false)) s2
  else if p.cls = 2 then
    let s2 := when (passesGate ni p) (offer (allowanceReturn ni p false)) s1
    s2.setArrived ni (s2.arrived ni ++ [{ p with icnt := 4096 }])
  else s1

/-- The counts beyond `base` up to `c` that no undamaged packet carried. -/
def missingCounts (seen : List Nat) (base c : Nat) : List Nat :=
  ((List.range (beyond base c)).map (fun i => (base + 1 + i) % 4096)).filter (fun x => !seen.contains x)

/-- Counts up to a confirmed count `c` are settled: the missing ones belong to the damaged packets from `src`, in
ascending order (R410). -/
def settleCounts (ni src c : Nat) (s : State) : State :=
  let k := ckey ni src
  let base := s.confirmed k
  let miss := missingCounts (s.seenCnt k) base c
  let dam := (s.damagedAt ni).filter (fun p => p.src == src)
  if miss.length ≤ dam.length then
    let s1 := forL (miss.zip dam) (fun x s => dispose ni x.2 x.1 s) s
    let rest := ((s.damagedAt ni).filter (fun p => p.src != src)) ++ dam.drop miss.length
    ((s1.setDamagedAt ni rest).setConfirmed k (c % 4096)).setSeenCnt k
      ((s.seenCnt k).filter (fun x => decide (beyond base x > beyond base c)))
  else s

/-- Among confirmed counts, the highest that the number received has reached is settled (R410). -/
def resolveCounts (ni src recv : Nat) (extra : List Nat) (s : State) : State :=
  let k := ckey ni src
  let base := s.confirmed k
  let cs := ((s.seenCnt k) ++ extra).filter (fun c => reached recv c && beyond base c != 0 && decide (beyond base c < 2048))
  match cs.foldl (fun b c => match b with
      | none => some c
      | some x => if beyond base c > beyond base x then some c else some x) (none : Option Nat) with
  | none => s
  | some c => settleCounts ni src c s

/-- A packet has been received whole at an NI that is not its gate: it counts, and the count it carries is
confirmed. -/
def countArrival (ni : Nat) (p : Packet) (s : State) : State :=
  let k := ckey ni p.src
  let r := (s.recvCnt k + 1) % 4096
  let s1 := s.setRecvCnt k r
  let s2 := if p.hdrBad then s1 else s1.setSeenCnt k (s1.seenCnt k ++ [p.icnt])
  resolveCounts ni p.src r [] s2

/-- A packet executes at a staging bank or a control block only after every packet that its source injected before
it toward the same NI (R193). -/
def State.inOrder (s : State) (ni : Nat) (p : Packet) : Bool :=
  let k := ckey ni p.src
  let base := s.confirmed k
  (p.cls == 2)
    || ((List.range (beyond base p.icnt - 1)).all (fun i => (s.seenCnt k).contains ((base + 1 + i) % 4096))
      || decide (beyond base p.icnt ≥ 2048) || beyond base p.icnt == 0)
    && (s.arrived ni).all (fun q => q.src != p.src || q.cls == 2 || q.hdrBad || passesGate ni q
        || decide (beyond q.icnt p.icnt = 0) || decide (beyond q.icnt p.icnt ≥ 2048))

/-- The payload of a packet fails parity at its destination (R406): EP is set, the packet continues, and each flit
is recorded. -/
def checkParity (ni : Nat) (p : Packet) (s : State) : Packet × State :=
  if p.bad.isEmpty then (p, s)
  else
    let s1 := forL p.bad (fun b s => violPkt ni 0x0505 p b.1 b.2 s) (s.fsat F.errCntParPoison 0 1)
    ({ p with ep := true, bad := [] }, s1)

/-- The first arrived packet of an NI at place `i`, taken out of the list. -/
def takeArrived (ni i : Nat) (s : State) : Option (Packet × State) :=
  match (s.arrived ni)[i]? with
  | none => none
  | some p => some (p, s.setArrived ni (dropAt (s.arrived ni) i))

/-- A damaged packet is counted, marked and kept until it has its count; a destination that is not a gate asks the
source for its count (R409, R410). The arrival time of a posted one is kept for FENCE.P (R412). -/
def noteDamaged (ni : Nat) (gate : Bool) (p : Packet) (s : State) : State :=
  let s1 := (s.fsat F.errCntDamaged 0 1).setDamagedAt ni (s.damagedAt ni ++ [{ p with ep := true }])
  let s2 := if p.cls = 1 then s1.setDamTime (ckey ni p.src) (some (s.niTime ni)) else s1
  when (!gate) (offer (notice ni p.src 3 0 ni p.fn [])) s2

/-! ## Gates -/

/-- Whether a watermark of feeder j lets a packet of time `t` go (R61): parked, or at or after t - 4 ns. -/
def watermarkOk (f : Feeder) (t : Nat) : Bool := f.parked || timeLe ((t + 2 ^ 48 - 4) % 2 ^ 48) f.w

/-- A packet is eligible (R61): all its feeder's earlier packets have arrived, and no other feeder can still deliver
an earlier one. -/
def State.eligible (s : State) (g : Nat) (p : Packet) : Bool :=
  reached (s.feeder (ckey g p.src)).recv p.icnt
    && (List.range 46).all (fun j => j == p.src || !s.feeds j g || watermarkOk (s.feeder (ckey g j)) p.stamp.time)

/-- The passing rule (R63): a non-posted or response packet is blocked behind a held posted packet of lower order
key, of its own FN if it carries IDO. -/
def blockedBy (p q : Packet) : Bool :=
  (p.cls == 0 || p.cls == 2) && q.cls == 1 && q.stamp.keyLt p.stamp && (!p.ido || q.fn == p.fn)

/-- A bypass packet (R64). -/
def isBypass (p : Packet) : Bool := p.uo || (p.ro && (p.cls == 1 || p.cls == 2))

/-- The exception of R64: a response with RO follows every held response to the same request. -/
def bypassBlocked (held : List Held) (i : Nat) (p : Packet) : Bool :=
  p.cls == 2 && !p.uo
    && ((List.range held.length).zip held).any (fun x => decide (x.1 < i) && x.2.pkt.cls == 2 && x.2.pkt.tag == p.tag
          && x.2.pkt.src == p.src)

/-- Whether the held packet at place `i` may be released now (R61 to R64). -/
def State.releasable (s : State) (g i : Nat) (h : Held) : Bool :=
  let held := (s.gate g).held
  let p := h.pkt
  if isBypass p then !bypassBlocked held i p
  else s.eligible g p && !held.any (fun q => blockedBy p q.pkt)

/-- The release that the rule picks: a bypass packet first, else the candidate of lowest order key (R61). -/
def State.pickRelease (s : State) (g : Nat) : Option (Nat × Held) :=
  let held := (s.gate g).held
  let cands := ((List.range held.length).zip held).filter (fun x => s.releasable g x.1 x.2)
  cands.foldl (fun b x => match b with
    | none => some x
    | some y =>
      if isBypass x.2.pkt != isBypass y.2.pkt then (if isBypass x.2.pkt then some x else some y)
      else if x.2.pkt.stamp.keyLt y.2.pkt.stamp then some x else some y) none

/-- A packet leaves the hold memory of gate `g` by release (R61): its allowance returns, and MAX_ADDED follows the
added latency. -/
def leaveGate (g i : Nat) (h : Held) (s : State) : State :=
  let gt := s.gate g
  let s1 := s.setGate g { gt with held := dropAt gt.held i }
  let added := min (s.now - h.at_) 0xFFFF
  let s2 := when (decide (added > s1.fget F.gateLagMaxAdded g)) (fun s => s.fset F.gateLagMaxAdded g added) s1
  offer (allowanceReturn g h.pkt false) s2

/-- The feeder whose watermark most delays the oldest held packet (GATE_LAG.LAG_NI): of those that still hold it,
the one with the earliest watermark. -/
def State.lagNi (s : State) (g : Nat) : Nat :=
  match ((s.gate g).held.foldl (fun b h => match b with
      | none => some h
      | some x => if h.pkt.stamp.keyLt x.pkt.stamp then some h else some x) (none : Option Held)) with
  | none => 0
  | some h =>
    let late := (List.range 46).filter (fun j => j != h.pkt.src && s.feeds j g
      && !watermarkOk (s.feeder (ckey g j)) h.pkt.stamp.time)
    late.foldl (fun b j => if timeBefore (s.feeder (ckey g j)).w (s.feeder (ckey g b)).w then j else b)
      (late.headD 0)

/-- GATE_STS: packets held, and hold memory in use in KiB, rounded up (Table 3-11). -/
def State.gateHeldUnits (s : State) (g : Nat) : Nat := ((s.gate g).held.map (fun h => h.pkt.units)).sum

/-- MILESTONE_ARRIVE (R55, R56): the keeper takes the milestone; its count also confirms counts (R410). -/
def execMilestoneArrive (i : Nat) (s : State) : Host.Outcome State Fault Refusal :=
  live s (fun s =>
    match s.ord.miles[i]? with
    | none => s
    | some ms =>
      let s1 := { s with ord := { s.ord with miles := dropAt s.ord.miles i } }
      let k := ckey ms.gate ms.src
      let f := keepMs (s1.niTime ms.gate) ms (s1.feeder k)
      resolveCounts ms.gate ms.src f.recv [ms.count] (s1.setFeeder k f))

/-! ## Gate registers -/

/-- R69: every feeder's shadow allowance is large enough, and they fit the hold memory together. -/
def State.allowOk (s : State) (g : Nat) : Bool :=
  (List.range 46).all (fun j => !s.feeds j g
      || decide (s.fgetS F.gateAllowAllow (46 * g + j) ≥ (if j < 18 then 4 else 1)))
    && decide (((List.range 46).map (fun j => if s.feeds j g then s.fgetS F.gateAllowAllow (46 * g + j) else 0)).sum
        ≤ s.holdMem g)

/-- GATE_COMMIT (R69). -/
def gateCommit (g : Nat) (s : State) : State :=
  if s.allowOk g then commitRws .gateAllow (46 * g) 46 s else s.fset F.gateCtlAllowErr g 1

/-- GATE_COMMIT (R69). -/
def execGateCommit (w : Writer) (g : Fin 10) (s : State) : Host.Outcome State Fault Refusal :=
  live s (guarded w .gateCtl g.val 1 (gateCommit g.val))

/-- GATE_LAT_CLR (Table 3-12). -/
def execGateLatClr (w : Writer) (g : Fin 10) (s : State) : Host.Outcome State Fault Refusal :=
  live s (guarded w .gateLag g.val 0x80000000 (fun s => s.fset F.gateLagMaxAdded g.val 0))

end Sys2Proof.Machine
end

