-- ==== Sys2Proof/Machine/Domains.lean ====
section
/-!
DEFINITION. Power domains as other blocks see them (chapter 19): refusals and the PWC's trace records, the start and the
end of an entry, the start of a wake, and the fields whose reset value is the image's (R466, Table 20-5).
-/
namespace Sys2Proof.Machine

/-! ## Records (R444) -/

/-- A trace record of the PWC: d in byte 0 and a cause in byte 1. -/
def pwrTrace (event d cause : Nat) (s : State) : State := trace 44 4 event 0xFFFF (leBytes 1 d ++ leBytes 1 cause) false s

/-- A refusal is counted and recorded with the refuser (KIND 1 an NI, 2 an FN), and the idle timer restarts. -/
def pwrRefuse (d cause kind who : Nat) (s : State) : State :=
  let s1 := (((s.fsat F.pwrRefRefusals d 1).fset F.pwrRefCause d cause).fset F.pwrRefKind d kind).fset F.pwrRefWho d who
  touch d (pwrTrace 4 d cause s1)

/-! ## Entry (R443) -/

/-- Entry starts: the NIs of the domain park toward every gate they feed. -/
def beginEntry (d : Nat) (toOff : Bool) (s : State) : State :=
  forL (nisOf d) parkNi (s.setDom d { s.dom d with trans := 1, toOff := toOff })

/-- Entry ends before isolation: the domain stays ON and its NIs unpark. -/
def cancelEntry (d : Nat) (s : State) : State :=
  forL (nisOf d) (fun ni s => when (s.niParked ni && !s.untimed ni && !s.portDown ni) (unparkNi ni) s)
    (s.setDom d { s.dom d with trans := 0, toOff := false })

/-! ## Waking (R445, R446) -/

/-- Any wake ends deep idle (R451). -/
def endDeep (s : State) : State :=
  if s.pwr.deep then pwrTrace 7 0 0 (({ s with pwr := { s.pwr with deep := false } }).fset F.pwrStsDeep 0 0) else s

/-- The first attempt of a wake sequence begins. -/
def firstAttempt (d : Nat) (s : State) : State :=
  endDeep (s.setDom d { s.dom d with trans := 2, attempts := 1, stage := 0, at_ := s.now })

/-- One domain in RET or OFF wakes; a request for one that wakes already joins the wake (R445). -/
def wakeOne (d : Nat) (s : State) : State :=
  let x := s.dom d
  if (x.st = 1 ∨ x.st = 2) ∧ x.trans = 0 then firstAttempt d s else s

/-- A wake: the domains of a group of LPIs wake together, as their lanes carry one port (R312: DEDUCED, log 25). -/
def startWake (d : Nat) (s : State) : State :=
  if 16 ≤ d then forL (span (s.leadOf (d - 16)) (s.groupLen (d - 16))) (fun q => wakeOne (16 + q)) s else wakeOne d s

/-- A FAILED domain is woken anew with four attempts (R446, R450). -/
def wakeFailed (d : Nat) (s : State) : State :=
  if (s.dom d).st = 3 ∧ (s.dom d).trans = 0 then firstAttempt d s else s

/-! ## Image fields (R304, R466, Table 20-5) -/

/-- The register fields whose reset value is the image's. -/
def imageFields : List Fld :=
  [F.hpiCfgPfBar2Log2, F.hpiCfgVfBar2Log2, F.irtPortPfVec, F.irtPortVfVec, F.hpiLtrActiveValue, F.hpiLtrActiveScale,
   F.hpiLtrIdleValue, F.hpiLtrIdleScale, F.lnkCtlEn, F.lnkCtlMaxRate, F.lnkCtlWidth, F.lbFnFnFirst, F.lbFnFnLast,
   F.pwrDomOffOk, F.pwrDomIdleT]

/-- The instances of a register with image fields. -/
def imageCount : RegId → Nat
  | .hpiCfg | .irtPort | .hpiLtr => 2
  | .lnkCtl | .lbFn => 8
  | .pwrDom => 24
  | _ => 0

/-- The recovery values (Table 20-5) of a register's image fields. -/
def recoveryWord : RegId → Nat
  | .hpiCfg => 24 * 2 ^ 8 + 24
  | .irtPort => 16 * 2 ^ 16 + 16
  | .lnkCtl => 2 ^ 10
  | .lbFn => 1
  | _ => 0

/-- The word whose bits the image fields of a register take: the preset that names it, else the recovery values. -/
def State.imageWord (s : State) (r : RegId) (i : Nat) : Word :=
  BitVec.ofNat 64 ((s.imageVal (regKey r i)).getD (recoveryWord r))

/-- A field can hold the image's value: OFF_OK of domains 2 to 5 and everything of domains 0 and 1 reads 0 (R455). -/
def imageHolds (f : Fld) (i : Nat) : Bool :=
  f.reg != .pwrDom || (decide (2 ≤ i) && (f != F.pwrDomOffOk || decide (6 ≤ i)))

/-- The image fields of a register instance take their values. -/
def loadImage (r : RegId) (i : Nat) (s : State) : State :=
  forL (imageFields.filter (fun f => f.reg == r && imageHolds f i)) (fun f s =>
    s.fset f i (bitsGet (s.imageWord r i) f.hi f.lo)) s

/-- Every image register of a list. -/
def loadImages (rs : List RegId) (s : State) : State := forL rs (fun r s => forN (imageCount r) (loadImage r) s) s

end Sys2Proof.Machine
end

