-- ==== Sys2Proof/Machine/Topology.lean ====
section
/-!
DEFINITION. The places of NIs, routers and links (Tables 4-1, 4-2 and 4-13), the groups of each router, and the
routes that the ROM gives (R83 to R85, R95). Nodes are numbered as RT_SEL.UNIT numbers them: routers S0 to S5 are
0 to 5, E0 to E13 are 6 to 19, and NI n is 20 + n.
-/
namespace Sys2Proof.Machine

/-- The router of each NI (Table 4-2). -/
def niRouter (ni : Nat) : Nat :=
  [6, 14, 7, 8, 9, 10, 15, 13, 16, 17,
   7, 9, 6, 11, 15, 14, 17, 18,
   1, 1, 1, 1, 2, 2, 2, 2, 3, 3, 3, 3, 4, 4, 4, 4,
   0, 0, 5, 5, 1, 4, 0, 5, 12, 12, 19, 19].getD ni 0

/-- The home spine router of each edge router (Table 4-2, R71). -/
def homeOf (e : Nat) : Nat := [2, 1, 1, 0, 2, 0, 1, 3, 3, 4, 4, 5, 5, 4].getD (e - 6) 0

/-- The first uplink of each edge router and how many it has (Table 4-13). -/
def uplinkBase (e : Nat) : Nat := [200, 206, 211, 214, 219, 222, 224, 226, 229, 235, 240, 243, 248, 250].getD (e - 6) 0
def uplinkCount (e : Nat) : Nat := [6, 5, 3, 5, 3, 2, 2, 3, 6, 5, 3, 5, 2, 2].getD (e - 6) 0

/-- The side links with their two routers (Table 4-13). -/
def sideLinks : List (Nat × Nat × Nat) :=
  [(252, 6, 10), (253, 7, 8), (254, 8, 12), (255, 9, 11), (256, 13, 14), (257, 15, 16), (258, 16, 19), (259, 17, 18)]

/-- The first attachment link of an NI and how many it has (Table 4-13). -/
def attachBase (ni : Nat) : Nat :=
  if ni < 2 then 260 + 4 * ni
  else if ni < 10 then 268 + 3 * (ni - 2)
  else if ni < 34 then 292 + 2 * (ni - 10)
  else 340 + (ni - 34)
def attachCount (ni : Nat) : Nat := if ni < 2 then 4 else if ni < 10 then 3 else if ni < 34 then 2 else 1

/-- The edge router of an uplink. -/
def uplinkEdge (l : Nat) : Nat :=
  ((span 6 14).find? (fun e => decide (uplinkBase e ≤ l ∧ l < uplinkBase e + uplinkCount e))).getD 6

/-- The NI of an attachment link. -/
def attachNi (l : Nat) : Nat :=
  ((List.range 46).find? (fun n => decide (attachBase n ≤ l ∧ l < attachBase n + attachCount n))).getD 0

/-- The two ends of a link: the spine or lower-numbered router first, the NI or the other router second (R95). -/
def linkEnds (l : Nat) : Nat × Nat :=
  if l < 200 then (l / 40, l / 40 + 1)
  else if l < 252 then (homeOf (uplinkEdge l), uplinkEdge l)
  else if l < 260 then ((sideLinks.find? (fun x => x.1 == l)).map (·.2)).getD (0, 0)
  else (niRouter (attachNi l), 20 + attachNi l)

/-- The node that sends on a link direction (`up`: from the second end to the first). -/
def senderOf (l : Nat) (up : Bool) : Nat := if up then (linkEnds l).2 else (linkEnds l).1

/-- The node that receives on a link direction. -/
def receiverOf (l : Nat) (up : Bool) : Nat := if up then (linkEnds l).1 else (linkEnds l).2

/-- The links of a link's group (R70). -/
def groupOfLink (l : Nat) : List Nat :=
  if l < 200 then span (l / 40 * 40) 40
  else if l < 252 then span (uplinkBase (uplinkEdge l)) (uplinkCount (uplinkEdge l))
  else if l < 260 then [l]
  else span (attachBase (attachNi l)) (attachCount (attachNi l))

/-- The neighbours of an edge router over side links, in ascending order, each with its link. -/
def sideNeighbours (e : Nat) : List (Nat × Nat) :=
  sideLinks.filterMap (fun x => if x.2.1 = e then some (x.2.2, x.1) else if x.2.2 = e then some (x.2.1, x.1)
    else none)

/-- The groups of a router in the order that numbers them, each with the node it leads to and its links
(the list after Table 4-15). -/
def groupsOf (x : Nat) : List (Nat × List Nat) :=
  let att := ((List.range 46).filter (fun n => niRouter n == x)).map
    (fun n => (20 + n, span (attachBase n) (attachCount n)))
  if x < 6 then
    (if x = 0 then [] else [(x - 1, span (40 * (x - 1)) 40)])
      ++ (if x = 5 then [] else [(x + 1, span (40 * x) 40)])
      ++ ((span 6 14).filter (fun e => homeOf e == x)).map (fun e => (e, span (uplinkBase e) (uplinkCount e)))
      ++ att
  else
    [(homeOf x, span (uplinkBase x) (uplinkCount x))]
      ++ (sideNeighbours x).map (fun y => (y.1, [y.2]))
      ++ att

/-- The number of the group of router x that leads to a node, 0x1F if none does. -/
def groupTo (x node : Nat) : Nat :=
  let g := groupsOf x
  let i := g.findIdx (fun y => y.1 == node)
  if i < g.length then i else 0x1F

/-- The next node from router x toward NI d on the tree of spine hops, uplinks and attachments (R85). -/
def treeNext (x d : Nat) : Nat :=
  let r := niRouter d
  if r = x then 20 + d
  else if 6 ≤ x then homeOf x
  else
    let target := if 6 ≤ r then homeOf r else r
    if target = x then r else if target < x then x - 1 else x + 1

/-- The next node on the shortest path: a side link where it leads straight to the destination's router
(Table 4-8). -/
def shortNext (x d : Nat) : Nat :=
  let r := niRouter d
  if 6 ≤ x && r != x && (sideNeighbours x).any (fun y => y.1 == r) then r else treeNext x d

/-- The route entry of the ROM for a unit and a destination, as RT_DATA shows it (R94; which side link a detour takes
where a router has two is DESIGN CHOICE, log 13). -/
def romRoute (unit d : Nat) : Nat :=
  if 20 ≤ unit then 0x8000
  else
    let adapt := groupTo unit (shortNext unit d)
    let swb := groupTo unit (treeNext unit d)
    let side := (sideNeighbours unit).map (fun y => groupTo unit y.1)
    let det := if niRouter d = unit then 0x1F else ((side.filter (fun g => g != adapt)).head?).getD 0x1F
    adapt + det * 32 + swb * 1024

/-- The bitwise majority of three copies (R83). -/
def vote3 (a b c : Nat) : Nat := (a &&& b) ||| (b &&& c) ||| (a &&& c)

/-- Copy `c` of the route or reach entry of a unit for a destination. -/
def State.routeOf (s : State) (unit d c : Nat) : Nat := (s.routeCopy (3 * (64 * unit + d) + c)).getD (romRoute unit d)

/-- The three copies of an entry written. -/
def putRoute (unit d v : Nat) (s : State) : State :=
  forN 3 (fun c s => s.setRouteCopy (3 * (64 * unit + d) + c) (if v = romRoute unit d then none else some v)) s

/-- The NI nearest to a link. -/
def nearestNi (l : Nat) : Nat :=
  if 260 ≤ l then attachNi l
  else ((List.range 46).find? (fun n => niRouter n == (linkEnds l).2 || niRouter n == (linkEnds l).1)).getD 0

/-- A fabric fault is shown in FAB_STS and FAB_FLT_LAST and traced (R92). -/
def fabFault (ni kind whr : Nat) (f : Fld) (inj : Bool) (s : State) : State :=
  let s1 := ((s.fset f 0 1).fset F.fabFltLastTime 0 (s.niTime ni)).fset F.fabFltLastKind 0 kind
  trace ni 0 kind 0xFFFF (leBytes 2 whr) inj (s1.fset F.fabFltLastWhere 0 whr)

/-- The voted entry; copies that differ are rewritten and the correction is recorded (R83). -/
def lookupRoute (unit d : Nat) (s : State) : Nat × State :=
  let a := s.routeOf unit d 0
  let b := s.routeOf unit d 1
  let c := s.routeOf unit d 2
  let v := vote3 a b c
  if a = v ∧ b = v ∧ c = v then (v, s)
  else
    let ni := if 20 ≤ unit then unit - 20 else ((List.range 46).find? (fun n => niRouter n == unit)).getD 0
    (v, aerCorrected (fabFault ni 4 unit F.fabStsRtCorr false (putRoute unit d v s)))

end Sys2Proof.Machine
end

