-- ==== Sys2Proof/Machine/Fabric.lean ====
section
/-!
DEFINITION. The fabric (chapter 4): injection, routers, links with their acknowledges and credits, injection
limiters, and the FAB registers that act.
-/
namespace Sys2Proof.Machine

/-! ## Links -/

/-- Whether new packets may be allocated to a link (R91). -/
def State.inService (s : State) (l : Nat) : Bool := !(s.link l).out && !(s.link l).forced

/-- The links of a group that are in service. -/
def State.usable (s : State) (g : List Nat) : List Nat := g.filter s.inService

/-- Whether a link is the last in-service link of its group (R91). -/
def State.lastOfGroup (s : State) (l : Nat) : Bool := s.usable (groupOfLink l) == [l]

/-- A repeat on a link (R91, R92): counted, and after more than 16 within 1 ms the link leaves service unless it is
the last of its group. -/
def linkRepeat (l kind : Nat) (inj : Bool) (s : State) : State :=
  let k := s.link l
  let recent := (k.recent.filter (fun t => decide (s.now < t + 1000000))) ++ [s.now]
  let s1 := s.setLink l { k with repeats := satAdd k.repeats 1 255, recent := recent }
  let s2 := s1.fset F.fabStsRepeat 0 1
  let s3 := if kind = 1 then fabFault (nearestNi l) 1 l F.fabStsCtlCode inj s2
    else fabFault (nearestNi l) 2 l F.fabStsRepeat inj s2
  let s4 := aerCorrected s3
  if decide (16 < recent.length) && !k.out && !s4.lastOfGroup l then
    let s5 := s4.setLink l { s4.link l with out := true }
    aerCorrected (fabFault (nearestNi l) 5 l F.fabStsLinkOut inj s5)
  else s4

/-- A link that has repeated one flit 64 times in a row has failed (R91): a fatal fabric fault. -/
def linkFailed (l : Nat) (s : State) : State :=
  let s1 := s.setLink l { s.link l with failed := true }
  let s2 := fabFault (nearestNi l) 6 l F.fabStsLinkFail false s1
  aerInternal (viol { ni := nearestNi l, code := 0x0506, object := l } s2)

/-- LINKS_OUT: links now out of service, saturating (Table 4-10). -/
def State.linksOut (s : State) : Nat := min 255 ((List.range 352).filter (fun l => !s.inService l)).length

/-! ## Channels -/

/-- The place of a virtual channel of a link direction. -/
def chanKey (l : Nat) (up : Bool) (vc : Nat) : Nat := 16 * l + 8 * b2n up + vc

/-- The buffer of a virtual channel in flits (Table 4-6). -/
def vcBuf (vc : Nat) : Nat := if vc % 2 = 1 then 2 else if vc = 6 then 4 else 8

/-- A channel is idle when no packet holds it and its buffer is empty (R81). -/
def State.chanIdle (s : State) (k : Nat) : Bool := (s.chan k).owner.isNone && (s.chan k).buf.isEmpty

/-- A channel has a credit at the far end (R74). -/
def State.hasCredit (s : State) (k : Nat) : Bool := decide ((s.chan k).used < vcBuf (k % 8))

/-- The adaptive channels of a class on the in-service links of a group, in the direction from a node. -/
def State.adaptive (s : State) (node : Nat) (g : List Nat) (cls : Nat) : List Nat :=
  (s.usable g).map (fun l => chanKey l ((linkEnds l).2 == node) (2 * cls))

/-- The switchback channel of a group's designated link: its in-service link of lowest number (R85). -/
def State.switchback (s : State) (node : Nat) (g : List Nat) (cls : Nat) : List Nat :=
  match s.usable g with
  | [] => []
  | l :: t =>
    let d := t.foldl min l
    [chanKey d ((linkEnds d).2 == node) (2 * cls + 1)]

/-- The links of group `n` of router x; none for 0x1F. -/
def groupLinks (x n : Nat) : List Nat := ((groupsOf x)[n]?.map (·.2)).getD []

/-! ## Injection (R87 to R90) -/

/-- Whether NI `ni` has a route for a packet (R87): its reach table has one, and a port takes requests and posted
packets only from its feed set (R51). -/
def State.routeOk (s : State) (ni : Nat) (p : Packet) : Bool :=
  let v := vote3 (s.routeOf (20 + ni) p.dst 0) (s.routeOf (20 + ni) p.dst 1) (s.routeOf (20 + ni) p.dst 2)
  natBit v 15 && decide (p.dst < 46) &&
    (decide (10 ≤ p.dst) || 2 ≤ p.cls || s.feeds ni p.dst || p.asp == 4)

/-- The bytes of a limiter's ceiling (R90). -/
def State.burst (s : State) (i : Nat) : Int := (s.fget F.injLimBurst i : Int) * 1024

/-- A limiter's token count: at its ceiling where nothing has been taken (R90). -/
def State.tokens (s : State) (i : Nat) : Int := (s.token i).getD (s.burst i)

/-- A limiter admits a packet (R90): control-class packets always, others while EN is 0 or B is above 0. -/
def State.admits (s : State) (ni : Nat) (p : Packet) : Bool :=
  p.cls == 3 || !s.flag F.injLimEn (8 * ni + p.qc) || decide (s.tokens (8 * ni + p.qc) > 0)

/-- The allowance left covers a packet toward a gate (R52). -/
def State.allowed (s : State) (ni : Nat) (p : Packet) : Bool :=
  !passesGate p.dst p
    || decide (s.usedUnits (10 * ni + p.dst) + p.units ≤ 16 * s.fget F.gateAllowAllow (46 * p.dst + ni))

/-- No packet of the same queue is still entering: packets of one queue leave it in order (R89). -/
def State.queueFree (s : State) (ni : Nat) (p : Packet) : Bool :=
  s.fab.flights.all (fun f => match f.2 with
    | none => true
    | some x => x.pkt.src != ni || x.pkt.cls != p.cls || x.pkt.qc != p.qc || decide (x.sent ≥ x.nfl))

/-- At a port, a request or response follows every posted packet that the port made before it (R360; PCI Express
ordering at a host port: PRESUMED, log 16): none of those still waits or has not yet been stamped. -/
def State.postedAhead (s : State) (ni : Nat) (p : Packet) : Bool :=
  let ahead := fun (q : Packet) => q.cls == 1 && decide (q.born ≤ p.born)
  decide (ni < 10) && (p.cls == 0 || p.cls == 2) && p.ty != 6
    && ((List.range 8).any (fun q => (s.inq (25 * ni + 8 + q)).any ahead)
      || s.fab.flights.any (fun f => match f.2 with
        | none => false
        | some x => x.pkt.src == ni && ahead x.pkt && decide (x.sent < x.nfl)))

/-- A waiting injection of KIND 0x1 to 0x3 strikes the packet (R425): the payload's first data word, data word 0 of
the head flit, or the stamp word. The payload begins in word 4 of the head flit (R76). -/
def strike (kind : Option Nat) (p : Packet) : Packet × Option Nat :=
  match kind with
  | none => (p, none)
  | some 1 => if p.data.isEmpty then (p, some 1) else ({ p with bad := [(0, 0x10)], inj := true }, none)
  | some _ => ({ p with hdrBad := true, inj := true }, none)

/-- The head of a packet enters the fabric (R46, R53, R90): AGE and ICNT are set, the allowance and tokens are
taken, and the packet asks for channels of its attachment group (R84). -/
def enter (ni : Nat) (p : Packet) (s : State) : State :=
  let gate := passesGate p.dst p
  let counted := gate || decide (10 ≤ p.dst)
  let k := ckey ni p.dst
  let c := (s.injCnt k + 1) % 4096
  let s1 := if counted then s.setInjCnt k c else s
  let s2 := if gate then s1.setUsedUnits (10 * ni + p.dst) (s1.usedUnits (10 * ni + p.dst) + p.units) else s1
  let s3 := if gate then s2.setLastSent (10 * ni + p.dst) s2.now else s2
  let i := 8 * ni + p.qc
  let s4 := if p.cls ≠ 3 ∧ s3.flag F.injLimEn i then s3.setToken i (some (s3.tokens i - 64 * (p.flits : Int))) else s3
  let (p1, w) := strike (s4.pktInj ni) { p with age := s4.niTime ni, icnt := if counted then c else 0 }
  let s5 := s4.setPktInj ni w
  let pid := s5.fab.nextPid
  let s6 := { s5 with fab := { s5.fab with nextPid := pid + 1 } }
  let req := s6.adaptive (20 + ni) (span (attachBase ni) (attachCount ni)) p.cls
  s6.setFlight pid (some { pkt := p1, nfl := p1.flits, req := req })

/-- A write packet of a transfer context that its NI discards is no longer one to be released (R398). -/
def unsent (ni : Nat) (p : Packet) (s : State) : State :=
  if 10 ≤ ni ∧ ni < 18 ∧ 0x2000 ≤ p.tag ∧ p.tag < 0x2200 ∧ p.asp ≠ 3 then
    let key := 512 * (ni - 10) + (p.tag - 0x2000)
    s.setCtx key { s.ctx key with unreleased := (s.ctx key).unreleased - 1 }
  else s

/-- NI_INJECT (R87, R398): the packet at the front of queue `q` of the NI enters, is answered UR, or is discarded.
Under the fence of its FN a request or posted packet is discarded. -/
def niInject (ni q : Nat) (s : State) : State :=
  match s.inq (25 * ni + q) with
  | [] => s
  | p :: rest =>
    if !s.niAwake ni && !s.niFailed ni then s else
    let s1 := s.setInq (25 * ni + q) rest
    if p.cls < 2 && s.under ni p.fn then
      if p.cls = 0 then s1.setArrived ni (s1.arrived ni ++ [{ p.reply 0x21 2 [] with dst := ni, xv := 5 }])
      else unsent ni p (when (p.ty == 0x11) (pfr ni p 8 0) s1)
    else
      let s2 := (lookupRoute (20 + ni) p.dst s1).2
      if !s2.routeOk ni p then
        if p.cls = 0 then s2.setArrived ni (s2.arrived ni ++ [{ p.reply 0x21 1 [] with dst := ni, xv := 7 }])
        else unsent ni p (violPkt ni 0x050A p p.dst p.ty s2)
      else if s2.allowed ni p && s2.admits ni p && s2.queueFree ni p && !s2.untimed ni && !s2.postedAhead ni p
          && !(s2.niParked ni && passesGate p.dst p) then
        touchNi ni (enter ni p s2)
      else s

/-- NI_INJECT (R87). -/
def execNiInject (ni : Fin 46) (q : Fin 25) (s : State) : Host.Outcome State Fault Refusal :=
  live s (niInject ni.val q.val)

/-! ## Routers (R80, R83, R84) -/

/-- The packet of a flight. -/
def State.pktOf (s : State) (pid : Nat) : Packet := match s.flight pid with | none => {} | some f => f.pkt

/-- A head flit has reached a router (R84): its header is checked, the voted entry is looked up, and output channels
are requested: the switchback channel if it came on one, else every adaptive candidate. -/
def headArrive (l : Nat) (up : Bool) (vc : Nat) (singleErr : Bool) (s : State) : State :=
  let k := chanKey l up vc
  let c := s.chan k
  let x := receiverOf l up
  match c.buf with
  | [] => s
  | f :: _ =>
    if f.idx = 0 && !c.seen && decide (x < 20) then
      let s1 := if singleErr then
          let lk := s.link l
          aerCorrected (fabFault (nearestNi l) 3 l F.fabStsHeccCorr false
            (s.setLink l { lk with corrections := satAdd lk.corrections 1 255 }))
        else s
      let p := s1.pktOf f.pid
      let (e, s2) := lookupRoute x p.dst s1
      let req := if vc % 2 = 1 then s2.switchback x (groupLinks x (e / 1024 % 32)) p.cls
        else s2.adaptive x (groupLinks x (e % 32)) p.cls
      s2.setChan k { s2.chan k with seen := true, req := req }
    else s

/-- ROUTER_HEAD_ARRIVE (R80, R84). -/
def execRouterHeadArrive (l : Fin 352) (up : Bool) (vc : Fin 8) (singleErr : Bool) (s : State) :
    Host.Outcome State Fault Refusal := live s (headArrive l.val up vc.val singleErr)

/-- A waiting head asks for more channels. -/
def alsoRequest (k : Nat) (more : List Nat) (s : State) : State :=
  let c := s.chan k
  s.setChan k { c with req := c.req ++ more.filter (fun x => !c.req.contains x) }

/-- ROUTE_SWITCHBACK_REQUEST (R84): after 12 steps without a grant. -/
def execRouteSwitchbackRequest (l : Fin 352) (up : Bool) (vc : Fin 8) (s : State) : Host.Outcome State Fault Refusal :=
  live s (fun s =>
    let k := chanKey l.val up vc.val
    let c := s.chan k
    match c.buf with
    | [] => s
    | f :: _ =>
      if c.seen && !c.req.isEmpty && vc.val % 2 == 0 then
        let x := receiverOf l.val up
        let p := s.pktOf f.pid
        let (e, s1) := lookupRoute x p.dst s
        alsoRequest k (s1.switchback x (groupLinks x (e / 1024 % 32)) p.cls) s1
      else s)

/-- ROUTE_DETOUR_REQUEST (R84): after DETOUR_WAIT link cycles, at an edge router, before the one detour; with
DETOUR_WAIT = 0 there are none (Table 4-9). -/
def execRouteDetourRequest (l : Fin 352) (up : Bool) (vc : Fin 8) (s : State) : Host.Outcome State Fault Refusal :=
  live s (fun s =>
    let k := chanKey l.val up vc.val
    let c := s.chan k
    match c.buf with
    | [] => s
    | f :: _ =>
      let x := receiverOf l.val up
      let p := s.pktOf f.pid
      if c.seen && !c.req.isEmpty && vc.val % 2 == 0 && decide (6 ≤ x) && !p.dt && niRouter p.dst != x
          && s.fget F.fabCtlDetourWait 0 != 0 then
        let (e, s1) := lookupRoute x p.dst s
        alsoRequest k (s1.adaptive x (groupLinks x (e / 32 % 32)) p.cls) s1
      else s)

/-! ## Output arbitration (R88) -/

/-- What contends for a channel or a link cycle: the packet, and the channel it waits in (none: its NI). -/
structure Contender where
  pid : Nat
  pkt : Packet
  via : Option Nat

/-- a goes before b (R88): higher LV, older AGE, lower SRC, lower input link number. -/
def Contender.before (a b : Contender) : Bool :=
  if a.pkt.lv ≠ b.pkt.lv then decide (a.pkt.lv > b.pkt.lv)
  else if a.pkt.age ≠ b.pkt.age then timeBefore a.pkt.age b.pkt.age
  else if a.pkt.src ≠ b.pkt.src then decide (a.pkt.src < b.pkt.src)
  else decide ((a.via.getD 0) / 16 < (b.via.getD 0) / 16)

/-- The contender that goes first. -/
def bestOf (l : List Contender) : Option Contender :=
  l.foldl (fun b c => match b with
    | none => some c
    | some x => if c.before x then some c else some x) none

/-- The heads that ask for a channel: packets at their NI and packets in input buffers. -/
def State.asking (s : State) (k : Nat) : List Contender :=
  (s.fab.flights.filterMap (fun f => match f.2 with
    | none => none
    | some x => if x.req.contains k then some ⟨f.1, x.pkt, none⟩ else none))
  ++ (s.fab.chans.filterMap (fun c => match c.2.buf with
    | [] => none
    | f :: _ => if c.2.req.contains k then some ⟨f.pid, s.pktOf f.pid, some c.1⟩ else none))

/-- A channel is granted (R84): it is allocated to the packet, which withdraws every other request; over a side link
the packet has taken its one detour when its entry's own group is another. -/
def grantChan (k : Nat) (c : Contender) (s : State) : State :=
  let s1 := s.setChan k { s.chan k with owner := some c.pid, via := c.via }
  match c.via with
  | none =>
    match s1.flight c.pid with
    | none => s1
    | some f => s1.setFlight c.pid (some { f with req := [] })
  | some v =>
    let s2 := s1.setChan v { s1.chan v with req := [] }
    let l := k / 16
    let x := senderOf l (k / 8 % 2 == 1)
    let detour := decide (252 ≤ l) && decide (l < 260)
      && !(groupLinks x (vote3 (s2.routeOf x c.pkt.dst 0) (s2.routeOf x c.pkt.dst 1) (s2.routeOf x c.pkt.dst 2) % 32)).contains l
    match s2.flight c.pid with
    | none => s2
    | some f => if detour then s2.setFlight c.pid (some { f with pkt := { f.pkt with dt := true } }) else s2

/-- The channels of a link direction are allocated, each to the first of those that ask for it. -/
def allocate (l : Nat) (up : Bool) (s : State) : State :=
  if s.inService l then
    forN 8 (fun vc s =>
      let k := chanKey l up vc
      if s.chanIdle k && s.hasCredit k then
        match bestOf (s.asking k) with
        | none => s
        | some c => grantChan k c s
      else s) s
  else s

/-- The next flit of the packet that holds a channel, if it has arrived where the link starts. A tail leaves its NI
only when the NI may stamp (R46, R47). -/
def State.nextFlit (s : State) (k : Nat) : Option (Flit × Contender) :=
  let c := s.chan k
  match c.owner with
  | none => none
  | some pid =>
    match c.via with
    | none =>
      match s.flight pid with
      | none => none
      | some f =>
        if f.sent < f.nfl && (decide (f.sent + 1 < f.nfl) || s.mayStamp f.pkt.src (passesGate f.pkt.dst f.pkt)) then
          some ({ pid := pid, idx := f.sent, last := decide (f.sent + 1 = f.nfl) }, ⟨pid, f.pkt, none⟩)
        else none
    | some v =>
      match (s.chan v).buf with
      | [] => none
      | x :: _ => if x.pid = pid then some (x, ⟨pid, s.pktOf pid, some v⟩) else none

/-- A flit leaves the place it waited in: its NI, which stamps the packet with the tail (R46), or an input buffer,
which returns a credit and, with the tail, frees its channel (R81). -/
def takeFlit (x : Flit) (via : Option Nat) (s : State) : State :=
  match via with
  | none =>
    match s.flight x.pid with
    | none => s
    | some f =>
      let ni := f.pkt.src
      if x.last then
        (s.setFlight x.pid (some { f with sent := f.sent + 1, pkt := { f.pkt with stamp := s.stampAt ni } })).stamped ni
      else s.setFlight x.pid (some { f with sent := f.sent + 1 })
  | some v =>
    let c := s.chan v
    let c1 := { c with buf := c.buf.tail }
    let c2 := if x.last then { c1 with owner := none, via := none, seen := false, req := [] } else c1
    let s1 := s.setChan v c2
    let d := v / 8
    s1.setDir d { s1.dir d with owed := (s1.dir d).owed ++ [v % 8] }

/-- LINK_OUTPUT_ARBITRATION (R84, R88): channels are allocated, then one flit is sent on an idle link. -/
def outputArb (l : Nat) (up : Bool) (s : State) : State :=
  let s1 := allocate l up s
  let d := 2 * l + b2n up
  if (s1.dir d).wire.isSome || (s1.link l).failed then s1
  else
    let ready := (List.range 8).filterMap (fun vc =>
      let k := chanKey l up vc
      if s1.hasCredit k then (s1.nextFlit k).map (fun x => (k, x.1, x.2)) else none)
    match bestOf (ready.map (fun x => { x.2.2 with via := some x.1 })) with
    | none => s1
    | some b =>
      match ready.find? (fun x => some x.1 == b.via) with
      | none => s1
      | some (k, x, c) =>
        let s2 := takeFlit x c.via s1
        let s3 := s2.setChan k { s2.chan k with used := (s2.chan k).used + 1 }
        s3.setDir d { s3.dir d with wire := some (k, x), tries := 0 }

/-- LINK_OUTPUT_ARBITRATION (R88). -/
def execLinkOutputArbitration (l : Fin 352) (up : Bool) (s : State) : Host.Outcome State Fault Refusal :=
  live s (outputArb l.val up)

/-! ## Arrival of a flit (R74, R80, R81) -/

/-- What the data words that fail parity mean for the packet (R406, R409): the header fills words 0 to 3 of the head
flit, the stamp word 7 of the tail. -/
def markParity (x : Flit) (par : Nat) (p : Packet) : Packet :=
  let hdr := (x.idx = 0 && decide (par % 16 ≠ 0)) || (x.last && natBit par 7)
  let pay := (if x.idx = 0 then par / 16 * 16 else par) - (if x.last && natBit par 7 then 128 else 0)
  let p1 := if hdr then { p with hdrBad := true } else p
  if pay = 0 || p.data.isEmpty then p1 else { p1 with bad := p1.bad ++ [(x.idx, pay)] }

/-- The sink in FAB for packets toward an NI whose domain is FAILED (R447): a non-posted one is answered as one without
a route (R87), a posted one toward staging memory enters the ring of its function, and any other is discarded. A gate's
allowance returns, and a queue wake goes back to QM. -/
def sink (ni : Nat) (p : Packet) (s : State) : State :=
  let s1 := when (passesGate ni p) (offer (allowanceReturn ni p true)) s
  if p.cls = 0 then offer { p.reply 0x21 1 [] with xv := 7 } s1
  else if p.cls = 1 then (if 18 ≤ ni ∧ ni < 34 then pfr ni p 1 0 s1 else violPkt 43 0x050A p ni p.ty s1)
  else if p.cls = 3 ∧ p.ty = 0x30 then
    let q := leNat ((p.data.drop 0x36).take 2) % 8192
    (s1.setQueue q { s1.queue q with held := false }).setSpent (ni - 10) (s1.spent (ni - 10) - 1)
  else s1

/-- A flit is accepted (R80): it enters the input buffer of a router, or leaves the fabric at an NI, where the tail
completes the packet and its channel is free again. -/
def acceptFlit (l : Nat) (up : Bool) (k : Nat) (x : Flit) (par : Nat) (s : State) : State :=
  let d := 2 * l + b2n up
  let s1 := s.setDir d { s.dir d with wire := none, tries := 0 }
  match s1.flight x.pid with
  | none => s1
  | some f =>
    let p := markParity x par f.pkt
    let s2 := s1.setFlight x.pid (some { f with pkt := p })
    let node := receiverOf l up
    if node < 20 then s2.setChan k { s2.chan k with buf := (s2.chan k).buf ++ [x] }
    else
      let s3 := s2.setDir d { s2.dir d with owed := (s2.dir d).owed ++ [k % 8] }
      if x.last then
        let ni := node - 20
        let s4 := (s3.setChan k { s3.chan k with owner := none, via := none }).setFlight x.pid none
        if s4.niFailed ni then sink ni p s4
        else
          let s5 := touchNi ni (s4.setArrived ni (s4.arrived ni ++ [p]))
          if decide (10 ≤ ni) then countArrival ni p s5 else s5
      else s3

/-- A flit is sent again (R74, R80, R91). -/
def repeatFlit (l : Nat) (up : Bool) (kind : Nat) (s : State) : State :=
  let d := 2 * l + b2n up
  let t := (s.dir d).tries + 1
  let s1 := linkRepeat l kind false (s.setDir d { s.dir d with tries := t })
  if t = 64 then linkFailed l s1 else s1

/-- FLIT_ARRIVE (R23, R80): a flit toward an NI whose domain is not ON waits (R447); else ACCEPT, or REPEAT on an illegal control code or a double HECC error of a head flit. -/
def flitArrive (l : Nat) (up : Bool) (err : FlitError) (par : Nat) (s : State) : State :=
  let node := receiverOf l up
  match (s.dir (2 * l + b2n up)).wire with
  | none => s
  | some (k, x) =>
    if decide (20 ≤ node) && !s.niAwake (node - 20) && !s.niFailed (node - 20) then s
    else match err with
    | .ok => acceptFlit l up k x par s
    | .ctlCode => repeatFlit l up 1 s
    | .heccDouble => if x.idx = 0 then repeatFlit l up 2 s else acceptFlit l up k x par s

/-- FLIT_ARRIVE (R80). -/
def execFlitArrive (l : Fin 352) (up : Bool) (err : FlitError) (par : BitVec 8) (s : State) :
    Host.Outcome State Fault Refusal := live s (flitArrive l.val up err par.toNat)

/-- CREDIT_RETURN (R74): one credit, tagged with its channel, returns in a link cycle; an NI whose domain is not ON
returns none (R447). -/
def execCreditReturn (l : Fin 352) (up : Bool) (s : State) : Host.Outcome State Fault Refusal :=
  live s (fun s =>
    let d := 2 * l.val + b2n up
    let node := receiverOf l.val up
    match (s.dir d).owed with
    | [] => s
    | vc :: t =>
      if decide (20 ≤ node) && !s.niAwake (node - 20) && !s.niFailed (node - 20) then s
      else
      let k := chanKey l.val up vc
      (s.setDir d { s.dir d with owed := t }).setChan k { s.chan k with used := (s.chan k).used - 1 })

/-! ## Injection limiters (R90, R96) -/

/-- LIMITER_TOKEN_ADD (R90): once in each 64 ns an enabled limiter adds RATE, up to its ceiling. -/
def execLimiterTokenAdd (ni : Fin 46) (qc : Fin 8) (s : State) : Host.Outcome State Fault Refusal :=
  live s (fun s =>
    let i := 8 * ni.val + qc.val
    if s.flag F.injLimEn i && decide (s.now ≥ s.tokenTime i + 64) then
      let b := min (s.burst i) (s.tokens i + s.fget F.injLimRate i)
      (s.setToken i (if b = s.burst i then none else some b)).setTokenTime i s.now
    else s)

/-- R96: no enabled limiter may have RATE 0 or BURST 0. -/
def State.limitsOk (s : State) : Bool :=
  (List.range 368).all (fun i => s.fgetS F.injLimEn i == 0
    || (s.fgetS F.injLimRate i != 0 && s.fgetS F.injLimBurst i != 0))

/-- A commit of the limiters (R96): each keeps its tokens, clamped to its new ceiling. -/
def fabCommit (s : State) : State :=
  if s.limitsOk then
    let s1 := commitRws .injLim 0 368 s
    forN 368 (fun i s1 =>
      let b := min (s.tokens i) (s1.burst i)
      s1.setToken i (if b = s1.burst i then none else some b)) s1
  else s.fset F.fabStsLimErr 0 1

/-- FAB_COMMIT (R96). -/
def execFabCommit (w : Writer) (s : State) : Host.Outcome State Fault Refusal :=
  live s (guarded w .fabCtl 0 1 fabCommit)

/-! ## FORCE_OUT and RT_DATA (R94, R95) -/

/-- FORCE_OUT of the selected link (R91, R95): refused for the last in-service link of its group. -/
def forceOut (p : Packet) (out : Bool) (s : State) : State :=
  let l := s.fget F.linkSelLink 0
  let k := s.link l
  if out then
    if k.forced then s
    else if s.lastOfGroup l then violSource p s
    else
      let s1 := s.setLink l { k with forced := true }
      if k.out then s1 else aerCorrected (fabFault (nearestNi l) 5 l F.fabStsLinkOut false s1)
  else s.setLink l { k with forced := false }

/-- FORCE_OUT_WRITE (R95). -/
def execForceOutWrite (w : Writer) (out : Bool) (s : State) : Host.Outcome State Fault Refusal :=
  live s (guardedP w .linkSts 0 (BitVec.ofNat 64 (2 ^ 30 * b2n out)) (fun p => forceOut p out))

/-- RT_DATA of the selected entry: a router entry has no REACH bit, a reach entry nothing else (Table 4-15). -/
def rtWrite (value : Nat) (s : State) : State :=
  let u := s.fget F.rtSelUnit 0
  putRoute u (s.fget F.rtSelDest 0) (if u < 20 then value % 2 ^ 15 else value / 2 ^ 15 % 2 * 2 ^ 15) s

/-- RT_DATA_WRITE (R94). -/
def execRtDataWrite (w : Writer) (value : BitVec 64) (s : State) : Host.Outcome State Fault Refusal :=
  live s (guarded w .rtData 0 value (rtWrite value.toNat))

end Sys2Proof.Machine
end

