-- ==== Sys2Proof/Machine/Arbiter.lean ====
section
/-!
DEFINITION. The resource arbiters with their belays, what a staging bank does with a granted request, and the shared
semaphores (chapter 5; R194, R277, R407, R408).
-/
namespace Sys2Proof.Machine

/-! ## Input assignment (R102 to R105) -/

/-- The input that the active map gives requester index `i` of arbiter `a`. -/
def State.inputOf (s : State) (a i : Nat) : Nat := bitsGet (s.rget .arbMap (6 * a + i / 8)) (i % 8 * 4 + 3) (i % 8 * 4)

/-- The priority in force of group `g` at arbiter `a` (R104, R105). -/
def State.prioOf (s : State) (a g : Nat) : Nat :=
  let w := if g < 8 then (s.c52Force (2 * a)).getD 0x76543210 else (s.c52Force (2 * a + 1)).getD 0xFEDCBA98
  bitsGet w (g % 8 * 4 + 3) (g % 8 * 4)

/-- Whether a granted packet opens a belay at arbiter `a`: a locked read at the bank, or a far one at the egress. -/
def opensBelay (a : Nat) (p : Packet) : Bool := p.ty == 4 && (decide (a < 16) || (decide (20 ≤ a) && decide (a < 28) && p.asp != 3))

/-- Whether a granted packet closes the belay at arbiter `a`. -/
def closesBelay (a : Nat) (p : Packet) : Bool :=
  p.ty == 0x11 && (decide (a < 16) || (decide (20 ≤ a) && decide (a < 28) && p.asp != 3))

/-- Whether a request belongs to the holder of the open belay (R106): by SRC and FN at a bank, by requester index and
FN at an egress. -/
def ofHolder (a : Nat) (b : Grant) (i : Nat) (p : Packet) : Bool :=
  p.fn == b.pkt.fn && (if a < 16 then p.src == b.pkt.src else i == b.idx)

/-- The request of index `i` presents (R98, R106). -/
def State.presents (s : State) (a i : Nat) : Bool :=
  let b := s.arbiter a
  match mget none b.slots i with
  | none => false
  | some r => !mget false b.backoff i && (match b.belay with
      | none => true
      | some g => ofHolder a g i r.pkt)

/-- The indices that present. -/
def State.presenting (s : State) (a : Nat) : List Nat := (List.range 47).filter (s.presents a)

/-- A request is delivered to an arbiter. -/
def request (a i : Nat) (p : Packet) (s : State) : State :=
  let b := s.arbiter a
  s.setArbiter a { b with waiting := b.waiting ++ [(i, p)] }

/-! ## Contests (R98 to R100) -/

/-- ARB_REQUEST_DELIVER (R98): the oldest request that an index has delivered enters its empty slot. -/
def requestDeliver (a i : Nat) (s : State) : State :=
  let b := s.arbiter a
  match mget none b.slots i, b.waiting.find? (fun x => x.1 == i) with
  | none, some x =>
    s.setArbiter a { b with
      slots := mput none b.slots i (some { pkt := x.2, at_ := s.now })
      waiting := dropAt b.waiting (b.waiting.findIdx (fun y => y.1 == i)) }
  | _, _ => s

/-- ARB_REQUEST_DELIVER (R98). -/
def execArbRequestDeliver (a : Fin 29) (idx : Fin 47) (s : State) : Host.Outcome State Fault Refusal :=
  live s (requestDeliver a.val idx.val)

/-- ARB_CONTEST_OPEN (R99, R102): the resource is free and a request presents; the contest keeps the map and
COMPAT_EN that are active now. -/
def contestOpen (a : Nat) (s : State) : State :=
  let b := s.arbiter a
  if b.contest.isNone && b.grant.isNone && !(s.presenting a).isEmpty then
    s.setArbiter a { b with contest := some { map := (List.range 47).map (s.inputOf a), compat := s.flag F.arbCtlCompatEn a } }
  else s

/-- ARB_CONTEST_OPEN (R99). -/
def execArbContestOpen (a : Fin 29) (s : State) : Host.Outcome State Fault Refusal := live s (contestOpen a.val)

/-- The rank of an index in a contest: its input, or its group's priority in force at the close (R104). -/
def State.rank (s : State) (a : Nat) (c : Contest) (i : Nat) : Nat :=
  if c.compat then s.prioOf a (c.map.getD i 0) else c.map.getD i 0

/-- The age of the request in a slot: the header's AGE at a bank or an XU, else the time it entered the slot (R99). -/
def State.slotAge (s : State) (a i : Nat) : Nat :=
  match mget none (s.arbiter a).slots i with
  | none => 0
  | some r => if a < 20 then r.pkt.age else r.at_ % 2 ^ 48

/-- i beats j: higher rank, then older age, then lower index (R99). -/
def State.beats (s : State) (a : Nat) (c : Contest) (i j : Nat) : Bool :=
  if s.rank a c i ≠ s.rank a c j then decide (s.rank a c i > s.rank a c j)
  else if s.slotAge a i ≠ s.slotAge a j then timeBefore (s.slotAge a i) (s.slotAge a j)
  else decide (i < j)

/-- The winner among the indices that take part. -/
def State.winner (s : State) (a : Nat) (c : Contest) : Option Nat :=
  (s.presenting a).foldl (fun b i => match b with
    | none => some i
    | some j => if s.beats a c i j then some i else some j) none

/-- ARB_CONTEST_DECIDE (R99, R100, R107): the winner is granted and its losses return to zero; every other index
that took part has lost once more and backs off; a locked read's grant opens the belay. -/
def contestDecide (a : Nat) (s : State) : State :=
  let b := s.arbiter a
  match b.contest, s.winner a (b.contest.getD {}) with
  | some c, some w =>
    match mget none b.slots w with
    | none => s
    | some r =>
      let g : Grant := { idx := w, pkt := r.pkt, at_ := s.now, limit := s.fget F.arbCtlHoldLimit a, serving := true }
      let losers := (s.presenting a).filter (fun i => i != w)
      s.setArbiter a { b with
        contest := none
        grant := some g
        belay := if opensBelay a r.pkt then some g else b.belay
        slots := mput none b.slots w none
        losses := losers.foldl (fun m i => mput 0 m i (mget 0 m i + 1)) (mput 0 b.losses w 0)
        backoff := losers.foldl (fun m i => mput false m i true) b.backoff
        lastWin := s.rank a c w }
  | some _, none => s.setArbiter a { b with contest := none }
  | none, _ => s

/-- ARB_CONTEST_DECIDE (R99). -/
def execArbContestDecide (a : Fin 29) (s : State) : Host.Outcome State Fault Refusal := live s (contestDecide a.val)

/-- ARB_BACKOFF_EXPIRE (R100). -/
def execArbBackoffExpire (a : Fin 29) (idx : Fin 47) (s : State) : Host.Outcome State Fault Refusal :=
  live s (fun s =>
    let b := s.arbiter a.val
    s.setArbiter a.val { b with backoff := mput false b.backoff idx.val false })

/-- ARB_STS.CAPPED: an index now on input i has lost 10 or more consecutive contests (R101). -/
def State.capped (s : State) (a : Nat) : Nat :=
  ((List.range 16).map (fun inp => 2 ^ inp * b2n ((List.range 47).any (fun i =>
    s.inputOf a i == inp && decide (10 ≤ mget 0 (s.arbiter a).losses i))))).sum

/-! ## What a staging bank does with a granted request -/

/-- The regions that Table 11-5 reserves: the copies lie where XLT_LOC places them (R278), the rest is fixed. -/
def State.reservedStg (s : State) (a : Nat) : Bool :=
  let b := a / 2 ^ 22 % 16
  let o := a % 2 ^ 22
  b == s.fget F.xltLocTa 0 || b == s.fget F.xltLocTb 0
    || ((b == s.fget F.xltLocD0 0 || b == s.fget F.xltLocD1 0 || b == s.fget F.xltLocD2 0) && decide (o < 0x40000))
    || (b == 2 && decide (o < 0x80000)) || (b == 3 && decide (o < 0x80000))
    || ((b == 5 || b == 9) && decide (o < 0x200000)) || ((b == 6 || b == 10) && decide (0x200000 ≤ o))
    || (b == 14 && decide (o < 0x140000)) || b == 15

/-- Any byte of a range lies in a reserved region. -/
def State.touchesReserved (s : State) (a n : Nat) : Bool :=
  s.reservedStg a || (decide (0 < n) && s.reservedStg (a + n - 1))

/-- Whether a packet comes from a program: an engine or a mover (R277). -/
def fromProgram (p : Packet) : Bool := decide (10 ≤ p.src) && decide (p.src < 18)

/-- The new value of an atomic (R194): FetchAdd, Swap or CAS of `n` bytes. -/
def atomicNew (ty n old a b : Nat) : Nat :=
  if ty = 1 then (old + a) % 2 ^ (8 * n) else if ty = 2 then a else if old = a then b else old

/-- The read of LEN 0 of FENCE.P is answered with EP = 1 if a damaged posted packet from its source arrived at or
after the marker minus 4 ns (R412). -/
def State.fenceEp (s : State) (ni : Nat) (p : Packet) : Bool :=
  match s.damTime (ckey ni p.src) with
  | none => false
  | some t => timeLe ((p.addr + 2 ^ 48 - 4) % 2 ^ 48) t

/-- The answer to a read of LEN 0 (R217). -/
def zeroAnswer (ni : Nat) (p : Packet) (s : State) : State :=
  offer { p.reply 0x21 0 [] with src := ni, ep := s.fenceEp ni p, addr := 0 } s

/-- A read at a bank (R408). -/
def bankRead (ni : Nat) (p : Packet) (s : State) : State :=
  let s1 := stgCheckRange p.addr p.len s
  offer { p.reply 0x20 0 (s1.stgBytes p.addr p.len) with src := ni, ep := s1.stgPoisoned p.addr p.len } s1

/-- An atomic at a bank (R194): on a poisoned word memory stays and the old value returns with EP. CAS carries its
compare value first, then its new one. -/
def bankAtomic (ni : Nat) (p : Packet) (s : State) : State :=
  let n := p.len
  let s1 := stgCheckRange p.addr n s
  let old := s1.stgNat p.addr n
  let bad := s1.stgPoisoned p.addr n
  let a := leNat (p.data.take n)
  let b := leNat (p.data.drop n)
  let s2 := if bad then s1
    else stgWrite p.addr (leBytes n (atomicNew p.ty n old a b)) (List.replicate n true) p.ep s1
  offer { p.reply 0x20 0 (leBytes n old) with src := ni, ep := bad } s2

/-- A packet of a belay that has been cut (R108): one from the holder stamped before the cut, or a closing write
without its belay. -/
def State.ofCutBelay (s : State) (a : Nat) (p : Packet) : Bool :=
  (s.arbiter a).cut.any (fun c => c.1 == p.src && c.2.1 == p.fn && timeLe p.stamp.time (c.2.2 % 2 ^ 48))
    || (closesBelay a p && (match (s.arbiter a).belay with
        | none => true
        | some g => !ofHolder a g 0 p))

/-- The bank executes a granted request (R191, R277, R407). -/
def bankExec (ni : Nat) (p : Packet) (s : State) : State :=
  if p.cls = 0 then
    if p.len = 0 then zeroAnswer ni p s
    else if s.ofCutBelay (ni - 18) p then offer { p.reply 0x21 2 [] with src := ni } s
    else if fromProgram p && s.touchesReserved p.addr p.len then offer { p.reply 0x21 1 [] with src := ni } s
    else if p.ty = 0 ∨ p.ty = 4 then bankRead ni p s
    else bankAtomic ni p s
  else
    if s.ofCutBelay (ni - 18) p then pfr ni p 7 0 s
    else if fromProgram p && s.touchesReserved p.addr p.len then pfr ni p 1 0 s
    else stgWrite p.addr p.data (byteEnables p.addr p.len p.fbe p.lbe) p.ep s

/-- The FNs of a cluster that have a belay open (R106): one is closed. -/
def closeRecord (c fn : Nat) (s : State) : State :=
  let k := s.clu c
  s.setClu c { k with belays := k.belays.filter (fun f => f != fn) }

/-- ARB_GRANT_END (R97, R107): the service completes. A bank has executed its packet, an egress has handed its packet
to the NI's injection queue, an XU, SEM or scrubber has served its request. A closing write ends its belay. -/
def grantEnd (a : Nat) (s : State) : State :=
  let b := s.arbiter a
  match b.grant with
  | none => s
  | some g =>
    let closes := closesBelay a g.pkt && (match b.belay with
      | none => false
      | some h => ofHolder a h g.idx g.pkt)
    let done := { b with grant := none, belay := if closes then none else b.belay }
    if a < 16 ∧ g.idx = 46 then (if g.serving then s else s.setArbiter a done)
    else if a < 16 then bankExec (18 + a) g.pkt (touch (2 + a / 4) s) |>.setArbiter a done
    else if 20 ≤ a ∧ a < 28 then
      let s1 := s.setArbiter a done
      let s2 := if g.pkt.ty = 0x11 then closeRecord (a - 20) g.pkt.fn s1 else s1
      offer g.pkt s2
    else if g.serving then s
    else s.setArbiter a done

/-- ARB_GRANT_END (R107). -/
def execArbGrantEnd (a : Fin 29) (s : State) : Host.Outcome State Fault Refusal := live s (grantEnd a.val)

/-! ## Commits and the compatibility block -/

/-- ARB_COMMIT (R102): the map, COMPAT_EN and HOLD_LIMIT take their shadow values together. -/
def arbCommit (a : Nat) (s : State) : State := commitRws .arbMap (6 * a) 6 (commitRws .arbCtl a 1 s)

/-- ARB_COMMIT (R102). -/
def execArbCommit (w : Writer) (a : Fin 29) (s : State) : Host.Outcome State Fault Refusal :=
  live s (guarded w .arbCtl a.val 0x80000000 (arbCommit a.val))

/-- The 16 fields hold 16 different values (R105). -/
def consistent (lo hi : Word) : Bool :=
  let f := (List.range 8).map (fun i => bitsGet lo (4 * i + 3) (4 * i))
    ++ (List.range 8).map (fun i => bitsGet hi (4 * i + 3) (4 * i))
  decide f.Nodup

/-- C52_PRIO_WRITE (R104, R105): a consistent set is in force at once and ends a skew; otherwise the last consistent
one stays. -/
def c52Write (a : Nat) (hi : Bool) (v : Word) (s : State) : State :=
  let s1 := s.rput (if hi then .c52PrioHi else .c52PrioLo) a v
  let lo := s1.rget .c52PrioLo a
  let h := s1.rget .c52PrioHi a
  if consistent lo h then
    let s2 := (s1.setC52Force (2 * a) (if lo = 0x76543210 then none else some lo)).setC52Force (2 * a + 1)
      (if h = 0xFEDCBA98 then none else some h)
    if s2.flag F.c52StsPairSkew a then (s2.fset F.c52StsPairSkew a 0).fset F.c52StsSkewSeen a 1 else s2
  else s1.fset F.c52StsPairSkew a 1

/-- C52_PRIO_WRITE (R104). -/
def execC52PrioWrite (w : Writer) (a : Fin 29) (hi : Bool) (value : BitVec 32) (s : State) :
    Host.Outcome State Fault Refusal :=
  live s (guarded w (if hi then .c52PrioHi else .c52PrioLo) a.val (value.setWidth 64)
    (c52Write a.val hi (value.setWidth 64)))

/-! ## Semaphores (R110 to R114, R499) -/

/-- The owner that a semaphore request stands for (R110). -/
def semOwner (p : Packet) : Sem :=
  if p.src = 42 then { held := true, okind := 3 }
  else if p.src < 10 then { held := true, okind := 1, fn := 1024 * p.src }
  else { held := true, okind := 2, engine := 8 * (p.src - 10) + p.tag / 16 % 8, fn := p.fn }

/-- Two owners are the same. -/
def sameOwner (x y : Sem) : Bool := x.okind == y.okind && x.engine == y.engine && x.fn == y.fn

/-- SEM_STS_n as a 32-bit number (Table 5-10). -/
def Sem.bits (x : Sem) : Nat :=
  b2n x.held * 2 ^ 31 + x.okind * 2 ^ 29 + x.engine * 2 ^ 23 + x.fn * 2 ^ 12 + x.gen

/-- What SEM answers: the reply's CSTS, SEM_RESULT, whether a violation is recorded with which VALUE, and the
semaphore's new state. -/
structure SemAns where
  csts : Nat
  result : Option Nat
  viol : Option Nat := none
  sem : Option Sem := none
deriving DecidableEq, Repr, Inhabited

/-- Whether the owner holds a semaphore of a higher number (R112). -/
def State.holdsAbove (s : State) (o : Sem) (n : Nat) : Bool :=
  s.arb.sems.any (fun x => decide (x.1 > n) && x.2.held && sameOwner x.2 o)

/-- The operation of a semaphore request and its number (R111). -/
def semOp (p : Packet) : Nat := p.addr / 4096 % 4
def semNum (p : Packet) : Nat := p.addr % 2048

/-- The table of operations, its rows tested in the order of R499. -/
def State.semDecide (s : State) (p : Packet) : SemAns :=
  let op := semOp p
  let n := semNum p
  let x := s.sem n
  let o := semOwner p
  if op = 0 then { csts := 1, result := none, viol := some 7 }
  else if 1064 ≤ n then { csts := 1, result := some 4, viol := some 4 }
  else if 1024 ≤ n ∧ o.okind ≠ 3 then { csts := 2, result := some 5, viol := some 5 }
  else if op = 3 ∧ o.okind = 2 then { csts := 2, result := some 5, viol := some 5 }
  else if op = 1 then
    if x.held && sameOwner x o then { csts := 0, result := some 0 }
    else if s.holdsAbove o n then { csts := 2, result := some 2, viol := some 2 }
    else if x.held then { csts := 4, result := some 1 }
    else { csts := 0, result := some 0, sem := some { o with gen := (x.gen + 1) % 4096 } }
  else if op = 2 then
    if x.held && sameOwner x o then { csts := 0, result := some 0, sem := some { gen := x.gen } }
    else { csts := 2, result := some 3, viol := some 3 }
  else { csts := 0, result := some 0, viol := some 0, sem := some { gen := x.gen } }

/-- A request under the reset fence of its FN (R114): a packet is answered UR, a SEM_CMD is discarded. -/
def State.semFenced (s : State) (p : Packet) : Bool :=
  p.src != 42 && (s.semFence p.fn || s.semFence (2048 + p.fn / 1024))

/-- SEM executes a request and answers it (R111): a packet by a semaphore reply, a SEM_CMD in SEM_RESULT. -/
def semServe (p : Packet) (s : State) : State :=
  if s.semFenced p then
    if p.src < 10 then s else offer { p.reply 0x23 1 [] with src := 40 } s
  else
    let a := s.semDecide p
    let s1 := match a.sem with
      | none => s
      | some x => s.setSem (semNum p) x
    let s2 := match a.viol with
      | none => s1
      | some v =>
        if semOp p = 0 && (decide (p.src < 10) || p.src == 42) then s1
        else violPkt 40 0x0301 p (semNum p) v s1
    if p.src < 10 ∨ p.src = 42 then
      match a.result with
      | none => s2
      | some r => s2.fset F.semResultResult (if p.src = 42 then 2 else p.src) r
    else offer { p.reply 0x23 a.csts (leBytes 4 (s2.sem (semNum p)).bits) with src := 40 } s2

/-- The granted request at SEM is served when its operation is `op`. -/
def semExec (op : Nat) (s : State) : State :=
  let b := s.arbiter 28
  match b.grant with
  | none => s
  | some g =>
    if g.serving && semOp g.pkt == op then
      let s1 := semServe g.pkt s
      s1.setArbiter 28 { s1.arbiter 28 with grant := some { g with serving := false } }
    else s

/-- SEM_EXEC_ACQUIRE (R111). -/
def execSemExecAcquire (s : State) : Host.Outcome State Fault Refusal := live s (semExec 1)
/-- SEM_EXEC_RELEASE (R111). -/
def execSemExecRelease (s : State) : Host.Outcome State Fault Refusal := live s (semExec 2)
/-- SEM_EXEC_FORCE_RELEASE (R111). -/
def execSemExecForceRelease (s : State) : Host.Outcome State Fault Refusal := live s (semExec 3)
/-- SEM_EXEC_NO_OP (R111). -/
def execSemExecNoOp (s : State) : Host.Outcome State Fault Refusal := live s (semExec 0)

/-- The semaphore request that a SEM_CMD write is. -/
def State.semPkt (s : State) (w : Writer) (op n : Nat) : Packet :=
  { s.mkPkt 0 0x05 (writerNi w) 40 (s.writerFn w) with
    addr := op * 4096 + n, asp := 6, age := s.niTime (writerNi w), stamp := s.stampAt (writerNi w) }

/-- A SEM_CMD of a host port joins the mutual-exclusion element; the element passes to SEM's arbiter, one access of a
port at a time (R113). OP 0b00 has no effect. -/
def semCmd (w : Writer) (op n : Nat) (s : State) : State :=
  if op = 0 then s
  else request 28 (match w with | .mgc => 42 | _ => 0) (s.semPkt w op n) s

/-- SEM_CMD_ACQUIRE (R111, R113). -/
def execSemCmdAcquire (k : Fin 2) (num : BitVec 11) (s : State) : Host.Outcome State Fault Refusal :=
  live s (semCmd (.host k) 1 num.toNat)
/-- SEM_CMD_RELEASE (R111, R113). -/
def execSemCmdRelease (k : Fin 2) (num : BitVec 11) (s : State) : Host.Outcome State Fault Refusal :=
  live s (semCmd (.host k) 2 num.toNat)
/-- SEM_CMD_FORCE_RELEASE (R111, R113). -/
def execSemCmdForceRelease (k : Fin 2) (num : BitVec 11) (s : State) : Host.Outcome State Fault Refusal :=
  live s (semCmd (.host k) 3 num.toNat)

/-- A semaphore operation of one of the functions that `mine` names has not yet executed (R114). -/
def State.semPending (s : State) (mine : Nat → Bool) : Bool :=
  let hit := fun (p : Packet) => p.ty == 5 && mine p.fn
  (s.arrived 40).any hit || (s.arbiter 28).waiting.any (fun x => hit x.2)
    || (s.arbiter 28).slots.any (fun x => match x.2 with | none => false | some r => hit r.pkt)
    || (match (s.arbiter 28).grant with | none => false | some g => g.serving && hit g.pkt)
    || s.fab.flights.any (fun f => match f.2 with | none => false | some x => hit x.pkt)
    || s.fab.inq.any (fun q => q.2.any hit)

/-- The functions that a fence names: one, or with 2048 + k every one of port k (R398). -/
def fenceOf (x fn : Nat) : Bool := if x < 2048 then fn == x else fn / 1024 == x - 2048

/-- Frees every semaphore of the functions that `mine` names (R114). -/
def semFreeFn (mine : Nat → Bool) (s : State) : State :=
  forN 1024 (fun n s =>
    let x := s.sem n
    if x.held && mine x.fn && x.okind != 3 then s.setSem n { gen := x.gen } else s) s

/-- Once every operation stamped before a fence is done, the semaphores are freed and SEM answers again (R114). -/
def semEndFence (x : Nat) (s : State) : State :=
  if s.semFence x && !s.semPending (fenceOf x) then (semFreeFn (fenceOf x) s).setSemFence x false else s

/-- SEM_RESET_FREE (R114): the fence of a function, and that of its port. -/
def execSemResetFree (fn : Fin 2048) (s : State) : Host.Outcome State Fault Refusal :=
  live s (fun s => semEndFence (2048 + fn.val / 1024) (semEndFence fn.val s))

end Sys2Proof.Machine
end

