-- ==== Sys2Proof/Machine/RegMap.lean ====
section
/-!
DEFINITION. Which control-space offsets programs reach (R126, R251, R280, R424, R493).
-/
namespace Sys2Proof.Machine

/-- Registers of the XLT block, which programs may access (R280). -/
def isXltReg : RegId → Bool
  | .winSel | .winCw | .winAcc | .winTag | .winCmd | .winSts | .teSel | .teData | .teCmd | .teSts | .teWver | .fWin
  | .xltCnt | .xltLoc => true
  | _ => false

/-- A program may access the control-space offset (R126): the XLT block, and writes of TRC_MARK, QM_QHEAD and
QM_QERR. -/
def progReach (store : Bool) (off : Nat) : Bool :=
  regRows.any (fun row => !row.fa && row.hit off 4 != .none
    && (isXltReg row.reg || (store && (row.reg == .trcMark || row.reg == .qmQhead || row.reg == .qmQerr))))

end Sys2Proof.Machine
end

