-- ==== Sys2Proof/Machine/SorefCode.lean ====
section
/-!
DEFINITION. The Soref instruction words (chapter 7): the instructions, their decoding from one word, or two in format
L, and their encoding, both written from Tables 7-1 to 7-7.
-/
namespace Sys2Proof.Machine

/-- The 76 Soref instructions with their operands (Table 7-5); a width or a space is an operand. -/
inductive Soref where
  | add (rd ra rb : Fin 32) | sub (rd ra rb : Fin 32) | and (rd ra rb : Fin 32) | or (rd ra rb : Fin 32)
  | xor (rd ra rb : Fin 32) | andn (rd ra rb : Fin 32)
  | sll (rd ra rb : Fin 32) | srl (rd ra rb : Fin 32) | sra (rd ra rb : Fin 32)
  | mul (rd ra rb : Fin 32) | mulhu (rd ra rb : Fin 32)
  | cmp (ra rb : Fin 32) | tst (ra rb : Fin 32) | clz (rd ra : Fin 32)
  | addi (rd ra : Fin 32) (imm : BitVec 12) | andi (rd ra : Fin 32) (imm : BitVec 12)
  | ori (rd ra : Fin 32) (imm : BitVec 12) | xori (rd ra : Fin 32) (imm : BitVec 12)
  | slli (rd ra : Fin 32) (n : BitVec 6) | srli (rd ra : Fin 32) (n : BitVec 6) | srai (rd ra : Fin 32) (n : BitVec 6)
  | cmpi (ra : Fin 32) (imm : BitVec 12) | tsti (ra : Fin 32) (imm : BitVec 12)
  | li (rd : Fin 32) (imm : BitVec 44) | addl (rd ra : Fin 32) (imm : BitVec 44)
  | orh (rd ra : Fin 32) (imm : BitVec 32) | cmpl (ra : Fin 32) (imm : BitVec 44)
  | ldx (w : LdWidth) (rd ra : Fin 32) (imm : BitVec 12) | ldg (w : LdWidth) (rd ra : Fin 32) (imm : BitVec 12)
  | ldc (w : LdWidth) (rd ra : Fin 32) (imm : BitVec 12)
  | stx (w : StWidth) (rs ra : Fin 32) (imm : BitVec 12) | stg (w : StWidth) (rs ra : Fin 32) (imm : BitVec 12)
  | stc (w : StWidth) (rs ra : Fin 32) (imm : BitVec 12)
  | fadd (d : Bool) (rd ra rb : Fin 32) | swp (d : Bool) (rd ra rb : Fin 32) | cas (d : Bool) (rd ra rb : Fin 32)
  | bCc (cond : Cond) (off : BitVec 20) | callCc (cond : Cond) (off : BitVec 20)
  | jr (ra : Fin 32) | callr (ra : Fin 32) | ret
  | srd (rd : Fin 32) (sreg : BitVec 8) | swr (ra : Fin 32) (sreg : BitVec 8)
  | sbis (ra : Fin 32) (sreg : BitVec 8) | sbic (ra : Fin 32) (sreg : BitVec 8)
  | nop | wait | end_ | tdiff (rd ra rb : Fin 32) | tcmp (ra rb : Fin 32)
  | move (rd : Fin 32) | ctxack (rd : Fin 32)
  | xlt (rd ra : Fin 32) (xu : Fin 4) | xltDrain (rd ra : Fin 32)
  | fmark | fenceP (rd : Fin 32)
  | lock (w : LockWidth) (sp : LockSpace) (rd ra : Fin 32) | unlock (w : LockWidth) (sp : LockSpace) (rs ra : Fin 32)
  | acq (rd : Fin 32) (num : BitVec 11) | rel (rd : Fin 32) (num : BitVec 11)
  | acqr (rd ra : Fin 32) | relr (rd ra : Fin 32)
  | umsg (unit : BitVec 12) | raise (v : BitVec 11) | raiser (ra : Fin 32)
deriving DecidableEq, Repr, Inhabited

/-! ## Fields (Tables 7-1, 7-2, 7-4, 7-6) -/

/-- A register number. -/
def regNo (n : Nat) : Fin 32 := Fin.ofNat 32 n

/-- The width of a load (Table 7-6). -/
def ldWidth : Nat → Option LdWidth
  | 0 => some .b | 1 => some .h | 2 => some .w | 3 => some .d | 4 => some .sb | 5 => some .sh | 6 => some .sw
  | _ => none

/-- The code of a load's width. -/
def ldCode : LdWidth → Nat
  | .b => 0 | .h => 1 | .w => 2 | .d => 3 | .sb => 4 | .sh => 5 | .sw => 6

/-- The width of a store (R171). -/
def stWidth : Nat → Option StWidth
  | 0 => some .b | 1 => some .h | 2 => some .w | 3 => some .d | _ => none

/-- The code of a store's width. -/
def stCode : StWidth → Nat
  | .b => 0 | .h => 1 | .w => 2 | .d => 3

/-- The width of LOCK and UNLOCK (R171). -/
def lockWidth : Nat → Option LockWidth
  | 0 => some .w | 1 => some .d | 2 => some .q | _ => none

/-- The code of a width of LOCK and UNLOCK. -/
def lockWCode : LockWidth → Nat
  | .w => 0 | .d => 1 | .q => 2

/-- The space of LOCK and UNLOCK (R171). -/
def lockSpace : Nat → Option LockSpace
  | 0 => some .stg | 1 => some .loc | _ => none

/-- The code of a space. -/
def lockSpCode : LockSpace → Nat
  | .stg => 0 | .loc => 1

/-- The condition of a code (Table 7-4). -/
def condOf : Nat → Option Cond
  | 0 => some .al | 1 => some .eq | 2 => some .ne | 3 => some .lt | 4 => some .ge | 5 => some .ltu | 6 => some .geu
  | 7 => some .gt | 8 => some .le | 9 => some .gtu | 10 => some .leu | 11 => some .mi | 12 => some .pl
  | 13 => some .vs | 14 => some .vc | _ => none

/-- The code of a condition. -/
def condCode : Cond → Nat
  | .al => 0 | .eq => 1 | .ne => 2 | .lt => 3 | .ge => 4 | .ltu => 5 | .geu => 6 | .gt => 7 | .le => 8 | .gtu => 9
  | .leu => 10 | .mi => 11 | .pl => 12 | .vs => 13 | .vc => 14

/-- A register that .Q may name: even and not g0 (R166). -/
def pairOk (w : LockWidth) (r : Nat) : Bool :=
  match w with
  | .q => r % 2 == 0 && r != 0
  | _ => true

/-- An instruction whose word must have `c` hold: otherwise the encoding is reserved (R165, R174). -/
def need (c : Bool) (i : Soref) : Option Soref := if c then some i else none

/-! ## Decoding -/

/-- Format A (Table 7-5, MAJ 0x01, 0x06, 0x08 and 0x0A). -/
def decodeA (maj minor rd ra rb : Nat) : Option Soref :=
  let d := regNo rd
  let a := regNo ra
  let b := regNo rb
  if maj = 1 then
    match minor with
    | 0 => some (.add d a b) | 1 => some (.sub d a b) | 2 => some (.and d a b) | 3 => some (.or d a b)
    | 4 => some (.xor d a b) | 5 => some (.andn d a b) | 6 => some (.sll d a b) | 7 => some (.srl d a b)
    | 8 => some (.sra d a b) | 9 => some (.mul d a b) | 10 => some (.mulhu d a b)
    | 11 => need (rd == 0) (.cmp a b) | 12 => need (rd == 0) (.tst a b) | 13 => need (rb == 0) (.clz d a)
    | _ => none
  else if maj = 6 then
    match minor with
    | 0 => some (.fadd false d a b) | 1 => some (.fadd true d a b) | 2 => some (.swp false d a b)
    | 3 => some (.swp true d a b) | 4 => some (.cas false d a b) | 5 => some (.cas true d a b)
    | _ => none
  else if maj = 8 then
    match minor with
    | 0 => need (rd == 0 && rb == 0) (.jr a) | 1 => need (rd == 0 && rb == 0) (.callr a)
    | 2 => need (rd == 0 && ra == 0 && rb == 0) .ret
    | _ => none
  else
    match minor with
    | 0 => need (rd == 0 && ra == 0 && rb == 0) .nop | 1 => need (rd == 0 && ra == 0 && rb == 0) .wait
    | 2 => need (rd == 0 && ra == 0 && rb == 0) .end_ | 3 => some (.tdiff d a b) | 4 => need (rd == 0) (.tcmp a b)
    | _ => none

/-- Formats I and S (MAJ 0x02, 0x04, 0x05 and 0x09). -/
def decodeI (maj minor rd ra imm : Nat) : Option Soref :=
  let d := regNo rd
  let a := regNo ra
  let v := BitVec.ofNat 12 imm
  if maj = 2 then
    match minor with
    | 0 => some (.addi d a v) | 2 => some (.andi d a v) | 3 => some (.ori d a v) | 4 => some (.xori d a v)
    | 6 => need (imm / 64 == 0) (.slli d a (BitVec.ofNat 6 imm))
    | 7 => need (imm / 64 == 0) (.srli d a (BitVec.ofNat 6 imm))
    | 8 => need (imm / 64 == 0) (.srai d a (BitVec.ofNat 6 imm))
    | 11 => need (rd == 0) (.cmpi a v) | 12 => need (rd == 0) (.tsti a v)
    | _ => none
  else if maj = 4 then
    match ldWidth (minor % 8) with
    | none => none
    | some w =>
      match minor / 8 with
      | 0 => some (.ldx w d a v) | 1 => some (.ldg w d a v) | 2 => some (.ldc w d a v)
      | _ => none
  else if maj = 5 then
    match stWidth (minor % 8) with
    | none => none
    | some w =>
      match minor / 8 with
      | 0 => some (.stx w d a v) | 1 => some (.stg w d a v) | 2 => some (.stc w d a v)
      | _ => none
  else
    let r := BitVec.ofNat 8 (imm / 16)
    if imm % 16 ≠ 0 then none
    else
      match minor with
      | 0 => need (ra == 0) (.srd d r) | 1 => need (rd == 0) (.swr a r) | 2 => need (rd == 0) (.sbis a r)
      | 3 => need (rd == 0) (.sbic a r)
      | _ => none

/-- Format L (MAJ 0x03): `low` is IMML, the second word. -/
def decodeL (minor rd ra immh low : Nat) : Option Soref :=
  let v := BitVec.ofNat 44 (immh * 2 ^ 32 + low)
  match minor with
  | 0 => need (ra == 0) (.li (regNo rd) v)
  | 1 => some (.addl (regNo rd) (regNo ra) v)
  | 2 => need (immh == 0) (.orh (regNo rd) (regNo ra) (BitVec.ofNat 32 low))
  | 11 => need (rd == 0) (.cmpl (regNo ra) v)
  | _ => none

/-- Format M (MAJ 0x10 to 0x16). -/
def decodeM (maj minor rd ra arg : Nat) : Option Soref :=
  let d := regNo rd
  let a := regNo ra
  let v := BitVec.ofNat 11 arg
  if maj = 0x10 then
    match minor with
    | 0 => need (ra == 0 && arg == 0) (.move d) | 1 => need (ra == 0 && arg == 0) (.ctxack d)
    | _ => none
  else if maj = 0x11 then
    match minor with
    | 0 => need (arg / 4 == 0) (.xlt d a (Fin.ofNat 4 arg)) | 1 => need (arg == 0) (.xltDrain d a)
    | _ => none
  else if maj = 0x12 then
    match minor with
    | 0 => need (rd == 0 && ra == 0 && arg == 0) .fmark | 1 => need (ra == 0 && arg == 0) (.fenceP d)
    | _ => none
  else if maj = 0x13 then
    match lockSpace (arg / 1024), lockWidth (arg / 256 % 4) with
    | some sp, some w =>
      match minor with
      | 0 => need (arg % 256 == 0 && pairOk w rd) (.lock w sp d a)
      | 1 => need (arg % 256 == 0 && pairOk w rd) (.unlock w sp d a)
      | _ => none
    | _, _ => none
  else if maj = 0x14 then
    match minor with
    | 0 => need (ra == 0 && decide (arg < 2048)) (.acq d v) | 1 => need (ra == 0 && decide (arg < 2048)) (.rel d v)
    | 2 => need (arg == 0) (.acqr d a) | 3 => need (arg == 0) (.relr d a)
    | _ => none
  else if maj = 0x15 then
    match minor with
    | 0 => need (rd == 0 && ra == 0) (.umsg (BitVec.ofNat 12 arg))
    | _ => none
  else
    match minor with
    | 0 => need (rd == 0 && ra == 0 && decide (arg < 2048)) (.raise v) | 1 => need (rd == 0 && arg == 0) (.raiser a)
    | _ => none

/-- Format B (Table 7-2). -/
def decodeB (cond minor off : Nat) : Option Soref :=
  match condOf cond with
  | none => none
  | some c =>
    match minor with
    | 0 => some (.bCc c (BitVec.ofNat 20 off)) | 1 => some (.callCc c (BitVec.ofNat 20 off))
    | _ => none

/-- Whether a first word is of format L (R159). -/
def isLong (w : Nat) : Bool := w / 2 ^ 27 % 32 == 3

/-- The instruction of a first word `w` and, in format L, a second word `w2` (Table 7-3); none where the encoding is
reserved (R174). -/
def decodeSoref (w w2 : Nat) : Option Soref :=
  let maj := w / 2 ^ 27 % 32
  let rd := w / 2 ^ 22 % 32
  let ra := w / 2 ^ 17 % 32
  let mid := w / 2 ^ 12 % 32
  let low := w % 2 ^ 12
  match maj with
  | 1 => if low % 16 = 0 then decodeA 1 (low / 16) rd ra mid else none
  | 2 => decodeI 2 mid rd ra low
  | 3 => decodeL mid rd ra low w2
  | 4 => decodeI 4 mid rd ra low
  | 5 => decodeI 5 mid rd ra low
  | 6 => if low % 16 = 0 then decodeA 6 (low / 16) rd ra mid else none
  | 7 => decodeB (w / 2 ^ 23 % 16) (w / 2 ^ 20 % 8) (w % 2 ^ 20)
  | 8 => if low % 16 = 0 then decodeA 8 (low / 16) rd ra mid else none
  | 9 => decodeI 9 mid rd ra low
  | 10 => if low % 16 = 0 then decodeA 10 (low / 16) rd ra mid else none
  | 16 => decodeM 16 mid rd ra low
  | 17 => decodeM 17 mid rd ra low
  | 18 => decodeM 18 mid rd ra low
  | 19 => decodeM 19 mid rd ra low
  | 20 => decodeM 20 mid rd ra low
  | 21 => decodeM 21 mid rd ra low
  | 22 => decodeM 22 mid rd ra low
  | _ => none

/-! ## Encoding -/

/-- A word of format A. -/
def wordA (maj minor rd ra rb : Nat) : Nat := maj * 2 ^ 27 + rd * 2 ^ 22 + ra * 2 ^ 17 + rb * 2 ^ 12 + minor * 16

/-- A word of format I, L, M or S: `low` fills bits [11:0]. -/
def wordI (maj minor rd ra low : Nat) : Nat := maj * 2 ^ 27 + rd * 2 ^ 22 + ra * 2 ^ 17 + minor * 2 ^ 12 + low

/-- A word of format B. -/
def wordB (cond minor off : Nat) : Nat := 7 * 2 ^ 27 + cond * 2 ^ 23 + minor * 2 ^ 20 + off

/-- ARG of LOCK and UNLOCK (R171). -/
def lockArg (w : LockWidth) (sp : LockSpace) : Nat := lockSpCode sp * 1024 + lockWCode w * 256

/-- The first word of an instruction and the second of format L, 0 in the other formats. -/
def encodeSoref : Soref → Nat × Nat
  | .add d a b => (wordA 1 0 d a b, 0)
  | .sub d a b => (wordA 1 1 d a b, 0)
  | .and d a b => (wordA 1 2 d a b, 0)
  | .or d a b => (wordA 1 3 d a b, 0)
  | .xor d a b => (wordA 1 4 d a b, 0)
  | .andn d a b => (wordA 1 5 d a b, 0)
  | .sll d a b => (wordA 1 6 d a b, 0)
  | .srl d a b => (wordA 1 7 d a b, 0)
  | .sra d a b => (wordA 1 8 d a b, 0)
  | .mul d a b => (wordA 1 9 d a b, 0)
  | .mulhu d a b => (wordA 1 10 d a b, 0)
  | .cmp a b => (wordA 1 11 0 a b, 0)
  | .tst a b => (wordA 1 12 0 a b, 0)
  | .clz d a => (wordA 1 13 d a 0, 0)
  | .addi d a v => (wordI 2 0 d a v.toNat, 0)
  | .andi d a v => (wordI 2 2 d a v.toNat, 0)
  | .ori d a v => (wordI 2 3 d a v.toNat, 0)
  | .xori d a v => (wordI 2 4 d a v.toNat, 0)
  | .slli d a n => (wordI 2 6 d a n.toNat, 0)
  | .srli d a n => (wordI 2 7 d a n.toNat, 0)
  | .srai d a n => (wordI 2 8 d a n.toNat, 0)
  | .cmpi a v => (wordI 2 11 0 a v.toNat, 0)
  | .tsti a v => (wordI 2 12 0 a v.toNat, 0)
  | .li d v => (wordI 3 0 d 0 (v.toNat / 2 ^ 32), v.toNat % 2 ^ 32)
  | .addl d a v => (wordI 3 1 d a (v.toNat / 2 ^ 32), v.toNat % 2 ^ 32)
  | .orh d a v => (wordI 3 2 d a 0, v.toNat)
  | .cmpl a v => (wordI 3 11 0 a (v.toNat / 2 ^ 32), v.toNat % 2 ^ 32)
  | .ldx w d a v => (wordI 4 (ldCode w) d a v.toNat, 0)
  | .ldg w d a v => (wordI 4 (8 + ldCode w) d a v.toNat, 0)
  | .ldc w d a v => (wordI 4 (16 + ldCode w) d a v.toNat, 0)
  | .stx w d a v => (wordI 5 (stCode w) d a v.toNat, 0)
  | .stg w d a v => (wordI 5 (8 + stCode w) d a v.toNat, 0)
  | .stc w d a v => (wordI 5 (16 + stCode w) d a v.toNat, 0)
  | .fadd w d a b => (wordA 6 w.toNat d a b, 0)
  | .swp w d a b => (wordA 6 (2 + w.toNat) d a b, 0)
  | .cas w d a b => (wordA 6 (4 + w.toNat) d a b, 0)
  | .bCc c off => (wordB (condCode c) 0 off.toNat, 0)
  | .callCc c off => (wordB (condCode c) 1 off.toNat, 0)
  | .jr a => (wordA 8 0 0 a 0, 0)
  | .callr a => (wordA 8 1 0 a 0, 0)
  | .ret => (wordA 8 2 0 0 0, 0)
  | .srd d r => (wordI 9 0 d 0 (r.toNat * 16), 0)
  | .swr a r => (wordI 9 1 0 a (r.toNat * 16), 0)
  | .sbis a r => (wordI 9 2 0 a (r.toNat * 16), 0)
  | .sbic a r => (wordI 9 3 0 a (r.toNat * 16), 0)
  | .nop => (wordA 10 0 0 0 0, 0)
  | .wait => (wordA 10 1 0 0 0, 0)
  | .end_ => (wordA 10 2 0 0 0, 0)
  | .tdiff d a b => (wordA 10 3 d a b, 0)
  | .tcmp a b => (wordA 10 4 0 a b, 0)
  | .move d => (wordI 16 0 d 0 0, 0)
  | .ctxack d => (wordI 16 1 d 0 0, 0)
  | .xlt d a x => (wordI 17 0 d a x, 0)
  | .xltDrain d a => (wordI 17 1 d a 0, 0)
  | .fmark => (wordI 18 0 0 0 0, 0)
  | .fenceP d => (wordI 18 1 d 0 0, 0)
  | .lock w sp d a => (wordI 19 0 d a (lockArg w sp), 0)
  | .unlock w sp d a => (wordI 19 1 d a (lockArg w sp), 0)
  | .acq d n => (wordI 20 0 d 0 n.toNat, 0)
  | .rel d n => (wordI 20 1 d 0 n.toNat, 0)
  | .acqr d a => (wordI 20 2 d a 0, 0)
  | .relr d a => (wordI 20 3 d a 0, 0)
  | .umsg u => (wordI 21 0 0 0 u.toNat, 0)
  | .raise v => (wordI 22 0 0 0 v.toNat, 0)
  | .raiser a => (wordI 22 1 0 a 0, 0)

/-- Well-formed: .Q names an even register other than g0 (R166). -/
def Soref.wf : Soref → Bool
  | .lock w _ d _ => pairOk w d
  | .unlock w _ d _ => pairOk w d
  | _ => true

end Sys2Proof.Machine
end

