-- ==== Sys2Proof/Machine/Operands.lean ====
section
/-!
DEFINITION. The operands of Soref instructions: general registers and pairs, immediates, load and store widths, the
fields of a translation word and of the MOVE control word (chapters 6 to 9).
-/
namespace Sys2Proof.Machine

/-! ## General registers (R121) -/

/-- Register r of engine e; g0 reads as zero. -/
def State.gr (s : State) (e r : Nat) : Word := if r = 0 then 0 else s.greg (32 * e + r)

/-- Register r of engine e written; writes to g0 are discarded. -/
def setGr (e r : Nat) (v : Word) (s : State) : State := if r = 0 then s else s.setGreg (32 * e + r) v

/-- The 16 bytes of a register pair, or the low bytes of one register (R166), as a number of `n` bytes. -/
def State.grBytes (s : State) (e r n : Nat) : Nat :=
  if n = 16 then (s.gr e r).toNat + 2 ^ 64 * (s.gr e (r + 1)).toNat else (s.gr e r).toNat % 2 ^ (8 * n)

/-- A result of `n` bytes written to a register, or to a pair for 16 bytes (R166). -/
def setGrBytes (e r n v : Nat) (s : State) : State :=
  if n = 16 then setGr e (r + 1) (BitVec.ofNat 64 (v / 2 ^ 64)) (setGr e r (BitVec.ofNat 64 v) s)
  else setGr e r (BitVec.ofNat 64 v) s

/-! ## Immediates (R164) -/

/-- IMM sign-extended. -/
def immS (v : BitVec 12) : Word := v.signExtend 64
/-- IMM zero-extended. -/
def immZ (v : BitVec 12) : Word := v.zeroExtend 64
/-- The 44-bit immediate of format L, sign-extended. -/
def immL (v : BitVec 44) : Word := v.signExtend 64

/-! ## Widths (Table 7-6, R171) -/

/-- The bytes of a load. -/
def ldBytes : LdWidth → Nat
  | .b | .sb => 1 | .h | .sh => 2 | .w | .sw => 4 | .d => 8

/-- The value that a load writes to RD. -/
def ldExt (w : LdWidth) (v : Nat) : Word :=
  match w with
  | .sb => sext64 8 v | .sh => sext64 16 v | .sw => sext64 32 v
  | .b => BitVec.ofNat 64 (v % 2 ^ 8) | .h => BitVec.ofNat 64 (v % 2 ^ 16) | .w => BitVec.ofNat 64 (v % 2 ^ 32)
  | .d => BitVec.ofNat 64 v

/-- The bytes of a store. -/
def stBytes : StWidth → Nat
  | .b => 1 | .h => 2 | .w => 4 | .d => 8

/-- The bytes of LOCK and UNLOCK. -/
def lockBytes : LockWidth → Nat
  | .w => 4 | .d => 8 | .q => 16

/-- The address of a load or store: the value in RA plus the sign-extended IMM (R189). -/
def State.memAddr (s : State) (e ra : Nat) (imm : BitVec 12) : Nat := (s.gr e ra + immS imm).toNat

/-! ## Translation words (Table 9-5) -/

/-- XST. -/
def xwXst (w : Word) : Nat := bitsGet w 63 60
/-- SWAP. -/
def xwSwap (w : Word) : Nat := bitsGet w 59 57
/-- SEF. -/
def xwSef (w : Word) : Nat := bitsGet w 56 56
/-- XV. -/
def xwXv (w : Word) : Nat := bitsGet w 55 48
/-- WP. -/
def xwWp (w : Word) : Nat := bitsGet w 45 45
/-- PORT. -/
def xwPort (w : Word) : Nat := bitsGet w 44 42
/-- LADDR. -/
def xwLaddr (w : Word) : Nat := bitsGet w 41 0

/-- A translation word with XST 0x0. -/
def xwMake (swap sef xv wp port laddr : Nat) : Word :=
  BitVec.ofNat 64 (swap % 8 * 2 ^ 57 + sef % 2 * 2 ^ 56 + xv % 256 * 2 ^ 48 + wp % 2 * 2 ^ 45 + port % 8 * 2 ^ 42
    + laddr % 2 ^ 42)

/-- A translation word with XST not 0x0: every other field is zero. -/
def xwFail (xst : Nat) : Word := BitVec.ofNat 64 (xst * 2 ^ 60)

/-- The NI of the LPI that serves Drevlink port p: the lowest-numbered LPI of its group (R312). -/
def State.portNi (s : State) (p : Nat) : Nat := 2 + s.leadOf p

/-! ## The MOVE descriptor (Tables 9-2 and 9-3) -/

/-- The descriptor that g16 to g21 hold. -/
structure Desc where
  saddr : Nat
  daddr : Nat
  ctl : Word
  sxlt : Word
  dxlt : Word
  tag : Nat
deriving DecidableEq, Repr, Inhabited

/-- The descriptor block of an engine. -/
def State.desc (s : State) (e : Nat) : Desc :=
  { saddr := (s.gr e 16).toNat, daddr := (s.gr e 17).toNat, ctl := s.gr e 18, sxlt := s.gr e 19, dxlt := s.gr e 20,
    tag := (s.gr e 21).toNat % 2 ^ 32 }

/-- LEN. -/
def Desc.len (d : Desc) : Nat := bitsGet d.ctl 24 0
/-- SASP. -/
def Desc.sasp (d : Desc) : Nat := bitsGet d.ctl 27 25
/-- DASP. -/
def Desc.dasp (d : Desc) : Nat := bitsGet d.ctl 30 28
/-- The function of the context: FN when FNSEL is 1, else s.fn. -/
def Desc.fn (d : Desc) (sfn : Nat) : Nat := if bitsGet d.ctl 43 43 = 1 then bitsGet d.ctl 42 32 else sfn

/-- One side of a descriptor is in its range (R206): not a space MOVE cannot name, and within the space. -/
def sideOk (asp addr len f : Nat) (xlt : Word) : Bool :=
  if asp = 0 ∨ asp = 1 then asp == portOf f && decide (addr + len ≤ 2 ^ 64)
  else if asp = 2 then xwLaddr xlt / 2 ^ 24 == (xwLaddr xlt + len - 1) / 2 ^ 24
  else if asp = 3 then decide (addr + len ≤ 0x4000000)
  else if asp = 5 then decide (addr + len ≤ 0x10000)
  else false

/-- The descriptor breaks none of the conditions of R206. -/
def Desc.valid (d : Desc) (f : Nat) : Bool :=
  bitsGet d.ctl 63 48 == 0 && bitsGet d.ctl 31 31 == 0 && decide (1 ≤ d.len) && decide (d.len ≤ 2 ^ 24)
    && !(d.sasp == 5 && d.dasp == 5) && sideOk d.sasp d.saddr d.len f d.sxlt && sideOk d.dasp d.daddr d.len f d.dxlt

/-- A local side cannot be used: XST other than 0, or WP = 1 on a destination (R206). -/
def Desc.xlate (d : Desc) : Bool :=
  (d.sasp == 2 && xwXst d.sxlt != 0) || (d.dasp == 2 && (xwXst d.dxlt != 0 || xwWp d.dxlt == 1))

end Sys2Proof.Machine
end

