-- ==== Sys2Proof/Machine/Flags.lean ====
section
/-!
DEFINITION. The flags of Soref (R122, R182 to R185, Table 8-1), laid out as s.flags is: N in bit 3, Z in bit 2, C in
bit 1, V in bit 0.
-/
namespace Sys2Proof.Machine

/-- s.flags from its four bits. -/
def flagBits (n z c v : Bool) : Nat := 8 * b2n n + 4 * b2n z + 2 * b2n c + b2n v

/-- N. -/
def flagN (f : Nat) : Bool := natBit f 3
/-- Z. -/
def flagZ (f : Nat) : Bool := natBit f 2
/-- C. -/
def flagC (f : Nat) : Bool := natBit f 1
/-- V. -/
def flagV (f : Nat) : Bool := natBit f 0

/-- Z and N of a result; C and V as given (R182). -/
def flagsOf (r : Word) (c v : Bool) : Nat := flagBits r.msb (r == 0) c v

/-- The flags of a + b (Table 8-1). -/
def flagsAdd (a b : Word) : Nat :=
  let r := a + b
  flagsOf r (decide (2 ^ 64 ≤ a.toNat + b.toNat)) (a.msb == b.msb && r.msb != a.msb)

/-- The flags of a - b (Table 8-1): C is the borrow. -/
def flagsSub (a b : Word) : Nat :=
  let r := a - b
  flagsOf r (decide (a.toNat < b.toNat)) (a.msb != b.msb && r.msb != a.msb)

/-- The flags of a logic result: C = V = 0 (Table 8-1). -/
def flagsLogic (r : Word) : Nat := flagsOf r false false

/-- The flags of a shift: V is unchanged (R184). -/
def flagsShift (old : Nat) (r : Word) (c : Bool) : Nat := flagsOf r c (flagV old)

/-- The flags of MUL, MULHU, CLZ and TDIFF: C and V are unchanged (R185, R200). -/
def flagsZN (old : Nat) (r : Word) : Nat := flagsOf r (flagC old) (flagV old)

/-- C of a left shift by n: bit 64 - n of a, or 0 (R184). -/
def carrySll (a : Word) (n : Nat) : Bool := n != 0 && a.getLsbD (64 - n)

/-- C of a right shift by n: bit n - 1 of a, or 0 (R184). -/
def carrySrl (a : Word) (n : Nat) : Bool := n != 0 && a.getLsbD (n - 1)

/-- The number of leading zero bits of a, from 0 to 64 (R185). -/
def clzOf (a : Word) : Nat := ((List.range 64).reverse.takeWhile (fun i => !a.getLsbD i)).length

/-- A condition holds for s.flags (Table 7-4). -/
def condHolds (c : Cond) (f : Nat) : Bool :=
  match c with
  | .al => true
  | .eq => flagZ f
  | .ne => !flagZ f
  | .lt => flagN f != flagV f
  | .ge => flagN f == flagV f
  | .ltu => flagC f
  | .geu => !flagC f
  | .gt => !flagZ f && flagN f == flagV f
  | .le => flagZ f || flagN f != flagV f
  | .gtu => !flagC f && !flagZ f
  | .leu => flagC f || flagZ f
  | .mi => flagN f
  | .pl => !flagN f
  | .vs => flagV f
  | .vc => !flagV f

end Sys2Proof.Machine
end

