-- ==== Sys2Proof/Machine/Pacer.lean ====
section
/-!
DEFINITION. The Pacer engines (chapter 6): instruction fetch with its faults, fault entry and halt, packets of an
engine, dispatch and the end of a task, events and WAIT, unit messages, and the cluster's registers.
-/
namespace Sys2Proof.Machine

/-! ## The engine's place -/

/-- The cluster of engine e. -/
def clOf (e : Nat) : Nat := e / 8
/-- The NI of engine e's cluster (R119). -/
def clNi (e : Nat) : Nat := 10 + e / 8
/-- The place of a program-store word. -/
def psKey (c w : Nat) : Nat := 131072 * c + w

/-- Engine e executes instructions and is not stalled (R120). -/
def State.ready (s : State) (e : Nat) : Bool := (s.eng e).st == .run && (s.eng e).stall == .none

/-- The contexts that engine e owns (R138). -/
def State.owned (s : State) (e : Nat) : List Nat :=
  (s.pcl.ctxs.filter (fun x => x.1 / 512 == clOf e && x.2.used && x.2.eng == e)).map (·.1)

/-- s.ctxn. -/
def State.ctxn (s : State) (e : Nat) : Nat := (s.owned e).length

/-- The semaphores that engine e holds (R124), whatever FN it acquired them for. -/
def State.semsOf (s : State) (e : Nat) : List Nat :=
  (s.arb.sems.filter (fun x => x.2.held && x.2.okind == 2 && x.2.engine == e)).map (·.1)

/-- s.semn. -/
def State.semn (s : State) (e : Nat) : Nat := (s.semsOf e).length

/-- s.semhi: the highest number held, 0x7FF for none. -/
def State.semhi (s : State) (e : Nat) : Nat :=
  match s.semsOf e with
  | [] => 0x7FF
  | l => l.foldl max 0

/-- s.now (Table 6-2). -/
def State.engNow (s : State) (e : Nat) : Nat := s.niTime (clNi e)

/-- The reset fence of function `fn` is stamped at the cluster of engine e (R137, R398). -/
def State.fencedAt (s : State) (e fn : Nat) : Bool := s.under (clNi e) fn

/-- An event sets its bit in s.evt (R134). -/
def setEvt (e bit : Nat) (s : State) : State :=
  let x := s.eng e
  if natBit x.evt bit then s else s.setEng e { x with evt := x.evt + 2 ^ bit }

/-! ## Program store (R146, R147) -/

/-- A word of the store has an uncorrectable error. -/
def State.psUe (s : State) (c w : Nat) : Bool := decide (2 ≤ s.psEccAt (psKey c w) % 4)

/-- A single-bit error of a word is corrected and the word written back; PS_CORR sets. -/
def psCorrect (c w : Nat) (s : State) : State :=
  if s.psEccAt (psKey c w) % 4 = 1 then
    aerCorrected (((s.setPsEccAt (psKey c w) 0).fset F.pclStsPsCorr c 1).fsat F.errCntSecdedCe 0 1)
  else s

/-- An uncorrectable word met by a fetch or a read: violation 0x0504 with VALUE 2. -/
def psUeRecord (c w : Nat) (s : State) : State :=
  viol { ni := 10 + c, code := 0x0504, object := w, value := 2, inj := decide (4 ≤ s.psEccAt (psKey c w)) }
    (s.fsat F.errCntSecdedUe 0 1)

/-- A trailhead of the vector block: 0 FAULT, 1 INIT, 2 MSG (R146). -/
def State.vector (s : State) (c k : Nat) : Nat := (s.psWord (psKey c k)).toNat % 2 ^ 17

/-! ## Scratch (R145, R407) -/

/-- Bytes written to scratch: a whole word takes the poison given, a part of one keeps a poison already set. -/
def scrWrite (e off : Nat) (data : List Byte) (ep : Bool) (s : State) : State :=
  let s1 := forL ((List.range data.length).zip data) (fun x s => s.setScrByte (65536 * e + (off + x.1) % 65536) x.2) s
  forL (wordsOf off data.length) (fun w s =>
    let k := 8192 * e + w % 8192
    let whole := decide (off ≤ 8 * w) && decide (8 * w + 8 ≤ off + data.length)
    if ep then s.setScrPoisonAt k true else if whole then s.setScrPoisonAt k false else s) s1

/-- Bytes of scratch. -/
def State.scrBytes (s : State) (e off n : Nat) : List Byte :=
  (List.range n).map (fun i => s.scrByte (65536 * e + (off + i) % 65536))

/-- Any word of a range of scratch carries poison. -/
def State.scrPoisoned (s : State) (e off n : Nat) : Bool :=
  (wordsOf off n).any (fun w => s.scrPoisonAt (8192 * e + w % 8192))

/-! ## Packets of an engine (R173, R219, R226) -/

/-- The engine's slot at the mover egress is empty: nothing of it waits there or before it. -/
def State.slotFree (s : State) (e : Nat) : Bool :=
  let b := s.arbiter (20 + clOf e)
  (s.eng e).outq.isEmpty && (mget none b.slots (e % 8)).isNone && !b.waiting.any (fun x => x.1 == e % 8)

/-- A RAISE waits in the slot without presenting until R226 lets it. -/
def isRaise (p : Packet) : Bool := p.ty == 0x12

/-- A packet of engine e: the main tag names the engine, and the function is s.fn. -/
def State.engPkt (s : State) (e cls ty dst : Nat) : Packet :=
  { s.mkPkt cls ty (clNi e) dst (s.eng e).fn with tag := 16 * (e % 8), eng := e % 8 }

/-- A packet enters the engine's slot, or waits for it. -/
def engSend (e : Nat) (p : Packet) (s : State) : State :=
  if s.slotFree e && !isRaise p then request (20 + clOf e) (e % 8) p s
  else s.setEng e { s.eng e with outq := (s.eng e).outq ++ [p] }

/-- The destinations that FENCE.P asks: each NI an engine has sent a posted packet to (R217). -/
def notePosted (e dst : Nat) (s : State) : State :=
  let x := s.eng e
  if x.posted.contains dst then s else s.setEng e { x with posted := x.posted ++ [dst] }

/-- A message or packet that the cluster's NI discards (R223): the posted-fault ring and MV_DROP. -/
def dropMsg (c : Nat) (p : Packet) (s : State) : State := pfr (10 + c) p 9 0 (s.fsat F.mvDropDrops c 1)

/-- The messages held for engine e are discarded (R223). -/
def discardHeld (e : Nat) (s : State) : State :=
  let c := clOf e
  let k := s.clu c
  let mine := k.hold.filter (fun x => x.1 == e % 8)
  forL mine (fun x s => dropMsg c x.2 s) (s.setClu c { k with hold := k.hold.filter (fun x => x.1 != e % 8) })

/-- The QID return of END (R202, R239): it follows the engine's earlier packets. ADDR holds the QID, DOORBELL in
bit 16 and a 1 in bit 17. -/
def qidReturnPkt (s : State) (e qid : Nat) (db : Bool) : Packet :=
  { s.engPkt e 3 0x32 38 with addr := qid + 65536 * b2n db + 131072 }

/-- The held QID goes back to QM. -/
def returnQid (e : Nat) (db : Bool) (s : State) : State :=
  let x := s.eng e
  if x.qid = 0xFFFF then s else (engSend e (qidReturnPkt s e x.qid db) s) |> fun s1 => s1.setEng e { s1.eng e with qid := 0xFFFF }

/-! ## Faults (R141 to R144) -/

/-- The fault record (Table 6-6): INSN is the first word at s.pc as the store holds it. -/
def State.faultRecord (s : State) (e code nest addr info : Nat) : List Byte :=
  let x := s.eng e
  leBytes 8 (s.stampAt (clNi e)).bits ++ leBytes 4 x.pc ++ leBytes 4 (s.psWord (psKey (clOf e) x.pc)).toNat
    ++ leBytes 1 code ++ leBytes 1 nest ++ leBytes 2 x.fn ++ leBytes 2 x.qid ++ leBytes 2 0 ++ leBytes 8 addr
    ++ leBytes 4 info ++ leBytes 28 0

/-- INFO of a fault record: the source NI and CSTS of the reply or notice. -/
def faultInfo (src csts : Nat) : Nat := src * 2 ^ 26 + csts * 2 ^ 23

/-- A semaphore owned by engine e becomes free (R143). -/
def freeSems (e : Nat) (s : State) : State :=
  forL (s.semsOf e) (fun n s => s.setSem n { gen := (s.sem n).gen }) s

/-- Contexts of engine e that have completed go back to the mover. -/
def returnDone (e : Nat) (s : State) : State :=
  forL (s.owned e) (fun k s => if (s.ctx k).done then s.setCtx k {} else s) s

/-- The engine halts (R143): the nested record, its semaphores freed, its contexts returned as they complete, the QID
returned once they have, and the halt recorded. -/
def haltEngine (e code addr info : Nat) (s : State) : State :=
  let c := clOf e
  let x := s.eng e
  let s1 := scrWrite e 0xFF40 (s.faultRecord e code 1 addr info) false s
  let s2 := s1.setEng e { x with
    st := .halted, stall := .none, ending := false, belay := false, cutPend := none, hold := false, lastFault := code,
    ctx := 0x3FF, ctxsts := 0, done := [] }
  let s3 := discardHeld e (returnDone e (freeSems e s2))
  let s4 := if (s3.owned e).isEmpty then returnQid e true s3 else s3
  let s5 := viol { ni := 10 + c, code := 0x0303, fn := x.fn, object := e, value := 256 * x.fault + code }
    (s4.fsat F.pclFaultCntHalts c 1)
  trace (10 + c) 1 3 x.fn (leBytes 1 e ++ leBytes 1 x.fault ++ leBytes 1 code) false s5

/-- Fault entry (R141): the record, s.fault and s.fpc, and the FAULT trailhead; a fault while s.fault is set halts. -/
def raiseFault (e code addr info : Nat) (s : State) : State :=
  let c := clOf e
  let x := s.eng e
  if x.fault ≠ 0 then haltEngine e code addr info s
  else
    let s1 := scrWrite e 0xFF00 (s.faultRecord e code 0 addr info) false s
    let s2 := s1.setEng e { x with
      st := .run, stall := .none, fault := code, fpc := x.pc, pc := s.vector c 0, hold := false, lastFault := code }
    trace (10 + c) 1 2 x.fn (leBytes 1 e ++ leBytes 1 code ++ leBytes 2 0 ++ leBytes 4 x.pc) false
      (s2.fsat F.pclFaultCntFaults c 1)

/-- BELAY_CUT is taken (R142): s.belay reads 0 from then on. -/
def takeCut (e ni : Nat) (s : State) : State :=
  let x := s.eng e
  raiseFault e 0x0A x.belayAddr (faultInfo ni 0) (s.setEng e { x with belay := false, cutPend := none })

/-- A cut that waited for the end of an instruction is taken there if s.belay is 1; else it raises nothing (R142). -/
def checkCut (e : Nat) (s : State) : State :=
  let x := s.eng e
  match x.cutPend with
  | none => s
  | some ni => if x.belay then takeCut e ni s else s.setEng e { x with cutPend := none }

/-- An instruction completes (R159, R199): s.icnt rises and execution continues at word `npc`. -/
def finishAt (e npc : Nat) (s : State) : State :=
  let x := s.eng e
  checkCut e (s.setEng e { x with icnt := min (x.icnt + 1) 0xFFFFFFFF, pc := npc % 2 ^ 17, stall := .none })

/-- A one-word instruction completes. -/
def finish (e : Nat) (s : State) : State := finishAt e ((s.eng e).pc + 1) s

/-- A format-L instruction completes. -/
def finishL (e : Nat) (s : State) : State := finishAt e ((s.eng e).pc + 2) s

/-! ## Fetch (R147, R159 to R161, R175) -/

/-- The next instruction would make s.icnt exceed the task's budget (R175). -/
def overBudget (x : Eng) : Bool := x.budget != 0 && decide (x.icnt + 1 > x.budget)

/-- BUDGET (R199): the budget rises once by 256 instructions. -/
def budgetFault (e : Nat) (s : State) : State :=
  let x := s.eng e
  raiseFault e 9 0 0 (if x.raised then s else s.setEng e { x with budget := x.budget + 256, raised := true })

/-- One instruction of engine e (R175): BUDGET comes in place of the fetch, then PS_UE, then ILLEGAL; a format-L word
whose second word lies beyond the store raises RANGE (R160). `f` is the effect of the instruction `i`; none stands
for a reserved encoding. A command whose instruction is not the one at s.pc is no event. -/
def runInsn (e : Nat) (i : Option Soref) (f : State → State) (s : State) : State :=
  let c := clOf e
  let x := s.eng e
  let w := (s.psWord (psKey c x.pc)).toNat
  let w2 := (s.psWord (psKey c (x.pc + 1))).toNat
  if !s.ready e then s
  else if overBudget x then budgetFault e s
  else if s.psUe c x.pc then raiseFault e 2 0 0 (psUeRecord c x.pc s)
  else if isLong w && decide (131072 ≤ x.pc + 1) then
    match decodeSoref w 0, i with
    | none, none => raiseFault e 1 0 0 (psCorrect c x.pc s)
    | some _, some _ => raiseFault e 4 0 0 (psCorrect c x.pc s)
    | _, _ => s
  else if isLong w && s.psUe c (x.pc + 1) then raiseFault e 2 0 0 (psUeRecord c (x.pc + 1) (psCorrect c x.pc s))
  else if decodeSoref w w2 = i then
    let s1 := if isLong w then psCorrect c (x.pc + 1) (psCorrect c x.pc s) else psCorrect c x.pc s
    match i with
    | none => raiseFault e 1 0 0 s1
    | some _ => f (touch (6 + c) s1)
  else s

/-- A Soref instruction's command: `f` is its effect. -/
def soref (e : Fin 64) (i : Soref) (f : Nat → State → State) (s : State) : Host.Outcome State Fault Refusal :=
  live s (runInsn e.val (some i) (f e.val))

/-- RESERVED_ENCODING (R174). -/
def execReservedEncoding (e : Fin 64) (s : State) : Host.Outcome State Fault Refusal :=
  live s (runInsn e.val none id)

/-- A posted packet of an instruction (R128, R173): the instruction completes; while the packet waits for the slot the
engine stalls. -/
def post (e : Nat) (p : Packet) (s : State) : State :=
  let waits := !s.slotFree e
  let s1 := finish e (engSend e p (notePosted e p.dst s))
  if waits then s1.setEng e { s1.eng e with stall := .egress } else s1

/-- A blocking access (R127): its request is sent and the engine stalls for the reply. -/
def block (e : Nat) (st : Stall) (p : Packet) (s : State) : State :=
  let s1 := s.setEng e { s.eng e with stall := st, stallTag := p.tag, stallDst := p.dst, stallAddr := p.addr }
  engSend e p s1

/-! ## Dispatch (R129 to R133, R224) -/

/-- A task starts: g1 to g31 and the registers of Table 6-2 take their dispatch values. -/
def startTask (e trail fn qid stamp : Nat) (s : State) : State :=
  let c := clOf e
  let x := s.eng e
  (forN 31 (fun i s => s.setGreg (32 * e + i + 1) 0) s).setEng e {
    st := .run, fn := fn, qid := qid, stamp := BitVec.ofNat 64 stamp, pc := trail % 2 ^ 17
    marker := stamp / 2 ^ 16 % 2 ^ 48, budget := s.fget F.pclLimitsBudget c, ctxCap := s.fget F.pclLimitsCtxCap c
    lastFault := x.lastFault, outq := x.outq, holds := x.holds }

/-- The lowest-numbered IDLE engine of cluster c (R131). -/
def State.idleEngine (s : State) (c : Nat) : Option Nat :=
  ((List.range 8).map (fun k => 8 * c + k)).find? (fun e => (s.eng e).st == .idle)

/-- The wake that cluster c gives next: highest LV, then oldest AGE; queue wakes only once INIT has ended (R131,
R133). -/
def State.bestWake (s : State) (c : Nat) : Option (Nat × Wake) :=
  let w := (s.clu c).wakes
  let cands := ((List.range w.length).zip w).filter (fun x => x.2.msg || s.flag F.pclStsInitDone c)
  cands.foldl (fun b x => match b with
    | none => some x
    | some y => if x.2.lv > y.2.lv ∨ (x.2.lv = y.2.lv ∧ timeBefore x.2.age y.2.age) then some x else some y) none

/-- The sending engine of a unit message, 0xFF for any other sender (Table 9-8). -/
def fromEng (p : Packet) : Nat := if 10 ≤ p.src ∧ p.src < 18 then 8 * (p.src - 10) + p.tag / 16 % 8 else 0xFF

/-- A message lands in the engine's next slot (R223, Table 9-8): the slot is written, then MSG sets. -/
def landMsg (e : Nat) (p : Packet) (s : State) : State :=
  let x := s.eng e
  let k := x.nextSlot
  let body := leBytes 1 p.src ++ leBytes 1 (fromEng p) ++ leBytes 2 p.fn ++ leBytes 1 1 ++ leBytes 3 0
    ++ (p.data ++ List.replicate 56 0).take 56
  let s1 := scrWrite e (0xFE40 + 64 * k) body p.ep s
  setEvt e 2 (s1.setEng e { x with slots := x.slots.set k false, nextSlot := (k + 1) % 3 })

/-- The next slot of engine e is free. -/
def State.slotOpen (s : State) (e : Nat) : Bool := (s.eng e).slots.getD (s.eng e).nextSlot false

/-- Message wakes in cluster c's list. -/
def State.msgWakes (s : State) (c : Nat) : Nat := ((s.clu c).wakes.filter (·.msg)).length

/-- Held cluster messages take message entries that have become free (R130): the hold's place 8 is the cluster. -/
def refillWakes (c : Nat) (s : State) : State :=
  let k := s.clu c
  match k.hold.find? (fun x => x.1 == 8) with
  | none => s
  | some x =>
    if s.msgWakes c < 8 then
      s.setClu c { k with
        hold := dropAt k.hold (k.hold.findIdx (fun y => y.1 == 8))
        wakes := k.wakes ++ [{ msg := true, lv := x.2.lv, age := x.2.age, pkt := x.2 }] }
    else s

/-- A queue wake starts a task at its queue's trailhead: the queue state becomes the wake record, and the entry's
credit returns to QM (R130, R224). -/
def startQueueTask (e : Nat) (w : Wake) (s : State) : State :=
  let d := w.pkt.data
  let field := fun o n => leNat ((d.drop o).take n)
  let s1 := startTask e (field 0x30 4 % 2 ^ 17) (field 0x34 2) (field 0x36 2) w.pkt.stamp.bits s
  let s2 := scrWrite e 0xFE00 ((d ++ List.replicate 64 0).take 64) w.pkt.ep s1
  offer { s2.mkPkt 3 0x32 (clNi e) 38 0 with addr := 0 } s2

/-- A message wake starts a task at the MSG trailhead with the sender's FN; the message lands in slot 0. -/
def startMsgTask (e : Nat) (w : Wake) (s : State) : State :=
  landMsg e w.pkt (startTask e (s.vector (clOf e) 2) w.pkt.fn 0xFFFF w.pkt.stamp.bits s)

/-- INIT starts on engine 0 of cluster c (R129, R150). -/
def startInit (c : Nat) (s : State) : State :=
  let s1 := startTask (8 * c) (s.vector c 1) 0 0xFFFF (s.stampAt (10 + c)).bits s
  s1.setClu c { s1.clu c with initPend := false, loaded := false, initRun := true }

/-- DISPATCH (R131): an INIT that waits for engine 0 first, else the best wake to the lowest IDLE engine. -/
def dispatch (c : Nat) (s : State) : State :=
  if !s.flag F.pclCtlRun c then s
  else if (s.clu c).initPend && (s.eng (8 * c)).st == .idle then startInit c s
  else
    match s.idleEngine c, s.bestWake c with
    | some e, some (i, w) =>
      let k := s.clu c
      let s1 := s.setClu c { k with wakes := dropAt k.wakes i }
      if w.msg then startMsgTask e w (refillWakes c s1) else startQueueTask e w s1
    | _, _ => s

/-- DISPATCH (R131). -/
def execDispatch (c : Fin 8) (s : State) : Host.Outcome State Fault Refusal := live s (dispatch c.val)

/-- CLUSTER_WAKE_ARRIVE (R130, R237): a queue wake's level is ADDR[2:0]. A message that finds the 8 message entries
full waits in the message hold, and is discarded if that is full. -/
def clusterWake (c i : Nat) (s : State) : State :=
  match takeArrived (10 + c) i s with
  | none => s
  | some (p0, s0) =>
    if p0.hdrBad then s
    else if p0.cls = 3 ∧ p0.ty = 0x30 then
      let (p, s1) := checkParity (10 + c) p0 s0
      let k := s1.clu c
      s1.setClu c { k with wakes := k.wakes ++ [{ lv := p.addr % 8, age := p.age, pkt := p }] }
    else if p0.cls = 1 ∧ p0.ty = 0x14 ∧ p0.asp = 6 ∧ p0.addr = 0x40 + c then
      let (p, s1) := checkParity (10 + c) p0 s0
      let k := s1.clu c
      if s1.msgWakes c < 8 && !k.hold.any (fun x => x.1 == 8) then
        s1.setClu c { k with wakes := k.wakes ++ [{ msg := true, lv := p.lv, age := p.age, pkt := p }] }
      else if k.hold.length < 32 then s1.setClu c { k with hold := k.hold ++ [(8, p)] }
      else dropMsg c p s1
    else s

/-- CLUSTER_WAKE_ARRIVE (R130). -/
def execClusterWakeArrive (c : Fin 8) (i : Nat) (s : State) : Host.Outcome State Fault Refusal :=
  live s (clusterWake c.val i)

/-- A control packet of TYPE 0x32 at QM: a QID return has bit 17 of ADDR set, a wake credit has it clear. -/
def isQidReturn (p : Packet) : Bool := p.cls == 3 && p.ty == 0x32 && natBit p.addr 17

/-- WAKE_CREDIT_RETURN (R130). -/
def wakeCredit (i : Nat) (s : State) : State :=
  match takeArrived 38 i s with
  | none => s
  | some (p, s0) =>
    if p.cls = 3 ∧ p.ty = 0x32 ∧ !natBit p.addr 17 ∧ !p.hdrBad then s0.setSpent (p.src - 10) (s0.spent (p.src - 10) - 1)
    else s

/-- WAKE_CREDIT_RETURN (R130). -/
def execWakeCreditReturn (i : Nat) (s : State) : Host.Outcome State Fault Refusal := live s (wakeCredit i)

/-! ## Events, WAIT and END -/

/-- The engine holds a task. -/
def State.hasTask (s : State) (e : Nat) : Bool := (s.eng e).st == .run || (s.eng e).st == .wait

/-- TIMER_EXPIRE (R198): only while the domain is ON (R448). -/
def execTimerExpire (e : Fin 64) (s : State) : Host.Outcome State Fault Refusal :=
  live s (fun s =>
    let x := s.eng e.val
    if s.domOn (6 + e.val / 8) && s.hasTask e.val && x.tmr != 0 && timeLe x.tmr (s.engNow e.val) then setEvt e.val 3 s else s)

/-- WAIT may end (R135): an enabled event or FNRST. -/
def released (x : Eng) : Bool := (x.evt &&& x.emask) != 0 || natBit x.evt 5

/-- WAIT_RELEASE (R135). -/
def execWaitRelease (e : Fin 64) (s : State) : Host.Outcome State Fault Refusal :=
  live s (fun s =>
    let x := s.eng e.val
    if s.domOn (6 + e.val / 8) && x.st == .wait && !x.ending && released x then s.setEng e.val { x with st := .run } else s)

/-- NOP (R172). -/
def execNop (e : Fin 64) (s : State) : Host.Outcome State Fault Refusal := soref e .nop finish s

/-- WAIT (R135, R136): it ends at once, faults, or the engine waits. It clears the translation hold (R268). -/
def waitInsn (e : Nat) (s : State) : State :=
  let x := s.eng e
  if x.emask = 0 ∧ !natBit x.evt 5 then raiseFault e 8 0 0 s
  else if x.belay then raiseFault e 7 0 0 s
  else
    let s1 := finish e (s.setEng e { x with hold := false })
    if released x then s1 else s1.setEng e { s1.eng e with st := .wait }

/-- WAIT (R135). -/
def execWait (e : Fin 64) (s : State) : Host.Outcome State Fault Refusal := soref e .wait waitInsn s

/-- The task ends (R140, R202): its contexts go back, the QID returns with DOORBELL, held messages are discarded and
the engine becomes IDLE. The end of the INIT task sets INIT_DONE (R133). -/
def endTask (e : Nat) (s : State) : State :=
  let c := clOf e
  let db := natBit (s.eng e).evt 0
  let s1 := forL (s.owned e) (fun k s => s.setCtx k {}) s
  let s2 := discardHeld e (returnQid e db s1)
  let x := s2.eng e
  let s3 := s2.setEng e { x with
    st := .idle, ending := false, stall := .none, hold := false, icnt := min (x.icnt + 1) 0xFFFFFFFF,
    ctx := 0x3FF, ctxsts := 0, done := [] }
  if e % 8 = 0 ∧ (s3.clu c).initRun then
    (s3.setClu c { s3.clu c with initRun := false }).fset F.pclStsInitDone c 1
  else s3

/-- Every context that engine e owns has completed. -/
def State.drained (s : State) (e : Nat) : Bool := (s.owned e).all (fun k => (s.ctx k).done)

/-- END (R202). -/
def endInsn (e : Nat) (s : State) : State :=
  let x := s.eng e
  if s.semn e ≠ 0 ∨ x.belay then raiseFault e 0x0B 0 0 s
  else
    let s1 := s.setEng e { x with hold := false }
    if s1.drained e then endTask e s1 else s1.setEng e { s1.eng e with st := .wait, ending := true }

/-- END (R202). -/
def execEnd (e : Fin 64) (s : State) : Host.Outcome State Fault Refusal := soref e .end_ endInsn s

/-- END_CONTEXTS_DRAINED (R140). -/
def execEndContextsDrained (e : Fin 64) (s : State) : Host.Outcome State Fault Refusal :=
  live s (fun s => if (s.eng e.val).ending && s.drained e.val then endTask e.val s else s)

/-- FAULT_NOTICE_ARRIVE (R142): the notice of a cut names the engine by the TAG of the locked read. An engine in RUN
between two instructions, or in WAIT, takes it at once; a stalled one at the end of its instruction. The cluster's
record of the belay closes. -/
def faultNotice (e i : Nat) (s : State) : State :=
  match takeArrived (clNi e) i s with
  | none => s
  | some (p, s0) =>
    if p.cls = 3 ∧ p.ty = 0x33 ∧ p.addr % 16 = 0 ∧ p.tag / 16 % 8 = e % 8 ∧ !p.hdrBad then
      let s1 := closeRecord (clOf e) p.fn s0
      let x := s1.eng e
      let s2 := s1.setEng e { x with cutPend := some p.src }
      if x.stall == .none then checkCut e s2 else s2
    else s

/-- FAULT_NOTICE_ARRIVE (R142). -/
def execFaultNoticeArrive (e : Fin 64) (i : Nat) (s : State) : Host.Outcome State Fault Refusal :=
  live s (faultNotice e.val i)

/-! ## Unit messages (R223) -/

/-- A unit message for engine e at its cluster: it lands, waits in the hold behind earlier ones, or is discarded. -/
def engMessage (e : Nat) (p : Packet) (s : State) : State :=
  let c := clOf e
  let k := s.clu c
  if !s.hasTask e then dropMsg c p s
  else if s.slotOpen e && !k.hold.any (fun x => x.1 == e % 8) then landMsg e p s
  else if k.hold.length < 32 then s.setClu c { k with hold := k.hold ++ [(e % 8, p)] }
  else dropMsg c p s

/-- UNIT_MESSAGE_ARRIVE (R222, R223): a message for an engine of a cluster, or for the MGC. A cluster's NI discards a
message for a unit that is not its own. -/
def unitMessage (ni i : Nat) (s : State) : State :=
  match takeArrived ni i s with
  | none => s
  | some (p0, s0) =>
    if p0.cls = 1 ∧ p0.ty = 0x14 ∧ !p0.hdrBad then
      if ni = 42 then
        let (p, s1) := checkParity ni p0 s0
        s1.emit (.toMgc p)
      else if 10 ≤ ni ∧ ni < 18 ∧ p0.addr ≠ 0x40 + (ni - 10) then
        let (p, s1) := checkParity ni p0 s0
        if p.addr < 64 ∧ p.addr / 8 = ni - 10 then engMessage p.addr p s1 else dropMsg (ni - 10) p s1
      else s
    else s

/-- UNIT_MESSAGE_ARRIVE (R223). -/
def execUnitMessageArrive (ni : Fin 46) (i : Nat) (s : State) : Host.Outcome State Fault Refusal :=
  live s (unitMessage ni.val i)

/-- UNIT_MESSAGE_LAND_FROM_HOLD (R223). -/
def landFromHold (e : Nat) (s : State) : State :=
  let c := clOf e
  let k := s.clu c
  match k.hold.find? (fun x => x.1 == e % 8) with
  | none => s
  | some x =>
    if s.hasTask e && s.slotOpen e then
      landMsg e x.2 (s.setClu c { k with hold := dropAt k.hold (k.hold.findIdx (fun y => y.1 == e % 8)) })
    else s

/-- UNIT_MESSAGE_LAND_FROM_HOLD (R223). -/
def execUnitMessageLandFromHold (e : Fin 64) (s : State) : Host.Outcome State Fault Refusal :=
  live s (landFromHold e.val)

/-! ## Registers of a cluster (R150, R158) -/

/-- PCL_STS.STOPPED: RUN is 0 and no engine is in RUN or WAIT. -/
def State.stopped (s : State) (c : Nat) : Bool :=
  !s.flag F.pclCtlRun c && (List.range 8).all (fun k => !s.hasTask (8 * c + k))

/-- PCL_CTL.RUN takes 1 (R150): after a load INIT starts on engine 0, or waits for it. -/
def runStart (c : Nat) (s : State) : State :=
  if s.flag F.pclCtlRun c then s
  else
    let s1 := s.fset F.pclCtlRun c 1
    if (s1.clu c).loaded then
      if (s1.eng (8 * c)).st == .idle then startInit c s1
      else s1.setClu c { s1.clu c with initPend := true, loaded := false }
    else s1

/-- PCL_RUN_START (R150). -/
def execPclRunStart (w : Writer) (c : Fin 8) (s : State) : Host.Outcome State Fault Refusal :=
  live s (guarded w .pclCtl c.val 1 (runStart c.val))

/-- PCL_RUN_STOP (R150). -/
def execPclRunStop (w : Writer) (c : Fin 8) (s : State) : Host.Outcome State Fault Refusal :=
  live s (guarded w .pclCtl c.val 0 (fun s => s.fset F.pclCtlRun c.val 0))

/-- PCL_LIMITS_COMMIT (R158). -/
def execPclLimitsCommit (w : Writer) (c : Fin 8) (s : State) : Host.Outcome State Fault Refusal :=
  live s (guarded w .pclLimits c.val 0x80000000 (commitRws .pclLimits c.val 1))

/-- RESTART (R158): a HALTED engine becomes IDLE with s.fault cleared. -/
def restart (e : Nat) (s : State) : State :=
  let x := s.eng e
  if x.st == .halted then
    trace (clNi e) 1 4 0xFFFF (leBytes 1 e) false (s.setEng e { x with st := .idle, fault := 0 })
  else s

/-- ENGINE_RESTART (R158). -/
def execEngineRestart (w : Writer) (e : Fin 64) (s : State) : Host.Outcome State Fault Refusal :=
  live s (guarded w .pclEng e.val 0x20000000 (restart e.val))

/-- ENGINE_KICK (R134). -/
def execEngineKick (w : Writer) (e : Fin 64) (s : State) : Host.Outcome State Fault Refusal :=
  live s (guarded w .pclEng e.val 0x10000000 (setEvt e.val 4))

/-- A write of PCL_PS_DATA (R150, R158): while the cluster runs it is refused unless it carries the word's own value.
The word takes new check bits, and WORD advances. A store so written is a load, after which INIT is due. -/
def psWrite (p : Packet) (c : Nat) (v : BitVec 32) (s : State) : State :=
  let w := s.fget F.pclPsAddrWord c
  if !s.stopped c && s.psWord (psKey c w) != v then busyMgc p s
  else
    let s1 := ((s.setPsWord (psKey c w) v).setPsEccAt (psKey c w) 0).fset F.pclPsAddrWord c ((w + 1) % 131072)
    if s.stopped c then (s1.setClu c { s1.clu c with loaded := true }).fset F.pclStsInitDone c 0 else s1

/-- PS_DATA_WRITE (R158). -/
def execPsDataWrite (w : Writer) (c : Fin 8) (value : BitVec 32) (s : State) : Host.Outcome State Fault Refusal :=
  live s (guardedP w .pclPsData c.val (value.setWidth 64) (fun p => psWrite p c.val value))

/-- A read of PCL_PS_DATA (R147, R158): the word at WORD, corrected where possible; an uncorrectable one is recorded
and returned as stored. A physical function's read completes with UR. -/
def psRead (w : Writer) (c : Nat) (s : State) : State :=
  let a := s.fget F.pclPsAddrWord c
  match w with
  | .mgc =>
    let s1 := if s.psUe c a then psUeRecord c a s else psCorrect c a s
    s1.emit (.readValue w ((s1.psWord (psKey c a)).setWidth 64) false)
  | _ => s.emit (.readValue w 0 true)

/-- PS_DATA_READ (R158). -/
def execPsDataRead (w : Writer) (c : Fin 8) (s : State) : Host.Outcome State Fault Refusal :=
  live s (psRead w c.val)

end Sys2Proof.Machine
end

