-- ==== Sys2Proof/Machine/SorefCompute.lean ====
section
/-!
DEFINITION. The Soref instructions of arithmetic, control transfer and special registers (R181 to R188, R195 to
R201).
-/
namespace Sys2Proof.Machine

/-! ## Results -/

/-- The flags of engine e replaced. -/
def setFlags (e f : Nat) (s : State) : State := s.setEng e { s.eng e with flags := f }

/-- A one-word instruction writes a result and the flags (R181). -/
def resultF (rd : Fin 32) (r : Word) (f : Nat) (e : Nat) (s : State) : State :=
  finish e (setFlags e f (setGr e rd.val r s))

/-- An instruction that writes only flags. -/
def flagsOnly (f : Nat) (e : Nat) (s : State) : State := finish e (setFlags e f s)

/-- A one-word instruction writes a result and no flag. -/
def result (rd : Fin 32) (r : Word) (e : Nat) (s : State) : State := finish e (setGr e rd.val r s)

/-- The values of two source registers given to `f`. -/
def reg2 (ra rb : Fin 32) (f : Word → Word → Nat → State → State) (e : Nat) (s : State) : State :=
  f (s.gr e ra.val) (s.gr e rb.val) e s

/-- The value of one source register given to `f`. -/
def reg1 (ra : Fin 32) (f : Word → Nat → State → State) (e : Nat) (s : State) : State := f (s.gr e ra.val) e s

/-- The flags before the instruction. -/
def State.fl (s : State) (e : Nat) : Nat := (s.eng e).flags

/-! ## Arithmetic, logic and shifts (Table 8-1, R184, R185) -/

/-- ADD, ADDI: rd = a + b. -/
def addOp (rd : Fin 32) (a b : Word) : Nat → State → State := resultF rd (a + b) (flagsAdd a b)
/-- SUB: rd = a - b. -/
def subOp (rd : Fin 32) (a b : Word) : Nat → State → State := resultF rd (a - b) (flagsSub a b)
/-- A logic result. -/
def logicOp (rd : Fin 32) (r : Word) : Nat → State → State := resultF rd r (flagsLogic r)
/-- SLL. -/
def sllOp (rd : Fin 32) (a : Word) (n : Nat) (e : Nat) (s : State) : State :=
  resultF rd (a <<< n) (flagsShift (s.fl e) (a <<< n) (carrySll a n)) e s
/-- SRL. -/
def srlOp (rd : Fin 32) (a : Word) (n : Nat) (e : Nat) (s : State) : State :=
  resultF rd (a >>> n) (flagsShift (s.fl e) (a >>> n) (carrySrl a n)) e s
/-- SRA. -/
def sraOp (rd : Fin 32) (a : Word) (n : Nat) (e : Nat) (s : State) : State :=
  resultF rd (a.sshiftRight n) (flagsShift (s.fl e) (a.sshiftRight n) (carrySrl a n)) e s
/-- A result that sets Z and N and keeps C and V. -/
def znOp (rd : Fin 32) (r : Word) (e : Nat) (s : State) : State := resultF rd r (flagsZN (s.fl e) r) e s

/-- The shift amount of the register forms: b[5:0] (R184). -/
def shAmt (b : Word) : Nat := b.toNat % 64

/-- ADD (R183). -/
def execAdd (e : Fin 64) (rd ra rb : Fin 32) (s : State) : Host.Outcome State Fault Refusal :=
  soref e (.add rd ra rb) (reg2 ra rb (fun a b => addOp rd a b)) s
/-- SUB (R183). -/
def execSub (e : Fin 64) (rd ra rb : Fin 32) (s : State) : Host.Outcome State Fault Refusal :=
  soref e (.sub rd ra rb) (reg2 ra rb (fun a b => subOp rd a b)) s
/-- AND (R183). -/
def execAnd (e : Fin 64) (rd ra rb : Fin 32) (s : State) : Host.Outcome State Fault Refusal :=
  soref e (.and rd ra rb) (reg2 ra rb (fun a b => logicOp rd (a &&& b))) s
/-- OR (R183). -/
def execOr (e : Fin 64) (rd ra rb : Fin 32) (s : State) : Host.Outcome State Fault Refusal :=
  soref e (.or rd ra rb) (reg2 ra rb (fun a b => logicOp rd (a ||| b))) s
/-- XOR (R183). -/
def execXor (e : Fin 64) (rd ra rb : Fin 32) (s : State) : Host.Outcome State Fault Refusal :=
  soref e (.xor rd ra rb) (reg2 ra rb (fun a b => logicOp rd (a ^^^ b))) s
/-- ANDN (R183). -/
def execAndn (e : Fin 64) (rd ra rb : Fin 32) (s : State) : Host.Outcome State Fault Refusal :=
  soref e (.andn rd ra rb) (reg2 ra rb (fun a b => logicOp rd (a &&& ~~~b))) s
/-- CMP (R183). -/
def execCmp (e : Fin 64) (ra rb : Fin 32) (s : State) : Host.Outcome State Fault Refusal :=
  soref e (.cmp ra rb) (reg2 ra rb (fun a b => flagsOnly (flagsSub a b))) s
/-- TST (R183). -/
def execTst (e : Fin 64) (ra rb : Fin 32) (s : State) : Host.Outcome State Fault Refusal :=
  soref e (.tst ra rb) (reg2 ra rb (fun a b => flagsOnly (flagsLogic (a &&& b)))) s
/-- SLL (R184). -/
def execSll (e : Fin 64) (rd ra rb : Fin 32) (s : State) : Host.Outcome State Fault Refusal :=
  soref e (.sll rd ra rb) (reg2 ra rb (fun a b => sllOp rd a (shAmt b))) s
/-- SRL (R184). -/
def execSrl (e : Fin 64) (rd ra rb : Fin 32) (s : State) : Host.Outcome State Fault Refusal :=
  soref e (.srl rd ra rb) (reg2 ra rb (fun a b => srlOp rd a (shAmt b))) s
/-- SRA (R184). -/
def execSra (e : Fin 64) (rd ra rb : Fin 32) (s : State) : Host.Outcome State Fault Refusal :=
  soref e (.sra rd ra rb) (reg2 ra rb (fun a b => sraOp rd a (shAmt b))) s
/-- MUL (R185). -/
def execMul (e : Fin 64) (rd ra rb : Fin 32) (s : State) : Host.Outcome State Fault Refusal :=
  soref e (.mul rd ra rb) (reg2 ra rb (fun a b => znOp rd (a * b))) s
/-- MULHU (R185). -/
def execMulhu (e : Fin 64) (rd ra rb : Fin 32) (s : State) : Host.Outcome State Fault Refusal :=
  soref e (.mulhu rd ra rb) (reg2 ra rb (fun a b => znOp rd (BitVec.ofNat 64 (a.toNat * b.toNat / 2 ^ 64)))) s
/-- CLZ (R185): N is always cleared, and Z sets when bit 63 of a is 1, as they do for the value written. -/
def execClz (e : Fin 64) (rd ra : Fin 32) (s : State) : Host.Outcome State Fault Refusal :=
  soref e (.clz rd ra) (reg1 ra (fun a => znOp rd (BitVec.ofNat 64 (clzOf a)))) s
/-- ADDI (R183). -/
def execAddi (e : Fin 64) (rd ra : Fin 32) (imm : BitVec 12) (s : State) : Host.Outcome State Fault Refusal :=
  soref e (.addi rd ra imm) (reg1 ra (fun a => addOp rd a (immS imm))) s
/-- ANDI (R183). -/
def execAndi (e : Fin 64) (rd ra : Fin 32) (imm : BitVec 12) (s : State) : Host.Outcome State Fault Refusal :=
  soref e (.andi rd ra imm) (reg1 ra (fun a => logicOp rd (a &&& immZ imm))) s
/-- ORI (R183). -/
def execOri (e : Fin 64) (rd ra : Fin 32) (imm : BitVec 12) (s : State) : Host.Outcome State Fault Refusal :=
  soref e (.ori rd ra imm) (reg1 ra (fun a => logicOp rd (a ||| immZ imm))) s
/-- XORI (R183). -/
def execXori (e : Fin 64) (rd ra : Fin 32) (imm : BitVec 12) (s : State) : Host.Outcome State Fault Refusal :=
  soref e (.xori rd ra imm) (reg1 ra (fun a => logicOp rd (a ^^^ immZ imm))) s
/-- SLLI (R184). -/
def execSlli (e : Fin 64) (rd ra : Fin 32) (n : BitVec 6) (s : State) : Host.Outcome State Fault Refusal :=
  soref e (.slli rd ra n) (reg1 ra (fun a => sllOp rd a n.toNat)) s
/-- SRLI (R184). -/
def execSrli (e : Fin 64) (rd ra : Fin 32) (n : BitVec 6) (s : State) : Host.Outcome State Fault Refusal :=
  soref e (.srli rd ra n) (reg1 ra (fun a => srlOp rd a n.toNat)) s
/-- SRAI (R184). -/
def execSrai (e : Fin 64) (rd ra : Fin 32) (n : BitVec 6) (s : State) : Host.Outcome State Fault Refusal :=
  soref e (.srai rd ra n) (reg1 ra (fun a => sraOp rd a n.toNat)) s
/-- CMPI (R183). -/
def execCmpi (e : Fin 64) (ra : Fin 32) (imm : BitVec 12) (s : State) : Host.Outcome State Fault Refusal :=
  soref e (.cmpi ra imm) (reg1 ra (fun a => flagsOnly (flagsSub a (immS imm)))) s
/-- TSTI (R183). -/
def execTsti (e : Fin 64) (ra : Fin 32) (imm : BitVec 12) (s : State) : Host.Outcome State Fault Refusal :=
  soref e (.tsti ra imm) (reg1 ra (fun a => flagsOnly (flagsLogic (a &&& immZ imm)))) s

/-! ## Long immediates (R186) -/

/-- LI. -/
def liOp (rd : Fin 32) (v : Word) (e : Nat) (s : State) : State := finishL e (setGr e rd.val v s)
/-- ADDL. -/
def addlOp (rd : Fin 32) (v a : Word) (e : Nat) (s : State) : State :=
  finishL e (setFlags e (flagsAdd a v) (setGr e rd.val (a + v) s))
/-- CMPL. -/
def cmplOp (v a : Word) (e : Nat) (s : State) : State := finishL e (setFlags e (flagsSub a v) s)
/-- ORH. -/
def orhOp (rd : Fin 32) (imm : BitVec 32) (a : Word) (e : Nat) (s : State) : State :=
  finishL e (setGr e rd.val (a ||| (imm.zeroExtend 64 <<< 32)) s)

/-- LI (R186). -/
def execLi (e : Fin 64) (rd : Fin 32) (imm : BitVec 44) (s : State) : Host.Outcome State Fault Refusal :=
  soref e (.li rd imm) (liOp rd (immL imm)) s
/-- ADDL (R186). -/
def execAddl (e : Fin 64) (rd ra : Fin 32) (imm : BitVec 44) (s : State) : Host.Outcome State Fault Refusal :=
  soref e (.addl rd ra imm) (reg1 ra (addlOp rd (immL imm))) s
/-- ORH (R186). -/
def execOrh (e : Fin 64) (rd ra : Fin 32) (imm : BitVec 32) (s : State) : Host.Outcome State Fault Refusal :=
  soref e (.orh rd ra imm) (reg1 ra (orhOp rd imm)) s
/-- CMPL (R186). -/
def execCmpl (e : Fin 64) (ra : Fin 32) (imm : BitVec 44) (s : State) : Host.Outcome State Fault Refusal :=
  soref e (.cmpl ra imm) (reg1 ra (cmplOp (immL imm))) s

/-! ## Control transfer (R176, R187, R188) -/

/-- The return address goes onto the return stack; 16 entries are the most it holds. -/
def pushPc (e : Nat) (s : State) : State :=
  let x := s.eng e
  s.setEng e { x with stack := (x.pc + 1) % 2 ^ 17 :: x.stack }

/-- A jump to a word address, as a call or not: RANGE, then RSTACK (R187, R188). -/
def jumpTo (call : Bool) (t : Int) (e : Nat) (s : State) : State :=
  if t < 0 ∨ 131072 ≤ t then raiseFault e 4 0 0 s
  else if call && decide (16 ≤ (s.eng e).stack.length) then raiseFault e 6 0 0 s
  else finishAt e t.toNat (when call (pushPc e) s)

/-- B and CALL: the target is s.pc + OFF if the condition holds. -/
def branchOp (call : Bool) (c : Cond) (off : BitVec 20) (e : Nat) (s : State) : State :=
  if condHolds c (s.fl e) then jumpTo call ((s.eng e).pc + off.toInt) e s else finish e s

/-- RET. -/
def retOp (e : Nat) (s : State) : State :=
  let x := s.eng e
  match x.stack with
  | [] => raiseFault e 6 0 0 s
  | t :: rest => finishAt e t (s.setEng e { x with stack := rest })

/-- B.cc (R187). -/
def execBCc (e : Fin 64) (cond : Cond) (off : BitVec 20) (s : State) : Host.Outcome State Fault Refusal :=
  soref e (.bCc cond off) (branchOp false cond off) s
/-- CALL.cc (R187). -/
def execCallCc (e : Fin 64) (cond : Cond) (off : BitVec 20) (s : State) : Host.Outcome State Fault Refusal :=
  soref e (.callCc cond off) (branchOp true cond off) s
/-- JR (R188). -/
def execJr (e : Fin 64) (ra : Fin 32) (s : State) : Host.Outcome State Fault Refusal :=
  soref e (.jr ra) (reg1 ra (fun a => jumpTo false a.toNat)) s
/-- CALLR (R188). -/
def execCallr (e : Fin 64) (ra : Fin 32) (s : State) : Host.Outcome State Fault Refusal :=
  soref e (.callr ra) (reg1 ra (fun a => jumpTo true a.toNat)) s
/-- RET (R188). -/
def execRet (e : Fin 64) (s : State) : Host.Outcome State Fault Refusal := soref e .ret retOp s

/-! ## Special registers (Table 6-2, R195 to R197) -/

/-- The value of special register n; a reserved number reads as zero. -/
def State.sreg (s : State) (e n : Nat) : Word :=
  let x := s.eng e
  match n with
  | 0x00 => BitVec.ofNat 64 x.fn
  | 0x01 => BitVec.ofNat 64 x.qid
  | 0x02 => BitVec.ofNat 64 e
  | 0x03 => x.stamp
  | 0x04 => BitVec.ofNat 64 (s.engNow e)
  | 0x05 => BitVec.ofNat 64 x.evt
  | 0x06 => BitVec.ofNat 64 x.emask
  | 0x07 => BitVec.ofNat 64 x.tmr
  | 0x08 => BitVec.ofNat 64 x.flags
  | 0x09 => BitVec.ofNat 64 x.pc
  | 0x0A => BitVec.ofNat 64 x.fault
  | 0x0B => BitVec.ofNat 64 x.fpc
  | 0x0C => BitVec.ofNat 64 x.ctx
  | 0x0D => BitVec.ofNat 64 x.ctxsts
  | 0x0E => BitVec.ofNat 64 (s.ctxn e)
  | 0x0F => BitVec.ofNat 64 (s.semn e)
  | 0x10 => BitVec.ofNat 64 (s.semhi e)
  | 0x11 => BitVec.ofNat 64 (b2n x.belay)
  | 0x12 => BitVec.ofNat 64 x.icnt
  | 0x13 => BitVec.ofNat 64 x.stack.length
  | 0x14 => BitVec.ofNat 64 (s.clu (clOf e)).image
  | _ => 0

/-- The RW special registers, with s.evt left out (Table 6-2). -/
def sregRw (n : Nat) : Bool := n == 0x00 || n == 0x06 || n == 0x07 || n == 0x08 || n == 0x0A

/-- An RW special register takes the low bits of a value (R196). -/
def putSreg (e n : Nat) (v : Word) (s : State) : State :=
  let x := s.eng e
  match n with
  | 0x00 => s.setEng e { x with fn := v.toNat % 2 ^ 11 }
  | 0x06 => s.setEng e { x with emask := v.toNat % 2 ^ 16 }
  | 0x07 => s.setEng e { x with tmr := v.toNat % 2 ^ 48 }
  | 0x08 => s.setEng e { x with flags := v.toNat % 2 ^ 4 }
  | 0x0A => s.setEng e { x with fault := v.toNat % 2 ^ 8 }
  | _ => s

/-- s.evt with each bit written as 1 cleared (R124, R196). -/
def clearEvt (e : Nat) (v : Word) (s : State) : State :=
  let x := s.eng e
  s.setEng e { x with evt := x.evt &&& (0xFFFF - v.toNat % 2 ^ 16) }

/-- SRD. -/
def srdOp (rd : Fin 32) (n : Nat) (e : Nat) (s : State) : State := finish e (setGr e rd.val (s.sreg e n) s)

/-- SWR: an RO register or a reserved number raises PRIV. -/
def swrOp (n : Nat) (a : Word) (e : Nat) (s : State) : State :=
  if n = 0x05 then finish e (clearEvt e a s)
  else if sregRw n then finish e (putSreg e n a s)
  else raiseFault e 0x0E 0 0 s

/-- SBIS and SBIC: `f` gives the new value from the old one and a; s.evt, an RO register and a reserved number raise
PRIV (R174, R197). -/
def sbiOp (f : Word → Word → Word) (n : Nat) (a : Word) (e : Nat) (s : State) : State :=
  if sregRw n then finish e (putSreg e n (f (s.sreg e n) a) s) else raiseFault e 0x0E 0 0 s

/-- SRD (R195). -/
def execSrd (e : Fin 64) (rd : Fin 32) (sreg : BitVec 8) (s : State) : Host.Outcome State Fault Refusal :=
  soref e (.srd rd sreg) (srdOp rd sreg.toNat) s
/-- SWR (R196). -/
def execSwr (e : Fin 64) (ra : Fin 32) (sreg : BitVec 8) (s : State) : Host.Outcome State Fault Refusal :=
  soref e (.swr ra sreg) (reg1 ra (swrOp sreg.toNat)) s
/-- SBIS (R197). -/
def execSbis (e : Fin 64) (ra : Fin 32) (sreg : BitVec 8) (s : State) : Host.Outcome State Fault Refusal :=
  soref e (.sbis ra sreg) (reg1 ra (sbiOp (fun old a => old ||| a) sreg.toNat)) s
/-- SBIC (R197). -/
def execSbic (e : Fin 64) (ra : Fin 32) (sreg : BitVec 8) (s : State) : Host.Outcome State Fault Refusal :=
  soref e (.sbic ra sreg) (reg1 ra (sbiOp (fun old a => old &&& ~~~a) sreg.toNat)) s

/-! ## Time (R200, R201) -/

/-- The low 48 bits of a register as a TIME. -/
def timeOf (a : Word) : Nat := a.toNat % 2 ^ 48

/-- TDIFF: the elapsed time from b to a, signed. -/
def tdiffOp (rd : Fin 32) (a b : Word) : Nat → State → State := znOp rd (sext64 48 (timeDiff (timeOf b) (timeOf a)))

/-- TCMP: Z when the TIMEs are equal, N when a is before b; C and V are unchanged. -/
def tcmpOp (a b : Word) (e : Nat) (s : State) : State :=
  flagsOnly (flagBits (timeBefore (timeOf a) (timeOf b)) (timeOf a == timeOf b) (flagC (s.fl e)) (flagV (s.fl e))) e s

/-- TDIFF (R200). -/
def execTdiff (e : Fin 64) (rd ra rb : Fin 32) (s : State) : Host.Outcome State Fault Refusal :=
  soref e (.tdiff rd ra rb) (reg2 ra rb (tdiffOp rd)) s
/-- TCMP (R201). -/
def execTcmp (e : Fin 64) (ra rb : Fin 32) (s : State) : Host.Outcome State Fault Refusal :=
  soref e (.tcmp ra rb) (reg2 ra rb tcmpOp) s

end Sys2Proof.Machine
end

