-- ==== Sys2Proof/Machine/SorefMemory.lean ====
section
/-!
DEFINITION. The Soref loads, stores and staging atomics (R125 to R128, R189 to R194).
-/
namespace Sys2Proof.Machine

/-- All ones: what a load refused under a reset fence writes (R137). -/
def allOnes : Word := BitVec.allOnes 64

/-- A request of `n` bytes at `a` of a space: the enables name every byte (R77). -/
def Packet.span (p : Packet) (asp a n : Nat) : Packet :=
  { p with asp := asp, addr := a, len := n, fbe := fbeFor a n, lbe := lbeFor a n }

/-- The checks of an access of `n` bytes at `a` in a space of `size` bytes: RANGE, then ALIGN (R175). -/
def rangeAlign (size a n : Nat) (e : Nat) (ok : State → State) (s : State) : State :=
  if size < a + n then raiseFault e 4 a 0 s
  else if a % n ≠ 0 then raiseFault e 3 a 0 s
  else ok s

/-- The checks of a control access: PRIV, SPACE, RANGE, ALIGN (R126, R171, R189). -/
def ctlChecks (store wide : Bool) (a n : Nat) (e : Nat) (ok : State → State) (s : State) : State :=
  if a < 0x2000000 ∧ !progReach store a then raiseFault e 0x0E a 0 s
  else if !wide then raiseFault e 5 a 0 s
  else rangeAlign 0x2000000 a n e ok s

/-! ## Scratch (R190, R223) -/

/-- LDX: a poisoned word raises POISON (R127, R408). -/
def ldxOp (w : LdWidth) (rd : Fin 32) (a : Nat) (e : Nat) (s : State) : State :=
  rangeAlign 0x10000 a (ldBytes w) e (fun s =>
    if s.scrPoisoned e a (ldBytes w) then raiseFault e 0x0D a 0 s
    else finish e (setGr e rd.val (ldExt w (leNat (s.scrBytes e a (ldBytes w)))) s)) s

/-- A store of zero to the VALID byte of a slot frees it (R223). -/
def freeSlots (e a : Nat) (data : List Byte) (s : State) : State :=
  forN 3 (fun k s =>
    let v := 0xFE44 + 64 * k
    if a ≤ v ∧ v < a + data.length ∧ data.getD (v - a) 1 = 0 then
      s.setEng e { s.eng e with slots := (s.eng e).slots.set k true }
    else s) s

/-- STX. -/
def stxOp (w : StWidth) (v : Word) (a : Nat) (e : Nat) (s : State) : State :=
  rangeAlign 0x10000 a (stBytes w) e (fun s =>
    let data := leBytes (stBytes w) v.toNat
    finish e (freeSlots e a data (scrWrite e a data false s))) s

/-! ## Staging and control space (R191, R192) -/

/-- A load that stalls for its reply; under the reset fence of s.fn it writes all ones (R137). -/
def loadFrom (w : LdWidth) (rd : Fin 32) (asp dst a : Nat) (e : Nat) (s : State) : State :=
  if s.fencedAt e (s.eng e).fn then finish e (setGr e rd.val allOnes s)
  else block e (.load rd.val w) ((s.engPkt e 0 0x00 dst).span asp a (ldBytes w)) s

/-- A posted store; under the reset fence of s.fn it has no effect (R137). -/
def storeTo (w : StWidth) (v : Word) (asp dst a : Nat) (e : Nat) (s : State) : State :=
  if s.fencedAt e (s.eng e).fn then finish e s
  else post e { (s.engPkt e 1 0x10 dst).span asp a (stBytes w) with data := leBytes (stBytes w) v.toNat } s

/-- Whether a width reaches control space: .W, .SW and .D of a load. -/
def ldWide : LdWidth → Bool
  | .w | .sw | .d => true
  | _ => false

/-- Whether a store's width reaches control space: .W and .D. -/
def stWide : StWidth → Bool
  | .w | .d => true
  | _ => false

/-- LDG. -/
def ldgOp (w : LdWidth) (rd : Fin 32) (a : Nat) (e : Nat) (s : State) : State :=
  rangeAlign 0x4000000 a (ldBytes w) e (loadFrom w rd 3 (bankNi a) a e) s
/-- LDC. -/
def ldcOp (w : LdWidth) (rd : Fin 32) (a : Nat) (e : Nat) (s : State) : State :=
  ctlChecks false (ldWide w) a (ldBytes w) e (loadFrom w rd 4 (ownerNi a) a e) s
/-- STG. -/
def stgOp (w : StWidth) (v : Word) (a : Nat) (e : Nat) (s : State) : State :=
  rangeAlign 0x4000000 a (stBytes w) e (storeTo w v 3 (bankNi a) a e) s
/-- STC. -/
def stcOp (w : StWidth) (v : Word) (a : Nat) (e : Nat) (s : State) : State :=
  ctlChecks true (stWide w) a (stBytes w) e (storeTo w v 4 (ownerNi a) a e) s

/-- The address a + IMM given to an operation. -/
def withAddr (ra : Fin 32) (imm : BitVec 12) (f : Nat → Nat → State → State) (e : Nat) (s : State) : State :=
  f (s.memAddr e ra.val imm) e s

/-- The register in RS and the address a + IMM given to an operation. -/
def withStore (rs ra : Fin 32) (imm : BitVec 12) (f : Word → Nat → Nat → State → State) (e : Nat) (s : State) : State :=
  f (s.gr e rs.val) (s.memAddr e ra.val imm) e s

/-- LDX (R190). -/
def execLdx (e : Fin 64) (w : LdWidth) (rd ra : Fin 32) (imm : BitVec 12) (s : State) :
    Host.Outcome State Fault Refusal := soref e (.ldx w rd ra imm) (withAddr ra imm (ldxOp w rd)) s
/-- LDG (R191). -/
def execLdg (e : Fin 64) (w : LdWidth) (rd ra : Fin 32) (imm : BitVec 12) (s : State) :
    Host.Outcome State Fault Refusal := soref e (.ldg w rd ra imm) (withAddr ra imm (ldgOp w rd)) s
/-- LDC (R192). -/
def execLdc (e : Fin 64) (w : LdWidth) (rd ra : Fin 32) (imm : BitVec 12) (s : State) :
    Host.Outcome State Fault Refusal := soref e (.ldc w rd ra imm) (withAddr ra imm (ldcOp w rd)) s
/-- STX (R190). -/
def execStx (e : Fin 64) (w : StWidth) (rs ra : Fin 32) (imm : BitVec 12) (s : State) :
    Host.Outcome State Fault Refusal := soref e (.stx w rs ra imm) (withStore rs ra imm (stxOp w)) s
/-- STG (R191). -/
def execStg (e : Fin 64) (w : StWidth) (rs ra : Fin 32) (imm : BitVec 12) (s : State) :
    Host.Outcome State Fault Refusal := soref e (.stg w rs ra imm) (withStore rs ra imm (stgOp w)) s
/-- STC (R192). -/
def execStc (e : Fin 64) (w : StWidth) (rs ra : Fin 32) (imm : BitVec 12) (s : State) :
    Host.Outcome State Fault Refusal := soref e (.stc w rs ra imm) (withStore rs ra imm (stcOp w)) s

/-! ## Staging atomics (R194) -/

/-- The bytes of an atomic. -/
def atomBytes (d : Bool) : Nat := if d then 8 else 4

/-- An atomic of TYPE `ty` at address `a`: the bank does the whole operation, and the engine stalls for the old value.
`vals` are its operands, the compare value of CAS first. -/
def atomOp (ty : Nat) (d : Bool) (rd : Fin 32) (a : Nat) (vals : List Word) (e : Nat) (s : State) : State :=
  let n := atomBytes d
  rangeAlign 0x4000000 a n e (fun s =>
    if s.fencedAt e (s.eng e).fn then finish e (setGr e rd.val allOnes s)
    else
      block e (.atomic rd.val d)
        { (s.engPkt e 0 ty (bankNi a)).span 3 a n with data := vals.flatMap (fun v => leBytes n v.toNat) } s) s

/-- FADD (R194). -/
def execFadd (e : Fin 64) (d : Bool) (rd ra rb : Fin 32) (s : State) : Host.Outcome State Fault Refusal :=
  soref e (.fadd d rd ra rb) (reg2 ra rb (fun a b => atomOp 1 d rd a.toNat [b])) s
/-- SWP (R194). -/
def execSwp (e : Fin 64) (d : Bool) (rd ra rb : Fin 32) (s : State) : Host.Outcome State Fault Refusal :=
  soref e (.swp d rd ra rb) (reg2 ra rb (fun a b => atomOp 2 d rd a.toNat [b])) s
/-- CAS (R194): RD holds the compare value on entry. -/
def execCas (e : Fin 64) (d : Bool) (rd ra rb : Fin 32) (s : State) : Host.Outcome State Fault Refusal :=
  soref e (.cas d rd ra rb) (reg2 ra rb (fun a b => reg1 rd (fun old => atomOp 3 d rd a.toNat [old, b]))) s

end Sys2Proof.Machine
end

