-- ==== Sys2Proof/Machine/Mover.lean ====
section
/-!
DEFINITION. The movers (R205 to R212): transfer contexts, their reads and writes, and their completion. A context's
key is 512c + k.
-/
namespace Sys2Proof.Machine

/-! ## Contexts -/

/-- The tag of a context's write packets, so that their allowance returns name it. -/
def ctxTag (key : Nat) : Nat := 0x2000 + key % 512

/-- Landing blocks that a context holds: one for each read on its way, and one for each block not yet handed on
(R208). -/
def Ctx.blocks (x : Ctx) : Nat := x.reads.length + x.got.length

/-- The contexts of cluster c in use. -/
def State.ctxsOf (s : State) (c : Nat) : List (Nat × Ctx) :=
  s.pcl.ctxs.filter (fun x => x.1 / 512 == c && x.2.used)

/-- MV_STS.BLOCKS. -/
def State.blocksIn (s : State) (c : Nat) : Nat := ((s.ctxsOf c).map (fun x => x.2.blocks)).sum

/-- The lowest free context of cluster c. -/
def State.freeCtx (s : State) (c : Nat) : Option Nat :=
  ((List.range 512).map (fun k => 512 * c + k)).find? (fun k => !(s.ctx k).used)

/-- The address of a context's source at an offset, and of its destination. -/
def Ctx.srcAt (x : Ctx) (off : Nat) : Nat := (if x.sasp = 2 then xwLaddr x.sxlt else x.saddr) + off
def Ctx.dstAt (x : Ctx) (off : Nat) : Nat := (if x.dasp = 2 then xwLaddr x.dxlt else x.daddr) + off

/-- The NI of one side at an address. -/
def State.sideNi (s : State) (asp addr : Nat) (xlt : Word) : Nat :=
  if asp = 2 then s.portNi (xwPort xlt) else if asp = 3 then bankNi addr else asp

/-- Bytes of the next source read: at most 512, within a 512-byte boundary of the source address (R208). -/
def Ctx.readLen (x : Ctx) : Nat := min (512 - x.srcAt x.rdOff % 512) (x.len - x.rdOff)

/-- Bytes of the next write: at most 4,096 within a 4 KiB boundary of the destination address (R209), 64 to scratch
(R207). -/
def Ctx.writeLen (x : Ctx) : Nat :=
  let unit := if x.dasp = 5 then 64 else 4096
  min (unit - x.dstAt x.wrOff % unit) (x.len - x.wrOff)

/-- The byte of the re-packing buffer at an offset of the transfer, with its poison. -/
def byteIn (got : List (Nat × List Byte × Bool)) (off : Nat) : Option (Byte × Bool) :=
  match got.find? (fun g => decide (g.1 ≤ off) && decide (off < g.1 + g.2.1.length)) with
  | none => none
  | some g => some (g.2.1.getD (off - g.1) 0, g.2.2)

/-- The bytes [off, off + n) when all of them lie in the buffer. -/
def bytesIn (got : List (Nat × List Byte × Bool)) (off n : Nat) : Option (List (Byte × Bool)) :=
  ((List.range n).map (fun i => byteIn got (off + i))).foldr (fun b acc => match b, acc with
    | some x, some l => some (x :: l)
    | _, _ => none) (some [])

/-- Blocks whose last byte lies before `off` are free. -/
def dropBlocks (got : List (Nat × List Byte × Bool)) (off : Nat) : List (Nat × List Byte × Bool) :=
  got.filter (fun g => decide (off < g.1 + g.2.1.length))

/-- A context has sent its last write packet: all of them, or after a failure all those whose bytes it held. -/
def Ctx.writesSent (x : Ctx) : Bool :=
  if x.fail = 0 then x.wrOff == x.len else x.reads.isEmpty && x.got.isEmpty

/-- The mover's packets wait at its egress on the input of their QC: requester index 8 + QC (Table 5-2). -/
def moverSend (c : Nat) (p : Packet) (s : State) : State :=
  request (20 + c) (8 + p.qc) { p with eng := 8 + p.qc } s

/-- A packet of a context, with its function and attributes (R209). -/
def State.ctxPkt (s : State) (key : Nat) (x : Ctx) (cls ty dst : Nat) : Packet :=
  { s.mkPkt cls ty (10 + key / 512) dst x.fn with tag := ctxTag key, ido := x.ido, ns := x.ns, ro := x.ro }

/-- A packet of a context still waits at the egress: it has not been handed to the NI. -/
def State.atEgress (s : State) (key : Nat) : Bool :=
  let b := s.arbiter (20 + key / 512)
  let mine := fun (p : Packet) => p.cls == 1 && p.tag == ctxTag key
  b.waiting.any (fun w => mine w.2)
    || b.slots.any (fun x => match x.2 with | none => false | some r => mine r.pkt)
    || (match b.grant with | none => false | some g => mine g.pkt)

/-- Once its writes are sent, the mover asks each staging bank that a context wrote (R210). -/
def askBanks (key : Nat) (s : State) : State :=
  let x := s.ctx key
  if x.used && x.writesSent && !x.banks.isEmpty then
    forL x.banks (fun b s =>
      moverSend (key / 512) { s.ctxPkt key x 0 0x00 b with tag := 0x3000 + key % 512, asp := 3, ro := false, ido := false } s)
      (s.setCtx key { x with banks := [], bankAcks := x.bankAcks ++ x.banks })
  else s

/-! ## Reads (R207, R208) -/

/-- A landing block's tag that no read of the cluster uses. -/
def State.readTag (s : State) (c : Nat) : Nat :=
  let used := (s.ctxsOf c).flatMap (fun x => x.2.reads.map (·.tag))
  (((List.range 512).map (· + 4096)).find? (fun t => !used.contains t)).getD 4096

/-- MOVER_READ_ISSUE (R207, R208). -/
def readIssue (key : Nat) (s : State) : State :=
  let c := key / 512
  let x := s.ctx key
  if x.used && !x.done && x.fail == 0 && !x.stopped && decide (x.rdOff < x.len) && decide (x.blocks < 128)
      && decide (s.blocksIn c < 512) then
    let n := x.readLen
    let a := x.srcAt x.rdOff
    if x.sasp = 5 then
      s.setCtx key { x with
        rdOff := x.rdOff + n
        got := x.got ++ [(x.rdOff, s.scrBytes x.eng a n, s.scrPoisoned x.eng a n)] }
    else
      let t := s.readTag c
      let p := { (s.ctxPkt key x 0 0x00 (s.sideNi x.sasp a x.sxlt)).span x.sasp a n with
        tag := t, xv := if x.sasp = 2 then xwXv x.sxlt else 0, swap := if x.sasp = 2 then xwSwap x.sxlt else 0 }
      moverSend c p (s.setCtx key { x with
        rdOff := x.rdOff + n, reads := x.reads ++ [{ tag := t, off := x.rdOff, len := n }] })
  else s

/-- MOVER_READ_ISSUE (R208). -/
def execMoverReadIssue (c : Fin 8) (k : Fin 512) (s : State) : Host.Outcome State Fault Refusal :=
  live s (readIssue (512 * c.val + k.val))

/-- The status code of a read response (Table 9-4): XV marks an answer that a port or NI gave in the block's own name,
3 a timeout, 5 a fence, 6 a flush; a success without every byte counts as CA. -/
def readStatus (p : Packet) (len : Nat) : Nat :=
  if p.csts = 0 then (if p.data.length = len then 0 else 2)
  else if p.xv = 3 ∨ p.xv = 5 ∨ p.xv = 6 then p.xv
  else if p.csts = 1 then 1
  else 2

/-- MOVER_READ_COMPLETE (R210, R211): a source read's answer lands in the buffer, or gives the context its first
failure; a bank's answer to a read of LEN 0 counts whatever its status. -/
def readComplete (c i : Nat) (s : State) : State :=
  match takeArrived (10 + c) i s with
  | none => s
  | some (p0, s0) =>
    if p0.cls ≠ 2 ∨ p0.hdrBad then s
    else if 0x3000 ≤ p0.tag ∧ p0.tag < 0x3200 then
      let key := 512 * c + (p0.tag - 0x3000)
      let x := s0.ctx key
      if x.bankAcks.contains p0.src then s0.setCtx key { x with bankAcks := x.bankAcks.erase p0.src } else s
    else
      match (s0.ctxsOf c).find? (fun y => y.2.reads.any (fun r => r.tag == p0.tag)) with
      | none => s
      | some (key, x) =>
        match x.reads.find? (fun r => r.tag == p0.tag) with
        | none => s
        | some r =>
          let (p, s1) := checkParity (10 + c) p0 s0
          let left := x.reads.filter (fun q => q.tag != r.tag)
          let st := readStatus p r.len
          if st ≠ 0 then
            askBanks key (s1.setCtx key { x with reads := left, fail := if x.fail = 0 then st else x.fail })
          else if x.stopped then s1.setCtx key { x with reads := left }
          else askBanks key (s1.setCtx key { x with reads := left, got := x.got ++ [(r.off, p.data, p.ep)] })

/-- MOVER_READ_COMPLETE (R211). -/
def execMoverReadComplete (c : Fin 8) (i : Nat) (s : State) : Host.Outcome State Fault Refusal :=
  live s (readComplete c.val i)

/-! ## Writes (R207, R209) -/

/-- MOVER_WRITE_SEND (R209, R211): the next write packet in address order, once its bytes lie in the buffer; after a
failure a packet that lacks bytes no read can still bring is passed over. -/
def writeSend (key : Nat) (s : State) : State :=
  let c := key / 512
  let x := s.ctx key
  if !x.used || x.done || x.stopped || decide (x.len ≤ x.wrOff) then s
  else
    let n := x.writeLen
    let a := x.dstAt x.wrOff
    match bytesIn x.got x.wrOff n with
    | none =>
      if x.fail ≠ 0 ∧ x.reads.isEmpty ∧ !x.got.isEmpty then
        askBanks key (s.setCtx key { x with wrOff := x.wrOff + n, got := dropBlocks x.got (x.wrOff + n) })
      else s
    | some bs =>
      let data := bs.map (·.1)
      let ep := bs.any (·.2)
      let x1 := { x with
        wrOff := x.wrOff + n, got := dropBlocks x.got (x.wrOff + n), poisoned := x.poisoned || ep }
      if x.dasp = 5 then scrWrite x.eng a data ep (s.setCtx key x1)
      else
        let dst := s.sideNi x.dasp a x.dxlt
        let p := { (s.ctxPkt key x 1 0x10 dst).span x.dasp a n with
          data := data, ep := ep, uo := x.uo
          xv := if x.dasp = 2 then xwXv x.dxlt else 0, swap := if x.dasp = 2 then xwSwap x.dxlt else 0 }
        let x2 := if x.dasp = 3 then
            { x1 with banks := if x1.banks.contains dst then x1.banks else x1.banks ++ [dst] }
          else { x1 with unreleased := x1.unreleased + 1 }
        askBanks key (moverSend c p (notePosted x.eng dst (s.setCtx key x2)))

/-- MOVER_WRITE_SEND (R209). -/
def execMoverWriteSend (c : Fin 8) (k : Fin 512) (s : State) : Host.Outcome State Fault Refusal :=
  live s (writeSend (512 * c.val + k.val))

/-- An allowance return for a context's write packet reaches its mover (R210, R211): EP makes the context POISONED,
a packet discarded at a flush of its port makes it PORT. -/
def ctxReleased (key : Nat) (ep discard : Bool) (s : State) : State :=
  let x := s.ctx key
  if x.used && !x.done then
    s.setCtx key { x with
      unreleased := x.unreleased - 1, poisoned := x.poisoned || ep,
      fail := if discard ∧ x.fail = 0 then 6 else x.fail }
  else s

/-! ## Completion (R210, R211) -/

/-- Whether a context may complete now. -/
def State.ctxReady (s : State) (key : Nat) : Bool :=
  let x := s.ctx key
  x.used && !x.done && x.reads.isEmpty && x.writesSent && x.banks.isEmpty && x.bankAcks.isEmpty
    && x.unreleased == 0 && !s.atEgress key

/-- The status of a context that completes (Table 9-4). -/
def Ctx.status (x : Ctx) : Nat := if x.fail ≠ 0 then x.fail else if x.poisoned then 4 else 0

/-- What a failed transfer leaves in its destination range is undefined (R211): free bytes, where the range lies in
staging memory or scratch. -/
def undefRange (x : Ctx) (s : State) : State :=
  if x.status = 0 ∨ x.status = 4 then s
  else
    let (n, s1) := takeFree s
    let b := fun i => BitVec.ofNat 8 ((Config.freeWord n).toNat / 256 ^ (i % 8))
    if x.dasp = 3 then forN x.len (fun i s => s.setByte (x.daddr + i) (b i)) s1
    else if x.dasp = 5 then forN x.len (fun i s => s.setScrByte (65536 * x.eng + (x.daddr + i) % 65536) (b i)) s1
    else s

/-- A completed context joins its engine's list: s.ctx and s.ctxsts take it when they are free, and XFER sets. A
halted engine's context goes back at once, and the QID follows the last of them (R143). -/
def completeCtx (key : Nat) (s0 : State) : State :=
  let x := s0.ctx key
  let s := undefRange x s0
  let e := x.eng
  let g := s.eng e
  if g.st == .halted then
    let s1 := s.setCtx key {}
    if (s1.owned e).isEmpty then returnQid e true s1 else s1
  else
    let s1 := s.setCtx key { x with done := true }
    if g.ctx = 0x3FF then setEvt e 1 (s1.setEng e { g with ctx := key % 512, ctxsts := x.status })
    else s1.setEng e { g with done := g.done ++ [(key % 512, x.status)] }

/-- CONTEXT_COMPLETE (R210). -/
def execContextComplete (c : Fin 8) (k : Fin 512) (s : State) : Host.Outcome State Fault Refusal :=
  live s (fun s =>
    let key := 512 * c.val + k.val
    if s.ctxReady key then completeCtx key s else s)

end Sys2Proof.Machine
end

