-- ==== Sys2Proof/Machine/SorefMove.lean ====
section
/-!
DEFINITION. The format-M instructions (chapter 9): MOVE and CTXACK, translation, posted-write fences, belays,
semaphores, unit messages and interrupts; and the replies that stalled engines wait for.
-/
namespace Sys2Proof.Machine

/-! ## MOVE and CTXACK (R204 to R206, R212) -/

/-- A result code in RD[7:0]. -/
def codeWord (n : Nat) : Word := BitVec.ofNat 64 n

/-- A context opened from a descriptor (R206). -/
def openCtx (d : Desc) (f e seq : Nat) : Ctx :=
  { used := true, eng := e, fn := f, sasp := d.sasp, dasp := d.dasp, saddr := d.saddr, daddr := d.daddr, len := d.len
    uo := bitsGet d.ctl 44 44 == 1, ro := bitsGet d.ctl 45 45 == 1, ns := bitsGet d.ctl 46 46 == 1
    ido := bitsGet d.ctl 47 47 == 1, sxlt := d.sxlt, dxlt := d.dxlt, tag := d.tag, seq := seq }

/-- MOVE: refused by FENCED, DESC, XLATE or NOCTX in that order, or a context opens (R206). -/
def moveOp (rd : Fin 32) (e : Nat) (s : State) : State :=
  let c := clOf e
  let d := s.desc e
  let f := d.fn (s.eng e).fn
  let refuse := fun code => finish e (setGr e rd.val (codeWord code) s)
  if s.fencedAt e f then refuse 2
  else if !d.valid f then refuse 3
  else if d.xlate then refuse 4
  else
    match s.freeCtx c with
    | none => refuse 1
    | some key =>
      if (s.eng e).ctxCap ≤ s.ctxn e then refuse 1
      else
        let k := s.clu c
        let s1 := (s.setClu c { k with nextCtx := k.nextCtx + 1 }).setCtx key (openCtx d f e k.nextCtx)
        finish e (setGr e rd.val (codeWord (256 * (key % 512))) s1)

/-- MOVE (R206). -/
def execMove (e : Fin 64) (rd : Fin 32) (s : State) : Host.Outcome State Fault Refusal :=
  soref e (.move rd) (moveOp rd) s

/-- CTXACK: the context in s.ctx goes back to the mover, and the next completed one is loaded (R212). -/
def ctxackOp (rd : Fin 32) (e : Nat) (s : State) : State :=
  let x := s.eng e
  if x.ctx = 0x3FF then finish e (setGr e rd.val 0xFF s)
  else
    let key := 512 * clOf e + x.ctx
    let r := BitVec.ofNat 64 ((s.ctx key).tag * 2 ^ 32 + x.ctx * 256 + x.ctxsts)
    let s1 := s.setCtx key {}
    let s2 := match x.done with
      | d :: rest => s1.setEng e { x with ctx := d.1, ctxsts := d.2, done := rest }
      | [] => s1.setEng e { x with ctx := 0x3FF, ctxsts := 0, evt := x.evt &&& 0xFFFD }
    finish e (setGr e rd.val r s2)

/-- CTXACK (R212). -/
def execCtxack (e : Fin 64) (rd : Fin 32) (s : State) : Host.Outcome State Fault Refusal :=
  soref e (.ctxack rd) (ctxackOp rd) s

/-! ## Translation (R213, R215, R268, R433) -/

/-- XLT: a[63:54] must be zero; under the fence of s.fn the word has XST 0x7. -/
def xltOp (rd : Fin 32) (xu : Nat) (a : Word) (e : Nat) (s : State) : State :=
  if 2 ^ 54 ≤ a.toNat then raiseFault e 4 a.toNat 0 s
  else if s.fencedAt e (s.eng e).fn then finish e (setGr e rd.val (xwFail 7) s)
  else block e (.xlt rd.val) { s.engPkt e 0 0x06 (34 + xu) with addr := a.toNat } s

/-- XLT_DRAIN: a[63:12] must be zero; the translation hold clears as it issues. The request carries a 1 in ADDR[63]. -/
def drainOp (rd : Fin 32) (a : Word) (e : Nat) (s : State) : State :=
  if 2 ^ 12 ≤ a.toNat then raiseFault e 4 a.toNat 0 s
  else if s.fencedAt e (s.eng e).fn then finish e (setGr e rd.val (codeWord 2) s)
  else
    block e (.drain rd.val) { s.engPkt e 0 0x06 (34 + a.toNat % 4) with addr := 2 ^ 63 + a.toNat }
      (s.setEng e { s.eng e with hold := false })

/-- XLT (R213). -/
def execXlt (e : Fin 64) (rd ra : Fin 32) (xu : Fin 4) (s : State) : Host.Outcome State Fault Refusal :=
  soref e (.xlt rd ra xu) (reg1 ra (xltOp rd xu.val)) s
/-- XLT_DRAIN (R215). -/
def execXltDrain (e : Fin 64) (rd ra : Fin 32) (s : State) : Host.Outcome State Fault Refusal :=
  soref e (.xltDrain rd ra) (reg1 ra (drainOp rd)) s

/-! ## Posted-write fences (R216, R217, R412, R420) -/

/-- FMARK. -/
def fmarkOp (e : Nat) (s : State) : State := finish e (s.setEng e { s.eng e with marker := s.engNow e })

/-- FMARK (R216). -/
def execFmark (e : Fin 64) (s : State) : Host.Outcome State Fault Refusal := soref e .fmark fmarkOp s

/-- Where the posted-fault ring of function n lies (Table 11-5, R418). -/
def pfrBase (fn : Nat) : Nat := 0x3800000 + 512 * fn

/-- The posted-fault records of a function whose failed packet has a stamp at or after a TIME (R217, R420), or all
ones where the ring has overwritten one since. -/
def State.pfrCount (s : State) (fn marker : Nat) : Nat :=
  let lapped := match s.ringOver fn with
    | none => false
    | some t => timeLe marker t
  if lapped then 0xFFFFFFFF
  else ((List.range (min (s.fget F.pfrStsTotal fn) 16)).filter
    (fun i => timeLe marker (s.stgNat (pfrBase fn + 32 * i) 8 / 2 ^ 16))).length

/-- The space a read of LEN 0 names toward a destination: the port's own, or staging. -/
def zeroAsp (ni : Nat) : Nat := if ni < 2 then ni else if ni < 10 then 2 else 3

/-- FENCE.P has its answers: RD takes the count, or FENCED where a fence refused one. -/
def fenceDone (e rd : Nat) (dam refused : Bool) (s : State) : State :=
  let x := s.eng e
  let count := if dam then 0xFFFFFFFF else s.pfrCount x.fn x.marker
  finish e (setGr e rd (codeWord (if refused then 2 else 256 * count)) s)

/-- FENCE.P. -/
def fenceOp (rd : Fin 32) (e : Nat) (s : State) : State :=
  let x := s.eng e
  if s.fencedAt e x.fn then finish e (setGr e rd.val (codeWord 2) s)
  else
    let s1 := s.setEng e { x with posted := [] }
    if x.posted.isEmpty then fenceDone e rd.val false false s1
    else
      forL x.posted (fun d s => engSend e
          { s.engPkt e 0 0x00 d with asp := zeroAsp d, addr := x.marker, tag := 2048 + 64 * (e % 8) + d } s)
        (s1.setEng e { s1.eng e with stall := .fence rd.val x.posted false false })

/-- FENCE.P (R217). -/
def execFenceP (e : Fin 64) (rd : Fin 32) (s : State) : Host.Outcome State Fault Refusal :=
  soref e (.fenceP rd) (fenceOp rd) s

/-- FENCE_P_ANSWERS_DONE (R217). -/
def execFencePAnswersDone (e : Fin 64) (s : State) : Host.Outcome State Fault Refusal :=
  live s (fun s =>
    match (s.eng e.val).stall with
    | .fence rd [] dam refused => fenceDone e.val rd dam refused s
    | _ => s)

/-! ## Belays (R106, R155, R218, R219) -/

/-- Where a LOCK or UNLOCK goes: the NI, the space, XV and SWAP. -/
structure LockTarget where
  dst : Nat
  asp : Nat
  xv : Nat := 0
  swap : Nat := 0
deriving DecidableEq, Repr, Inhabited

/-- The checks of LOCK and UNLOCK (R218): RANGE, then ALIGN; a local address lies in the 16 MiB region of g20's
LADDR. -/
def lockCheck (w : LockWidth) (sp : LockSpace) (a : Nat) (e : Nat) (ok : LockTarget → State → State) (s : State) : State :=
  let n := lockBytes w
  match sp with
  | .stg => rangeAlign 0x4000000 a n e (ok { dst := bankNi a, asp := 3 }) s
  | .loc =>
    let x := s.gr e 20
    if xwXst x ≠ 0 ∨ a / 2 ^ 24 ≠ xwLaddr x / 2 ^ 24 then raiseFault e 4 a 0 s
    else rangeAlign (2 ^ 42) a n e (ok { dst := s.portNi (xwPort x), asp := 2, xv := xwXv x, swap := xwSwap x }) s

/-- The packet of a LOCK or UNLOCK. -/
def State.lockPkt (s : State) (e cls ty n a : Nat) (t : LockTarget) : Packet :=
  { (s.engPkt e cls ty t.dst).span t.asp a n with xv := t.xv, swap := t.swap }

/-- The arbiter that a locked read is addressed to, and the requester index there. -/
def lockArb (e : Nat) (t : LockTarget) : Nat × Nat := if t.asp = 3 then (t.dst - 18, clNi e) else (20 + clOf e, e % 8)

/-- A cluster refuses a second belay for an FN (R106, R155): LOCK_REF, violation 0x0302, and a reply of CA, which
raises RESP. -/
def lockRefused (e n a : Nat) (t : LockTarget) (s : State) : State :=
  let (arb, idx) := lockArb e t
  raiseFault e 0x0C a (faultInfo (clNi e) 2)
    (violPkt (clNi e) 0x0302 (s.lockPkt e 0 0x04 n a t) arb idx (s.fset F.arbStsLockRef arb 1))

/-- LOCK. -/
def lockOp (w : LockWidth) (sp : LockSpace) (rd : Fin 32) (a : Word) (e : Nat) (s : State) : State :=
  let n := lockBytes w
  lockCheck w sp a.toNat e (fun t s =>
    let fn := (s.eng e).fn
    let c := clOf e
    if s.fencedAt e fn then finish e (setGrBytes e rd.val n (2 ^ 128 - 1) s)
    else if (s.clu c).belays.contains fn then lockRefused e n a.toNat t s
    else
      block e (.lock rd.val w (t.asp == 2) t.dst a.toNat) (s.lockPkt e 0 0x04 n a.toNat t)
        (s.setClu c { s.clu c with belays := fn :: (s.clu c).belays })) s

/-- UNLOCK: refused, with its write in the posted-fault ring, when no belay is open, when it targets another bank or
port, or under the fence of s.fn; else s.belay clears and the closing write goes out. -/
def unlockOp (w : LockWidth) (sp : LockSpace) (rs : Fin 32) (a : Word) (e : Nat) (s : State) : State :=
  let n := lockBytes w
  lockCheck w sp a.toNat e (fun t s =>
    let x := s.eng e
    let p := { s.lockPkt e 1 0x11 n a.toNat t with
      data := leBytes n (s.grBytes e rs.val n), stamp := s.stampAt (clNi e) }
    if !x.belay || x.belayTarget != t.dst || x.belayLoc != (t.asp == 2) || s.fencedAt e x.fn then
      finish e (pfr (clNi e) p 8 0 s)
    else post e p (s.setEng e { x with belay := false })) s

/-- LOCK (R218). -/
def execLock (e : Fin 64) (w : LockWidth) (sp : LockSpace) (rd ra : Fin 32) (s : State) :
    Host.Outcome State Fault Refusal := soref e (.lock w sp rd ra) (reg1 ra (lockOp w sp rd)) s
/-- UNLOCK (R219). -/
def execUnlock (e : Fin 64) (w : LockWidth) (sp : LockSpace) (rs ra : Fin 32) (s : State) :
    Host.Outcome State Fault Refusal := soref e (.unlock w sp rs ra) (reg1 ra (unlockOp w sp rs)) s

/-! ## Semaphores (R221) -/

/-- ACQ, REL and their register forms: `op` is 1 to acquire and 2 to release. -/
def semOpInsn (op : Nat) (rd : Fin 32) (a : Word) (e : Nat) (s : State) : State :=
  if 2 ^ 11 ≤ a.toNat then raiseFault e 4 a.toNat 0 s
  else if s.fencedAt e (s.eng e).fn then finish e (setGr e rd.val (codeWord 2) s)
  else block e (.sem rd.val) { s.engPkt e 0 0x05 40 with addr := 4096 * op + a.toNat, asp := 6 } s

/-- ACQ (R221). -/
def execAcq (e : Fin 64) (rd : Fin 32) (num : BitVec 11) (s : State) : Host.Outcome State Fault Refusal :=
  soref e (.acq rd num) (semOpInsn 1 rd (num.setWidth 64)) s
/-- REL (R221). -/
def execRel (e : Fin 64) (rd : Fin 32) (num : BitVec 11) (s : State) : Host.Outcome State Fault Refusal :=
  soref e (.rel rd num) (semOpInsn 2 rd (num.setWidth 64)) s
/-- ACQR (R221). -/
def execAcqr (e : Fin 64) (rd ra : Fin 32) (s : State) : Host.Outcome State Fault Refusal :=
  soref e (.acqr rd ra) (reg1 ra (semOpInsn 1 rd)) s
/-- RELR (R221). -/
def execRelr (e : Fin 64) (rd ra : Fin 32) (s : State) : Host.Outcome State Fault Refusal :=
  soref e (.relr rd ra) (reg1 ra (semOpInsn 2 rd)) s

/-! ## Unit messages and interrupts (R222, R225, R226) -/

/-- The NI of a unit (Table 9-6); none for a reserved number. -/
def State.unitNi (s : State) (u : Nat) : Option Nat :=
  if u < 0x40 then some (10 + u / 8)
  else if u < 0x48 then some (10 + (u - 0x40))
  else if u = 0x48 then some 42
  else if 0x80 ≤ u ∧ u < 0x88 then some (s.portNi (u - 0x80))
  else none

/-- UMSG: g16 to g22 go to the unit; a reserved number raises RANGE. -/
def umsgOp (u : Nat) (e : Nat) (s : State) : State :=
  match s.unitNi u with
  | none => raiseFault e 4 0 0 s
  | some ni =>
    if s.fencedAt e (s.eng e).fn then finish e s
    else
      post e { s.engPkt e 1 0x14 ni with
        addr := u, asp := 6, len := 56, data := (List.range 7).flatMap (fun i => leBytes 8 (s.gr e (16 + i)).toNat)
        fbe := 0xFF, lbe := 0xFF } s

/-- UMSG (R222). -/
def execUmsg (e : Fin 64) (unit : BitVec 12) (s : State) : Host.Outcome State Fault Refusal :=
  soref e (.umsg unit) (umsgOp unit.toNat) s

/-- RAISE and RAISER: an interrupt request to the IRT, which takes the engine's slot and waits there for R226. AGE
holds the number of contexts opened before it until the packet enters the fabric. -/
def raiseOp (v : Word) (e : Nat) (s : State) : State :=
  if 2 ^ 11 ≤ v.toNat then raiseFault e 4 v.toNat 0 s
  else if s.fencedAt e (s.eng e).fn then finish e s
  else post e { s.engPkt e 1 0x12 39 with addr := v.toNat, age := (s.clu (clOf e)).nextCtx } s

/-- RAISE (R225). -/
def execRaise (e : Fin 64) (v : BitVec 11) (s : State) : Host.Outcome State Fault Refusal :=
  soref e (.raise v) (raiseOp (v.setWidth 64)) s
/-- RAISER (R225). -/
def execRaiser (e : Fin 64) (ra : Fin 32) (s : State) : Host.Outcome State Fault Refusal :=
  soref e (.raiser ra) (reg1 ra raiseOp) s

/-- Every context of the engine that a RAISE must follow has handed its last write packet to the NI (R226). -/
def State.raiseClear (s : State) (e : Nat) (p : Packet) : Bool :=
  (s.owned e).all (fun key =>
    let x := s.ctx key
    x.fn != p.fn || x.dasp != portOf p.fn || decide (p.age ≤ x.seq) || (x.writesSent && !s.atEgress key))

/-- The engine's arbiter entry at the mover egress is free. -/
def State.entryFree (s : State) (e : Nat) : Bool :=
  let b := s.arbiter (20 + clOf e)
  (mget none b.slots (e % 8)).isNone && !b.waiting.any (fun x => x.1 == e % 8)

/-- RAISE_REQUEST_PRESENT (R226). -/
def raisePresent (e : Nat) (s : State) : State :=
  match (s.eng e).outq with
  | p :: rest =>
    if isRaise p && s.entryFree e && s.raiseClear e p then
      request (20 + clOf e) (e % 8) p (s.setEng e { s.eng e with outq := rest })
    else s
  | [] => s

/-- RAISE_REQUEST_PRESENT (R226). -/
def execRaiseRequestPresent (e : Fin 64) (s : State) : Host.Outcome State Fault Refusal := live s (raisePresent e.val)

/-- ENGINE_STALL_RESUME (R173): the slot is free, so the packet that waits takes it; the engine continues once its
own packet is in the slot. -/
def stallResume (e : Nat) (s : State) : State :=
  if !s.entryFree e then s
  else
    let x := s.eng e
    let s1 := match x.outq with
      | [] => s
      | p :: rest => if isRaise p then s else request (20 + clOf e) (e % 8) p (s.setEng e { x with outq := rest })
    let y := s1.eng e
    let inSlot := match y.outq with
      | [] => true
      | [p] => isRaise p && s1.entryFree e
      | _ => false
    if y.stall == .egress && inSlot then checkCut e (s1.setEng e { y with stall := .none }) else s1

/-- ENGINE_STALL_RESUME (R173). -/
def execEngineStallResume (e : Fin 64) (s : State) : Host.Outcome State Fault Refusal := live s (stallResume e.val)

/-! ## Replies (R127, R137, R142, R218, R221) -/

/-- What an access refused by the fence at the NI writes (R137, R228). -/
def refusedAccess (e : Nat) (s : State) : State :=
  match (s.eng e).stall with
  | .load rd _ => finish e (setGr e rd allOnes s)
  | .atomic rd _ => finish e (setGr e rd allOnes s)
  | .lock rd w _ _ _ => finish e (setGrBytes e rd (lockBytes w) (2 ^ 128 - 1) (closeRecord (clOf e) (s.eng e).fn s))
  | .xlt rd => finish e (setGr e rd (xwFail 7) s)
  | .drain rd => finish e (setGr e rd (codeWord 2) s)
  | .sem rd => finish e (setGr e rd (codeWord 2) s)
  | _ => s

/-- What a successful reply does. -/
def goodReply (e : Nat) (p : Packet) (s : State) : State :=
  let x := s.eng e
  let v := leNat p.data
  match x.stall with
  | .load rd w => finish e (setGr e rd (ldExt w v) s)
  | .atomic rd d => finish e (setGr e rd (BitVec.ofNat 64 (v % 2 ^ (8 * atomBytes d))) s)
  | .lock rd w loc target a =>
    finish e ((setGrBytes e rd (lockBytes w) v s).setEng e { x with
      belay := true, belayLoc := loc, belayTarget := target, belayAddr := a })
  | .xlt rd =>
    finish e ((setGr e rd (BitVec.ofNat 64 v) s).setEng e { x with
      hold := x.hold || xwXst (BitVec.ofNat 64 v) == 0
      holds := if !x.hold && xwXst (BitVec.ofNat 64 v) == 0 then x.holds + 1 else x.holds })
  | .drain rd => finish e (setGr e rd (BitVec.ofNat 64 v) s)
  | .sem rd => finish e (setGr e rd (BitVec.ofNat 64 (v % 2 ^ 32 * 2 ^ 32)) s)
  | _ => s

/-- A reply of UR, CA or another failure raises RESP, then a poisoned one POISON (R127); BUSY of a semaphore is its
result. A cut that came meanwhile is taken after it (R142). -/
def reply (e : Nat) (p : Packet) (s : State) : State :=
  let x := s.eng e
  match x.stall, p.csts with
  | .sem rd, 4 => finish e (setGr e rd (codeWord 5) s)
  | _, 0 => if p.ep then checkCut e (raiseFault e 0x0D x.stallAddr (faultInfo p.src 0) s) else goodReply e p s
  | st, n =>
    let s1 := match st with
      | .lock _ _ _ _ _ => if n = 2 then closeRecord (clOf e) x.fn s else s
      | _ => s
    checkCut e (raiseFault e 0x0C x.stallAddr (faultInfo p.src n) s1)

/-- ENGINE_REPLY_ARRIVE (R127): the reply to the access that engine e is stalled on, or one answer to its FENCE.P. -/
def engineReply (e i : Nat) (s : State) : State :=
  match takeArrived (clNi e) i s with
  | none => s
  | some (p0, s0) =>
    let x := s0.eng e
    if p0.cls ≠ 2 ∨ p0.hdrBad then s
    else
      match x.stall with
      | .none => s
      | .egress => s
      | .fence rd dests dam refused =>
        if p0.tag = 2048 + 64 * (e % 8) + p0.src ∧ dests.contains p0.src then
          let (p, s1) := checkParity (clNi e) p0 s0
          s1.setEng e { s1.eng e with
            stall := .fence rd (dests.erase p.src) (dam || p.ep) (refused || p.xv == 5) }
        else s
      | _ =>
        if p0.tag = x.stallTag ∧ p0.src = x.stallDst then
          let (p, s1) := checkParity (clNi e) p0 s0
          if p.xv = 5 ∧ p.csts = 2 then refusedAccess e s1 else reply e p s1
        else s

/-- ENGINE_REPLY_ARRIVE (R127). -/
def execEngineReplyArrive (e : Fin 64) (i : Nat) (s : State) : Host.Outcome State Fault Refusal :=
  live s (engineReply e.val i)

end Sys2Proof.Machine
end

