-- ==== Sys2Proof/Machine/Queues.lean ====
section
/-!
DEFINITION. QM and the queues (chapter 10): doorbells, wakes, head and error writes, QID returns, enable, disable,
skip. Queue q of FN n has QID 4n + q. ERR, CFG_ERR, PHASE and ERR_CODE lie in the register file under Q_STS; the
rest of a queue's state lies in its Queue record, whose 64 B layout QM writes to staging memory after each operation
(R230).
-/
namespace Sys2Proof.Machine

/-! ## The queue state (R230) -/

/-- QM_QBIND as a number. -/
def State.qbind (s : State) (q : Nat) : Nat := (s.rget .qmQbind q).toNat % 2 ^ 32

/-- The 64 bytes of Table 10-1. -/
def State.queueBytes (s : State) (q : Nat) : List Byte :=
  let x := s.queue q
  leBytes 8 x.sqbase ++ leBytes 8 x.cqbase ++ leBytes 8 (0x300000 + 8 * q)
    ++ leBytes 4 x.sqhead ++ leBytes 4 x.sqtail ++ leBytes 4 x.cqhead ++ leBytes 4 x.cqtail
    ++ leBytes 4 x.sqmask ++ leBytes 4 x.cqmask ++ leBytes 4 x.bind
    ++ leBytes 2 (q / 4) ++ leBytes 2 q ++ leBytes 8 x.param

/-- The queue's record replaced, and its copy in the queue-state region of staging memory (Table 11-5). -/
def putQueue (q : Nat) (x : Queue) (s : State) : State :=
  let s1 := s.setQueue q x
  stgPut (0x800000 + 64 * q) (s1.queueBytes q) s1

/-- The cluster to which an enabled queue is bound. -/
def Queue.cluster (x : Queue) : Nat := x.bind / 2 ^ 17 % 8

/-- EN or ACTIVE is 1: the RWL fields of the queue are refused (R250, R249). -/
def State.qBusy (s : State) (q : Nat) : Bool := (s.queue q).en || (s.queue q).held

/-- Records between two places of a ring. -/
def ringDist (a b mask : Nat) : Nat := (b + (mask + 1) - a % (mask + 1)) % (mask + 1)

/-- An error of a queue (R244): the first code is kept. -/
def queueError (q code : Nat) (s : State) : State :=
  if s.flag F.qStsErr q then s
  else trace 38 5 4 (q / 4) (leBytes 2 q ++ leBytes 1 code) false ((s.fset F.qStsErr q 1).fset F.qStsErrCode q code)

/-! ## Wakes (R236, R237) -/

/-- A queue asks for a wake, credits apart (R236). -/
def State.wantsWake (s : State) (q : Nat) : Bool :=
  let x := s.queue q
  x.en && !s.flag F.qStsErr q && x.sqhead != x.sqtail && ((x.cqtail + 1) % (x.cqmask + 1) != x.cqhead) && !x.held

/-- The fabric level of the owning function's service class. -/
def State.queueLevel (s : State) (q : Nat) : Nat := s.lvOf (s.qcOf (q / 4))

/-- Queue a's wake goes before queue b's (R237). -/
def State.wakeBefore (s : State) (a b : Nat) : Bool :=
  decide (s.queueLevel a > s.queueLevel b)
    || (s.queueLevel a == s.queueLevel b && timeBefore (s.queue a).dbStamp (s.queue b).dbStamp)

/-- Wake credits that a cluster has returned and QM has not spent (R130: 56). -/
def State.wakeCredits (s : State) (c : Nat) : Nat := 56 - s.spent c

/-- Queues of the same cluster whose wakes go first. -/
def State.wakesAhead (s : State) (q : Nat) : Nat :=
  (s.qm.queues.filter (fun x => x.1 != q && x.2.cluster == (s.queue q).cluster && s.wantsWake x.1
    && s.wakeBefore x.1 q)).length

/-- QUEUE_WAKE_SEND (R236, R237): a credit is left for this queue after the wakes that go first. A cluster whose domain
is FAILED takes none (R447). -/
def queueWakeSend (q : Nat) (s : State) : State :=
  let x := s.queue q
  let c := x.cluster
  if s.wantsWake q && decide (s.wakesAhead q < s.wakeCredits c) && !s.niFailed (10 + c) then
    let s1 := (putQueue q { x with held := true } s).setSpent c (s.spent c + 1)
    let p := { s1.mkPkt 3 0x30 38 (10 + c) (q / 4) with
      addr := s1.queueLevel q, len := 64, data := s1.queueBytes q }
    trace 38 5 2 (q / 4) (leBytes 2 q ++ leBytes 1 c) false (offer p s1)
  else s

/-- QUEUE_WAKE_SEND (R236). -/
def execQueueWakeSend (qid : Fin 8192) (s : State) : Host.Outcome State Fault Refusal :=
  live s (queueWakeSend qid.val)

/-! ## Doorbells (R233, R234) -/

/-- The doorbell packet that a write of a doorbell register becomes (R233, Table 10-2): it enters at NI `ni`. -/
def State.doorbellPkt (s : State) (ni fn kind q v : Nat) : Packet :=
  { s.mkPkt 1 0x13 ni 38 fn with addr := kind * 2 ^ 29 + q % 8192 * 2 ^ 16 + v % 65536 }

/-- SQ_TAIL_DB (R233). -/
def execSqTailDb (fn : Fin 2048) (q : Fin 4) (tail : BitVec 16) (s : State) : Host.Outcome State Fault Refusal :=
  live s (fun s => offer (s.doorbellPkt (portOf fn.val) fn.val 0 (4 * fn.val + q.val) tail.toNat) s)

/-- CQ_HEAD_DB (R233). -/
def execCqHeadDb (fn : Fin 2048) (q : Fin 4) (head : BitVec 16) (s : State) : Host.Outcome State Fault Refusal :=
  live s (fun s => offer (s.doorbellPkt (portOf fn.val) fn.val 1 (4 * fn.val + q.val) head.toNat) s)

/-- DOORBELL sets in the engine that holds the QID (R132, R134). -/
def doorbellEvent (q : Nat) (s : State) : State :=
  match (List.range 64).find? (fun e => s.hasTask e && (s.eng e).qid == q) with
  | none => s
  | some e => setEvt e 0 s

/-- A doorbell that QM rejects (R234): the violation, the count, and the queue's error. -/
def doorbellReject (q code : Nat) (p : Packet) (s : State) : State :=
  let s1 := viol {
    ni := 38, code := if p.src < 2 then 0x0205 else 0x010E, fn := p.fn
    port := if p.src < 10 then p.src else 0xFFFF, object := q, value := code, kind := 1, hdr := p.hdrBytes
    inj := p.inj } s
  queueError q code (s1.fsat F.qmDropViol 0 1)

/-- What comes of a doorbell on an enabled queue (R234): the rejection's code, or the queue's new state. -/
def doorbellOutcome (x : Queue) (q : Nat) (p : Packet) : Sum Nat Queue :=
  let v := p.addr % 65536
  if (2 ≤ p.src && p.src < 10 && !natBit x.bind (24 + (p.src - 2))) || (decide (p.src < 2) && p.fn != q / 4) then .inl 0xF0
  else if natBit p.addr 29 then
    if v > x.cqmask ∨ ringDist x.cqhead v x.cqmask > ringDist x.cqhead x.cqtail x.cqmask then .inl 0xF2
    else .inr { x with cqhead := v }
  else
    if v > x.sqmask ∨ ringDist x.sqtail v x.sqmask > x.sqmask - ringDist x.sqhead x.sqtail x.sqmask then .inl 0xF1
    else .inr { x with sqtail := v }

/-- QM executes a doorbell (R234). The doorbell after which the queue first asks for a wake is its enabling one. -/
def doorbell (p : Packet) (s : State) : State :=
  let q := p.addr / 65536 % 8192
  let x := s.queue q
  let s0 := trace 38 5 1 p.fn (leBytes 2 q ++ leBytes 1 (b2n (natBit p.addr 29)) ++ leBytes 1 0
    ++ leBytes 2 (p.addr % 65536)) p.inj s
  if !x.en then s0.fsat F.qmDropDisDrops 0 1
  else
    match doorbellOutcome x q p with
    | .inl code => doorbellReject q code p s0
    | .inr y =>
      let s1 := putQueue q y s0
      let s2 := if !s0.wantsWake q && s1.wantsWake q then s1.setQueue q { y with dbStamp := p.stamp.time } else s1
      if y.held then doorbellEvent q s2 else s2

/-- The packet at place `i` of NI `ni`'s arrived packets, taken out, if it may execute there: whole, without poison,
and in its source's order (R193, R406, R407). Every other packet is DEST_NI_PACKET_ARRIVE's. -/
def takeSound (ni i : Nat) (s : State) : Option (Packet × State) :=
  match takeArrived ni i s with
  | none => none
  | some (p, s1) => if p.hdrBad || p.ep || !p.bad.isEmpty || !s.inOrder ni p then none else some (p, s1)

/-- A doorbell of a kind arrives at QM. -/
def doorbellArrive (kind : Bool) (i : Nat) (s : State) : State :=
  match takeSound 38 i s with
  | none => s
  | some (p, s1) => if p.cls = 1 ∧ p.ty = 0x13 ∧ p.len = 0 ∧ natBit p.addr 29 = kind then doorbell p s1 else s

/-- DOORBELL_SQ_TAIL (R234). -/
def execDoorbellSqTail (i : Nat) (s : State) : Host.Outcome State Fault Refusal := live s (doorbellArrive false i)

/-- DOORBELL_CQ_HEAD (R234). -/
def execDoorbellCqHead (i : Nat) (s : State) : Host.Outcome State Fault Refusal := live s (doorbellArrive true i)

/-! ## Head writes, error writes, QID returns (R238, R239, R244) -/

/-- A head or error write refused (R238). -/
def qmRefuse (q v : Nat) (p : Packet) (s : State) : State :=
  (violPkt 38 0x0304 p q v s).fsat F.qmDropViol 0 1

/-- QM's record shows the QID held, and the store comes from the NI of the bound cluster (R238). -/
def State.storeOk (s : State) (q : Nat) (p : Packet) : Bool :=
  (s.queue q).held && p.src == 10 + (s.queue q).cluster

/-- A write of QM_QHEAD (R238). -/
def headWrite (q v : Nat) (p : Packet) (s : State) : State :=
  let x := s.queue q
  let k := ringDist x.sqhead v x.sqmask
  if !s.storeOk q p then qmRefuse q v p s
  else if v > x.sqmask ∨ k > ringDist x.sqhead x.sqtail x.sqmask
      ∨ k > x.cqmask - ringDist x.cqhead x.cqtail x.cqmask then queueError q 0xF3 (qmRefuse q v p s)
  else
    let s1 := putQueue q { x with
      sqhead := v, cqtail := (x.cqtail + k) % (x.cqmask + 1)
      headTime := p.stamp.time + 1 } s
    if x.cqtail + k > x.cqmask then s1.fset F.qStsPhase q (1 - s1.fget F.qStsPhase q) else s1

/-- A write of QM_QERR (R244): 0x00 is recorded as 0xFF. -/
def errWrite (q v : Nat) (p : Packet) (s : State) : State :=
  if !s.storeOk q p then qmRefuse q v p s else queueError q (if v % 256 = 0 then 0xFF else v % 256) s

/-- A 4-byte store to QM_QHEAD (`err` false) or QM_QERR arrives at QM. -/
def qmStore (err : Bool) (i : Nat) (s : State) : State :=
  match takeSound 38 i s with
  | none => s
  | some (p, s1) =>
    let off := p.addr % 2 ^ 25
    if p.cls = 1 ∧ p.ty = 0x10 ∧ p.asp = 4 ∧ p.len = 4 ∧ 0x300000 ≤ off ∧ off < 0x310000
        ∧ off % 8 = (if err then 4 else 0) then
      let q := (off - 0x300000) / 8
      let v := leNat p.data
      if err then errWrite q v p s1 else headWrite q (v % 65536) p s1
    else s

/-- QM_QHEAD_WRITE (R238). -/
def execQmQheadWrite (i : Nat) (s : State) : Host.Outcome State Fault Refusal := live s (qmStore false i)

/-- QM_QERR_WRITE (R244). -/
def execQmQerrWrite (i : Nat) (s : State) : Host.Outcome State Fault Refusal := live s (qmStore true i)

/-- QID_RETURN (R239, R247): the hold clears. -/
def qidReturn (i : Nat) (s : State) : State :=
  match takeSound 38 i s with
  | none => s
  | some (p, s1) =>
    if isQidReturn p then
      let q := p.addr % 8192
      let x := s1.queue q
      trace 38 5 3 (q / 4) (leBytes 2 q ++ leBytes 1 (b2n (natBit p.addr 16))) p.inj
        (putQueue q { x with held := false } s1)
    else s

/-- QID_RETURN (R239). -/
def execQidReturn (i : Nat) (s : State) : Host.Outcome State Fault Refusal := live s (qidReturn i)

/-! ## The function page (R240, R246, R247) -/

/-- What Q_STS, Q_SQ_PTR, Q_CQ_PTR and Q_CTL of a queue read as. -/
def State.queueView (s : State) (r : RegId) (q : Nat) : Word :=
  let x := s.queue q
  match r with
  | .qSts => bitsPut (s.rget .qSts q) 31 31 (b2n x.held)
  | .qSqPtr => BitVec.ofNat 64 (x.sqtail * 65536 + x.sqhead)
  | .qCqPtr => BitVec.ofNat 64 (x.cqtail * 65536 + x.cqhead)
  | .qCtl => BitVec.ofNat 64 (b2n x.en)
  | r => s.rget r q

/-- The answer may be stamped: at least 5 ns after the TIME of the latest head write (R240). -/
def State.pointerReady (s : State) (q : Nat) : Bool :=
  let x := s.queue q
  let d := timeDiff (s.niTime 38) (x.headTime + 4)
  x.headTime == 0 || d == 0 || decide (7 < d)

/-- The function whose area a control-space address lies in: an HPI names it in ADDR[42:32] (log 14). -/
def faFn (addr : Nat) : Nat := addr / 2 ^ 32 % 2048

/-- Q_POINTER_READ (R240): a read of Q_STS, Q_SQ_PTR or Q_CQ_PTR. -/
def pointerRead (i : Nat) (s : State) : State :=
  match takeSound 38 i s with
  | none => s
  | some (p, s1) =>
    let off := p.addr % 2 ^ 25
    if p.cls = 0 ∧ p.ty = 0 ∧ p.asp = 4 ∧ 0x1FF0000 ≤ off then
      match regAt regRows true (off - 0x1FF0000) p.len with
      | .reg r inst _ =>
        let q := 4 * faFn p.addr + inst
        if (r = .qSts ∨ r = .qSqPtr ∨ r = .qCqPtr) ∧ s1.pointerReady q = true then
          offer { p.reply 0x20 0 (leBytes 4 (s1.queueView r q).toNat) with src := 38 } s1
        else s
      | _ => s
    else s

/-- Q_POINTER_READ (R240). -/
def execQPointerRead (i : Nat) (s : State) : Host.Outcome State Fault Refusal := live s (pointerRead i)

/-- R246: the settings that an enable asks for are acceptable. -/
def State.enableOk (s : State) (q : Nat) : Bool :=
  let sl := s.fget F.qCfgSqLog2 q
  let cl := s.fget F.qCfgCqLog2 q
  1 ≤ sl && sl ≤ 16 && 1 ≤ cl && cl ≤ 16 && s.fget F.qSqbaseBase q % 64 == 0 && s.fget F.qCqbaseBase q % 16 == 0
    && decide (16 ≤ s.fget F.qmQbindTrail q) && !(s.queue q).held

/-- A write of EN = 1 (R246). -/
def queueEnable (q : Nat) (s : State) : State :=
  if (s.queue q).en then s
  else if s.enableOk q then
    let s1 := (((s.fset F.qStsErr q 0).fset F.qStsErrCode q 0).fset F.qStsPhase q 1)
    putQueue q {
      en := true, sqbase := s.fget F.qSqbaseBase q, cqbase := s.fget F.qCqbaseBase q
      sqmask := 2 ^ s.fget F.qCfgSqLog2 q - 1, cqmask := 2 ^ s.fget F.qCfgCqLog2 q - 1
      bind := s.qbind q, param := s.fget F.qParamParam q } s1
  else s.fset F.qStsCfgErr q 1

/-- A write of EN = 0 (R247): a pending wake goes, and later doorbells are discarded. -/
def queueDisable (q : Nat) (s : State) : State := s.setQueue q { s.queue q with en := false }

/-- A write of SKIP = 1 (R244). -/
def queueSkip (q : Nat) (s : State) : State :=
  if s.flag F.qStsErr q then
    let x := s.queue q
    let s1 := if x.sqhead = x.sqtail then s else putQueue q { x with sqhead := (x.sqhead + 1) % (x.sqmask + 1) } s
    s1.fset F.qStsErr q 0
  else s

/-- QUEUE_ENABLE (R246). -/
def execQueueEnable (fn : Fin 2048) (q : Fin 4) (s : State) : Host.Outcome State Fault Refusal :=
  live s (queueEnable (4 * fn.val + q.val))

/-- QUEUE_DISABLE (R247). -/
def execQueueDisable (fn : Fin 2048) (q : Fin 4) (s : State) : Host.Outcome State Fault Refusal :=
  live s (queueDisable (4 * fn.val + q.val))

/-- QUEUE_SKIP (R244). -/
def execQueueSkip (fn : Fin 2048) (q : Fin 4) (s : State) : Host.Outcome State Fault Refusal :=
  live s (queueSkip (4 * fn.val + q.val))

/-- QUEUE_ERR_CLEAR (R244): ERR is cleared, and the record at SQHEAD is served again. -/
def execQueueErrClear (fn : Fin 2048) (q : Fin 4) (s : State) : Host.Outcome State Fault Refusal :=
  live s (fun s => s.fset F.qStsErr (4 * fn.val + q.val) 0)

end Sys2Proof.Machine
end

