-- ==== Sys2Proof/Machine/Xlt.lean ====
section
/-!
DEFINITION. Windows and translation (chapter 11): lookups and misses at the XUs, the commit sequencer, entry writes,
bumps, drains and their probes, and the registers that act. Edit sets are numbered 0, 1 for the hosts, 2 + c for
cluster c, 10 for the MGC; 11 stands for the device's own commands. Windows have epoch and quarantine keys w,
entries 4096 + e.
-/
namespace Sys2Proof.Machine

/-! ## Copies in staging memory (R253, R254, R276) -/

/-- `n` words of staging memory from an address. -/
def State.wordsAt (s : State) (a n : Nat) : List Nat := (List.range n).map (fun i => s.stgNat (a + 8 * i) 8)

/-- The base of descriptor copy c, and of translation copy c (0: A, 1: B). -/
def State.descBase (s : State) (c : Nat) : Nat :=
  2 ^ 22 * (if c = 0 then s.fget F.xltLocD0 0 else if c = 1 then s.fget F.xltLocD1 0 else s.fget F.xltLocD2 0)
def State.entBase (s : State) (c : Nat) : Nat :=
  2 ^ 22 * (if c = 0 then s.fget F.xltLocTa 0 else s.fget F.xltLocTb 0)

/-- A range holds no uncorrectable error. -/
def State.intact (s : State) (a n : Nat) : Bool :=
  (wordsOf a n).all (fun w => !s.poisonAt w && decide (s.eccAt w % 4 < 2))

/-- Copy c of window w's descriptor, and of entry e; none where it is not intact. -/
def State.descCopy (s : State) (c w : Nat) : Option (List Nat) :=
  let a := s.descBase c + 64 * w
  if s.intact a 64 then some (s.wordsAt a 8) else none
def State.entCopy (s : State) (c e : Nat) : Option (List Nat) :=
  let a := s.entBase c + 16 * e
  if s.intact a 16 then some (s.wordsAt a 2) else none

/-- The value of three copies (R257): that of two intact copies that agree, else that of the only intact one. -/
def resolveDesc (cs : List (Option (List Nat))) : Option (List Nat) :=
  let ok := cs.filterMap id
  match ok with
  | [] => none
  | [x] => some x
  | [x, y] => if x = y then some x else none
  | x :: y :: z :: _ => if x = y ∨ x = z then some x else if y = z then some y else none

/-- WVER a is higher than WVER b (R258). -/
def wverAbove (a b : Nat) : Bool :=
  let d := (a % 2 ^ 32 + 2 ^ 32 - b % 2 ^ 32) % 2 ^ 32
  1 ≤ d && d < 2 ^ 31

/-- The value of an entry's two copies (R258). -/
def resolveEnt (a b : Option (List Nat)) : Option (List Nat) :=
  match a, b with
  | none, none => none
  | some x, none => some x
  | none, some y => some y
  | some x, some y =>
    if x = y then some x
    else if wverAbove (x.getD 1 0) (y.getD 1 0) then some x
    else if wverAbove (y.getD 1 0) (x.getD 1 0) then some y
    else none

/-- The active descriptor of a window. -/
def State.activeDesc (s : State) (w : Nat) : Option (List Nat) :=
  resolveDesc ((List.range 3).map (fun c => s.descCopy c w))

/-- A field of a word. -/
def wbits (x hi lo : Nat) : Nat := x / 2 ^ lo % 2 ^ (hi + 1 - lo)

/-- Fields of a descriptor (Table 11-1) and of an entry (Table 11-2). -/
def dEn (d : List Nat) : Bool := wbits (d.getD 0 0) 0 0 == 1
def dSef (d : List Nat) : Nat := wbits (d.getD 0 0) 1 1
def dWp (d : List Nat) : Nat := wbits (d.getD 0 0) 2 2
def dSwap (d : List Nat) : Nat := wbits (d.getD 0 0) 5 3
def dXv (d : List Nat) : Nat := wbits (d.getD 0 0) 15 8
def dSize (d : List Nat) : Nat := wbits (d.getD 0 0) 20 16
def dBase (d : List Nat) : Nat := wbits (d.getD 0 0) 49 32
def dFirst (d : List Nat) : Nat := wbits (d.getD 1 0) 10 0
def dLast (d : List Nat) : Nat := wbits (d.getD 1 0) 26 16
def dOwner (d : List Nat) : Nat := wbits (d.getD 1 0) 42 32
def dOwned (d : List Nat) : Bool := wbits (d.getD 1 0) 43 43 == 1
def dDxv (d : List Nat) : Nat := wbits (d.getD 1 0) 55 48
def eV (e : List Nat) : Bool := wbits (e.getD 0 0) 22 22 == 1
def eWp (e : List Nat) : Nat := wbits (e.getD 0 0) 21 21
def ePort (e : List Nat) : Nat := wbits (e.getD 0 0) 20 18
def eLreg (e : List Nat) : Nat := wbits (e.getD 0 0) 17 0

/-- A descriptor with another version, or another DXV. -/
def withXv (d : List Nat) (v : Nat) : List Nat :=
  d.set 0 (d.getD 0 0 - dXv d * 2 ^ 8 + v % 256 * 2 ^ 8)
def withDxv (d : List Nat) (v : Nat) : List Nat :=
  d.set 1 (d.getD 1 0 - dDxv d * 2 ^ 48 + v % 256 * 2 ^ 48)

/-- Copy c of a descriptor written, or of an entry. -/
def putDesc (w : Nat) (d : List Nat) (c : Nat) (s : State) : State :=
  stgPut (s.descBase c + 64 * w) ((List.range 8).flatMap (fun i => leBytes 8 (d.getD i 0))) s
def putEnt (e : Nat) (x : List Nat) (c : Nat) (s : State) : State :=
  stgPut (s.entBase c + 16 * e) ((List.range 2).flatMap (fun i => leBytes 8 (x.getD i 0))) s

/-- A window or entry has been written once more. -/
def bumpEpoch (k : Nat) (s : State) : State := s.setEpochAt k (s.epochAt k + 1)

/-! ## Caches (R255, R256) -/

/-- The line of a descriptor or entry in XU x's cache. -/
def State.cached (s : State) (x : Nat) (entry : Bool) (idx : Nat) : Option (List Nat) :=
  ((s.xcache x).find? (fun l => l.entry == entry && l.idx == idx)).map (·.words)

/-- A line enters XU x's cache of 4,096 lines; a full cache gives one up. -/
def cacheIn (x : Nat) (l : Line) (s : State) : State :=
  let old := (s.xcache x).filter (fun y => !(y.entry == l.entry && y.idx == l.idx))
  if old.length < 4096 then s.setXcache x (old ++ [l])
  else
    let (n, s1) := takeFree s
    s1.setXcache x (dropAt old (Config.evict n % 4096) ++ [l])

/-- The results of an HPI's cache that `p` selects go, and translations on their way are not kept. -/
def hpiForget (k : Nat) (p : HpiLine → Bool) (s : State) : State :=
  let h := s.hpi k
  s.setHpi k { h with
    cache := h.cache.filter (fun l => !p l)
    reqs := h.reqs.map (fun r => if r.xltTag ≠ 0x3FFF then { r with nocache := true } else r) }

/-- Window w is invalidated in the XUs and HPIs (R256, R263). -/
def forgetWindow (w : Nat) (s : State) : State :=
  let s1 := forN 4 (fun x s => s.setXcache x ((s.xcache x).filter (fun l => l.entry || l.idx != w))) s
  forN 2 (fun k s => hpiForget k (fun l => l.win == w) s) s1

/-- Entry e is removed from the XUs and HPIs (R256, R265). -/
def forgetEntry (e : Nat) (s : State) : State :=
  let s1 := forN 4 (fun x s => s.setXcache x ((s.xcache x).filter (fun l => !l.entry || l.idx != e))) s
  forN 2 (fun k s => hpiForget k (fun l => l.ent == e) s) s1

/-! ## Lookups (R252, R255, R257 to R259) -/

/-- A translation reply (TYPE 0x22): the word of Table 9-5; ADDR[29:12] names the entry used. -/
def xltAnswer (x : Nat) (p : Packet) (ent : Nat) (w : Word) (s : State) : State :=
  offer { p.reply 0x22 0 (leBytes 8 w.toNat) with src := 34 + x, addr := p.addr % 4096 + 4096 * ent } s

/-- The window and the offset that a translation request names. -/
def reqWin (p : Packet) : Nat := p.addr / 2 ^ 42 % 4096
def reqOff (p : Packet) : Nat := p.addr % 2 ^ 42

/-- What the descriptor alone decides: a failing XST, or the entry's number (R252). -/
def descCheck (d : List Nat) (o f : Nat) : Sum Nat Nat :=
  if !dEn d then .inl 1
  else if o ≥ 2 ^ dSize d then .inl 2
  else if f < dFirst d ∨ f > dLast d then .inl 5
  else .inr ((dBase d + o / 2 ^ 24) % 262144)

/-- The word that a descriptor and an entry give (R252). -/
def xltWord (d e : List Nat) (o : Nat) : Word :=
  if !eV e then xwFail 6
  else xwMake (dSwap d) (dSef d) (dXv d) (max (dWp d) (eWp e)) (ePort e) (eLreg e * 2 ^ 24 + o % 2 ^ 24)

/-- A miss ends for its requester: the answer goes out. -/
def missAnswer (x : Nat) (m : Miss) (ent : Nat) (w : Word) (s : State) : Miss × State :=
  ({ m with replied := true }, xltAnswer x m.pkt ent w s)

/-- A lookup that has its descriptor goes on to its entry: it is answered, or reads the entry's copies. -/
def missEntry (x : Nat) (m : Miss) (d : List Nat) (s : State) : Miss × State :=
  match descCheck d (reqOff m.pkt) m.pkt.fn with
  | .inl xst => missAnswer x m 0 (xwFail xst) s
  | .inr e =>
    if s.quarAt (4096 + e) then missAnswer x m e (xwFail 4) s
    else
      match s.cached x true e with
      | some v => missAnswer x m e (xltWord d v (reqOff m.pkt)) s
      | none => ({ m with desc := some d, ent := some e, eEpoch := s.epochAt (4096 + e) }, s)

/-- A miss that has nothing more to read. -/
def Miss.over (m : Miss) : Bool := m.replied && (!m.readD || m.dGot.length == 3)

/-- A miss stored at place i, or removed when it is over. -/
def putMiss (x i : Nat) (m : Miss) (s : State) : State :=
  s.setMissList x (if m.over then dropAt (s.missList x) i else (s.missList x).set i m)

/-- The lookup of a granted request at XU x. A miss beyond the 16 in progress waits. -/
def lookup (x : Nat) (p : Packet) (s : State) : Option State :=
  let w := reqWin p
  if s.under (34 + x) p.fn then some (xltAnswer x p 0 (xwFail 7) s)
  else if s.quarAt w then some (xltAnswer x p 0 (xwFail 3) s)
  else
    let room := decide ((s.missList x).length < 16)
    match s.cached x false w with
    | none =>
      if room then some (s.setMissList x (s.missList x ++ [{ pkt := p, readD := true, dEpoch := s.epochAt w }]))
      else none
    | some d =>
      let (m, s1) := missEntry x { pkt := p } d s
      if m.replied then some s1
      else if room then some (s1.setMissList x (s1.missList x ++ [m]))
      else none

/-- A drain request names its window in ADDR[11:0] and has ADDR[63] set. -/
def isDrainReq (p : Packet) : Bool := natBit p.addr 63

/-- A tag that no drain uses. -/
def State.drainTag (s : State) : Nat :=
  ((List.range 4096).find? (fun t => !s.xlt.drains.any (fun d => d.tag == t))).getD 0

/-- A drain job joins (R267). -/
def addDrain (d : Drain) (s : State) : State :=
  { s with xlt := { s.xlt with drains := s.xlt.drains ++ [{ d with tag := s.drainTag }] } }

/-- The granted request at an XU has been served. -/
def markServed (a : Nat) (g : Grant) (s : State) : State :=
  s.setArbiter a { s.arbiter a with grant := some { g with serving := false } }

/-- XLT_LOOKUP (R252, R255): the granted request at XU x is looked up; a drain request becomes a job. -/
def xltLookup (x : Nat) (s : State) : State :=
  match (s.arbiter (16 + x)).grant with
  | none => s
  | some g =>
    if !g.serving then s
    else if isDrainReq g.pkt then
      markServed (16 + x) g (addDrain { x := x, win := g.pkt.addr % 4096, req := some g.pkt } s)
    else
      match lookup x g.pkt s with
      | none => s
      | some s1 => markServed (16 + x) g s1

/-- XLT_LOOKUP (R252). -/
def execXltLookup (x : Fin 4) (s : State) : Host.Outcome State Fault Refusal := live s (xltLookup x.val)

/-- A command joins the sequencer (R263). -/
def enqueue (c : SeqCmd) (s : State) : State := { s with xlt := { s.xlt with seq := s.xlt.seq ++ [c] } }

/-- The copies, among those read, that differ from the value used or are not intact. -/
def toFix (got : List (Nat × Option (List Nat))) (v : List Nat) : List Nat :=
  (got.filter (fun g => g.2 != some v)).map (·.1)

/-- Descriptor copies have arrived at a miss (R255, R257). Two that agree are used at once; the third is checked when
it arrives. A window that cannot be resolved is quarantined, or read again if it was written meanwhile (R259). -/
def missDesc (x : Nat) (m : Miss) (s : State) : Miss × State :=
  let w := reqWin m.pkt
  let all := m.dGot.length == 3
  let ok := m.dGot.filterMap (·.2)
  let agreed := if all then resolveDesc (m.dGot.map (·.2))
    else match ok with
      | [a, b] => if a = b then some a else none
      | _ => none
  match agreed with
  | some d =>
    let fix := toFix m.dGot d
    let s1 := if all ∧ fix ≠ [] then enqueue (.rewrite false w m.dEpoch (some d) fix) s else s
    if m.desc.isSome || m.replied then (m, s1)
    else
      let s2 := when (s1.epochAt w == m.dEpoch) (cacheIn x { entry := false, idx := w, words := d }) s1
      missEntry x { m with desc := some d } d s2
  | none =>
    if !all || m.desc.isSome then (m, s)
    else if s.epochAt w ≠ m.dEpoch then ({ m with dGot := [], dEpoch := s.epochAt w }, s)
    else missAnswer x m 0 (xwFail 3) (enqueue (.rewrite false w m.dEpoch none []) s)

/-- Both entry copies have arrived at a miss (R258). -/
def missEnt (x e : Nat) (m : Miss) (s : State) : Miss × State :=
  let d := m.desc.getD []
  let get := fun c => ((m.eGot.find? (fun g => g.1 == c)).map (·.2)).getD none
  match resolveEnt (get 0) (get 1) with
  | some v =>
    let fix := toFix m.eGot v
    let s1 := if fix ≠ [] then enqueue (.rewrite true e m.eEpoch (some v) fix) s else s
    let s2 := when (s1.epochAt (4096 + e) == m.eEpoch) (cacheIn x { entry := true, idx := e, words := v }) s1
    missAnswer x m e (xltWord d v (reqOff m.pkt)) s2
  | none =>
    if s.epochAt (4096 + e) ≠ m.eEpoch then ({ m with eGot := [], eEpoch := s.epochAt (4096 + e) }, s)
    else missAnswer x m e (xwFail 4) (enqueue (.rewrite true e m.eEpoch none []) s)

/-- XU_MISS_COPY_ARRIVE (R255): a copy, read now at its bank, reaches miss m of XU x. -/
def missCopy (x i copy : Nat) (s : State) : State :=
  match (s.missList x)[i]? with
  | none => s
  | some m =>
    if copy < 3 then
      if m.readD && !m.dGot.any (fun g => g.1 == copy) then
        let s1 := stgCheckRange (s.descBase copy + 64 * reqWin m.pkt) 64 s
        let (m1, s2) := missDesc x { m with dGot := m.dGot ++ [(copy, s1.descCopy copy (reqWin m.pkt))] } s1
        putMiss x i m1 s2
      else s
    else
      match m.ent with
      | none => s
      | some e =>
        if m.replied || m.eGot.any (fun g => g.1 == copy - 3) then s
        else
          let s1 := stgCheckRange (s.entBase (copy - 3) + 16 * e) 16 s
          let m1 := { m with eGot := m.eGot ++ [(copy - 3, s1.entCopy (copy - 3) e)] }
          let (m2, s2) := if m1.eGot.length = 2 then missEnt x e m1 s1 else (m1, s1)
          putMiss x i m2 s2

/-- XU_MISS_COPY_ARRIVE (R255). -/
def execXuMissCopyArrive (x : Fin 4) (m : Nat) (copy : Fin 5) (s : State) : Host.Outcome State Fault Refusal :=
  live s (missCopy x.val m copy.val)

/-! ## The commit sequencer (R259, R263 to R266, R269) -/

/-- The MGC holds M39. -/
def State.m39 (s : State) : Bool := (s.sem 1063).held

/-- The next command, when no other's invalidates are out. -/
def State.seqHead (s : State) : Option SeqCmd := if s.xlt.cur.isSome then none else s.xlt.seq.head?

/-- The head command has ended. -/
def seqPop (s : State) : State := { s with xlt := { s.xlt with seq := s.xlt.seq.tail } }

/-- The head command's copies are written and its invalidates are out. -/
def seqOut (c : SeqCmd) (s : State) : State := { s with xlt := { s.xlt with seq := s.xlt.seq.tail, cur := some c } }

/-- A quarantine is recorded once (R259). -/
def quarantine (isEntry : Bool) (idx : Nat) (s : State) : State :=
  let k := if isEntry then 4096 + idx else idx
  if s.quarAt k then s
  else viol { ni := 34, code := 0x0503, object := idx, value := b2n isEntry }
    ((s.setQuarAt k true).fsat F.xltCntQuarEvents 0 1)

/-- COPY_REWRITE_EXECUTE (R259): discarded if its window or entry has been written since the copies were read. -/
def rewriteExec (s : State) : State :=
  match s.seqHead with
  | some (.rewrite isEntry idx epoch words fixed) =>
    let s1 := seqPop s
    if s1.epochAt (if isEntry then 4096 + idx else idx) ≠ epoch then s1
    else
      match words with
      | none => quarantine isEntry idx s1
      | some v =>
        (forL fixed (fun c s => if isEntry then putEnt idx v c s else putDesc idx v c s) s1).fsat F.xltCntCopyFix 0
          fixed.length
  | _ => s

/-- COPY_REWRITE_EXECUTE (R259). -/
def execCopyRewriteExecute (s : State) : Host.Outcome State Fault Refusal := live s rewriteExec

/-- The edit set of a writer (R262). -/
def setOf : Writer → Nat
  | .host k => k.val
  | .prog e => 2 + e.val / 8
  | .mgc => 10
  | .drv fn => fn.val / 1024

/-- A commit or bump of an edit set is in the sequencer: WIN_STS.BUSY. -/
def State.winBusy (s : State) (set : Nat) : Bool :=
  (s.xlt.seq ++ s.xlt.cur.toList).any (fun c => match c with
    | .commit k _ _ => k == set
    | .bump k _ _ => k == set
    | _ => false)

/-- WIN_STS.DRAINING. -/
def State.winDraining (s : State) (set : Nat) : Bool := s.xlt.drains.any (fun d => d.set == some set)

/-- TE_STS.BUSY. -/
def State.teBusy (s : State) (set : Nat) : Bool :=
  (s.xlt.seq ++ s.xlt.cur.toList).any (fun c => match c with
    | .entry k _ _ => k == set
    | _ => false)

/-- The three words that an edit set's shadows hold (R263). -/
def State.setWords (s : State) (k : Nat) : List Nat :=
  [(bitsPut (s.sget .winCw k) 15 8 0).toNat, (s.sget .winAcc k).toNat, (s.sget .winTag k).toNat]

/-- The checks of R264, in the order of Table 11-6. -/
def commitError (d : List Nat) (xv dxv : Nat) : Nat :=
  if dSize d < 24 ∨ 42 < dSize d then 1
  else if dBase d + 2 ^ (dSize d - 24) > 262144 then 2
  else if dFirst d > dLast d then 3
  else if (xv + 1 + 256 - dxv) % 256 ≥ 128 then 4
  else 0

/-- A command of an edit set ends with a WIN_STS.ERR code; the device's own commands have no set. -/
def setErr (k code : Nat) (s : State) : State := if k < 11 then s.fset F.winStsErr k code else s

/-- The active XV and DXV of a window. What they are for a window that cannot be resolved the spec leaves open: free
values. -/
def activeVersions (w : Nat) (s : State) : (Nat × Nat) × State :=
  match s.activeDesc w with
  | some d => ((dXv d, dDxv d), s)
  | none =>
    let (n, s1) := takeFree s
    (((Config.freeWord n).toNat % 256, (Config.freeWord n).toNat / 256 % 256), s1)

/-- COMMIT_EXECUTE (R263, R264). -/
def commitExec (s : State) : State :=
  match s.seqHead with
  | some (.commit k w words) =>
    if s.m39 then s
    else
      let ((xv, dxv), s0) := activeVersions w s
      let err := commitError words xv dxv
      if err ≠ 0 then setErr k err (seqPop s0)
      else
        let d := withDxv (withXv words (xv + 1)) dxv
        let s1 := forN 3 (putDesc w d) s0
        seqOut (.commit k w words) (bumpEpoch w (s1.setQuarAt w false))
  | _ => s

/-- COMMIT_EXECUTE (R263). -/
def execCommitExecute (s : State) : Host.Outcome State Fault Refusal := live s commitExec

/-- COMMIT_ACKS_DONE (R263, R266): the six invalidates are acknowledged; the commit or bump has taken effect. -/
def acksDone (s : State) : State :=
  let done := fun (k w : Nat) => setErr k 0 (forgetWindow w { s with xlt := { s.xlt with cur := none } })
  match s.xlt.cur with
  | some (.commit k w _) => done k w
  | some (.bump k w _) => done k w
  | _ => s

/-- COMMIT_ACKS_DONE (R263). -/
def execCommitAcksDone (s : State) : Host.Outcome State Fault Refusal := live s acksDone

/-- The drain that a reset bump runs has been asked for and has not ended. -/
def State.bumpDrain (s : State) (w : Nat) : Bool := s.xlt.drains.any (fun d => d.forBump && d.win == w)

/-- BUMP_EXECUTE (R266, R269): XV rises by 1. A requested bump is refused at the limit; a reset bump there drains its
window first. -/
def bumpExec (s : State) : State :=
  match s.seqHead with
  | some (.bump k w own) =>
    if s.m39 || s.bumpDrain w then s
    else
      match s.activeDesc w with
      | none => setErr k 0 (seqPop s)
      | some d =>
        if (dXv d + 1 + 256 - dDxv d) % 256 ≥ 128 then
          if own then addDrain { x := w % 4, win := w, forBump := true } s
          else setErr k 4 (seqPop s)
        else
          seqOut (.bump k w own) (bumpEpoch w (forN 3 (putDesc w (withXv d (dXv d + 1))) s))
  | _ => s

/-- BUMP_EXECUTE (R266). -/
def execBumpExecute (s : State) : Host.Outcome State Fault Refusal := live s bumpExec

/-- The bumps of a reset (R266): every window that one of the functions owns. -/
def bumpOwned (mine : Nat → Bool) (s : State) : State :=
  forN 4096 (fun w s =>
    match s.activeDesc w with
    | none => s
    | some d => if dOwned d && mine (dOwner d) then enqueue (.bump 11 w true) s else s) s

/-- A WIN_CMD: ignored with ERR 0x5 while its set is busy or draining (R264). -/
def winCmd (w : Writer) (op : Nat) (s : State) : State :=
  let k := setOf w
  let win := s.fget F.winSelWin k
  if op = 0 then s
  else if s.winBusy k || s.winDraining k then setErr k 5 s
  else if op = 1 then enqueue (.commit k win (s.setWords k)) s
  else if op = 2 then addDrain { x := win % 4, win := win, set := some k } s
  else enqueue (.bump k win false) s

/-- WIN_CMD_COMMIT (R263). -/
def execWinCmdCommit (w : Writer) (s : State) : Host.Outcome State Fault Refusal :=
  live s (guarded w .winCmd (setOf w) 1 (winCmd w 1))
/-- WIN_CMD_DRAIN (R267). -/
def execWinCmdDrain (w : Writer) (s : State) : Host.Outcome State Fault Refusal :=
  live s (guarded w .winCmd (setOf w) 2 (winCmd w 2))
/-- WIN_CMD_BUMP (R266). -/
def execWinCmdBump (w : Writer) (s : State) : Host.Outcome State Fault Refusal :=
  live s (guarded w .winCmd (setOf w) 3 (winCmd w 3))

/-! ## Drains (R267) -/

/-- Drain i of XU x. -/
def State.drainAt (s : State) (x i : Nat) : Option Drain := (s.xlt.drains.filter (fun d => d.x == x))[i]?

/-- A drain job replaced, or removed. -/
def putDrain (d : Drain) (s : State) : State :=
  { s with xlt := { s.xlt with drains := s.xlt.drains.map (fun y => if y.tag = d.tag then d else y) } }
def endDrain (d : Drain) (s : State) : State :=
  { s with xlt := { s.xlt with drains := s.xlt.drains.filter (fun y => y.tag != d.tag) } }

/-- A drain reports v: the engine's reply holds DONE and v (R215), a set's DRAINING clears. -/
def reportDrain (d : Drain) (v : Nat) (s : State) : State :=
  let s1 := endDrain d s
  match d.req with
  | some p => offer { p.reply 0x22 0 (leBytes 8 (v * 256)) with src := 34 + d.x } s1
  | none => match d.set with
    | some k => setErr k 0 s1
    | none => s1

/-- A commit, bump or DXV write of a window is in the sequencer. -/
def State.inSeq (s : State) (w : Nat) : Bool :=
  (s.xlt.seq ++ s.xlt.cur.toList).any (fun c => match c with
    | .commit _ x _ => x == w
    | .bump _ x _ => x == w
    | .dxv x _ _ => x == w
    | _ => false)

/-- The ten sources of a drain's probes (R267). -/
def probeNis : List Nat := [0, 1, 10, 11, 12, 13, 14, 15, 16, 17]

/-- DRAIN_START (R267, R269). -/
def drainStart (x i : Nat) (s : State) : State :=
  match s.drainAt x i with
  | none => s
  | some d =>
    if d.started || (!d.forBump && s.inSeq d.win) then s
    else
      let ((v, dxv), s1) := activeVersions d.win s
      if v = dxv then reportDrain d v s1
      else
        forL probeNis (fun ni s => offer { s.mkPkt 0 0x00 (34 + x) ni 0 with asp := 6, addr := d.win, tag := d.tag } s)
          (putDrain { d with started := true, v := v } s1)

/-- DRAIN_START (R267). -/
def execDrainStart (x : Fin 4) (i : Nat) (s : State) : Host.Outcome State Fault Refusal := live s (drainStart x.val i)

/-- A context that is open and has a local side. -/
def Ctx.localOpen (x : Ctx) : Bool := x.used && !x.done && (x.sasp == 2 || x.dasp == 2)

/-- PROBE_ARRIVE (R267): the source holds the probe with the work that it waits for. -/
def probeArrive (ni i : Nat) (s : State) : State :=
  match takeArrived ni i s with
  | none => s
  | some (p, s1) =>
    if p.hdrBad ∨ p.cls ≠ 0 ∨ p.ty ≠ 0 ∨ p.asp ≠ 6 ∨ p.len ≠ 0 ∨ p.src < 34 ∨ 38 ≤ p.src then s
    else
      let c := ni - 10
      let cl := 10 ≤ ni && ni < 18
      let x : Probe := {
        pkt := p
        at_ := s1.now
        ctxs := if cl then (s1.pcl.ctxs.filter (fun y => y.1 / 512 == c && y.2.localOpen)).map (fun y => (y.1, y.2.seq))
          else []
        engs := if cl then (((List.range 8).map (8 * c + ·)).filter (fun e => (s1.eng e).hold)).map
          (fun e => (e, (s1.eng e).holds)) else [] }
      s1.setProbesAt ni (s1.probesAt ni ++ [x])

/-- PROBE_ARRIVE (R267). -/
def execProbeArrive (ni : Fin 46) (i : Nat) (s : State) : Host.Outcome State Fault Refusal :=
  live s (probeArrive ni.val i)

/-- Some packet that `f` selects is on its way to a gate or held there: it waits for injection, is in the fabric, has
reached its NI, or is held. -/
def State.beforeRelease (s : State) (f : Packet → Bool) : Bool :=
  s.fab.inq.any (fun q => q.2.any f)
    || s.fab.flights.any (fun x => match x.2 with | none => false | some y => f y.pkt)
    || s.fab.arrived.any (fun q => decide (q.1 < 10) && q.2.any f)
    || s.ord.gates.any (fun g => g.2.held.any (fun h => f h.pkt))

/-- A probe's source has none of the work left that the probe waits for (R267). -/
def State.probeReady (s : State) (ni : Nat) (x : Probe) : Bool :=
  let old := fun (p : Packet) => p.src == ni && decide (p.born ≤ x.at_) && p.asp == 2
  if ni < 2 then !s.beforeRelease (fun p => old p && decide (p.cls < 2))
  else
    x.ctxs.all (fun k => !((s.ctx k.1).localOpen && (s.ctx k.1).seq == k.2))
      && x.engs.all (fun e => !((s.eng e.1).hold && (s.eng e.1).holds == e.2))
      && !s.beforeRelease (fun p => old p && (p.ty == 4 || p.ty == 0x11))

/-- PROBE_ANSWER (R267, R497). -/
def probeAnswer (ni i : Nat) (s : State) : State :=
  match (s.probesAt ni)[i]? with
  | none => s
  | some x =>
    if s.probeReady ni x then
      offer { x.pkt.reply 0x21 0 [] with src := ni } (s.setProbesAt ni (dropAt (s.probesAt ni) i))
    else s

/-- PROBE_ANSWER (R267). -/
def execProbeAnswer (ni : Fin 46) (i : Nat) (s : State) : Host.Outcome State Fault Refusal :=
  live s (probeAnswer ni.val i)

/-- The answer to a drain's probe from an NI, among the packets that have reached the XU. -/
def probeAnswerOf (d : Drain) (ni : Nat) (p : Packet) : Bool :=
  p.cls == 2 && p.src == ni && p.tag == d.tag && (p.ty == 0x20 || p.ty == 0x21) && !p.hdrBad

/-- DXV = v in every copy of a window. -/
def writeDxv (w v : Nat) (s : State) : State :=
  match s.activeDesc w with
  | none => s
  | some d => bumpEpoch w (forN 3 (putDesc w (withDxv d v)) s)

/-- DRAIN_PROBES_DONE (R267, R269): all ten have answered; DXV is written through the sequencer, or at once for a
reset bump. -/
def probesDone (x i : Nat) (s : State) : State :=
  match s.drainAt x i with
  | none => s
  | some d =>
    let ni := 34 + x
    if d.started && probeNis.all (fun n => (s.arrived ni).any (probeAnswerOf d n)) then
      let s1 := s.setArrived ni ((s.arrived ni).filter (fun p => !probeNis.any (fun n => probeAnswerOf d n p)))
      if d.forBump then endDrain d (writeDxv d.win d.v s1)
      else enqueue (.dxv d.win d.v d.tag) (putDrain { d with started := true } s1)
    else s

/-- DRAIN_PROBES_DONE (R267). -/
def execDrainProbesDone (x : Fin 4) (i : Nat) (s : State) : Host.Outcome State Fault Refusal :=
  live s (probesDone x.val i)

/-- DXV_WRITE_EXECUTE (R215, R267): DXV = v, and the drain reports v. -/
def dxvExec (s : State) : State :=
  match s.seqHead with
  | some (.dxv w v tag) =>
    let s1 := writeDxv w v (seqPop s)
    match s1.xlt.drains.find? (fun d => d.tag == tag) with
    | none => s1
    | some d => reportDrain d v s1
  | _ => s

/-- DXV_WRITE_EXECUTE (R267). -/
def execDxvWriteExecute (s : State) : Host.Outcome State Fault Refusal := live s dxvExec

/-! ## Entries (R265) -/

/-- A TE_CMD write while BUSY is ignored and sets IGN. -/
def teCmd (w : Writer) (f : Nat → State → State) (s : State) : State :=
  let k := setOf w
  if s.teBusy k then s.fset F.teStsIgn k 1 else f k s

/-- OP = write: the entry write joins the sequencer with TE_DATA as it stands. -/
def teWrite (k : Nat) (s : State) : State := enqueue (.entry k (s.fget F.teSelEntry k) (s.rget .teData k).toNat) s

/-- OP = read: TE_DATA and TE_WVER take the entry as R258 resolves it. -/
def teRead (k : Nat) (s : State) : State :=
  let e := s.fget F.teSelEntry k
  let s1 := stgCheckRange (s.entBase 1 + 16 * e) 16 (stgCheckRange (s.entBase 0 + 16 * e) 16 s)
  let a := s1.entCopy 0 e
  let b := s1.entCopy 1 e
  match resolveEnt a b with
  | some v =>
    if s1.quarAt (4096 + e) then (s1.rput .teData k 0).fset F.teStsQuar k 1
    else
      let fix := toFix [(0, a), (1, b)] v
      let s2 := if fix ≠ [] then enqueue (.rewrite true e (s1.epochAt (4096 + e)) (some v) fix) s1 else s1
      ((s2.rput .teData k (BitVec.ofNat 64 (v.getD 0 0))).rput .teWver k (BitVec.ofNat 64 (v.getD 1 0 % 2 ^ 32))).fset
        F.teStsQuar k 0
  | none =>
    let s2 := enqueue (.rewrite true e (s1.epochAt (4096 + e)) none []) s1
    (s2.rput .teData k 0).fset F.teStsQuar k 1

/-- TE_CMD_WRITE (R265). -/
def execTeCmdWrite (w : Writer) (s : State) : Host.Outcome State Fault Refusal :=
  live s (guarded w .teCmd (setOf w) 1 (teCmd w teWrite))
/-- TE_CMD_READ (R265). -/
def execTeCmdRead (w : Writer) (s : State) : Host.Outcome State Fault Refusal :=
  live s (guarded w .teCmd (setOf w) 2 (teCmd w teRead))

/-- The higher WVER of the two copies. Where neither is higher, or neither is intact, the spec states none: a free
value. -/
def higherWver (a b : Option (List Nat)) (s : State) : Nat × State :=
  match a, b with
  | some x, none => (x.getD 1 0, s)
  | none, some y => (y.getD 1 0, s)
  | some x, some y =>
    if x.getD 1 0 = y.getD 1 0 ∨ wverAbove (x.getD 1 0) (y.getD 1 0) then (x.getD 1 0, s)
    else if wverAbove (y.getD 1 0) (x.getD 1 0) then (y.getD 1 0, s)
    else let (n, s1) := takeFree s; ((Config.freeWord n).toNat % 2 ^ 32, s1)
  | none, none => let (n, s1) := takeFree s; ((Config.freeWord n).toNat % 2 ^ 32, s1)

/-- ENTRY_WRITE_EXECUTE (R265). -/
def entryExec (s : State) : State :=
  match s.seqHead with
  | some (.entry _ e w0) =>
    if s.m39 then s
    else
      let (v, s1) := higherWver (s.entCopy 0 e) (s.entCopy 1 e) s
      let s2 := forN 2 (putEnt e [w0 % 2 ^ 23, (v + 1) % 2 ^ 32]) (seqPop s1)
      forgetEntry e (bumpEpoch (4096 + e) (s2.setQuarAt (4096 + e) false))
  | _ => s

/-- ENTRY_WRITE_EXECUTE (R265). -/
def execEntryWriteExecute (s : State) : Host.Outcome State Fault Refusal := live s entryExec

/-! ## Registers (R256, R278, R280) -/

/-- A write of WIN_SEL loads the set's shadows with the descriptor of the window selected (R280). Of a window that
cannot be resolved there is none to load: free values. -/
def loadShadows (k : Nat) (s : State) : State :=
  let win := s.fget F.winSelWin k
  let (d, s1) := match s.activeDesc win with
    | some d => (d, s)
    | none =>
      let (n, s1) := takeFree s
      (([0, 1, 2].map (fun i => (Config.freeWord (n + i)).toNat)), { s1 with free := s1.free + 2 })
  let s2 := s1.sput .winCw k (BitVec.ofNat 64 (d.getD 0 0 % 2 ^ 50))
  let s3 := s2.sput .winAcc k (BitVec.ofNat 64 (d.getD 1 0 % 2 ^ 44))
  s3.sput .winTag k (BitVec.ofNat 64 (d.getD 2 0))

/-- WIN_SEL (R280): refused with BUSY while a command of its set runs. -/
def winSelWrite (w : Writer) (p : Packet) (value : Word) (s : State) : State :=
  let k := setOf w
  let win := value.toNat % 4096
  if (s.winBusy k || s.winDraining k) && win != s.fget F.winSelWin k then busyWrite w p s
  else loadShadows k (s.fset F.winSelWin k win)

/-- WIN_SEL_WRITE (R280). -/
def execWinSelWrite (w : Writer) (value : BitVec 32) (s : State) : Host.Outcome State Fault Refusal :=
  live s (guardedP w .winSel (setOf w) (value.setWidth 64) (fun p => winSelWrite w p (value.setWidth 64)))

/-- F_WIN_n (R256, R260): the results of FN n go. -/
def fWinWrite (fn : Nat) (value : Word) (s : State) : State :=
  let s1 := (s.fset F.fWinEn fn (bitsGet value 31 31)).fset F.fWinWin fn (bitsGet value 11 0)
  hpiForget (portOf fn) (fun l => l.fn == fn) s1

/-- F_WIN_WRITE (R256). -/
def execFWinWrite (w : Writer) (fn : Fin 2048) (value : BitVec 32) (s : State) : Host.Outcome State Fault Refusal :=
  live s (guarded w .fWin fn.val (value.setWidth 64) (fWinWrite fn.val (value.setWidth 64)))

/-- XLT_LOC_WRITE (R278, R280): the MGC alone. -/
def execXltLocWrite (w : Writer) (value : BitVec 32) (s : State) : Host.Outcome State Fault Refusal :=
  live s (guarded w .xltLoc 0 (value.setWidth 64) (fun s => s.rput .xltLoc 0 ((value.setWidth 64) &&& 0xFFFFF)))

/-- What the registers of an edit set that the block computes read as. -/
def State.xltView (s : State) (r : RegId) (k : Nat) : Word :=
  let d := (s.activeDesc (s.fget F.winSelWin k)).getD []
  match r with
  | .winCw => bitsPut (s.sget .winCw k) 15 8 (dXv d)
  | .winSts =>
    BitVec.ofNat 64 (b2n (s.winBusy k) * 2 ^ 31 + b2n (s.winDraining k) * 2 ^ 30
      + b2n (s.quarAt (s.fget F.winSelWin k)) * 2 ^ 29 + dDxv d * 2 ^ 16 + dXv d * 2 ^ 8 + s.fget F.winStsErr k)
  | .teSts => bitsPut (s.rget .teSts k) 31 31 (b2n (s.teBusy k))
  | r => s.rget r k

end Sys2Proof.Machine
end

