-- ==== Sys2Proof/Machine/HostPort.lean ====
section
/-!
DEFINITION. The host ports (chapter 12): decode of host TLPs, the pipeline that keeps them in order through their
translation, requests to the host with their tags and timeouts, completions, LTR, and the egress slot tables (R395 to
R397). Fabric tags below 8,192 are those of host requests, the ones above those of translation requests.
-/
namespace Sys2Proof.Machine

/-! ## The link -/

/-- Whether a link state is DL_Active (R282). -/
def linkActive : LinkState → Bool
  | .l0 | .l0p | .l1 | .l11 | .l12 => true
  | _ => false

/-- The code of a link state (Table 12-10). -/
def linkCode (x : LinkState) : Nat := x.ctorIdx

/-- Whether host port k's link is DL_Active. -/
def State.hostUp (s : State) (k : Nat) : Bool := linkActive (s.hpi k).link

/-- Host port k's link carries TLPs: it is DL_Active and HDk is ON (R452). -/
def State.hostLive (s : State) (k : Nat) : Bool := s.hostUp k && s.domOn (14 + k)

/-- A change of a host link's STATE, with its trace record (Table 17-13). -/
def setHostLink (k : Nat) (x : LinkState) (s : State) : State :=
  let h := s.hpi k
  if h.link = x then s
  else
    let s1 := touch (14 + k) (s.setHpi k { h with link := x })
    trace k 3 1 0xFFFF (leBytes 1 k ++ leBytes 1 (linkCode x) ++ leBytes 1 (s1.fget F.hpiLinkStsSpeed k)
      ++ leBytes 1 (s1.fget F.hpiLinkStsWidth k)) false s1

/-- A link that is DL_Active may go from x to y (R282): L1 substates only from and to L1 or on the way back to L0. -/
def linkMove (x y : LinkState) : Bool :=
  linkActive x && linkActive y && x != y &&
    (match y with
     | .l11 | .l12 => x == .l1
     | .l0p => x == .l0
     | _ => true)

/-- HOST_LINK_STATE_CHANGE (R282): in L0p the width narrows; elsewhere it is the trained one. -/
def hostLinkMove (k : Nat) (x : LinkState) (w : Nat) (s : State) : State :=
  let h := s.hpi k
  if linkMove h.link x && s.domOn (14 + k) && (x != .l0p || (decide (w < h.width) && (w == 1 || w == 2 || w == 4 || w == 8))) then
    setHostLink k x (s.fset F.hpiLinkStsWidth k (if x = .l0p then w else h.width))
  else s

/-- HOST_LINK_STATE_CHANGE (R282). -/
def execHostLinkStateChange (k : Fin 2) (st : LinkState) (width : Nat) (s : State) :
    Host.Outcome State Fault Refusal := live s (hostLinkMove k.val st width)

/-! ## TLPs -/

/-- The byte enables of the doubleword at 4d that a TLP's byte enables give. -/
def dwEnables (t : Tlp) (d : Nat) : Nat :=
  let en := byteEnables t.addr t.len t.fbe t.lbe
  (List.range 4).foldl (fun acc i =>
    acc + b2n (decide (t.addr ≤ 4 * d + i) && en.getD (4 * d + i - t.addr) false) * 2 ^ i) 0

/-- The four doublewords of a memory TLP's header with a 64-bit address (PCI Express: PRESUMED, log 16); `kind` as in
HostReq. -/
def tlpHdr (kind : Nat) (t : Tlp) : List Nat :=
  let ty := [0x60, 0x20, 0x6C, 0x6D, 0x6E].getD kind 0x20
  let d0 := t.addr / 4
  let d1 := (t.addr + t.len - 1) / 4
  let n := if 2 ≤ kind then t.data.length / 4 else d1 + 1 - d0
  [ty * 2 ^ 24 + t.tag / 512 % 2 * 2 ^ 23 + t.tag / 256 % 2 * 2 ^ 19 + b2n t.ido * 2 ^ 18 + b2n t.ep * 2 ^ 14
      + b2n t.ro * 2 ^ 13 + b2n t.ns * 2 ^ 12 + n % 1024,
    t.requester % 65536 * 65536 + t.tag % 256 * 256 + (if d1 = d0 then 0 else dwEnables t d1) * 16 + dwEnables t d0,
    t.addr / 2 ^ 32, t.addr / 4 % 2 ^ 30 * 4]

/-- A TLP header's bytes as they go onto the lanes: the high byte of each doubleword first. -/
def hdrBytesOf (h : List Nat) : List Byte := h.flatMap (fun d => (leBytes 4 d).reverse)

/-- The header of a request that port k sends for FN fn. -/
def reqHdr (fn addr len tag : Nat) (p : Packet) : List Nat :=
  tlpHdr 1 { addr := addr, len := len, fbe := fbeFor addr len, lbe := lbeFor addr len, data := [], ro := p.ro,
             ido := p.ido, ns := p.ns, ep := false, tag := tag, requester := fn % 1024, ecrcErr := false }

/-- The three doublewords of a completion's header (PRESUMED, log 16). -/
def cplHdr (c : Cpl) : List Nat :=
  [(if c.data.isEmpty then 0x0A else 0x4A) * 2 ^ 24 + c.tag / 512 % 2 * 2 ^ 23 + c.tag / 256 % 2 * 2 ^ 19
      + b2n c.ep * 2 ^ 14 + (c.data.length + 3) / 4 % 1024,
    c.status % 8 * 2 ^ 13 + c.data.length % 4096, c.rid % 65536 * 65536 + c.tag % 256 * 256]

/-- A TLP leaves port k: an injected ECRC error strikes it (R425). -/
def sendTlp (k : Nat) (o : Out) (s : State) : State :=
  let h := s.hpi k
  if h.inj then ((s.setHpi k { h with inj := false }).emit (.ecrcError k)).emit o else s.emit o

/-- Whether FN fn's TLPs carry ECRC (R300). -/
def State.ecrcOf (s : State) (fn : Nat) : Bool := s.cfgGet fn .ecrcGenEn == 1

/-- Max_Payload_Size of a port in bytes, and Max_Read_Request_Size (R292), from its PF's settings. -/
def State.mps (s : State) (k : Nat) : Nat := 128 * 2 ^ min (s.cfgGet (1024 * k) .maxPayloadSize) 2
def State.mrrs (s : State) (k : Nat) : Nat := 128 * 2 ^ min (s.cfgGet (1024 * k) .maxReadRequestSize) 5

/-- Bytes of the next completion TLP of `left` bytes from an address: at most Max_Payload_Size, ending at a Read
Completion Boundary of 128 bytes or at the end (R292). -/
def cplLen (mps addr left : Nat) : Nat := min left ((addr + mps) / 128 * 128 - addr)

/-- A host request completes without data. -/
def hostFail (k fn status : Nat) (t : Tlp) (s : State) : State :=
  sendTlp k (.tlpCpl k fn t.requester t.tag status [] false (s.ecrcOf fn)) s

/-- A host request completes with UR, which the function logs as advisory (R290). -/
def hostUr (k fn kind : Nat) (t : Tlp) (s : State) : State :=
  aerUr fn (tlpHdr kind t) true (hostFail k fn 1 t s)

/-- Completer Abort of a function, advisory (PCI Express: PRESUMED, log 16). -/
def hostCa (k fn kind : Nat) (t : Tlp) (s : State) : State :=
  aerUncor fn 15 "Completer Abort" (tlpHdr kind t) true (hostFail k fn 4 t s)

/-- `n` bytes complete a host request from its byte `off`, in one TLP. -/
def hostData (k fn : Nat) (t : Tlp) (off n : Nat) (data : List Byte) (ep : Bool) (s : State) : State :=
  sendTlp k (.tlpCpl k fn t.requester t.tag 0 ((data.drop off).take n) ep (s.ecrcOf fn)) s

/-- A host request completes with data, in as many TLPs as it takes. -/
def hostDataAll (k fn : Nat) (t : Tlp) (data : List Byte) (ep : Bool) : Nat → Nat → State → State
  | 0, _, s => s
  | fuel + 1, off, s =>
    if data.length ≤ off then s
    else
      let n := cplLen (s.mps k) (t.addr + off) (data.length - off)
      hostDataAll k fn t data ep fuel (off + n) (hostData k fn t off n data ep s)

/-! ## Decode (R284, R289, R290) -/

/-- Address a lies in the `size` bytes from `base`. -/
def inSpan (a base size : Nat) : Bool := decide (base ≤ a) && decide (a < base + size)

/-- VF j of port k exists (R284, R286). -/
def State.vfExists (s : State) (k j : Nat) : Bool :=
  1 ≤ j && decide (j ≤ s.cfgGet (1024 * k) .numVfs) && s.cfgGet (1024 * k) .vfEnable == 1

/-- Memory space of a function is enabled. -/
def State.memEnabled (s : State) (fn : Nat) : Bool :=
  if isPf fn then s.cfgGet fn .memorySpaceEnable == 1 else s.cfgGet (pfOf fn) .vfMse == 1

/-- The size of BAR2 of a PF and of a VF (R289). -/
def State.pfBar2Size (s : State) (k : Nat) : Nat := 2 ^ s.fget F.hpiCfgPfBar2Log2 k
def State.vfBar2Size (s : State) (k : Nat) : Nat := 2 ^ s.fget F.hpiCfgVfBar2Log2 k

/-- The functions that a host address lies in: FN, whether in BAR2, and the offset. -/
def State.barHits (s : State) (k a : Nat) : List (Nat × Bool × Nat) :=
  let pf := 1024 * k
  let b0 := s.cfgGet pf .bar0
  let b2 := s.cfgGet pf .bar2
  let v0 := s.cfgGet pf .vfBar0
  let v2 := s.cfgGet pf .vfBar2
  let j0 := (a - v0) / 65536 + 1
  let j2 := (a - v2) / s.vfBar2Size k + 1
  (if inSpan a b0 (2 ^ 25) then [(pf, false, a - b0)] else [])
    ++ (if inSpan a b2 (s.pfBar2Size k) then [(pf, true, a - b2)] else [])
    ++ (if v0 ≤ a ∧ s.vfExists k j0 = true then [(pf + j0, false, (a - v0) % 65536)] else [])
    ++ (if v2 ≤ a ∧ s.vfExists k j2 = true then [(pf + j2, true, (a - v2) % s.vfBar2Size k)] else [])

/-- The function that a host address names: one whose memory space is enabled goes first. -/
def State.barHit (s : State) (k a : Nat) : Option (Nat × Bool × Nat) :=
  let l := s.barHits k a
  match l.find? (fun h => s.memEnabled h.1) with
  | some h => some h
  | none => l.head?

/-- The FN field of a packet that a host TLP becomes (R50): the function's own with IDO, else the PF's. -/
def fieldFn (k fn : Nat) (t : Tlp) : Nat := if t.ido then fn else 1024 * k

/-- A packet of a host TLP (R293). -/
def State.tlpPkt (s : State) (k fn cls ty dst : Nat) (t : Tlp) : Packet :=
  { s.mkPkt cls ty k dst (fieldFn k fn t) with
    len := t.len, fbe := t.fbe, lbe := t.lbe, data := t.data, ro := t.ro, ido := t.ido, ns := t.ns, ep := t.ep }

/-- A host write that fails before it is a packet, in the posted-fault ring of FN fn (R261, R300). -/
def hostPfr (k fn cause info : Nat) (t : Tlp) (s : State) : State :=
  pfr k { s.tlpPkt k fn 1 0x10 k t with fn := fn, addr := t.addr, asp := k, stamp := s.stampAt k } cause info s

/-! ## The pipeline (R256, R260) -/

/-- A host request is a write. -/
def HostReq.write (r : HostReq) : Bool := r.kind == 0

/-- The TYPE of a host request's packet. -/
def kindTy (kind : Nat) : Nat := if kind = 0 then 0x10 else kind - 1

/-- The lowest fabric tag that no host request of port k holds. -/
def State.hostTag (s : State) (k : Nat) : Option Nat :=
  (List.range 8192).find? (fun t => !(s.hpi k).opens.any (fun o => o.tag == t))

/-- The front request of the pipeline enters, once its packet is made; a non-posted one takes a fabric tag. -/
def pumpOne (k : Nat) (s : State) : State :=
  let h := s.hpi k
  match h.reqs with
  | [] => s
  | r :: rest =>
    match r.pkt with
    | none => s
    | some p =>
      if p.cls = 1 then offer p (s.setHpi k { h with reqs := rest })
      else
        match s.hostTag k with
        | none => s
        | some t => offer { p with tag := t }
          (s.setHpi k { h with reqs := rest, opens := h.opens ++ [{ tag := t, dst := p.dst, fn := r.fn, tlp := r.tlp }] })

/-- Every request at the front whose packet is made enters, in order. -/
def hostPump (k : Nat) (s : State) : State := forN (s.hpi k).reqs.length (fun _ => pumpOne k) s

/-- A request joins the pipeline. -/
def hostPush (k : Nat) (r : HostReq) (s : State) : State :=
  let h := s.hpi k
  hostPump k (s.setHpi k { h with reqs := h.reqs ++ [r] })

/-- The packet of a translated BAR2 access (R366, R367). -/
def State.bar2Pkt (s : State) (k fn kind : Nat) (t : Tlp) (w : Word) : Packet :=
  { s.tlpPkt k fn (if kind = 0 then 1 else 0) (kindTy kind) (s.portNi (xwPort w)) t with
    asp := 2, addr := xwLaddr w, xv := xwXv w, swap := xwSwap w, tag := if kind = 0 then fn else 0
    sef := xwSef w == 1 && kind == 1 }

/-- What a translation makes of a host access (Table 11-3): its packet, or a failure with its XST. -/
def State.bar2Answer (s : State) (k fn kind : Nat) (t : Tlp) (w : Word) : Sum Nat Packet :=
  if xwXst w ≠ 0 then .inl (xwXst w)
  else if xwWp w = 1 ∧ kind ≠ 1 then .inl 0
  else .inr (s.bar2Pkt k fn kind t w)

/-- A BAR2 access that is not translated (R261). -/
def bar2Fail (k fn kind xst : Nat) (t : Tlp) (s : State) : State :=
  if kind = 0 then hostPfr k fn 3 xst t s else hostUr k fn kind t s

/-- The translation of an offset that the HPI's cache holds. -/
def State.cacheHit (s : State) (k fn win off : Nat) : Option Word :=
  ((s.hpi k).cache.find? (fun l => l.fn == fn && l.win == win && l.reg == off / 2 ^ 24)).map
    (fun l => l.word + BitVec.ofNat 64 (off % 2 ^ 24))

/-- A fabric tag that no translation on its way holds. -/
def State.xltTag (s : State) (k : Nat) : Nat :=
  ((List.range 8191).map (· + 8192)).find? (fun t => !(s.hpi k).reqs.any (fun r => r.xltTag == t)) |>.getD 8192

/-- A BAR2 access (R260): its window is F_WIN_n; a result in the cache serves it at once, else its translation is
asked for. -/
def bar2Access (k fn kind off : Nat) (t : Tlp) (s : State) : State :=
  if !s.flag F.fWinEn fn then bar2Fail k fn kind 1 t s
  else
    let win := s.fget F.fWinWin fn
    match s.cacheHit k fn win off with
    | some w =>
      match s.bar2Answer k fn kind t w with
      | .inl x => bar2Fail k fn kind x t s
      | .inr p => hostPush k { kind := kind, tlp := t, fn := fn, win := win, pkt := some p } s
    | none =>
      let tag := s.xltTag k
      let q := { s.mkPkt 0 0x06 k (34 + 2 * k + win % 2) fn with addr := win * 2 ^ 42 + off, tag := tag, len := 0 }
      offer q (hostPush k { kind := kind, tlp := t, fn := fn, win := win, off := off, xltTag := tag } s)

/-- The NI of the block that a function-area offset belongs to (Table 22-2). -/
def areaNi (off : Nat) : Nat := if off < 0x4000 then 38 else if off < 0x8000 then 41 else 39

/-- Offsets of the function area that hold no register but a memory: the posted-fault ring, the MSI-X table and the
PBA (Table 22-2). -/
def areaMem (off : Nat) : Bool :=
  (decide (0x4000 ≤ off) && decide (off < 0x4200)) || (decide (0x8000 ≤ off) && decide (off < 0xC080))

/-- All the bytes of an access are enabled. -/
def wholeAccess (t : Tlp) : Bool := (byteEnables t.addr t.len t.fbe t.lbe).all id

/-- A control-space access of the wrong width or alignment (R13). -/
def badAccess (fa : Bool) (off : Nat) (t : Tlp) : Bool :=
  let aligned := (t.len == 4 || t.len == 8) && off % t.len == 0
  !wholeAccess t ||
    (if fa && areaMem off then !aligned
     else
      match regAt regRows fa off t.len with
      | .reg _ _ _ => false
      | .misaligned => true
      | .none => !aligned)

/-- A BAR0 access of the wrong width or alignment (R13, R290). -/
def bar0Bad (k fn kind off : Nat) (t : Tlp) (s : State) : State :=
  if kind = 0 then
    viol {
      ni := k, code := 0x0201, fn := fn, port := k, object := off, value := t.len, kind := 3
      hdr := hdrBytesOf (tlpHdr 0 t) } s
  else hostUr k fn kind t s

/-- The packet of a BAR0 access: a doorbell (R233), or a control access at the owning block. `off` counts from PF
BAR0, or from the function area when `fa`. -/
def State.bar0Pkt (s : State) (k fn kind off : Nat) (fa : Bool) (t : Tlp) : Packet :=
  let hit := regAt regRows fa off t.len
  match kind, hit with
  | 0, .reg .sqTailDb q _ =>
    { s.doorbellPkt k fn 0 (4 * fn + q) (leNat t.data) with ro := t.ro, ido := t.ido, ns := t.ns, ep := t.ep }
  | 0, .reg .cqHeadDb q _ =>
    { s.doorbellPkt k fn 1 (4 * fn + q) (leNat t.data) with ro := t.ro, ido := t.ido, ns := t.ns, ep := t.ep }
  | _, _ =>
    { s.tlpPkt k fn (if kind = 0 then 1 else 0) (if kind = 0 then 0x10 else 0) (if fa then areaNi off else ownerNi off) t
      with
      asp := 4, addr := if fa then fn * 2 ^ 32 + 0x1FF0000 + off else off }

/-- A BAR0 access (R13, R290, R493): an AtomicOp is UR; offsets above 0x1FF_0000 of PF BAR0, and all of VF BAR0, are
the function area. -/
def bar0Access (k fn kind off : Nat) (t : Tlp) (s : State) : State :=
  let fa := !isPf fn || decide (0x1FF0000 ≤ off)
  let o := if isPf fn && fa then off - 0x1FF0000 else off
  if 2 ≤ kind then hostUr k fn kind t s
  else if badAccess fa o t then bar0Bad k fn kind (if fa then 0x1FF0000 + o else o) t s
  else hostPush k { kind := kind, tlp := t, fn := fn, pkt := some (s.bar0Pkt k fn kind o fa t) } s

/-- Posted and non-posted headers in use of port k's receive buffer (R28, R283): requests in the pipeline and those
that wait to enter. -/
def State.hostHeld (s : State) (k : Nat) (posted : Bool) : Nat :=
  ((s.hpi k).reqs.filter (fun r => r.write == posted)).length
    + ((List.range 8).map (fun q => (s.inq (25 * k + 8 * b2n posted + q)).length)).sum

/-- The port withholds credits while its buffer is full (R28, Table 12-1). -/
def State.hostRoom (s : State) (k kind : Nat) : Bool :=
  if kind = 0 then decide (s.hostHeld k true < 512) else decide (s.hostHeld k false < 256)

/-- A host memory request (R290, R300, R399): the function it names, then its reset, its memory space, its power
state, ECRC, poison, and the BAR. -/
def hostAccess (k kind : Nat) (t : Tlp) (s : State) : State :=
  if !s.hostLive k || !s.hostRoom k kind then s
  else
    match s.barHit k t.addr with
    | none => if kind = 0 then aerUr (1024 * k) (tlpHdr 0 t) false s else hostUr k (1024 * k) kind t s
    | some (fn, bar2, off) =>
      if s.under k fn then (if kind = 0 then s else hostUr k fn kind t s)
      else if !s.memEnabled fn then (if kind = 0 then aerUr fn (tlpHdr 0 t) false s else hostUr k fn kind t s)
      else if !s.inD0 fn then (if kind = 0 then s else hostUr k fn kind t s)
      else if t.ecrcErr && s.cfgGet fn .ecrcCheckEn == 1 then
        let s1 := aerUncor fn 19 "ECRC Error" (tlpHdr kind t) false s
        if kind = 0 then hostPfr k fn 6 0 t s1 else hostFail k fn 1 t s1
      else if t.ep && kind != 0 then
        aerUncor fn 12 "Poisoned TLP Received" (tlpHdr kind t) false (hostFail k fn 1 t s)
      else
        let s1 := when t.ep (aerUncor fn 12 "Poisoned TLP Received" (tlpHdr kind t) true) s
        if bar2 then bar2Access k fn kind off t s1 else bar0Access k fn kind off t s1

/-- HOST_MEM_WRITE (R290). -/
def execHostMemWrite (k : Fin 2) (t : Tlp) (s : State) : Host.Outcome State Fault Refusal :=
  live s (hostAccess k.val 0 t)

/-- HOST_MEM_READ (R290). -/
def execHostMemRead (k : Fin 2) (t : Tlp) (s : State) : Host.Outcome State Fault Refusal :=
  live s (hostAccess k.val 1 t)

/-- The kind of an AtomicOp (R294). -/
def atomKind : AtomOp → Nat
  | .fetchAdd _ => 2
  | .swap _ => 3
  | .cas _ => 4

/-- HOST_ATOMICOP (R294). -/
def execHostAtomicop (k : Fin 2) (op : AtomOp) (t : Tlp) (s : State) : Host.Outcome State Fault Refusal :=
  live s (hostAccess k.val (atomKind op) t)

/-- A translation result enters the HPI's cache of 256 (R256); only a successful one is kept. -/
def hpiCache (k : Nat) (l : HpiLine) (s : State) : State :=
  let h := s.hpi k
  if h.cache.length < 256 then s.setHpi k { h with cache := h.cache ++ [l] }
  else
    let (n, s1) := takeFree s
    s1.setHpi k { h with cache := dropAt h.cache (Config.evict n % 256) ++ [l] }

/-- A request of the pipeline has its packet, or leaves it with a failure. -/
def resolveReq (k : Nat) (r : HostReq) (x : Sum Nat Packet) (s : State) : State :=
  let h := s.hpi k
  match x with
  | .inl xst => hostPump k (bar2Fail k r.fn r.kind xst r.tlp
      (s.setHpi k { h with reqs := h.reqs.filter (fun q => q.xltTag != r.xltTag) }))
  | .inr p => hostPump k (s.setHpi k { h with
      reqs := h.reqs.map (fun q => if q.xltTag = r.xltTag then { r with xltTag := 0x3FFF, pkt := some p } else q) })

/-- HPI_TRANSLATION_REPLY (R256, R261): the answer to a translation request; one without a usable word fails the
access. -/
def translationReply (k i : Nat) (s : State) : State :=
  match takeArrived k i s with
  | none => s
  | some (p0, s0) =>
    match (s.hpi k).reqs.find? (fun r => r.xltTag == p0.tag) with
    | none => s
    | some r =>
      if p0.cls ≠ 2 ∨ p0.hdrBad ∨ p0.tag < 8192 then s
      else
        let (p, s1) := checkParity k p0 s0
        if p.ty ≠ 0x22 ∨ p.csts ≠ 0 ∨ p.ep then resolveReq k r (.inl 0) s1
        else
          let w : Word := BitVec.ofNat 64 (leNat p.data)
          let s2 := when (xwXst w == 0 && !r.nocache) (hpiCache k {
            fn := r.fn, win := r.win, reg := r.off / 2 ^ 24, ent := p.addr / 4096 % 262144
            word := w - BitVec.ofNat 64 (xwLaddr w % 2 ^ 24) }) s1
          resolveReq k r (s2.bar2Answer k r.fn r.kind r.tlp w) s2

/-- HPI_TRANSLATION_REPLY (R256). -/
def execHpiTranslationReply (k : Fin 2) (i : Nat) (s : State) : Host.Outcome State Fault Refusal :=
  live s (translationReply k.val i)

end Sys2Proof.Machine
end

