-- ==== Sys2Proof/Machine/HostOut.lean ====
section
/-!
DEFINITION. What a host port sends and what answers it (chapter 12, R394 to R397): tags, gathered answers,
completions from the host, timeouts, cooling, LTR, vendor-defined messages, and the egress slot tables.
-/
namespace Sys2Proof.Machine

/-! ## Gathered answers (R292, R368) -/

/-- A part of an answer put in its place by offset. -/
def insPart (p : Nat × List Byte × Bool) : List (Nat × List Byte × Bool) → List (Nat × List Byte × Bool)
  | [] => [p]
  | q :: t => if p.1 < q.1 then p :: q :: t else q :: insPart p t

/-- Bytes of a request have landed. -/
def Gather.land (g : Gather) (off : Nat) (data : List Byte) (ep : Bool) : Gather :=
  { g with left := g.left - data.length, parts := insPart (off, data, ep) g.parts }

/-- `n` bytes of a request end without data; the first failure gives the status. -/
def Gather.failed (g : Gather) (n csts xv : Nat) : Gather :=
  { g with left := g.left - n, csts := if g.csts = 0 then csts else g.csts, xv := if g.csts = 0 then xv else g.xv }

/-- The response that a gathered answer becomes. -/
def Gather.answer (g : Gather) : Packet :=
  if g.csts ≠ 0 then { g.req.reply 0x21 g.csts [] with xv := g.xv }
  else { g.req.reply 0x20 0 (g.parts.flatMap (·.2.1)) with ep := g.parts.any (·.2.2) }

/-- `f` on the entry of a request. -/
def onGather (req : Packet) (f : Gather → Gather) (l : List Gather) : List Gather :=
  l.map (fun g => if g.req = req then f g else g)

/-- A port's gathered answers change, and those that are complete go out. -/
def hostGather (k : Nat) (f : List Gather → List Gather) (s : State) : State :=
  let l := f (s.hpi k).gather
  forL (l.filter (fun g => g.left == 0)) (fun g => offer { g.answer with src := k })
    (s.setHpi k { s.hpi k with gather := l.filter (fun g => g.left != 0) })

/-! ## Tags (R295 to R297, R394) -/

/-- A tag is in no use. -/
def Tag.free (t : Tag) : Bool := !t.out && !t.cooled && !t.lock

/-- The tags of a host port's mode: the first and how many (R295). -/
def State.tagSpan (s : State) (k : Nat) : Nat × Nat :=
  if s.cfgGet (1024 * k) .tag14En = 1 then (0, 4096)
  else if s.cfgGet (1024 * k) .tag10En = 1 then (0x100, 768)
  else (0, 256)

/-- The lowest free tag of a host port. -/
def State.freeTag (s : State) (k : Nat) : Option Nat :=
  (span (s.tagSpan k).1 (s.tagSpan k).2).find? (fun t => (s.tag (4096 * k + t)).free)

/-- Tags of port g that function fn holds, cooled ones included. -/
def State.tagsHeld (s : State) (g fn : Nat) : Nat :=
  (s.port.tags.filter (fun t => t.1 / 4096 == g && t.2.fn == fn && !t.2.free)).length

/-- Tags of port g in use, and those that are cooled (HPI_TAGS). -/
def State.tagsInUse (s : State) (g : Nat) : Nat :=
  (s.port.tags.filter (fun t => t.1 / 4096 == g && !t.2.free)).length
def State.tagsCooled (s : State) (g : Nat) : Nat :=
  (s.port.tags.filter (fun t => t.1 / 4096 == g && t.2.cooled)).length

/-- The cap of F_SVC_n leaves room for one more tag (R394). -/
def State.underCap (s : State) (k fn : Nat) : Bool :=
  s.fget F.fSvcTagCap fn == 0 || decide (s.tagsHeld k fn < 16 * s.fget F.fSvcTagCap fn)

/-- The limit of a Completion Timeout Value, in ns (Table 12-7). -/
def ctoLimit (v : Nat) : Nat :=
  match v with
  | 0b0001 => 90000
  | 0b0010 => 8000000
  | 0b0101 => 50000000
  | 0b0110 => 200000000
  | 0b1001 => 800000000
  | 0b1010 => 3000000000
  | 0b1101 => 12000000000
  | 0b1110 => 60000000000
  | _ => 40000000

/-- The landing block of tag t of port g (R276, Table 11-5). -/
def landing (g t : Nat) : Nat :=
  (if g = 0 then 0x1400000 else if g = 1 then 0x2400000
   else if g < 6 then 0x1A00000 + 0x80000 * (g - 2) else 0x2A00000 + 0x80000 * (g - 6)) + 512 * t

/-- Bus Master Enable of a function: a VF's own bit (R291). -/
def State.bme (s : State) (fn : Nat) : Bool := s.cfgGet fn .busMasterEnable == 1

/-- Bytes of the next request of a read (R292): at most Max_Read_Request_Size and one landing block, within a
multiple of that size. -/
def State.reqLen (s : State) (k : Nat) (e : Egress) : Nat :=
  let m := min (s.mrrs k) 512
  min (m - (e.pkt.addr + e.off) % m) (e.pkt.len - e.off)

/-- An entry of the reads that wait has been issued up to `off`; one issued whole leaves. -/
def npNext (k i off : Nat) (e : Egress) (s : State) : State :=
  let h := s.hpi k
  s.setHpi k { h with np := if e.pkt.len ≤ off then dropAt h.np i else h.np.set i { e with off := off } }

/-- A read's answer begins to be gathered with its first request. -/
def gatherOpen (k : Nat) (e : Egress) (s : State) : State :=
  if e.off = 0 then s.setHpi k { s.hpi k with gather := (s.hpi k).gather ++ [{ req := e.pkt, left := e.pkt.len }] }
  else s

/-- HOST_REQUEST_ISSUE (R291, R292, R295, R394): read i of those that wait sends its next request; no earlier read of
its stream waits. -/
def requestIssue (k i : Nat) (s : State) : State :=
  match (s.hpi k).np[i]? with
  | none => s
  | some e =>
    let fn := e.pkt.fn
    if !s.hostLive k || ((s.hpi k).np.take i).any (fun x => x.pkt.fn == fn) then s
    else if !s.bme fn then
      hostGather k (onGather e.pkt (fun g => g.failed (e.pkt.len - e.off) 1 0))
        (gatherOpen k e (npNext k i e.pkt.len e s))
    else
      match s.freeTag k with
      | none => s
      | some t =>
        if s.underCap k fn then
          let n := s.reqLen k e
          let a := e.pkt.addr + e.off
          let s1 := gatherOpen k e (npNext k i (e.off + n) e s)
          let s2 := s1.setTag (4096 * k + t) {
            out := true, fn := fn, off := e.off, len := n, at_ := s.now, req := e.pkt
            limit := ctoLimit (s.cfgGet (1024 * k) .ctoValue) }
          sendTlp k (.tlpRead k fn a n t e.pkt.ro e.pkt.ns e.pkt.ido (s.ecrcOf fn)) s2
        else s

/-- HOST_REQUEST_ISSUE (R295). -/
def execHostRequestIssue (k : Fin 2) (i : Nat) (s : State) : Host.Outcome State Fault Refusal :=
  live s (requestIssue k.val i)

/-! ## Completions (R296 to R300) -/

/-- The function a completion's Requester ID names, the PF where it names none (R298). -/
def State.ridFn (s : State) (k rid : Nat) : Nat :=
  if rid = 0 ∨ s.vfExists k rid = true then 1024 * k + rid else 1024 * k

/-- A late or unmatched completion (R298, R400). -/
def lateCpl (k : Nat) (c : Cpl) (quiet : Bool) (s : State) : State :=
  let fn := s.ridFn k c.rid
  let s1 := viol {
    ni := k, code := 0x0203, fn := fn, port := k, object := c.tag, kind := 3, hdr := hdrBytesOf (cplHdr c) } s
  if quiet then s1 else aerUncor fn 16 "Unexpected Completion" (cplHdr c) true s1

/-- A completion for an outstanding tag: data lands, with EP where it is poisoned or its ECRC fails, or the request
fails. A status other than success, UR and CA counts as UR (PCI Express: PRESUMED, log 16). -/
def goodCpl (k : Nat) (c : Cpl) (t : Tag) (s : State) : State :=
  let key := 4096 * k + c.tag
  let bad := c.ecrcErr && s.cfgGet t.fn .ecrcCheckEn == 1
  let s1 := when bad (aerUncor t.fn 19 "ECRC Error" (cplHdr c) false) s
  let s2 := when c.ep (aerUncor t.fn 12 "Poisoned TLP Received" (cplHdr c) true) s1
  if c.status ≠ 0 then
    hostGather k (onGather t.req (fun g => g.failed (t.len - t.got) (if c.status = 4 then 2 else 1) 0))
      (s2.setTag key {})
  else
    let data := c.data.take (t.len - t.got)
    let got := t.got + data.length
    let ep := c.ep || bad
    let s3 := stgWrite (landing k c.tag + t.got) data (List.replicate data.length true) ep s2
    hostGather k (onGather t.req (fun g => g.land (t.off + t.got) data ep))
      (s3.setTag key (if t.len ≤ got then {} else { t with got := got }))

/-- A completion for a cooled tag: its data is discarded, and the one that finishes the request frees the tag
(R298). -/
def cooledCpl (k : Nat) (c : Cpl) (t : Tag) (s : State) : State :=
  let got := t.got + c.data.length
  let done := c.status != 0 || decide (t.len ≤ got)
  let s1 := s.setTag (4096 * k + c.tag) (if done then {} else { t with got := got })
  lateCpl k c t.quiet (when (done && !t.quiet && s1.fget F.hpiCtoLastTag k == c.tag)
    (fun s => s.fset F.hpiCtoLastLate k 1) s1)

/-- HOST_COMPLETION_ARRIVE (R296, R298). -/
def completionArrive (k : Nat) (c : Cpl) (s : State) : State :=
  if !s.hostLive k then s
  else
    let t := if c.tag < 4096 then s.tag (4096 * k + c.tag) else {}
    if t.cooled then cooledCpl k c t s
    else if t.out then goodCpl k c t s
    else lateCpl k c false s

/-- HOST_COMPLETION_ARRIVE (R296). -/
def execHostCompletionArrive (k : Fin 2) (cpl : Cpl) (s : State) : Host.Outcome State Fault Refusal :=
  live s (completionArrive k.val cpl)

/-- HOST_COMPLETION_TIMEOUT (R296, R297): past the limit, since a completion of that nanosecond is in time (R308). -/
def completionTimeout (k tag : Nat) (s : State) : State :=
  let key := 4096 * k + tag
  let t := s.tag key
  if t.out && !t.cooled && s.cfgGet (1024 * k) .ctoDisable == 0 && decide (s.now > t.at_ + t.limit) then
    let hdr := reqHdr t.fn (t.req.addr + t.off) t.len tag t.req
    let s1 := aerUncor t.fn 14 "Completion Timeout" hdr false s
    let s2 := ((s1.fset F.hpiCtoLastTime k (s.now % 2 ^ 48)).fset F.hpiCtoLastTag k tag).fset F.hpiCtoLastLate k 0
    let s3 := viol {
      ni := k, code := 0x0202, fn := t.fn, port := k, object := tag, kind := 3, hdr := hdrBytesOf hdr } s2
    hostGather k (onGather t.req (fun g => g.failed (t.len - t.got) 2 3))
      (s3.setTag key { t with cooled := true, coolAt := s.now })
  else s

/-- HOST_COMPLETION_TIMEOUT (R297). -/
def execHostCompletionTimeout (k : Fin 2) (tag : Fin 4096) (s : State) : Host.Outcome State Fault Refusal :=
  live s (completionTimeout k.val tag.val)

/-- TAG_COOL_EXPIRE (R297, R356): four limits after it was cooled, a tag is free. -/
def execTagCoolExpire (g : Fin 10) (tag : Fin 4096) (s : State) : Host.Outcome State Fault Refusal :=
  live s (fun s =>
    let t := s.tag (4096 * g.val + tag.val)
    if t.cooled && decide (s.now ≥ t.coolAt + 4 * t.limit) then s.setTag (4096 * g.val + tag.val) {} else s)

/-! ## Vendor-defined messages (R381) -/

/-- HOST_VDM_ARRIVE (R381): the message in its 16-byte form becomes a tunnelled packet, or is recorded. Messages of
other vendors have no effect here. -/
def vdmArrive (k fn vendor dw3 : Nat) (msg : List Byte) (s : State) : State :=
  if !s.hostLive k || vendor != 0x1F6B then s
  else if s.under k fn then s
  else
    let p := dw3 / 64 % 8
    let c := dw3 % 64
    let i := s.leadOf p * 64 + c
    if dw3 / 512 % 128 = 0 ∧ s.flag F.lbTunEn i = true ∧ s.fget F.lbTunKind i = 0 ∧ s.fget F.lbTunFn i = fn
        ∧ portOf fn = k then
      hostPush k {
        fn := fn
        pkt := some { s.mkPkt 1 0x15 k (s.portNi p) fn with asp := 6, addr := c, len := msg.length, data := msg } } s
    else viol {
      ni := k, code := 0x010D, fn := fn, port := k, object := c, value := msg.length, kind := 3, hdr := msg.take 16 } s

/-- HOST_VDM_ARRIVE (R381). -/
def execHostVdmArrive (k : Fin 2) (fn : Fin 2048) (vendor : BitVec 16) (dw3 : BitVec 32) (msg : List (BitVec 8))
    (s : State) : Host.Outcome State Fault Refusal :=
  live s (vdmArrive k.val fn.val vendor.toNat dw3.toNat msg)

/-! ## LTR (R301) -/

/-- A function of port k has an enabled queue, or a transfer context has a side on the port. -/
def State.portBusy (s : State) (k : Nat) : Bool :=
  s.qm.queues.any (fun q => q.2.en && q.1 / 4096 == k)
    || s.pcl.ctxs.any (fun x => x.2.used && !x.2.done && (x.2.sasp == k || x.2.dasp == k))

/-- A latency value and scale, no longer than a maximum of the same form. -/
def clampLtr (v m : Nat) : Nat :=
  let ns := fun (x : Nat) => x % 1024 * 32 ^ (x / 1024 % 8)
  if ns v ≤ ns m then v % 8192 else m % 8192

/-- Some function of port k is in D0 with Bus Master Enable 1. -/
def State.anyMaster (s : State) (k : Nat) : Bool :=
  (List.range 1024).any (fun j => (j == 0 || s.vfExists k j) && s.inD0 (1024 * k + j) && s.bme (1024 * k + j))

/-- The requirement of port k: the no-snoop half above the snoop half. -/
def State.ltrValue (s : State) (k : Nat) : Nat :=
  if !s.anyMaster k then 0
  else
    let r := (s.rget .hpiLtr k).toNat
    let v := if s.portBusy k then r % 8192 else r / 65536 % 8192
    (clampLtr v (s.cfgGet (1024 * k) .maxNoSnoop) + 32768) * 65536 + clampLtr v (s.cfgGet (1024 * k) .maxSnoop) + 32768

/-- LTR_SEND (R301): the requirement differs from the one sent last. -/
def ltrSend (k : Nat) (s : State) : State :=
  let v := s.ltrValue k
  if s.hostLive k && s.cfgGet (1024 * k) .ltrEnable == 1 && v != (s.hpi k).ltr then
    (s.setHpi k { s.hpi k with ltr := v }).emit (.ltr k v)
  else s

/-- LTR_SEND (R301). -/
def execLtrSend (k : Fin 2) (s : State) : Host.Outcome State Fault Refusal := live s (ltrSend k.val)

/-! ## Egress (R395 to R397) -/

/-- A packet that the gate releases enters the queue of its QC. -/
def egressPush (k : Nat) (p : Packet) (s : State) : State :=
  let h := s.hpi k
  s.setHpi k { h with egress := h.egress ++ [{ pkt := p, order := h.order }], order := h.order + 1 }

/-- An earlier-released packet of another queue holds a head back (R395). -/
def holdsBack (e x : Egress) : Bool :=
  decide (x.order < e.order) && x.pkt.qc != e.pkt.qc
    && ((x.pkt.fn == e.pkt.fn && x.pkt.cls == e.pkt.cls) || blockedBy e.pkt x.pkt)

/-- The sendable heads of a port's egress queues. -/
def State.heads (s : State) (k : Nat) : List Egress :=
  let q := (s.hpi k).egress
  ((List.range 8).filterMap (fun c => q.find? (fun e => e.pkt.qc == c))).filter (fun e => !q.any (holdsBack e))

/-- The sendable head that was released first. -/
def firstHead (l : List Egress) : Option Egress :=
  l.foldl (fun b e => match b with
    | none => some e
    | some x => if e.order < x.order then some e else some x) none

/-- The slot table's entry for slot j of port k. -/
def State.slotAt (s : State) (k j : Nat) : Nat := bitsGet (s.rget .slot (32 * k + j / 8)) (j % 8 * 4 + 3) (j % 8 * 4)

/-- The committed table becomes active (R397). -/
def slotApply (k : Nat) (s : State) : State :=
  if (s.hpi k).pendTable then
    let s1 := forN 32 (fun j s =>
      let i := 32 * k + j
      (s.rput .slot i ((s.slotWord i).getD (s.rget .slot i))).setSlotWord i none) s
    s1.setHpi k { s1.hpi k with pendTable := false }
  else s

/-- The next slot; leaving slot 255 is a round boundary. -/
def slotNext (k : Nat) (s : State) : State :=
  let h := s.hpi k
  let s1 := s.setHpi k { h with slot := (h.slot + 1) % 256 }
  if h.slot = 255 then slotApply k s1 else s1

/-- The queue that the slots choose, from the current one on (R396). -/
def slotScan (k : Nat) (l : List Egress) : Nat → State → Option Nat × State
  | 0, s => (none, s)
  | n + 1, s =>
    let v := s.slotAt k (s.hpi k).slot
    if v < 8 ∧ l.any (fun e => e.pkt.qc == v) = true then (some v, s)
    else if 8 ≤ v ∧ l.isEmpty = false then ((firstHead l).map (·.pkt.qc), s)
    else slotScan k l n (slotNext k s)

/-- A packet leaves its egress queue. -/
def egressDrop (k order : Nat) (s : State) : State :=
  let h := s.hpi k
  s.setHpi k { h with egress := h.egress.filter (fun e => e.order != order) }

/-- A packet has been sent up to byte `off`. -/
def egressAt (k order off : Nat) (s : State) : State :=
  let h := s.hpi k
  s.setHpi k { h with egress := h.egress.map (fun e => if e.order = order then { e with off := off } else e) }

/-- A host request has its whole answer: its fabric tag is free. -/
def hostClose (k tag : Nat) (s : State) : State :=
  let h := s.hpi k
  hostPump k (s.setHpi k { h with opens := h.opens.filter (fun o => o.tag != tag) })

/-- What one opportunity to send has sent: its payload bytes, and whether it was a TLP. -/
structure Sent where
  bytes : Nat := 0
  tlp : Bool := false
  st : State

/-- One write TLP of a posted packet (R291, R292, R300). -/
def sendWrite (k : Nat) (e : Egress) (s : State) : Sent :=
  let p := e.pkt
  if !s.bme p.fn then { st := egressDrop k e.order (pfr k p 5 0 s) }
  else
    let m := s.mps k
    let n := min (m - (p.addr + e.off) % m) (p.len - e.off)
    let en := ((byteEnables p.addr p.len p.fbe p.lbe).drop e.off).take n
    let s1 := sendTlp k (.tlpWrite k p.fn (p.addr + e.off) ((p.data.drop e.off).take n) en p.ro p.ns p.ido p.ep
      (s.ecrcOf p.fn)) s
    { bytes := n, tlp := true
      st := if p.len ≤ e.off + n then egressDrop k e.order s1 else egressAt k e.order (e.off + n) s1 }

/-- One completion TLP of a response (R292, R369): a failure, or an answer without every byte, ends the request. -/
def sendCpl (k : Nat) (e : Egress) (s : State) : Sent :=
  let p := e.pkt
  match (s.hpi k).opens.find? (fun o => o.tag == p.tag) with
  | none => { st := egressDrop k e.order s }
  | some o =>
    let kind := if o.tlp.data.isEmpty then 1 else 2
    if p.csts ≠ 0 ∨ p.data.length ≠ o.tlp.len then
      let s1 := hostClose k p.tag (egressDrop k e.order s)
      { tlp := true, st := if p.csts = 1 then hostUr k o.fn kind o.tlp s1 else hostCa k o.fn kind o.tlp s1 }
    else
      let n := cplLen (s.mps k) (o.tlp.addr + e.off) (p.data.length - e.off)
      let s1 := hostData k o.fn o.tlp e.off n p.data p.ep s
      { bytes := n, tlp := true
        st := if p.data.length ≤ e.off + n then hostClose k p.tag (egressDrop k e.order s1)
              else egressAt k e.order (e.off + n) s1 }

/-- A read reaches the HPI: one of LEN 0 is answered (R217), a partner's without a free tag is told to retry (R378),
and others wait for a tag. -/
def sendRead (k : Nat) (e : Egress) (s : State) : Sent :=
  let p := e.pkt
  let s1 := egressDrop k e.order s
  if p.ty ≠ 0 then { st := offer { p.reply 0x21 1 [] with src := k } s1 }
  else if p.len = 0 then { st := zeroAnswer k p s1 }
  else if 2 ≤ p.src ∧ p.src < 10 ∧ (s.freeTag k).isNone then { st := offer { p.reply 0x21 3 [] with src := k } s1 }
  else { tlp := true, st := s1.setHpi k { s1.hpi k with np := (s1.hpi k).np ++ [e] } }

/-- One TLP of a queue's head. -/
def sendHead (k : Nat) (e : Egress) (s : State) : Sent :=
  let p := e.pkt
  if p.cls = 2 then sendCpl k e s
  else if p.cls = 0 then sendRead k e s
  else if p.ty = 0x15 then
    { bytes := p.data.length, tlp := true
      st := sendTlp k (.vdm k p.fn p.addr p.data) (egressDrop k e.order s) }
  else sendWrite k e s

/-- The chosen queue sends its sendable heads, until 512 B of payload or one TLP without payload have gone. -/
def slotSend (k q : Nat) : Nat → Nat → State → State
  | 0, _, s => s
  | fuel + 1, sent, s =>
    match (s.heads k).find? (fun e => e.pkt.qc == q) with
    | none => s
    | some e =>
      let r := sendHead k e s
      if 512 ≤ sent + r.bytes ∨ (r.tlp = true ∧ r.bytes = 0) then r.st
      else slotSend k q fuel (sent + r.bytes) r.st

/-- HOST_EGRESS_SEND (R396). -/
def hostEgress (k : Nat) (s : State) : State :=
  if !s.hostLive k then s
  else
    match slotScan k (s.heads k) 256 s with
    | (none, s1) => slotApply k s1
    | (some q, s1) => slotNext k (slotSend k q (512 + (s1.hpi k).egress.length) 0 s1)

/-- HOST_EGRESS_SEND (R396). -/
def execHostEgressSend (k : Fin 2) (s : State) : Host.Outcome State Fault Refusal := live s (hostEgress k.val)

/-- SLOT_COMMIT (R397): a later commit replaces an earlier one, and an idle egress takes the table at once. -/
def slotCommit (k : Nat) (s : State) : State :=
  let s1 := forN 32 (fun j s => s.setSlotWord (32 * k + j) (some (s.sget .slot (32 * k + j)))) s
  let s2 := s1.setHpi k { s1.hpi k with pendTable := true }
  if (s2.heads k).isEmpty then slotApply k s2 else s2

/-- SLOT_COMMIT (R397). -/
def execSlotCommit (w : Writer) (k : Fin 2) (s : State) : Host.Outcome State Fault Refusal :=
  live s (guarded w .slotCtl k.val 0x80000000 (slotCommit k.val))

/-- An answer that reaches the port outside its gate goes to the host at once (R51). -/
def hostAnswer (k : Nat) (p : Packet) (s : State) : State :=
  match (s.hpi k).opens.find? (fun o => o.tag == p.tag) with
  | none => s
  | some o =>
    let kind := if o.tlp.data.isEmpty then 1 else 2
    let s1 := hostClose k p.tag s
    if p.csts = 1 then hostUr k o.fn kind o.tlp s1
    else if p.csts ≠ 0 ∨ p.data.length ≠ o.tlp.len then hostCa k o.fn kind o.tlp s1
    else hostDataAll k o.fn o.tlp p.data p.ep (p.data.length + 1) 0 s1

end Sys2Proof.Machine
end

