-- ==== Sys2Proof/Machine/Drev.lean ====
section
/-!
DEFINITION. What the three layers of a Drevlink port share: its states, byte-lane rules (R270, R271), frames and their
headers (Tables 14-2 to 14-4), its answers, the flush (R354), departures from ACTIVE and entries to it (R353). A group
of LPIs acts in its lowest-numbered one (R312); the gate and NI of LPI p are 2 + p.
-/
namespace Sys2Proof.Machine

/-! ## States -/

/-- The lanes of the group of LPI p are off in a training state (Table 13-6). -/
def lanesOff (st : Nat) : Bool := st == 0 || st == 1 || st == 2 || st == 6 || st == 8

/-- A training state is entered: RATE reads none while the lanes are off, and the change is traced (Table 17-13). -/
def setTrain (p st : Nat) (s : State) : State :=
  let l := s.lpi p
  let s1 := s.setLpi p { l with st := st, stAt := s.now }
  let s2 := when (lanesOff st) (fun s => s.fset F.lnkStsRate p 0) s1
  when (st != l.st) (fun s => trace (2 + p) 3 2 0xFFFF
    (leBytes 1 p ++ leBytes 1 st ++ leBytes 1 (s.fget F.lnkStsRate p)) false s) s2

/-- LSTATE changes (Table 17-13). -/
def setLst (p v : Nat) (s : State) : State :=
  let l := s.lpi p
  if l.lst = v then s
  else trace (2 + p) 3 3 0xFFFF (leBytes 1 p ++ leBytes 1 v) false (s.setLpi p { l with lst := v })

/-- The port is ACTIVE and its RESUME exchange is done. -/
def State.portUp (s : State) (p : Nat) : Bool := (s.lpi p).st == 5 && (s.lpi p).lst == 1

/-- A management message leaves port p (Table 13-5). -/
def sendMl (p ty : Nat) (payload : List Nat) (s : State) : State := s.emit (.mgmt p ty payload)

/-! ## Byte-lane rules (R270, R271) -/

/-- The bits of an address that a rule inverts (Table 11-4). -/
def swapMask (sw : Nat) : Nat := [0, 1, 3, 7, 4].getD sw 0

/-- Where the byte at an address goes; each rule is its own inverse. -/
def swapAddr (sw a : Nat) : Nat := a ^^^ swapMask sw

/-- A range of bytes with its enables. -/
structure Range where
  addr : Nat := 0
  len : Nat := 0
  fbe : BitVec 8 := 0
  lbe : BitVec 8 := 0
deriving DecidableEq, Repr, Inhabited

/-- The enabled addresses of a range. -/
def Range.enabled (r : Range) : List Nat :=
  let en := byteEnables r.addr r.len r.fbe r.lbe
  ((List.range r.len).filter (fun i => en.getD i false)).map (· + r.addr)

/-- The byte enables of the 8-byte word w that a list of addresses gives. -/
def enableBits (l : List Nat) (w : Nat) : BitVec 8 :=
  BitVec.ofNat 8 ((List.range 8).foldl (fun acc i => acc + b2n (l.contains (8 * w + i)) * 2 ^ i) 0)

/-- The smallest range that covers some addresses (R271). -/
def rangeOf (l : List Nat) (at_ : Nat) : Range :=
  match l with
  | [] => { addr := at_ }
  | x :: t =>
    let lo := t.foldl min x
    let hi := t.foldl max x
    { addr := lo, len := hi + 1 - lo, fbe := enableBits l (lo / 8)
      lbe := if lo / 8 = hi / 8 then 0 else enableBits l (hi / 8) }

/-- The range of a packet. -/
def Packet.range (p : Packet) : Range := { addr := p.addr, len := p.len, fbe := p.fbe, lbe := p.lbe }

/-- The part of a range from its byte `off` for `n` bytes. -/
def Range.part (r : Range) (off n : Nat) : Range :=
  let l := r.enabled.filter (fun a => decide (r.addr + off ≤ a) && decide (a < r.addr + off + n))
  { addr := r.addr + off, len := n, fbe := enableBits l ((r.addr + off) / 8)
    lbe := if n = 0 ∨ (r.addr + off) / 8 = (r.addr + off + n - 1) / 8 then 0
           else enableBits l ((r.addr + off + n - 1) / 8) }

/-- The partner's range for a range under a rule: recomputed from the first and last enabled byte. -/
def swapRange (sw : Nat) (r : Range) : Range := rangeOf (r.enabled.map (swapAddr sw)) r.addr

/-- Data of range r, laid out for the partner's range q; a byte that no enable names is zero (R340). -/
def swapData (sw : Nat) (r q : Range) (data : List Byte) : List Byte :=
  let en := r.enabled
  (List.range q.len).map (fun i =>
    let a := swapAddr sw (q.addr + i)
    if en.contains a then data.getD (a - r.addr) 0 else 0)

/-- The partner's bytes of range q restored to the bytes of the request's range r (R271). A byte that the request did
not enable has no stated value: it is a free one. -/
def unswapData (sw : Nat) (r q : Range) (raw : List Byte) (n : Nat) : List Byte :=
  let en := r.enabled
  (List.range r.len).map (fun i =>
    let a := swapAddr sw (r.addr + i)
    if en.contains (r.addr + i) then raw.getD (a - q.addr) 0 else Config.freeByte n i)

/-! ## Frames (R337, R340, R341) -/

/-- The payload blocks of a transaction (R340). -/
def payBlocks (tt addr len : Nat) : Nat :=
  if len = 0 then 0
  else if tt = 0x15 ∨ tt = 0x16 then (len + 7) / 8
  else if tt = 0x10 ∨ tt = 0x11 ∨ tt = 0x20 then (addr + len - 1) / 8 + 1 - addr / 8
  else 0

/-- The CLASS of a transaction type (Table 14-4); none for an undefined one. -/
def ttClass (tt : Nat) : Option Nat :=
  if tt = 0x00 ∨ tt = 0x04 then some 0
  else if 0x10 ≤ tt ∧ tt ≤ 0x16 then some 1
  else if tt = 0x20 ∨ tt = 0x21 then some 2
  else none

/-- Data credits of a frame (R346): 64 B each, for its payload blocks. -/
def frameCredits (f : Frame) : Nat := (f.nblk - 2 + 7) / 8

/-- The 24 bytes of a frame's SOF and transaction header that a record carries (Tables 14-2, 14-3). -/
def frameHdr (f : Frame) : List Byte :=
  let sof := 0x78 + f.seq * 2 ^ 8 + f.nblk * 2 ^ 20 + f.cls * 2 ^ 30
  let top := if f.cls = 2 then f.sts else 4 * b2n f.ido
  let w0 := f.tt % 64 + f.tag * 2 ^ 6 + f.fn * 2 ^ 18 + f.len * 2 ^ 29 + f.fbe.toNat * 2 ^ 42 + f.lbe.toNat * 2 ^ 50
    + top * 2 ^ 58 + b2n f.ep * 2 ^ 61 + b2n f.ns * 2 ^ 62 + b2n f.ro * 2 ^ 63
  let w1 := if f.cls = 2 then f.addr % 4096 + b2n f.last * 4096 else f.addr
  leBytes 8 sof ++ leBytes 8 w0 ++ leBytes 8 w1

/-- A violation that a partner's frame causes (Table 17-6). -/
def violFrame (p code object value : Nat) (f : Frame) (s : State) : State :=
  viol {
    ni := 2 + p, code := code, fn := f.fn, port := 2 + p, object := object, value := value, kind := 2
    hdr := frameHdr f } s

/-- A violation of a port with no frame or packet to show. -/
def violPort (p code object value : Nat) (s : State) : State :=
  viol { ni := 2 + p, code := code, port := 2 + p, object := object, value := value } s

/-- The frame of a request or posted packet, over the partner's range, SEQ still to be given. -/
def frameFor (p : Packet) (tt tag addr : Nat) (q : Range) (data : List Byte) : Frame :=
  let len := if tt = 0x15 ∨ tt = 0x16 then data.length else q.len
  { errored := false, seq := 0, cls := (ttClass tt).getD 0, nblk := 2 + payBlocks tt addr len, tt := tt, fn := p.fn
    tag := tag, addr := addr, len := len, fbe := q.fbe, lbe := q.lbe, sts := 0, ro := p.ro, ns := p.ns, ep := p.ep
    ido := p.ido, last := false, data := data }

/-! ## Answers -/

/-- A packet comes from a host port. -/
def fromHost (p : Packet) : Bool := decide (p.src < 2)

/-- A host request fails at the partner (R369): recorded; the spec names no code for it (DESIGN CHOICE, log 17). -/
def hostFailRecord (p : Nat) (req : Packet) (s : State) : State :=
  when (fromHost req) (fun s => viol {
    ni := 2 + p, code := 0x0107, fn := req.fn, port := 2 + p, object := req.tag, value := req.len, kind := 1
    hdr := req.hdrBytes, inj := req.inj } s) s

/-- A request toward the partner ends without data. -/
def lpiFail (p csts xv : Nat) (req : Packet) (s : State) : State :=
  offer { req.reply 0x21 csts [] with src := 2 + p, xv := xv } s

/-- A port's gathered answers change, and those that are complete go out (R368). -/
def lpiGather (p : Nat) (f : List Gather → List Gather) (s : State) : State :=
  let l := f (s.lpi p).gather
  forL (l.filter (fun g => g.left == 0)) (fun g => offer { g.answer with src := 2 + p })
    (s.setLpi p { s.lpi p with gather := l.filter (fun g => g.left != 0) })

/-- The function whose ring records a failed posted packet: a host write's is in TAG (R367). -/
def ringFn (p : Packet) : Nat := if fromHost p && p.ty == 0x10 && p.asp == 2 then p.tag % 2048 else p.fn

/-- A posted packet that a flushed port discards (R303, R354). -/
def flushPosted (g : Nat) (p : Packet) (s : State) : State :=
  if p.ty = 0x12 then s else pfr g { p with fn := ringFn p } 4 0 s

/-- The answer that a flush of Lp gives a request (R354): a read of LEN 0 has an answer, anything else fails with
PORT, which XV = 6 marks. -/
def flushAnswer (p : Nat) (req : Packet) (s : State) : State :=
  if req.cls ≠ 0 ∨ req.src = 2 + p then s
  else if req.len = 0 then offer { req.reply 0x21 0 [] with src := 2 + p, xv := 6, addr := 0 } s
  else lpiFail p 2 6 req (hostFailRecord p req s)

/-- The held packets of a gate, each discarded with its allowance returned (R65). -/
def gateDrop (g : Nat) (f : Packet → State → State) (s : State) : State :=
  let gt := s.gate g
  forL gt.held (fun h s => f h.pkt (offer (allowanceReturn g h.pkt true) s)) (s.setGate g { gt with held := [] })

/-! ## Flush, departure, entry (R353, R354) -/

/-- A flush discards one packet: posted ones are recorded, requests answered; a response drops its partner's
request. -/
def flushOne (p : Nat) (x : Packet) (s : State) : State :=
  if x.cls = 1 then flushPosted (2 + p) x s
  else if x.cls = 0 then flushAnswer p x s
  else s.setLpi p { s.lpi p with parts := (s.lpi p).parts.filter (fun r => r.tag != x.tag) }

/-- The tags of a gate's port all become free. -/
def freeTags (g : Nat) (s : State) : State :=
  { s with port := { s.port with tags := s.port.tags.filter (fun t => t.1 / 4096 != g) } }

/-- The flush of Lp (R354). `cause` is the trace's: 0 hold expired, 1 GRACE 0, 2 KEEP = 0 received. -/
def lpiFlush (p cause : Nat) (s : State) : State :=
  let g := 2 + p
  let s1 := parkNi g (trace g 2 4 0xFFFF (leBytes 1 p ++ leBytes 1 cause) false s)
  let l := s1.lpi p
  let s2 := forL (l.replay.filter (fun t => t.frame.cls == 1)) (fun t => flushPosted g t.pkt) s1
  let s3 := forL (l.egress.filter (fun e => e.off == 0)) (fun e => flushOne p e.pkt) s2
  let s4 := forL l.gather (fun x => flushAnswer p x.req) s3
  let s5 := forL l.waits (fun x => flushAnswer p x.req) s4
  let s6 := forL l.far (fun x s => match x.ans with
    | some a => offer { a with xv := 6 } s
    | none => when (s.tag (4096 * g + x.tag)).out (flushAnswer p x.req) s) s5
  let s7 := gateDrop g (flushOne p) (freeTags g s6)
  let s8 := s7.setLpi p { s7.lpi p with
    holdEnd := none, txNext := 0, rxAck := 0xFFF, nakDue := false, nakLock := false, replay := [], purgeAt := s.now
    repStart := 0, replays := 0, emptyAt := s.now, po := {}, np := {}, gaveP := {}, gaveN := {}, egress := []
    gather := [], far := [], pf := [], waits := [], parts := (s7.lpi p).parts.map (fun r => { r with dead := true }) }
  setLst p 0 ((s8.fset F.llStsFlushed p 1).fsat F.llStsFlushes p 1)

/-- A port leaves ACTIVE: the departure waits for LINK_DEPARTURE. -/
def leaveActive (p : Nat) (agreed : Bool) (s : State) : State :=
  if (s.lpi p).st = 5 then s.setLpi p { s.lpi p with gone := some (s.now, agreed) } else s

/-- A prefetched block that nothing waits for any longer and that has been dropped leaves the buffer. -/
def pfClean (p : Nat) (s : State) : State :=
  let l := s.lpi p
  s.setLpi p { l with pf := l.pf.filter (fun b =>
    !b.dropped || l.waits.any (fun w => w.need.contains b.id)
      || s.port.tags.any (fun t => t.1 / 4096 == 2 + p && t.2.pf == some b.id)) }

/-- The link layer takes a departure from ACTIVE (R353): a departure that both sides agreed for SLEEP starts no hold, any
other the hold of GRACE, or a flush at once when GRACE is 0. Prefetched data is dropped (R273). -/
def departLink (p : Nat) (s : State) : State :=
  let l := s.lpi p
  match l.gone with
  | none => s
  | some (t, agreed) =>
    let grace := 1000 * s.fget F.llCtlGrace p
    let s1 := pfClean p <| s.setLpi p { l with
      gone := none, pf := l.pf.map (fun b => { b with dropped := true })
      holdEnd := if agreed then none else some (t + grace) }
    if !agreed && grace == 0 then lpiFlush p 1 s1 else setLst p 2 s1

/-- LINK_DEPARTURE (R353). -/
def execLinkDeparture (p : Fin 8) (s : State) : Host.Outcome State Fault Refusal := live s (departLink p.val)

/-- The grace hold of a port has run out (R353, Table 14-7: in the nanosecond it expires, it has expired). -/
def State.holdOver (s : State) (p : Nat) : Bool :=
  match (s.lpi p).lst, (s.lpi p).holdEnd with
  | 2, some e => decide (s.now ≥ e)
  | _, _ => false

/-- GRACE_EXPIRE (R354). -/
def execGraceExpire (p : Fin 8) (s : State) : Host.Outcome State Fault Refusal :=
  live s (fun s => if s.holdOver p.val then lpiFlush p.val 0 s else s)

/-- The NI of a flushed port unparks at its next ACTIVE (R354). -/
def portOpen (p : Nat) (s : State) : State := when (s.niParked (2 + p)) (unparkNi (2 + p)) s

/-- Entry to ACTIVE (R324, R336, R353): ATTEMPTS is zero, and RESUME carries KEEP = 1 only while the hold runs. -/
def enterActive (p : Nat) (s : State) : State :=
  let s1 := departLink p s
  let s2 := if s1.holdOver p then lpiFlush p 0 s1 else s1
  let keep := (s2.lpi p).lst == 2
  let s3 := (setTrain p 5 s2).fset F.lnkStsAttempts p 0
  let s4 := s3.setLpi p { s3.lpi p with
    keep := keep, resumeSent := false, resumeRecv := false, initSent := 0, up := s3.now, holdEnd := none
    sleepSent := false, sleepRecv := false, retr := false }
  setLst p 3 (portOpen p s4)

end Sys2Proof.Machine
end

