-- ==== Sys2Proof/Machine/Lanes.lean ====
section
/-!
DEFINITION. Drevlink lanes (chapter 13): training with its timers, equalisation, management messages, test loops, error
injection, and the change of width. Training states are numbered as LNK_STS.STATE shows them.
-/
namespace Sys2Proof.Machine

/-! ## Rates (R324) -/

/-- The highest rate that both sides have. -/
def State.commonRate (s : State) (p : Nat) : Nat := min (s.fget F.lnkCtlMaxRate p) (s.lpi p).partnerRate

/-- The target rate: stepped down once for every four failed attempts. -/
def State.targetRate (s : State) (p : Nat) : Nat := s.commonRate p - s.fget F.lnkStsAttempts p / 4

/-- The lanes of the group of LPI p, as 4 × LPI + lane. -/
def State.lanesOf (s : State) (p : Nat) : List Nat := span (4 * p) (4 * s.groupLen p)

/-- Whether LPI p leads its group: the others ignore LNK_CTL, and their management lanes are off (R312). -/
def State.leads (s : State) (p : Nat) : Bool := s.leadOf p == p

/-! ## States (Table 13-6) -/

/-- A port begins to train from DETECT. -/
def toDetect (p : Nat) (s : State) : State :=
  let s1 := setTrain p 1 s
  (s1.setLpi p { s1.lpi p with helloAt := none, farLoop := [], retr := false }).fset F.mlStsHelloOk p 0

/-- CONFIG sends the target rate. -/
def toConfig (p : Nat) (s : State) : State :=
  let s1 := setTrain p 2 s
  sendMl p 0x02 [s1.targetRate p] (s1.setLpi p { s1.lpi p with retr := false })

/-- FAILED, with its cause. -/
def toFailed (p cause : Nat) (s : State) : State := (setTrain p 8 s).fset F.lnkStsFail p cause

/-- A signed field of a board equalisation entry (Table 13-8). -/
def eqField (w lo : Nat) : Int := signedOf 6 (w / 2 ^ lo)

/-- The sum rule of R328 after the clamps: full swing is 64. -/
def sumRule (pre main post : Int) : Int × Int × Int :=
  let main1 := if pre + main + post > 64 then max (64 - pre - post) 32 else main
  let post1 := if pre + main1 + post > 64 then 64 - pre - main1 else post
  (pre, main1, post1)

/-- The effective values of a lane at a rate code 0 to 2 (R328): PRE, MAIN, POST, CTLE. -/
def State.effTaps (s : State) (lane r : Nat) : Int × Int × Int × Int :=
  let w := s.eqWord (3 * lane + r)
  let f := fun t => Config.factory 0x80 (4 * (3 * lane + r) + t)
  let pre := clampInt (f 0 + eqField w 6) 0 16
  let post := clampInt (f 2 + eqField w 18) 0 24
  let main := clampInt (f 1 + eqField w 12) 32 64
  let (a, b, c) := sumRule pre main post
  (a, b, c, clampInt (f 3 + eqField w 24) 0 31)

/-- The effective taps of a lane in LANE_EQ. -/
def putTaps (lane : Nat) (pre main post : Int) (s : State) : State :=
  ((s.fset F.laneEqPre lane pre.toNat).fset F.laneEqMain lane main.toNat).fset F.laneEqPost lane post.toNat

/-- Every lane of a port takes its effective values for the target rate. -/
def takeTaps (p : Nat) (s : State) : State :=
  forL (s.lanesOf p) (fun i s =>
    let (a, b, c, d) := s.effTaps i (s.targetRate p - 1)
    (putTaps i a b c s).fset F.laneEqCtle i d.toNat) s

/-- EQ; from CONFIG the taps begin anew and the rate is the target (R328, R329). -/
def toEq (p : Nat) (fresh : Bool) (s : State) : State :=
  let s1 := when fresh (fun s =>
    ((takeTaps p s).fset F.lnkStsRate p (s.targetRate p)).fset F.lnkStsWidth p (s.fget F.lnkCtlWidth p)) s
  let s2 := setTrain p 3 s1
  s2.setLpi p { s2.lpi p with eqSent := false, eqRecv := false, retr := false }

/-- LOCK. -/
def toLock (p : Nat) (retr : Bool) (s : State) : State :=
  let s1 := setTrain p 4 s
  s1.setLpi p { s1.lpi p with locks := [], lockSent := false, lockRecv := false, retr := retr }

/-- TEST, at MAX_RATE. -/
def toTest (p : Nat) (s : State) : State :=
  setTrain p 7 ((leaveActive p false s).fset F.lnkStsRate p (s.fget F.lnkCtlMaxRate p))

/-- A failed attempt (R324): back to CONFIG, or FAILED once every rate has failed four times. -/
def failedAttempt (p : Nat) (s : State) : State :=
  let s1 := s.fset F.lnkStsAttempts p (min 15 (s.fget F.lnkStsAttempts p + 1))
  if s1.commonRate p ≤ s1.fget F.lnkStsAttempts p / 4 then toFailed p 2 s1 else toConfig p s1

/-- A port starts again after DISABLED or FAILED: the next training counts its attempts anew (DEDUCED, log 18). -/
def restartPort (p : Nat) (s : State) : State := toDetect p ((s.fset F.lnkStsAttempts p 0).fset F.lnkStsFail p 0)

/-- A retrain (R325): it keeps the rate and the equalisation, and tells the partner. -/
def startRetrain (p : Nat) (s : State) : State :=
  if (s.lpi p).st = 5 then
    sendMl p 0x07 [] ((toLock p true (leaveActive p false s)).fsat F.lnkStsRetrains p 1)
  else s

/-! ## LNK_CTL (R323, R325, R326) -/

/-- EN = 1; it wakes a domain in OFF (R445). -/
def linkEnable (p : Nat) (s : State) : State :=
  if !s.leads p then s
  else
    when ((s.dom (16 + p)).st == 2) (startWake (16 + p))
      (when ((s.lpi p).st == 0) (restartPort p) (s.fset F.lnkCtlEn p 1))

/-- EN = 0: DISABLED at once; LINK_DOWN is sent once. -/
def linkDisable (p : Nat) (s : State) : State :=
  if !s.leads p then s
  else when ((s.lpi p).st != 0) (fun s => sendMl p 0x08 [] (setTrain p 0 (leaveActive p false s))) (s.fset F.lnkCtlEn p 0)

/-- LNK_ENABLE (R323). -/
def execLnkEnable (w : Writer) (p : Fin 8) (s : State) : Host.Outcome State Fault Refusal :=
  live s (guarded w .lnkCtl p.val 1 (linkEnable p.val))

/-- LNK_DISABLE (R326). -/
def execLnkDisable (w : Writer) (p : Fin 8) (s : State) : Host.Outcome State Fault Refusal :=
  live s (guarded w .lnkCtl p.val 0 (linkDisable p.val))

/-- MODE (R326): TEST from any state in which the port is enabled; from TEST back to DETECT. -/
def linkMode (p : Nat) (test : Bool) (s : State) : State :=
  if !s.leads p then s
  else
    let st := (s.lpi p).st
    let s1 := s.fset F.lnkCtlMode p (b2n test)
    if test then when (st != 0 && st != 7) (toTest p) s1
    else when (st == 7) (toDetect p) s1

/-- LNK_MODE_WRITE (R326). -/
def execLnkModeWrite (w : Writer) (p : Fin 8) (test : Bool) (s : State) : Host.Outcome State Fault Refusal :=
  live s (guarded w .lnkCtl p.val (BitVec.ofNat 64 (4 * b2n test)) (linkMode p.val test))

/-- LNK_CTL_RETRAIN (R325): ignored outside ACTIVE. -/
def execLnkCtlRetrain (w : Writer) (p : Fin 8) (s : State) : Host.Outcome State Fault Refusal :=
  live s (guarded w .lnkCtl p.val 2 (when (s.leads p.val) (startRetrain p.val)))

/-! ## Width (R312, R500) -/

/-- The ports that a grouping of LPI p in units of `n` ports forms. -/
def portsFrom (p n : Nat) : List Nat := span (p / n * n) n

/-- The ports that a change of WIDTH concerns: those of the old grouping of each port of the new one, and the
reverse. -/
def State.widthPorts (s : State) (p v : Nat) : List Nat :=
  let old := portsFrom p (s.groupLen p)
  let new := portsFrom p (2 ^ min v 2)
  (List.range 8).filter (fun i => old.contains i || new.contains i)

/-- One gate with the allowances of its new width, and counts and watermarks that restart (R500). -/
def renewGate (g : Nat) (s : State) : State :=
  let n := s.groupLen (g - 2)
  forN 46 (fun j s =>
    let k := 46 * g + j
    let a := BitVec.ofNat 64 (allowDefault g j n (s.leadOf (j - 2) == g - 2 && decide (2 ≤ j) && decide (j < 10)))
    let s1 := (s.rput .gateAllow k a).sput .gateAllow k a
    let s2 := (s1.setInjCnt (ckey j g) 0).setFeeder k { parked := (s1.feeder k).parked }
    s2.setUsedUnits (10 * j + g) 0) s

/-- The reach entries of the NIs of the LPIs concerned, toward the gates concerned. -/
def renewReach (ps : List Nat) (s : State) : State :=
  forL ps (fun q s => forL ps (fun r s => putRoute (22 + q) (2 + r) (romRoute (22 + q) (2 + r)) s) s) s

/-- A port that is DISABLED is flushed before its group changes (R500). -/
def ensureFlushed (p : Nat) (s : State) : State :=
  let s1 := departLink p s
  when ((s1.lpi p).lst != 0) (lpiFlush p 0) s1

/-- An accepted change of WIDTH. -/
def changeWidth (p v : Nat) (s : State) : State :=
  let ps := s.widthPorts p v
  let s1 := forL ps ensureFlushed s
  let s2 := s1.fset F.lnkCtlWidth p v
  renewReach ps (forL (ps.filter s2.leads) (fun q s => renewGate (2 + q) s) s2)

/-- A write of WIDTH (R333): refused with BUSY while a port of either grouping is not DISABLED. -/
def State.widthBusy (s : State) (p v : Nat) : Bool :=
  v != s.fget F.lnkCtlWidth p && !(s.widthPorts p v).all (fun q => (s.lpi q).st == 0)

/-- A write of WIDTH that is not refused. -/
def widthWrite (p v : Nat) (s : State) : State :=
  if v == 3 || v == s.fget F.lnkCtlWidth p then s else changeWidth p v s

/-- WIDTH_CHANGE (R500). -/
def execWidthChange (w : Writer) (p : Fin 8) (width : BitVec 2) (s : State) : Host.Outcome State Fault Refusal :=
  live s (guardedP w .lnkCtl p.val (BitVec.ofNat 64 (width.toNat * 256)) (fun x s =>
    if !s.leads p then s
    else if s.widthBusy p width.toNat then busyWrite w x s else widthWrite p width.toNat s))

/-! ## Management messages (R320, R321) -/

/-- A valid message of a type reaches port p; the management lanes of a group's other LPIs are off. -/
def mlRecv (p ty : Nat) (f : State → State) (s : State) : State :=
  if s.leads p then f (s.fset F.mlStsLastType p ty) else s

/-- The domains of port p's group are ON. -/
def State.ldOn (s : State) (p : Nat) : Bool := (span p (s.groupLen p)).all (fun q => s.domOn (16 + q))

/-- The payload of HELLO (Table 13-5). -/
def State.helloBytes (s : State) (p : Nat) : List Nat :=
  [1, s.fget F.lnkCtlMaxRate p + 4 * s.fget F.lnkCtlFarLoopOk p, s.fget F.lnkCtlWidth p, 0]
    ++ (leBytes 8 (s.cfgGet 0 .serialNumber)).map BitVec.toNat

/-- HELLO_SEND (R323, R326): every 10 µs in DETECT; in CONFIG, RATE goes with it. -/
def helloSend (p : Nat) (s : State) : State :=
  let l := s.lpi p
  let due := match l.helloAt with
    | none => true
    | some t => decide (s.now ≥ t + 10000)
  if s.leads p && (l.st == 1 || l.st == 2) && due && s.ldOn p then
    let s1 := sendMl p 0x01 (s.helloBytes p) (s.setLpi p { l with helloAt := some s.now })
    when (l.st == 2) (sendMl p 0x02 [s.targetRate p]) s1
  else s

/-- HELLO_SEND (R323). -/
def execHelloSend (p : Fin 8) (s : State) : Host.Outcome State Fault Refusal := live s (helloSend p.val)

/-- CONFIG after a HELLO: widths that differ fail the port. -/
def configOrFail (p width : Nat) (s : State) : State :=
  let s1 := toConfig p s
  if width ≠ s.fget F.lnkCtlWidth p then toFailed p 1 s1 else s1

/-- A valid HELLO (R323, R326). In EQ, LOCK or ACTIVE the partner has restarted. -/
def hello (p rate width ident : Nat) (s : State) : State :=
  if rate = 0 then s
  else
    let s1 := (s.rput .mlPartner p (BitVec.ofNat 64 ident)).fset F.mlStsHelloOk p 1
    let s2 := s1.setLpi p { s1.lpi p with partnerRate := rate }
    match (s.lpi p).st with
    | 1 | 3 | 4 => configOrFail p width s2
    | 5 => configOrFail p width (leaveActive p false s2)
    | 8 => restartPort p s2
    | _ => s2

/-- HELLO (R323). -/
def execHello (p : Fin 8) (rate : BitVec 2) (loopOk : Bool) (width : BitVec 2) (ident : BitVec 64) (s : State) :
    Host.Outcome State Fault Refusal := live s (mlRecv p.val 0x01 (hello p.val rate.toNat width.toNat ident.toNat))

/-- RATE (R324): equal to the port's own target, it moves CONFIG to EQ. -/
def rateRecv (p rate : Nat) (s : State) : State :=
  when ((s.lpi p).st == 2 && rate != 0 && rate == s.targetRate p) (toEq p true) s

/-- RATE (R324). -/
def execRate (p : Fin 8) (rate : BitVec 2) (s : State) : Host.Outcome State Fault Refusal :=
  live s (mlRecv p.val 0x02 (rateRecv p.val rate.toNat))

/-- A request changes one tap (R329): the clamps of R328, with the sum rule acting on the tap that was not requested.
The last component says whether a clamp was applied. -/
def eqStep (tap : Nat) (d pre main post : Int) : Int × Int × Int × Bool :=
  if tap = 0 then
    let x := clampInt (pre + d) 0 16
    let (_, b, c) := sumRule x main post
    (x, b, c, x != pre + d || b != main || c != post)
  else if tap = 2 then
    let x := clampInt (post + d) 0 24
    let m := if pre + main + x > 64 then max (64 - pre - x) 32 else main
    let q := if pre + m + x > 64 then 64 - pre - m else x
    (pre, m, q, q != post + d || m != main)
  else
    let x := clampInt (main + d) 32 64
    let q := if pre + x + post > 64 then max (64 - pre - x) 0 else post
    let y := if pre + x + q > 64 then 64 - pre - q else x
    (pre, y, q, y != main + d || q != post)

/-- EQ_REQ (R329): ignored outside EQ (R326). -/
def eqReq (p pos tap : Nat) (up : Bool) (s : State) : State :=
  let i := 4 * p + pos
  if (s.lpi p).st = 3 ∧ pos < 4 * s.groupLen p then
    let (a, b, c, k) := eqStep tap (if up then 1 else -1) (s.fget F.laneEqPre i) (s.fget F.laneEqMain i)
      (s.fget F.laneEqPost i)
    sendMl p 0x04 [pos, a.toNat, b.toNat, c.toNat, b2n k] (putTaps i a b c s)
  else s

/-- EQ_REQ (R329). -/
def execEqReq (p : Fin 8) (lane : Fin 16) (tap : Fin 3) (up : Bool) (s : State) : Host.Outcome State Fault Refusal :=
  live s (mlRecv p.val 0x03 (eqReq p.val lane.val tap.val up))

/-- EQ_ACK (R321): the device sends no EQ_REQ, so the answer is only noted. -/
def execEqAck (p : Fin 8) (lane : Fin 16) (pre main post : BitVec 8) (clamped : Bool) (s : State) :
    Host.Outcome State Fault Refusal := live s (mlRecv p.val 0x04 id)

/-- EQ_DONE sent and received moves EQ to LOCK. -/
def eqExit (p : Nat) (s : State) : State := when ((s.lpi p).eqSent && (s.lpi p).eqRecv) (toLock p false) s

/-- EQ_DONE (R323). -/
def execEqDone (p : Fin 8) (s : State) : Host.Outcome State Fault Refusal :=
  live s (mlRecv p.val 0x05 (fun s => when ((s.lpi p.val).st == 3) (fun s =>
    eqExit p.val (s.setLpi p.val { s.lpi p.val with eqRecv := true })) s))

/-- EQ_CHECK_PASS (R323): 100 µs in EQ without an error on any lane. -/
def eqPass (p : Nat) (s : State) : State :=
  let l := s.lpi p
  if s.leads p && l.st == 3 && !l.eqSent && decide (s.now ≥ l.stAt + 100000) then
    eqExit p (sendMl p 0x05 [] (s.setLpi p { l with eqSent := true }))
  else s

/-- EQ_CHECK_PASS (R323). -/
def execEqCheckPass (p : Fin 8) (s : State) : Host.Outcome State Fault Refusal := live s (eqPass p.val)

/-- LOCKED sent and received moves LOCK to ACTIVE. -/
def lockExit (p : Nat) (s : State) : State := when ((s.lpi p).lockSent && (s.lpi p).lockRecv) (enterActive p) s

/-- LOCKED (R323). -/
def execLocked (p : Fin 8) (s : State) : Host.Outcome State Fault Refusal :=
  live s (mlRecv p.val 0x06 (fun s => when ((s.lpi p.val).st == 4) (fun s =>
    lockExit p.val (s.setLpi p.val { s.lpi p.val with lockRecv := true })) s))

/-- RETRAIN (R325). -/
def execRetrain (p : Fin 8) (s : State) : Host.Outcome State Fault Refusal :=
  live s (mlRecv p.val 0x07 (startRetrain p.val))

/-- LINK_DOWN (R323): it acts in ACTIVE. -/
def execLinkDown (p : Fin 8) (s : State) : Host.Outcome State Fault Refusal :=
  live s (mlRecv p.val 0x08 (fun s => when ((s.lpi p.val).st == 5) (fun s => toDetect p.val (leaveActive p.val false s)) s))

/-- SLEEP sent and received moves ACTIVE to SLEEP, with the link-layer state kept (R353), and LDp, whose timer had the
device send it, begins its entry (R441). -/
def sleepExit (p : Nat) (s : State) : State :=
  when ((s.lpi p).st == 5 && (s.lpi p).sleepSent && (s.lpi p).sleepRecv) (fun s =>
    beginEntry (16 + p) false (setTrain p 6 (leaveActive p true s))) s

/-- The port leaves SLEEP for a local wake: the wake pattern goes out before the first HELLO (R323, R445). -/
def leaveSleep (p : Nat) (s : State) : State := when ((s.lpi p).st == 6) (fun s => toDetect p (s.emit (.wakePattern p))) s

/-- SLEEP (R353). -/
def execSleep (p : Fin 8) (s : State) : Host.Outcome State Fault Refusal :=
  live s (mlRecv p.val 0x09 (fun s => when ((s.lpi p.val).st == 5) (fun s =>
    sleepExit p.val (s.setLpi p.val { s.lpi p.val with sleepRecv := true })) s))

/-- The lanes that a mask of positions names. -/
def maskLanes (p mask n : Nat) : List Nat := ((List.range (4 * n)).filter (natBit mask)).map (· + 4 * p)

/-- LOOP_REQ (R326, R331): accepted only with FAR_LOOP_OK, to enter in ACTIVE or TEST and to leave in TEST. -/
def loopReq (p mask : Nat) (enter : Bool) (s : State) : State :=
  let l := s.lpi p
  let named := maskLanes p mask (s.groupLen p)
  let others := l.farLoop.filter (fun i => !named.contains i)
  if !s.flag F.lnkCtlFarLoopOk p || !(l.st == 7 || (enter && l.st == 5)) then sendMl p 0x0B [0] s
  else if enter then
    let s1 := if l.st = 5 then toTest p s else s
    sendMl p 0x0B [1] (s1.setLpi p { s1.lpi p with farLoop := others ++ named })
  else sendMl p 0x0B [1] (toDetect p s)

/-- LOOP_REQ (R326). -/
def execLoopReq (p : Fin 8) (mask : BitVec 16) (enter : Bool) (s : State) : Host.Outcome State Fault Refusal :=
  live s (mlRecv p.val 0x0A (loopReq p.val mask.toNat enter))

/-- LOOP_ACK (R321): the device sends no LOOP_REQ, so the answer is only noted. -/
def execLoopAck (p : Fin 8) (done : Bool) (s : State) : Host.Outcome State Fault Refusal :=
  live s (mlRecv p.val 0x0B id)

/-- ML_INVALID_MESSAGE (R321). -/
def execMlInvalidMessage (p : Fin 8) (type : BitVec 8) (s : State) : Host.Outcome State Fault Refusal :=
  live s (fun s => when (s.leads p.val) (violPort p.val 0x010F 0 type.toNat) s)

/-- MGMT_MESSAGE_CRC_ERROR (R320). -/
def execMgmtMessageCrcError (p : Fin 8) (s : State) : Host.Outcome State Fault Refusal :=
  live s (fun s => when (s.leads p.val) (fun s => s.fsat F.mlStsCrcErrs p.val 1) s)

/-! ## Timers, lanes and the wake pattern -/

/-- TRAINING_TIMEOUT (R323 to R325): a LOCK that a retrain entered goes to EQ; any other timeout is a failed
attempt. -/
def trainTimeout (p : Nat) (s : State) : State :=
  let l := s.lpi p
  let past := fun n => decide (s.now ≥ l.stAt + n)
  if l.st = 2 then when (past 1000000) (failedAttempt p) s
  else if l.st = 3 then when (past 20000000) (failedAttempt p) s
  else if l.st = 4 then when (past 2000000) (if l.retr then toEq p false else failedAttempt p) s
  else s

/-- TRAINING_TIMEOUT (R324). -/
def execTrainingTimeout (p : Fin 8) (s : State) : Host.Outcome State Fault Refusal :=
  live s (fun s => when (s.leads p.val) (trainTimeout p.val) s)

/-- CODEWORD_RECEIVE (R317): while codewords run, corrections of up to 15 symbols are counted, or the codeword as
uncorrectable; its blocks come as frames and control slots. -/
def codeword (p corrected : Nat) (uncorrectable : Bool) (s : State) : State :=
  let q := s.leadOf p
  if (s.lpi q).st = 4 ∨ (s.lpi q).st = 5 then
    if uncorrectable then s.fsat F.fecUncCodewords q 1 else s.fsat F.fecCorrSymbols q (min corrected 15)
  else s

/-- CODEWORD_RECEIVE (R317). -/
def execCodewordReceive (p : Fin 8) (lane : Fin 4) (corrected : Nat) (uncorrectable : Bool) (s : State) :
    Host.Outcome State Fault Refusal := live s (codeword p.val corrected uncorrectable)

/-- CODEWORD_LOCK_GAIN (R318, R319, R323): with lock on every lane the port sends LOCKED. -/
def lockGain (p lane : Nat) (inverted : Bool) (s : State) : State :=
  let q := s.leadOf p
  let l := s.lpi q
  let i := 4 * p + lane
  if l.st = 4 then
    let s1 := s.fset F.laneTstPolInv i (b2n inverted)
    let locks := i :: l.locks.filter (fun x => x != i)
    if (s.lanesOf q).all locks.contains && !l.lockSent then
      lockExit q (sendMl q 0x06 [] (s1.setLpi q { l with locks := locks, lockSent := true }))
    else s1.setLpi q { l with locks := locks }
  else s

/-- CODEWORD_LOCK_GAIN (R319). -/
def execCodewordLockGain (p : Fin 8) (lane : Fin 4) (inverted : Bool) (s : State) : Host.Outcome State Fault Refusal :=
  live s (lockGain p.val lane.val inverted)

/-- CODEWORD_LOCK_LOSS (R319, R325): a retrain from ACTIVE; during one, the retrain continues (R326). -/
def lockLoss (p lane : Nat) (s : State) : State :=
  let q := s.leadOf p
  let l := s.lpi q
  if l.st = 4 ∨ l.st = 5 then
    startRetrain q (s.setLpi q { l with locks := l.locks.filter (fun x => x != 4 * p + lane) })
  else s

/-- CODEWORD_LOCK_LOSS (R319). -/
def execCodewordLockLoss (p : Fin 8) (lane : Fin 4) (s : State) : Host.Outcome State Fault Refusal :=
  live s (lockLoss p.val lane.val)

/-- WAKE_PATTERN_DETECT (R322, R326, R445): SLEEP ends, and a domain that is not ON wakes; elsewhere only WAKE_SEEN
shows it. -/
def wakePattern (p : Nat) (s : State) : State :=
  if s.leads p then startWake (16 + p) (when ((s.lpi p).st == 6) (toDetect p) (s.fset F.mlStsWakeSeen p 1)) else s

/-- WAKE_PATTERN_DETECT (R322). -/
def execWakePatternDetect (p : Fin 8) (s : State) : Host.Outcome State Fault Refusal := live s (wakePattern p.val)

/-! ## Injection and test loops (R330 to R332, R334) -/

/-- The port of a lane runs codewords or a test. -/
def State.laneRuns (s : State) (p : Nat) : Bool := (s.lpi (s.leadOf p)).st == 5 || (s.lpi (s.leadOf p)).st == 7

/-- GO = 1 with a KIND: it acts in ACTIVE and in TEST. -/
def laneGo (p lane kind : Nat) (s : State) : State :=
  let i := 4 * p + lane
  let s1 := s.fset F.laneInjKind i kind
  let l := s1.lpi p
  if !s.laneRuns p then s1
  else if kind = 0 then s1.emit (.laneFlip p lane 1)
  else if kind = 1 then s1.emit (.laneFlip p lane (s.fget F.laneInjBurst i + 1))
  else
    let rest := l.inj.filter (fun x => x != lane)
    s1.setLpi p { l with inj := if kind = 2 then lane :: rest else rest }

/-- LANE_INJ with GO = 1 of a KIND. -/
def laneInjWrite (w : Writer) (p lane kind : Nat) (s : State) : Host.Outcome State Fault Refusal :=
  live s (guarded w .laneInj (4 * p + lane) (BitVec.ofNat 64 (2 ^ 31 + kind * 2 ^ 29)) (laneGo p lane kind))

/-- LANE_INJ_SINGLE (R332). -/
def execLaneInjSingle (w : Writer) (p : Fin 8) (lane : Fin 4) (s : State) : Host.Outcome State Fault Refusal :=
  laneInjWrite w p.val lane.val 0 s
/-- LANE_INJ_BURST (R332). -/
def execLaneInjBurst (w : Writer) (p : Fin 8) (lane : Fin 4) (s : State) : Host.Outcome State Fault Refusal :=
  laneInjWrite w p.val lane.val 1 s
/-- LANE_INJ_RATE (R332). -/
def execLaneInjRate (w : Writer) (p : Fin 8) (lane : Fin 4) (s : State) : Host.Outcome State Fault Refusal :=
  laneInjWrite w p.val lane.val 2 s
/-- LANE_INJ_STOP (R332). -/
def execLaneInjStop (w : Writer) (p : Fin 8) (lane : Fin 4) (s : State) : Host.Outcome State Fault Refusal :=
  laneInjWrite w p.val lane.val 3 s

/-- CHK_EN from 0 to 1 zeroes LANE_ERR, and the checker seeds itself (R330). -/
def checkerEnable (i : Nat) (s : State) : State :=
  when (!s.flag F.laneTstChkEn i) (fun s => (s.fset F.laneErrErrors i 0).fset F.laneTstChkLock i 0)
    s |>.fset F.laneTstChkEn i 1

/-- LANE_CHECKER_ENABLE (R330). -/
def execLaneCheckerEnable (w : Writer) (p : Fin 8) (lane : Fin 4) (s : State) : Host.Outcome State Fault Refusal :=
  live s (guarded w .laneTst (4 * p.val + lane.val) 0x200 (checkerEnable (4 * p.val + lane.val)))

/-- The checker of a lane runs: CHK_EN acts only in TEST (R334). -/
def State.checking (s : State) (p i : Nat) : Bool := (s.lpi (s.leadOf p)).st == 7 && s.flag F.laneTstChkEn i

/-- CHECKER_LOCK (R330). -/
def execCheckerLock (p : Fin 8) (lane : Fin 4) (s : State) : Host.Outcome State Fault Refusal :=
  live s (fun s => when (s.checking p.val (4 * p.val + lane.val))
    (fun s => s.fset F.laneTstChkLock (4 * p.val + lane.val) 1) s)

/-- CHECKER_LOSS (R330): `wrong` wrong bits of 256 are counted, and from 64 on the checker seeds itself again. -/
def checkerLoss (p i wrong : Nat) (s : State) : State :=
  if s.checking p i && s.flag F.laneTstChkLock i then
    when (decide (64 ≤ wrong)) (fun s => s.fset F.laneTstChkLock i 0) (s.fsat F.laneErrErrors i (min wrong 256))
  else s

/-- CHECKER_LOSS (R330). -/
def execCheckerLoss (p : Fin 8) (lane : Fin 4) (wrong : Nat) (s : State) : Host.Outcome State Fault Refusal :=
  live s (checkerLoss p.val (4 * p.val + lane.val) wrong)

end Sys2Proof.Machine
end

