-- ==== Sys2Proof/Machine/Link.lean ====
section
/-!
DEFINITION. The Drevlink link layer (chapter 14): sequence numbers, acknowledgment and replay, credits, control slots,
the RESUME exchange, the order in which frames leave, and the discipline of reception.
-/
namespace Sys2Proof.Machine

/-! ## Credits (R346 to R350) -/

/-- Header and data credits available: LIMIT − USED. -/
def Credits.hAvail (c : Credits) : Nat := (c.hInit + c.hCnt + 2 ^ 16 - c.hUsed % 2 ^ 16) % 2 ^ 16
def Credits.dAvail (c : Credits) : Nat := (c.dInit + c.dCnt + 2 ^ 24 - c.dUsed % 2 ^ 24) % 2 ^ 24

/-- A frame of one header credit and `d` data credits may go (R349; 0 is infinite, R347). -/
def Credits.room (c : Credits) (d : Nat) : Bool :=
  c.init && (c.hInit == 0 || decide (1 ≤ c.hAvail)) && (d == 0 || c.dInit == 0 || decide (d ≤ c.dAvail))

/-- The credits of a frame are taken. -/
def Credits.take (c : Credits) (d : Nat) : Credits :=
  { c with hUsed := (c.hUsed + 1) % 2 ^ 16, dUsed := (c.dUsed + d) % 2 ^ 24 }

/-- A class of frames (0 non-posted, 1 posted, 2 completion) has the credits; completions take none. -/
def Lpi.room (l : Lpi) (cls d : Nat) : Bool := if cls = 0 then l.np.room d else if cls = 1 then l.po.room d else true
def Lpi.takeCredits (l : Lpi) (cls d : Nat) : Lpi :=
  if cls = 0 then { l with np := l.np.take d } else if cls = 1 then { l with po := l.po.take d } else l

/-- A counter of an LCB is applied; LIMIT − USED above the INIT value is clamped (R349). -/
def Credits.count (c : Credits) (h d now : Nat) : Credits × Bool :=
  let c1 := { c with hCnt := h, dCnt := d, at_ := if c.hCnt = h ∧ c.dCnt = d then c.at_ else now }
  let overH := c.hInit != 0 && decide (c1.hAvail > c.hInit)
  let overD := c.dInit != 0 && decide (c1.dAvail > c.dInit)
  ({ c1 with hCnt := if overH then c.hUsed else h, dCnt := if overD then c.dUsed else d }, overH || overD)

/-! ## Replay (R342 to R345) -/

/-- Reads of LEN 0, and host reads with no byte enabled, that no earlier posted frame keeps back any longer are
answered: the partner has acknowledged every posted frame released before (R217). -/
def isZero (p : Packet) : Bool := p.cls == 0 && p.ty == 0 && p.range.enabled.isEmpty

/-- An entry of LEN 0 has nothing posted before it in the egress or in replay. -/
def Lpi.zeroReady (l : Lpi) (e : Egress) : Bool :=
  isZero e.pkt && !l.egress.any (fun x => x.pkt.cls == 1 && decide (x.order < e.order))
    && !l.replay.any (fun t => t.frame.cls == 1 && decide (t.order < e.order))

/-- The answer to a read without a byte to read. -/
def zeroReply (p : Nat) (x : Packet) (s : State) : State :=
  if x.len = 0 then zeroAnswer (2 + p) x s
  else
    let (n, s1) := takeFree s
    offer { x.reply 0x20 0 ((List.range x.len).map (Config.freeByte n)) with src := 2 + p } s1

/-- Every read of LEN 0 whose time has come is answered. -/
def answerZeros (p : Nat) (s : State) : State :=
  let l := s.lpi p
  forL (l.egress.filter l.zeroReady) (fun e => zeroReply p e.pkt)
    (s.setLpi p { l with egress := l.egress.filter (fun e => !l.zeroReady e) })

/-- An ACKSEQ is applied (R345): frames up to it are purged; one outside the buffer is a violation. -/
def applyAck (p a : Nat) (s : State) : State :=
  let l := s.lpi p
  let o := match l.replay with
    | [] => l.txNext
    | t :: _ => t.frame.seq
  let k := (a + 4096 - o) % 4096
  if k < l.replay.length then
    let rest := l.replay.drop (k + 1)
    answerZeros p (s.setLpi p { l with
      replay := rest, purgeAt := s.now, replays := 0, emptyAt := if rest.isEmpty then s.now else l.emptyAt })
  else if k = 4095 then s
  else violPort p 0x0103 0 a s

/-- A replay of every frame held begins; the fourth in a row without a purge asks for a retrain (R345). -/
def startReplay (p : Nat) (s : State) : State :=
  let l := s.lpi p
  match l.replay with
  | [] => s
  | t :: _ =>
    let s1 := s.setLpi p { l with
      replay := l.replay.map (fun x => { x with again := true }), repStart := t.frame.seq, purgeAt := s.now
      replays := l.replays + 1 }
    if 4 ≤ l.replays + 1 then startRetrain p s1 else s1

/-- REPLAY_TO in ns. -/
def State.replayTo (s : State) (p : Nat) : Nat := s.fget F.llTmrReplayTo p

/-- REPLAY_TIMEOUT (R345): the oldest frame has been held REPLAY_TO without a purge. -/
def replayTimeout (p : Nat) (s : State) : State :=
  let l := s.lpi p
  match l.replay with
  | [] => s
  | t :: _ =>
    if s.portUp p && decide (s.now ≥ max t.at_ l.purgeAt + s.replayTo p) then
      startReplay p (s.fsat F.llCntReplayTmo p 1)
    else s

/-- REPLAY_TIMEOUT (R345). -/
def execReplayTimeout (p : Fin 8) (s : State) : Host.Outcome State Fault Refusal := live s (replayTimeout p.val)

/-! ## Control slots (R336, R344, R347, R348, R353) -/

/-- The control-slot blocks (Table 14-5). -/
def ctlWord (ty ack flag h d : Nat) : Word :=
  BitVec.ofNat 64 (ty + ack % 4096 * 2 ^ 8 + flag * 2 ^ 20 + h % 2 ^ 16 * 2 ^ 24 + d % 2 ^ 24 * 2 ^ 40)

/-- The credits that the device announces (Table 14-6): posted header, posted data, non-posted header. -/
def State.giveP (s : State) (p : Nat) : Nat := 256 * s.groupLen p
def State.giveD (s : State) (p : Nat) : Nat := 832 * s.groupLen p

/-- The RESUME exchange is done. -/
def resumeDone (p : Nat) (s : State) : State :=
  when ((s.lpi p).resumeSent && (s.lpi p).resumeRecv) (setLst p 1) s

/-- A NAK is due now (R344). -/
def State.nakNow (s : State) (p : Nat) : Bool :=
  let l := s.lpi p
  l.nakDue && (!l.nakLock || decide (s.now ≥ l.nakAt + s.replayTo p))

/-- CONTROL_SLOT_SEND (R336): RESUME until the exchange is done, the two INITs, then a NAK that is due or an LCB of
alternating class. -/
def slotBlock (p : Nat) (s : State) : State :=
  let l := s.lpi p
  if l.st ≠ 5 ∨ l.lst = 0 then s
  else if l.lst ≠ 1 then
    resumeDone p ((s.setLpi p { l with resumeSent := true }).emit
      (.ctlBlock p (ctlWord 0x2D l.rxAck (b2n l.keep) 0 0)))
  else if l.initSent = 0 then
    (s.setLpi p { l with initSent := 1, gaveP := {} }).emit (.ctlBlock p (ctlWord 0x66 0 0 (s.giveP p) (s.giveD p)))
  else if l.initSent = 1 then
    (s.setLpi p { l with initSent := 2, gaveN := {} }).emit (.ctlBlock p (ctlWord 0x66 0 1 (s.giveP p) 0))
  else if s.nakNow p then
    ((s.setLpi p { l with nakDue := false, nakLock := true, nakAt := s.now }).fsat F.llCntNakTx p 1).emit
      (.ctlBlock p (ctlWord 0x55 l.rxAck 0 0 0))
  else
    let g := if l.lcbNp then l.gaveN else l.gaveP
    let g1 := { g with hAnn := g.hTaken, dAnn := g.dTaken }
    let l1 := if l.lcbNp then { l with gaveN := g1, lcbNp := false } else { l with gaveP := g1, lcbNp := true }
    (s.setLpi p l1).emit (.ctlBlock p (ctlWord 0x4B l.rxAck (b2n l.lcbNp) g.hTaken g.dTaken))

/-- CONTROL_SLOT_SEND (R336). -/
def execControlSlotSend (p : Fin 8) (s : State) : Host.Outcome State Fault Refusal := live s (slotBlock p.val)

/-- LCB (R348): ACKSEQ first, the counters second. -/
def lcbRecv (p a : Nat) (np : Bool) (h d : Nat) (s : State) : State :=
  if !s.portUp p then s
  else
    let s1 := applyAck p a s
    let l := s1.lpi p
    let c := if np then l.np else l.po
    if !c.init then s1
    else
      let (c1, ovr) := c.count h d s1.now
      let s2 := s1.setLpi p (if np then { l with np := c1 } else { l with po := c1 })
      when ovr (violPort p 0x0104 (b2n np) h) s2

/-- LCB (R348). -/
def execLcb (p : Fin 8) (ackseq : BitVec 12) (np : Bool) (hcnt : BitVec 16) (dcnt : BitVec 24) (s : State) :
    Host.Outcome State Fault Refusal := live s (lcbRecv p.val ackseq.toNat np hcnt.toNat dcnt.toNat)

/-- NAK (R345): one that names the start of a replay already running is ignored. -/
def nakRecv (p a : Nat) (s : State) : State :=
  if !s.portUp p then s
  else
    let s1 := applyAck p a (s.fsat F.llCntNakRx p 1)
    let l := s1.lpi p
    if l.replay.any (·.again) && (a + 1) % 4096 == l.repStart then s1 else startReplay p s1

/-- NAK (R345). -/
def execNak (p : Fin 8) (ackseq : BitVec 12) (s : State) : Host.Outcome State Fault Refusal :=
  live s (nakRecv p.val ackseq.toNat)

/-- An INIT keeps within R347 and R350. -/
def initOk (np : Bool) (h d : Nat) : Bool :=
  decide (h ≤ 32767) && decide (d ≤ 8388607) && (np || d == 0 || decide (65 ≤ d))

/-- INIT (R347, R350, R352). -/
def initRecv (p : Nat) (np : Bool) (h d : Nat) (s : State) : State :=
  if !s.portUp p then s
  else
    let l := s.lpi p
    let s1 := s.rput .llLeak p 0
    if initOk np h d then
      let c : Credits := { init := true, hInit := h, dInit := d, at_ := s.now }
      s1.setLpi p (if np then { l with np := c } else { l with po := c })
    else
      violPort p 0x0106 (b2n np) h
        ((s1.setLpi p (if np then { l with np := {} } else { l with po := {} })).fset F.llStsInitErr p 1)

/-- INIT (R347). -/
def execInit (p : Fin 8) (np : Bool) (hcred : BitVec 16) (dcred : BitVec 24) (s : State) :
    Host.Outcome State Fault Refusal := live s (initRecv p.val np hcred.toNat dcred.toNat)

/-- RESUME (R353): where both keep their state, the partner's ACKSEQ is applied and every frame still held goes again,
with credits of the new INITs; otherwise the device flushes, if it has not yet, and the port starts anew. -/
def resumeRecv (p a : Nat) (keep : Bool) (s : State) : State :=
  let l := s.lpi p
  if l.st ≠ 5 ∨ l.lst ≠ 3 ∨ l.resumeRecv then s
  else
    let s1 :=
      if l.keep && keep then
        let s0 := applyAck p a s
        let l0 := s0.lpi p
        s0.setLpi p { l0 with
          replay := l0.replay.map (fun t => { t with again := true, paid := false }), po := {}, np := {}
          repStart := (l0.replay.head?.map (·.frame.seq)).getD 0, purgeAt := s.now }
      else if l.keep then
        let s0 := lpiFlush p 2 s
        setLst p 3 (portOpen p (s0.setLpi p { s0.lpi p with keep := false }))
      else s
    resumeDone p (s1.setLpi p { s1.lpi p with resumeRecv := true })

/-- RESUME (R353). -/
def execResume (p : Fin 8) (ackseq : BitVec 12) (keep : Bool) (s : State) : Host.Outcome State Fault Refusal :=
  live s (resumeRecv p.val ackseq.toNat keep)

/-! ## Reception (R339 to R349) -/

/-- The byte enables of a frame fit its range (R77, R340). -/
def enablesOk (f : Frame) : Bool :=
  if f.cls = 2 then true
  else if f.tt = 0x00 ∨ f.tt = 0x04 ∨ f.tt = 0x10 ∨ f.tt = 0x11 then
    f.fbe &&& ~~~(fbeFor f.addr f.len) == 0 && f.lbe &&& ~~~(lbeFor f.addr f.len) == 0
  else f.fbe == 0 && f.lbe == 0

/-- LEN is one of those that Table 14-4 gives for the TT. -/
def lenOk (f : Frame) : Bool :=
  match f.tt with
  | 0x00 => decide (f.len ≤ 512)
  | 0x04 | 0x11 => (f.len == 4 || f.len == 8 || f.len == 16) && f.addr % f.len == 0
  | 0x10 | 0x16 => decide (1 ≤ f.len) && decide (f.len ≤ 4096)
  | 0x15 => f.len == 56
  | 0x20 => decide (1 ≤ f.len) && decide (f.len ≤ 512)
  | _ => f.len == 0

/-- The payload bytes of a frame's TT. -/
def frameHasData (f : Frame) : Bool := f.tt == 0x10 || f.tt == 0x11 || f.tt == 0x15 || f.tt == 0x16 || f.tt == 0x20

/-- A frame's TT is defined, belongs to its CLASS, and LEN, NBLK and byte enables agree (Table 17-6, 0x0101). -/
def frameOk (f : Frame) : Bool :=
  ttClass f.tt == some f.cls && lenOk f && f.nblk == 2 + payBlocks f.tt f.addr f.len && enablesOk f
    && f.data.length == (if frameHasData f then f.len else 0)

/-- How far a frame's SEQ is beyond the next one expected (R343). -/
def State.seqDist (s : State) (p : Nat) (f : Frame) : Nat := (f.seq % 4096 + 8192 - ((s.lpi p).rxAck + 1)) % 4096

/-- A frame that is not accepted (R343): errored, a duplicate, or out of sequence. -/
def discardFrame (p : Nat) (f : Frame) (s : State) : State :=
  if f.errored then (s.setLpi p { s.lpi p with nakDue := true }).fsat F.llCntCrcErr p 1
  else
    let d := s.seqDist p f
    if d < 2048 then s.setLpi p { s.lpi p with nakDue := true }
    else when (d == 2048) (violFrame p 0x0102 0 f.seq f) s

/-- Credits that the partner has left of a class, as the device announced them (R349, Table 14-7): header credits, and
data credits of the posted class. -/
def State.leftH (s : State) (p : Nat) (g : Given) : Nat := (s.giveP p + g.hAnn + 2 ^ 16 - g.hTaken % 2 ^ 16) % 2 ^ 16
def State.leftD (s : State) (p : Nat) (g : Given) : Nat := (s.giveD p + g.dAnn + 2 ^ 24 - g.dTaken % 2 ^ 24) % 2 ^ 24

/-- A frame is within the credits announced. -/
def State.withinCredits (s : State) (p : Nat) (f : Frame) : Bool :=
  let l := s.lpi p
  if f.cls = 0 then l.initSent == 2 && decide (1 ≤ s.leftH p l.gaveN)
  else if f.cls = 1 then
    decide (1 ≤ l.initSent) && decide (1 ≤ s.leftH p l.gaveP) && decide (frameCredits f ≤ s.leftD p l.gaveP)
  else true

/-- An accepted frame takes its credits, which are free again once it has left the receive buffer (R348). -/
def Given.took (g : Given) (d : Nat) : Given :=
  { g with hTaken := (g.hTaken + 1) % 2 ^ 16, dTaken := (g.dTaken + d) % 2 ^ 24 }
def takeGiven (l : Lpi) (f : Frame) : Lpi :=
  if f.cls = 0 then { l with gaveN := l.gaveN.took 0 }
  else if f.cls = 1 then { l with gaveP := l.gaveP.took (frameCredits f) } else l

/-- A frame with SEQ as expected is accepted, unless it goes beyond the credits (R343, R349). -/
def acceptFrame (p : Nat) (f : Frame) (g : State → State) (s : State) : State :=
  if s.withinCredits p f then
    g (s.setLpi p { takeGiven (s.lpi p) f with rxAck := f.seq % 4096, nakLock := false })
  else startRetrain p (violFrame p 0x0105 0 f.seq f s)

/-- The frame of one row: discarded if errored or out of sequence; an accepted one of the row's kind has effect `g`. -/
def recvFrame (p : Nat) (f : Frame) (mine : Bool) (g : State → State) (s : State) : State :=
  if !mine || !s.portUp p then s
  else if f.errored || s.seqDist p f != 0 then discardFrame p f (touch (16 + p) s)
  else acceptFrame p f g (touch (16 + p) s)

/-- ERRORED_FRAME (R343). -/
def execErroredFrame (p : Fin 8) (f : Frame) (s : State) : Host.Outcome State Fault Refusal :=
  live s (recvFrame p.val f (f.errored || s.seqDist p.val f != 0) id)

/-! ## Egress and answers that need no packet -/

/-- A packet joins the LPI's egress in release order (R361). -/
def lpiPush (p : Nat) (x : Packet) (s : State) : State :=
  let l := s.lpi p
  answerZeros p (s.setLpi p { l with
    egress := l.egress ++ [{ pkt := x, order := l.order, at_ := s.now }], order := l.order + 1 })

/-- The device answers a partner's request at once: `csts` 1 UR, 2 CA, 3 RETRY (counted). -/
def answerFrame (p csts : Nat) (f : Frame) (s : State) : State :=
  lpiPush p { cls := 2, ty := 0x21, src := 2 + p, dst := 2 + p, fn := f.fn, tag := f.tag, addr := f.addr, csts := csts }
    (when (csts == 3) (fun s => s.fsat F.lbStsRetries p 1) s)

/-- UNDEFINED_TT_FRAME (R417): accepted, its credits freed; a non-posted one is answered UR. -/
def undefinedFrame (p : Nat) (f : Frame) (s : State) : State :=
  when (f.cls == 0) (answerFrame p 1 f) (violFrame p 0x0101 f.tt f.seq f s)

/-- UNDEFINED_TT_FRAME (R417). -/
def execUndefinedTtFrame (p : Fin 8) (f : Frame) (s : State) : Host.Outcome State Fault Refusal :=
  live s (recvFrame p.val f (!frameOk f) (undefinedFrame p.val f))

/-! ## The drought monitor and leaks (R351, R352) -/

/-- The data credits that an entry of the egress needs. -/
def entryCredits (e : Egress) : Nat :=
  let p := e.pkt
  if p.cls = 1 then
    let q := swapRange p.swap p.range
    let tt := if p.ty = 0x14 then 0x15 else if p.ty = 0x15 then 0x16 else p.ty
    (payBlocks tt q.addr (if p.ty = 0x14 ∨ p.ty = 0x15 then p.data.length else q.len) + 7) / 8
  else 0

/-- A class waited for its credits through the whole microsecond that began at `t`, and none arrived. -/
def Lpi.starved (l : Lpi) (cls t : Nat) : Bool :=
  let c := if cls = 0 then l.np else l.po
  decide (c.at_ < t) &&
    (l.egress.any (fun e => e.pkt.cls == cls && !isZero e.pkt && decide (e.at_ ≤ t) && !c.room (entryCredits e))
      || l.replay.any (fun x => x.frame.cls == cls && x.again && !x.paid && !c.room (frameCredits x.frame)))

/-- STALL_MICROSECOND (R351). -/
def stallMicro (p : Nat) (s : State) : State :=
  let l := s.lpi p
  let u := s.now / 1000
  let t := 1000 * (u - 1)
  if s.portUp p && 1 ≤ u && l.stallAt != u && decide (l.up ≤ t) && (l.starved 0 t || l.starved 1 t) then
    let s1 := (s.setLpi p { l with stallAt := u }).fsat F.llDrDrCnt p 1
    if s1.fget F.llDrDrCnt p = s1.fget F.llDrDrTh p then
      when (s1.flag F.llCtlDrRetrain p) (startRetrain p)
        (violPort p 0x0110 0 (s1.fget F.llDrDrCnt p) (s1.fsat F.llDrDrEvents p 1))
    else s1
  else s

/-- STALL_MICROSECOND (R351). -/
def execStallMicrosecond (p : Fin 8) (s : State) : Host.Outcome State Fault Refusal := live s (stallMicro p.val)

/-- DROUGHT_EPOCH_END (R351): at each 1 ms boundary of TBU time. -/
def execDroughtEpochEnd (p : Fin 8) (s : State) : Host.Outcome State Fault Refusal :=
  live s (fun s =>
    let e := s.now / 1000000
    if (s.lpi p.val).epoch ≠ e then (s.setLpi p.val { s.lpi p.val with epoch := e }).fset F.llDrDrCnt p.val 0 else s)

/-- What LIMIT − USED lacks of an INIT value; nothing where it is infinite. -/
def Credits.hShort (c : Credits) : Nat := if c.hInit = 0 then 0 else c.hInit - c.hAvail
def Credits.dShort (c : Credits) : Nat := if c.dInit = 0 then 0 else c.dInit - c.dAvail

/-- LEAK_SNAPSHOT (R352). -/
def leakSnap (p : Nat) (s : State) : State :=
  let l := s.lpi p
  if s.portUp p && l.replay.isEmpty && l.egress.isEmpty && decide (s.now ≥ l.emptyAt + 10000) then
    (s.fset F.llLeakHdrShort p (min 0xFFFF (l.np.hShort + l.po.hShort))).fset F.llLeakDataShort p
      (min 0xFFFF l.po.dShort)
  else s

/-- LEAK_SNAPSHOT (R352). -/
def execLeakSnapshot (p : Fin 8) (s : State) : Host.Outcome State Fault Refusal := live s (leakSnap p.val)

end Sys2Proof.Machine
end

