-- ==== Sys2Proof/Machine/Bridge.lean ====
section
/-!
DEFINITION. The transaction layer of a Drevlink port and its bridging (R355 to R361, chapter 15): frames for released
packets, far locks, prefetch, completions from the partner, and the partner's own requests and messages.
-/
namespace Sys2Proof.Machine

/-! ## What leaves (R357, R358, R361, R372) -/

/-- The lowest free tag of a Drevlink port (R357). -/
def State.lpiTag (s : State) (p : Nat) : Option Nat :=
  (List.range (1024 * s.groupLen p)).find? (fun t => (s.tag (4096 * (2 + p) + t)).free)

/-- The far lock that an unlock write or abort closes: the LPI's own by its tag, a program's by its requester. -/
def Lpi.lockOf (l : Lpi) (p : Nat) (x : Packet) : Option FarLock :=
  if x.src = 2 + p then l.far.find? (fun k => k.tag == x.tag)
  else l.far.find? (fun k => !k.host && k.req.src == x.src && k.req.tag == x.tag && k.req.fn == x.fn)

/-- The partner's range of a packet; messages address none. -/
def partnerRange (x : Packet) : Range := if x.ty = 0x14 ∨ x.ty = 0x15 then {} else swapRange x.swap x.range

/-- A byte of a range lies under an open far lock (R372). -/
def Lpi.locked (l : Lpi) (q : Range) : Bool :=
  l.far.any (fun k => decide (q.addr < k.addr + k.len) && decide (k.addr < q.addr + q.len))

/-- An unlock write or lock abort. -/
def isClosing (x : Packet) : Bool := x.cls == 1 && (x.ty == 0x11 || x.ty == 0x12)

/-- An entry that opens a far lock: a program's locked read or a host AtomicOp. -/
def isOpening (x : Packet) : Bool := x.cls == 0 && decide (1 ≤ x.ty) && decide (x.ty ≤ 4)

/-- An entry has what its frame needs. -/
def State.entryReady (s : State) (p : Nat) (e : Egress) : Bool :=
  let l := s.lpi p
  let x := e.pkt
  if x.cls = 2 then true
  else if x.cls = 1 then
    if isClosing x then (l.lockOf p x).isNone || l.po.room (entryCredits e)
    else l.po.room (entryCredits e) && !l.locked (partnerRange x)
  else
    l.np.room 0 && (s.lpiTag p).isSome && !l.locked (partnerRange x)
      && (!isOpening x || decide (l.far.length < 16 * s.groupLen p))

/-- The release order lets an entry go (R361): posted frames and completions pass non-posted ones that wait; only an
unlock write or abort passes a posted frame, one that waits for a far lock (DEDUCED, log 19). -/
def State.orderLets (s : State) (p : Nat) (e : Egress) : Bool :=
  let l := s.lpi p
  let before := l.egress.filter (fun x => decide (x.order < e.order) && !isZero x.pkt)
  if e.pkt.cls = 0 then before.isEmpty
  else if isClosing e.pkt then
    match before.filter (fun x => x.pkt.cls == 1) with
    | [] => true
    | x :: _ => !isClosing x.pkt && l.locked (partnerRange x.pkt)
  else before.all (fun x => x.pkt.cls == 0)

/-- The entry that goes next. -/
def State.nextEntry (s : State) (p : Nat) : Option Egress :=
  (s.lpi p).egress.find? (fun e => !isZero e.pkt && s.orderLets p e && s.entryReady p e)

/-- An entry leaves the egress. -/
def lpiDrop (p order : Nat) (s : State) : State :=
  let l := s.lpi p
  s.setLpi p { l with egress := l.egress.filter (fun e => e.order != order) }

/-- An entry has been sent up to byte `off`. -/
def lpiAt (p order off : Nat) (s : State) : State :=
  let l := s.lpi p
  s.setLpi p { l with egress := l.egress.map (fun e => if e.order = order then { e with off := off } else e) }

/-- A new frame goes onto the lanes with the next SEQ, its credits taken, and is held for replay (R342, R349). -/
def putFrame (p : Nat) (e : Egress) (f : Frame) (s : State) : State :=
  let l := (s.lpi p).takeCredits f.cls (frameCredits f)
  let f1 := { f with seq := l.txNext }
  let t : TxFrame := { frame := f1, pkt := e.pkt, order := e.order, at_ := s.now }
  touch (16 + p) ((s.setLpi p { l with replay := l.replay ++ [t], txNext := (l.txNext + 1) % 4096 }).emit (.frame p f1))

/-- A far lock closes: its answer goes out and its tag may be used again (R358). -/
def closeLock (p : Nat) (k : FarLock) (s : State) : State :=
  let l := s.lpi p
  let key := 4096 * (2 + p) + k.tag
  let s1 := (s.setLpi p { l with far := l.far.filter (fun x => x.tag != k.tag) }).setTag key
    (if (s.tag key).out || (s.tag key).cooled then { s.tag key with lock := false } else {})
  match k.ans with
  | none => s1
  | some a => offer a s1

/-- A tag for bytes `off` to `off + n` of a request, whose time begins with its SOF (R356). -/
def lpiTagOut (p t : Nat) (x : Packet) (off n : Nat) (lock : Bool) (pf : Option Nat) (s : State) : State :=
  s.setTag (4096 * (2 + p) + t) {
    out := true, fn := x.fn, off := off, len := n, at_ := s.now, limit := 1000 * s.fget F.llTmrCto p, req := x
    lock := lock, pf := pf }

/-- A locked read leaves and opens its far lock (R358, R372). -/
def sendLocked (p : Nat) (e : Egress) (s : State) : State :=
  let x := e.pkt
  match s.lpiTag p with
  | none => s
  | some t =>
    let q := partnerRange x
    let s1 := putFrame p e (frameFor x 0x04 t q.addr q []) (lpiTagOut p t x 0 x.len true none (lpiDrop p e.order s))
    let l := s1.lpi p
    s1.setLpi p { l with far := l.far ++ [{
      tag := t, addr := q.addr, len := q.len, req := x, host := decide (x.ty < 4) }] }

/-- The next part of a read leaves: a read is split at every 512-byte boundary of the local address (Table 15-1). -/
def sendReadPart (p : Nat) (e : Egress) (s : State) : State :=
  let x := e.pkt
  match s.lpiTag p with
  | none => s
  | some t =>
    let n := min (512 - (x.addr + e.off) % 512) (x.len - e.off)
    let q := swapRange x.swap (x.range.part e.off n)
    let own := x.src == 2 + p
    let s1 := when (e.off == 0 && !own) (fun s =>
      s.setLpi p { s.lpi p with gather := (s.lpi p).gather ++ [{ req := x, left := x.len }] }) s
    let s2 := if x.len ≤ e.off + n then lpiDrop p e.order s1 else lpiAt p e.order (e.off + n) s1
    if q.len = 0 then
      let (k, s3) := takeFree s2
      lpiGather p (onGather x (fun g => g.land e.off ((List.range n).map (Config.freeByte k)) false)) s3
    else
      putFrame p e (frameFor { x with ep := false } 0x00 t q.addr q [])
        (lpiTagOut p t x e.off n false (if own then some x.tag else none) s2)

/-- The completion frame of an answer to the partner (R376): its status, its data, and EP. -/
def cplFrame (f : Frame) (r : Packet) : Frame :=
  let ok := r.csts == 0 && r.data.length == f.len
  let data := if ok then r.data else []
  { errored := false, seq := 0, cls := 2, nblk := 2 + (if ok then payBlocks 0x20 f.addr f.len else 0)
    tt := if data.isEmpty then 0x21 else 0x20, fn := f.fn, tag := f.tag, addr := f.addr % 4096, len := data.length
    fbe := if data.isEmpty then 0 else f.fbe, lbe := if data.isEmpty then 0 else f.lbe
    sts := if ok then 0 else if r.csts = 1 ∨ r.csts = 3 then r.csts else 2, ro := r.ro, ns := r.ns, ep := ok && r.ep
    ido := false, last := true, data := data }

/-- An answer to a partner request leaves; one whose request a flush has struck is discarded (R354). -/
def sendAnswer (p : Nat) (e : Egress) (s : State) : State :=
  let x := e.pkt
  let s1 := lpiDrop p e.order s
  if x.src = 2 + p then
    putFrame p e { cplFrame { (default : Frame) with fn := x.fn, tag := x.tag, addr := x.addr } x with sts := x.csts } s1
  else
    let l := s1.lpi p
    match l.parts.find? (fun r => r.tag == x.tag) with
    | none => s1
    | some r =>
      let s2 := s1.setLpi p { l with parts := l.parts.filter (fun y => y.tag != x.tag) }
      if r.dead then s2
      else putFrame p e (cplFrame r.frame x) (when (x.csts == 3) (fun s => s.fsat F.lbStsRetries p 1) s2)

/-- A posted packet leaves as a frame (Table 14-4); an unlock write whose lock is no longer open is one of a cut belay
(R108). -/
def sendPosted (p : Nat) (e : Egress) (s : State) : State :=
  let x := e.pkt
  let q := partnerRange x
  let s1 := lpiDrop p e.order s
  if isClosing x then
    match (s.lpi p).lockOf p x with
    | none => when (x.ty == 0x11) (pfr (2 + p) x 7 0) s1
    | some k =>
      let f := if x.ty = 0x11 then frameFor x 0x11 k.tag q.addr q (swapData x.swap x.range q x.data)
        else frameFor x 0x12 k.tag k.addr {} []
      closeLock p k (putFrame p e f s1)
  else if x.ty = 0x14 then
    putFrame p e (frameFor x 0x15 0 (if x.src = 42 then 0x48 else 8 * (x.src - 10) + x.eng) {} x.data) s1
  else if x.ty = 0x15 then putFrame p e (frameFor x 0x16 0 (x.addr % 65536) {} x.data) s1
  else putFrame p e (frameFor x 0x10 0 q.addr q (swapData x.swap x.range q x.data)) s1

/-- A frame held goes again, oldest first; after a resume it takes its credits anew. -/
def resend (p : Nat) (t : TxFrame) (s : State) : State :=
  let l := s.lpi p
  if t.paid || l.room t.frame.cls (frameCredits t.frame) then
    let l1 := if t.paid then l else l.takeCredits t.frame.cls (frameCredits t.frame)
    (s.setLpi p { l1 with replay := l1.replay.map (fun x =>
      if x.frame.seq = t.frame.seq then { x with again := false, paid := true } else x) }).emit (.frame p t.frame)
  else s

/-- FRAME_SEND (R342, R345, R361): a running replay goes first, then the next entry that may go; host AtomicOps
leave by FAR_LOCK_OPEN. -/
def frameSend (p : Nat) (s : State) : State :=
  if !s.portUp p then s
  else
    match (s.lpi p).replay.find? (·.again) with
    | some t => resend p t s
    | none =>
      if 2047 ≤ (s.lpi p).replay.length then s
      else
        match s.nextEntry p with
        | none => s
        | some e =>
          if e.pkt.cls = 2 then answerZeros p (sendAnswer p e s)
          else if e.pkt.cls = 1 then answerZeros p (sendPosted p e s)
          else if e.pkt.ty = 4 then sendLocked p e s
          else if e.pkt.ty = 0 then sendReadPart p e s
          else s

/-- FRAME_SEND (R361). -/
def execFrameSend (p : Fin 8) (s : State) : Host.Outcome State Fault Refusal := live s (frameSend p.val)

/-- FAR_LOCK_OPEN (R372): the locked read of a host AtomicOp. -/
def farOpen (p : Nat) (s : State) : State :=
  if !s.portUp p || (s.lpi p).replay.any (·.again) || decide (2047 ≤ (s.lpi p).replay.length) then s
  else
    match s.nextEntry p with
    | none => s
    | some e => if e.pkt.cls = 0 ∧ 1 ≤ e.pkt.ty ∧ e.pkt.ty ≤ 3 then sendLocked p e s else s

/-- FAR_LOCK_OPEN (R372). -/
def execFarLockOpen (p : Fin 8) (s : State) : Host.Outcome State Fault Refusal := live s (farOpen p.val)

/-! ## Prefetch (R272, R273, R370, R371) -/

/-- The blocks of the LPI buffer in use: prefetched ones and return blocks. -/
def Lpi.blocksUsed (l : Lpi) : Nat := l.pf.length + (l.parts.filter (·.host)).length

/-- The prefetched block of oldest data that no read waits for. -/
def Lpi.oldestBlock (l : Lpi) : Option PfBlock :=
  (l.pf.filter (fun b => b.arrived && !l.waits.any (fun w => w.need.contains b.id))).foldl (fun a b => match a with
    | none => some b
    | some x => if b.at_ < x.at_ then some b else some x) none

/-- A place in the LPI buffer, by eviction if need be; none when no block can be evicted. -/
def makeRoom (p : Nat) (s : State) : Option State :=
  let l := s.lpi p
  if l.blocksUsed < 512 * s.groupLen p then some s
  else
    match l.oldestBlock with
    | none => none
    | some b => some (s.setLpi p { l with pf := l.pf.filter (fun x => x.id != b.id) })

/-- The block at an address that a read of version `xv` may use. -/
def Lpi.heldBlock (l : Lpi) (a xv : Nat) : Option PfBlock :=
  l.pf.find? (fun b => b.addr == a && b.xv == xv && !b.dropped)

/-- The partner is asked for a block: a read of 512 B with every byte enabled, held by its name. -/
def askBlock (p : Nat) (x : Packet) (a : Nat) (s : State) : Option (Nat × State) :=
  match makeRoom p s with
  | none => none
  | some s1 =>
    let l := s1.lpi p
    let id := l.pfNext
    let s2 := s1.setLpi p { l with pfNext := id + 1, pf := l.pf ++ [{ id := id, addr := a, xv := x.xv }] }
    some (id, lpiPush p { x with
      src := 2 + p, dst := 2 + p, tag := id, addr := a, len := 512, fbe := 0xFF, lbe := 0xFF, swap := 0, sef := false
      data := [] } s2)

/-- The names of the blocks a read touches, each held already or asked for now. -/
def gatherBlocks (p : Nat) (x : Packet) : List Nat → List Nat → State → Option (List Nat × State)
  | [], ids, s => some (ids, s)
  | a :: t, ids, s =>
    match (s.lpi p).heldBlock a x.xv with
    | some b => gatherBlocks p x t (ids ++ [b.id]) s
    | none =>
      match askBlock p x a s with
      | none => none
      | some (id, s1) => gatherBlocks p x t (ids ++ [id]) s1

/-- The next blocks are asked for, within the same 16 MiB region and where there is room. -/
def readAhead (p : Nat) (x : Packet) (last : Nat) (s : State) : State :=
  forN (s.fget F.lbPfDepth p) (fun j s =>
    let a := last + 512 * (j + 1)
    if a / 2 ^ 24 = last / 2 ^ 24 ∧ ((s.lpi p).heldBlock a x.xv).isNone = true then
      match askBlock p x a s with
      | none => s
      | some (_, s1) => s1
    else s) s

/-- The answer to a read from the blocks it names. -/
def blockAnswer (p : Nat) (w : PfWait) (s : State) : State :=
  let x := w.req
  let bs := (s.lpi p).pf.filter (fun b => w.need.contains b.id)
  let q := partnerRange x
  let raw := (List.range q.len).map (fun i =>
    let a := q.addr + i
    match bs.find? (fun b => b.addr == a / 512 * 512) with
    | none => 0
    | some b => b.data.getD (a % 512) 0)
  let (n, s1) := takeFree s
  offer { x.reply 0x20 0 (unswapData x.swap x.range q raw n) with src := 2 + p, ep := bs.any (·.ep) } s1

/-- A waiting read has every block it needs. -/
def Lpi.waitReady (l : Lpi) (w : PfWait) : Bool :=
  w.need.all (fun i => l.pf.any (fun b => b.id == i && b.arrived))

/-- Reads whose blocks have all arrived are answered. -/
def pfSettle (p : Nat) (s : State) : State :=
  let l := s.lpi p
  let s1 := forL (l.waits.filter l.waitReady) (blockAnswer p) s
  pfClean p (s1.setLpi p { s1.lpi p with waits := l.waits.filter (fun w => !l.waitReady w) })

/-- A read of a side-effect-free window is released (R370, R371). Where the buffer has no room at all, the read goes to
the partner as it stands (DESIGN CHOICE, log 20). -/
def pfRead (p : Nat) (x : Packet) (s : State) : State :=
  let first := x.addr / 512
  let blocks := (List.range ((x.addr + x.len - 1) / 512 + 1 - first)).map (fun i => 512 * (first + i))
  let hit := blocks.all (fun a => ((s.lpi p).heldBlock a x.xv).isSome)
  let s1 := s.fsat (if hit then F.lbPfcntHits else F.lbPfcntMisses) p 1
  match gatherBlocks p x blocks [] s1 with
  | none => lpiPush p { x with sef := false } s1
  | some (ids, s2) =>
    let s3 := s2.setLpi p { s2.lpi p with waits := (s2.lpi p).waits ++ [{ req := x, need := ids }] }
    pfSettle p (readAhead p x (512 * ((x.addr + x.len - 1) / 512)) s3)

/-- A released write drops every prefetched block it covers (R273, R371). -/
def pfCover (p : Nat) (x : Packet) (s : State) : State :=
  let q := partnerRange x
  let l := s.lpi p
  pfClean p (s.setLpi p { l with pf := l.pf.map (fun b =>
    if b.addr < q.addr + q.len ∧ q.addr < b.addr + 512 then { b with dropped := true } else b) })

/-- A block's read has failed: the reads that wait for it fail with it. -/
def pfFail (p id csts xv : Nat) (s : State) : State :=
  let l := s.lpi p
  let s1 := forL (l.waits.filter (fun w => w.need.contains id)) (fun w => lpiFail p csts xv w.req) s
  pfClean p (s1.setLpi p { s1.lpi p with
    waits := l.waits.filter (fun w => !w.need.contains id), pf := l.pf.filter (fun b => b.id != id) })

/-- A block's data has arrived. -/
def pfLand (p id : Nat) (data : List Byte) (ep : Bool) (s : State) : State :=
  let l := s.lpi p
  pfSettle p (s.setLpi p { l with pf := l.pf.map (fun b =>
    if b.id = id then { b with arrived := true, at_ := s.now, data := data, ep := ep } else b) })

/-- PREFETCH_EXPIRE (R371): LIFE has passed since the data of block i arrived. -/
def pfExpire (p i : Nat) (s : State) : State :=
  let l := s.lpi p
  match l.pf[i]? with
  | none => s
  | some b =>
    if b.arrived && decide (s.now ≥ b.at_ + 1000 * s.fget F.lbPfLife p) then
      pfClean p (s.setLpi p { l with pf := l.pf.set i { b with dropped := true } })
    else s

/-- PREFETCH_EXPIRE (R371). -/
def execPrefetchExpire (p : Fin 8) (i : Nat) (s : State) : Host.Outcome State Fault Refusal := live s (pfExpire p.val i)

/-! ## Release to the port -/

/-- A packet that the gate releases to the LPI: a write without an enabled byte sends nothing. -/
def lpiRelease (p : Nat) (x : Packet) (s : State) : State :=
  if x.cls = 1 then
    if x.ty = 0x10 ∧ x.range.enabled.isEmpty = true then s
    else lpiPush p x (if x.ty = 0x10 ∨ x.ty = 0x11 then pfCover p x s else s)
  else if x.cls = 0 ∧ x.ty = 0 ∧ x.sef = true ∧ isZero x = false then pfRead p x s
  else lpiPush p x (if isOpening x && x.ty != 4 then pfCover p x s else s)

/-! ## Completions from the partner (R355 to R357, R369, R372) -/

/-- The LPI sends the abort of a far lock. -/
def pushAbort (p : Nat) (k : FarLock) (s : State) : State :=
  lpiPush p { cls := 1, ty := 0x12, src := 2 + p, dst := 2 + p, tag := k.tag, fn := k.req.fn } s

/-- A far lock's answer waits for its closing frame. -/
def lockAnswer (p tag : Nat) (a : Packet) (s : State) : State :=
  let l := s.lpi p
  s.setLpi p { l with far := l.far.map (fun k => if k.tag = tag then { k with ans := some a } else k) }

/-- The partner's range of what a tag stands for. -/
def tagRange (t : Tag) : Range := swapRange t.req.swap (t.req.range.part t.off t.len)

/-- A tag's request ends without data: a far lock is aborted before its answer (R372, R373). -/
def tagFailed (p tag : Nat) (t : Tag) (csts xv : Nat) (s : State) : State :=
  let l := s.lpi p
  match t.pf with
  | some id => pfFail p id csts xv s
  | none =>
    if isOpening t.req then
      let a := { t.req.reply 0x21 csts [] with src := 2 + p, xv := xv }
      match l.far.find? (fun k => k.tag == tag) with
      | none => offer a s
      | some k => pushAbort p k (lockAnswer p tag a s)
    else lpiGather p (onGather t.req (fun g => g.failed t.len csts xv)) s

/-- Whether a host waits for what a tag stands for. -/
def Lpi.hostWaits (l : Lpi) (t : Tag) : Bool :=
  match t.pf with
  | some id => l.waits.any (fun w => w.need.contains id)
  | none => fromHost t.req

/-- The tag of a request that has ended: that of a far lock stays taken until the lock closes (R358). -/
def endTag (p tag : Nat) (t : Tag) (s : State) : State :=
  s.setTag (4096 * (2 + p) + tag) (if t.lock then { lock := true, fn := t.fn } else {})

/-- A host AtomicOp has its old value (R372): poison or a failed compare aborts, else the unlock write follows. -/
def atomicFinish (p tag : Nat) (k : FarLock) (old : List Byte) (ep : Bool) (s : State) : State :=
  let x := k.req
  let n := x.len
  let a := leNat (x.data.take n)
  let b := leNat (x.data.drop n)
  let s1 := lockAnswer p tag { x.reply 0x20 0 old with src := 2 + p, ep := ep } s
  if ep || (x.ty == 3 && leNat old != a) then pushAbort p k s1
  else lpiPush p { x with
    cls := 1, ty := 0x11, src := 2 + p, tag := tag, ep := false, data := leBytes n (atomicNew x.ty n (leNat old) a b) } s1

/-- Every byte of a tag's request has come. -/
def tagLanded (p tag : Nat) (t : Tag) (s : State) : State :=
  let (n, s1) := takeFree s
  match t.pf with
  | some id => pfLand p id t.raw t.ep s1
  | none =>
    let data := unswapData t.req.swap (t.req.range.part t.off t.len) (tagRange t) t.raw n
    if isOpening t.req then
      match (s1.lpi p).far.find? (fun k => k.tag == tag) with
      | some k =>
        if k.host then atomicFinish p tag k data t.ep s1
        else offer { t.req.reply 0x20 0 data with src := 2 + p, ep := t.ep } s1
      | none => offer { t.req.reply 0x20 0 data with src := 2 + p, ep := t.ep } s1
    else lpiGather p (onGather t.req (fun g => g.land t.off data t.ep)) s1

/-- A completion with data continues its request (R355). -/
def continues (q : Range) (got : Nat) (f : Frame) : Bool :=
  f.tt == 0x20 && f.sts == 0 && f.addr % 4096 == (q.addr + got) % 4096 && decide (got + f.len ≤ q.len)
    && f.last == decide (got + f.len = q.len) && (f.last || (q.addr + got + f.len) % 64 == 0)

/-- A completion for an outstanding tag. -/
def goodPartner (p : Nat) (f : Frame) (t : Tag) (s : State) : State :=
  let q := tagRange t
  let key := 4096 * (2 + p) + f.tag
  if f.sts = 1 ∨ f.sts = 2 then
    tagFailed p f.tag t f.sts 0 (endTag p f.tag t
      (when ((s.lpi p).hostWaits t) (violFrame p 0x0107 f.tag f.len f) s))
  else if f.sts = 3 then tagFailed p f.tag t 2 0 (endTag p f.tag t (violFrame p 0x0109 f.tag 0 f s))
  else if continues q t.got f then
    let t1 := { t with got := t.got + f.len, raw := t.raw ++ f.data, ep := t.ep || f.ep }
    let s1 := stgWrite (landing (2 + p) f.tag + t.got) f.data (List.replicate f.data.length true) f.ep s
    if f.last then tagLanded p f.tag t1 (endTag p f.tag t s1) else s1.setTag key t1
  else tagFailed p f.tag t 2 0 (endTag p f.tag t (violFrame p 0x0107 f.tag f.len f s))

/-- A completion for a cooled tag or for none (R298, R356). -/
def latePartner (p : Nat) (f : Frame) (t : Tag) (s : State) : State :=
  let got := t.got + f.len
  let done := f.sts != 0 || f.last
  violFrame p 0x0108 f.tag f.sts f (when t.cooled (fun s => s.setTag (4096 * (2 + p) + f.tag)
    (if done then (if t.lock then { lock := true, fn := t.fn } else {}) else { t with got := got })) s)

/-- PARTNER_COMPLETION (R355): accepted, it answers a request of the device. -/
def partnerCompletion (p : Nat) (f : Frame) (s : State) : State :=
  let t := s.tag (4096 * (2 + p) + f.tag % 4096)
  if t.out && !t.cooled then goodPartner p f t s else latePartner p f t s

/-- PARTNER_COMPLETION (R355). -/
def execPartnerCompletion (p : Fin 8) (f : Frame) (s : State) : Host.Outcome State Fault Refusal :=
  live s (recvFrame p.val f (frameOk f && f.cls == 2) (partnerCompletion p.val f))

/-- LL_COMPLETION_TIMEOUT (R356): recorded, the tag cooled, the request failed. -/
def llTimeout (p tag : Nat) (s : State) : State :=
  let key := 4096 * (2 + p) + tag
  let t := s.tag key
  if t.out && !t.cooled && decide (s.now ≥ t.at_ + t.limit) then
    let q := tagRange t
    let f := frameFor t.req (if isOpening t.req then 0x04 else 0x00) tag q.addr q []
    tagFailed p tag t 2 3 ((violFrame p 0x0202 tag 0 f s).setTag key { t with cooled := true, coolAt := s.now })
  else s

/-- LL_COMPLETION_TIMEOUT (R356). -/
def execLlCompletionTimeout (p : Fin 8) (tag : Fin 4096) (s : State) : Host.Outcome State Fault Refusal :=
  live s (llTimeout p.val tag.val)

/-! ## The partner's requests (R357, R359, R374 to R382) -/

/-- A function that the partner may name (R375). -/
def State.fnAllowed (s : State) (p fn : Nat) : Bool :=
  decide (s.fget F.lbFnFnFirst p ≤ fn) && decide (fn ≤ s.fget F.lbFnFnLast p)

/-- A frame that breaks the map of Table 15-3 or the range of R375. -/
def outsideMap (p : Nat) (f : Frame) (s : State) : State :=
  let s1 := violFrame p 0x010B f.fn (f.addr % 2 ^ 22) f s
  when (f.cls == 0) (answerFrame p 1 f) s1

/-- The packet of a partner's read or write (R374, R375). -/
def State.partnerPkt (s : State) (p : Nat) (f : Frame) (dst asp addr tag : Nat) : Packet :=
  { s.mkPkt f.cls f.tt (2 + p) dst f.fn with
    asp := asp, addr := addr, len := f.len, fbe := f.fbe, lbe := f.lbe, tag := tag, ro := f.ro, ns := f.ns
    ido := f.ido, ep := f.ep, data := f.data }

/-- The staging address of the aperture that a frame's address names, if it is open and covers the range. -/
def State.aperture (s : State) (p : Nat) (f : Frame) : Option Nat :=
  let o := f.addr % 2 ^ 26
  let n := 2 ^ s.fget F.lbStgSizeLog2 p
  if s.flag F.lbStgEn p && decide (o < n) && decide (o + f.len ≤ n) then
    some ((4096 * s.fget F.lbStgBase p + o) % 2 ^ 26)
  else none

/-- A fabric tag that no request of the partner holds. -/
def Lpi.partTag (l : Lpi) : Nat :=
  ((List.range (l.parts.length + 1)).find? (fun t => !l.parts.any (fun r => r.tag == t))).getD 0

/-- A partner's request enters the fabric and waits for its answer. -/
def partnerAsk (p : Nat) (f : Frame) (dst asp addr : Nat) (host : Bool) (s : State) : State :=
  let l := s.lpi p
  let t := l.partTag
  offer (s.partnerPkt p f dst asp addr t)
    (s.setLpi p { l with parts := l.parts ++ [{ tag := t, dst := dst, frame := f, host := host }] })

/-- A bridged host request waits for the partner's non-posted credits (Table 15-4). -/
def Lpi.crossing (l : Lpi) (p : Nat) : Bool :=
  !l.np.room 0 && l.egress.any (fun e => e.pkt.cls == 0 && !isZero e.pkt && (fromHost e.pkt || e.pkt.src == 2 + p))

/-- PARTNER_READ (R357, R374, R375, R378). -/
def partnerRead (p : Nat) (f : Frame) (s : State) : State :=
  let l := s.lpi p
  if 1024 * s.groupLen p ≤ l.parts.length ∨ l.parts.any (fun r => !r.dead && r.frame.tag == f.tag) = true then
    answerFrame p 1 f (violFrame p 0x010A f.tag 0 f s)
  else if !s.fnAllowed p f.fn || decide (2 ^ 63 ≤ f.addr) then outsideMap p f s
  else if l.crossing p then answerFrame p 3 f s
  else if f.addr < 2 ^ 62 then
    match makeRoom p s with
    | none => answerFrame p 3 f s
    | some s1 => partnerAsk p f (portOf f.fn) (portOf f.fn) f.addr true s1
  else
    match s.aperture p f with
    | none => outsideMap p f s
    | some a => partnerAsk p f (bankNi a) 3 a false s

/-- PARTNER_READ (R374). -/
def execPartnerRead (p : Fin 8) (f : Frame) (s : State) : Host.Outcome State Fault Refusal :=
  live s (recvFrame p.val f (frameOk f && f.tt == 0x00) (partnerRead p.val f))

/-- PARTNER_WRITE (R374, R375, R377). -/
def partnerWrite (p : Nat) (f : Frame) (s : State) : State :=
  if !s.fnAllowed p f.fn || decide (2 ^ 63 ≤ f.addr) then outsideMap p f s
  else if f.addr < 2 ^ 62 then offer (s.partnerPkt p f (portOf f.fn) (portOf f.fn) f.addr 0) s
  else
    match s.aperture p f with
    | none => outsideMap p f s
    | some a => offer (s.partnerPkt p f (bankNi a) 3 a 0) s

/-- PARTNER_WRITE (R377). -/
def execPartnerWrite (p : Fin 8) (f : Frame) (s : State) : Host.Outcome State Fault Refusal :=
  live s (recvFrame p.val f (frameOk f && f.tt == 0x10) (partnerWrite p.val f))

/-- PARTNER_DOORBELL_MESSAGE (R359): the function is that of the QID. -/
def partnerDoorbell (p : Nat) (f : Frame) (s : State) : State :=
  let q := f.addr / 2 ^ 16 % 8192
  offer (s.doorbellPkt (2 + p) (q / 4) (f.addr / 2 ^ 29 % 2) q (f.addr % 65536)) s

/-- PARTNER_DOORBELL_MESSAGE (R359). -/
def execPartnerDoorbellMessage (p : Fin 8) (f : Frame) (s : State) : Host.Outcome State Fault Refusal :=
  live s (recvFrame p.val f (frameOk f && f.tt == 0x13) (partnerDoorbell p.val f))

/-- PARTNER_INTERRUPT_MESSAGE (R359, R375, R380). -/
def partnerInterrupt (p : Nat) (f : Frame) (s : State) : State :=
  if s.fnAllowed p f.fn then offer { s.mkPkt 1 0x12 (2 + p) 39 f.fn with addr := f.addr % 2048 } s
  else outsideMap p f s

/-- PARTNER_INTERRUPT_MESSAGE (R380). -/
def execPartnerInterruptMessage (p : Fin 8) (f : Frame) (s : State) : Host.Outcome State Fault Refusal :=
  live s (recvFrame p.val f (frameOk f && f.tt == 0x14) (partnerInterrupt p.val f))

/-- PARTNER_UNIT_MESSAGE (R359): to an engine, a cluster or the MGC, from engine 0xFE. -/
def partnerUnit (p : Nat) (f : Frame) (s : State) : State :=
  let u := f.addr % 4096
  match (if u ≤ 0x48 then s.unitNi u else none) with
  | none => violFrame p 0x010D u f.len f s
  | some ni => offer { s.mkPkt 1 0x14 (2 + p) ni f.fn with
      addr := u, asp := 6, len := 56, data := f.data, fbe := 0xFF, lbe := 0xFF, eng := 0xFE, ep := f.ep } s

/-- PARTNER_UNIT_MESSAGE (R359). -/
def execPartnerUnitMessage (p : Fin 8) (f : Frame) (s : State) : Host.Outcome State Fault Refusal :=
  live s (recvFrame p.val f (frameOk f && f.tt == 0x15) (partnerUnit p.val f))

/-- The packet of a tunnelled message. -/
def State.tunnelPkt (s : State) (p dst fn addr : Nat) (f : Frame) : Packet :=
  { s.mkPkt 1 0x15 (2 + p) dst fn with asp := 6, addr := addr, len := f.len, data := f.data, ep := f.ep }

/-- PARTNER_TUNNELLED_MESSAGE (R375, R382). -/
def partnerTunnel (p : Nat) (f : Frame) (s : State) : State :=
  let c := f.addr % 65536
  let i := 64 * p + c
  let fn := s.fget F.lbTunFn i
  if !s.fnAllowed p f.fn then outsideMap p f s
  else if 64 ≤ c ∨ s.flag F.lbTunEn i = false then violFrame p 0x010D c f.len f s
  else
    match s.fget F.lbTunKind i with
    | 0 =>
      if f.len % 4 = 0 ∧ f.len ≤ s.mps (portOf fn) then offer (s.tunnelPkt p (portOf fn) fn (64 * p + c) f) s
      else violFrame p 0x010D c f.len f s
    | 1 => offer (s.tunnelPkt p (s.portNi (s.fget F.lbTunPeerPort i)) f.fn (s.fget F.lbTunPeerCh i) f) s
    | _ => offer (s.tunnelPkt p 42 f.fn (64 * p + c) f) s

/-- PARTNER_TUNNELLED_MESSAGE (R382). -/
def execPartnerTunnelledMessage (p : Fin 8) (f : Frame) (s : State) : Host.Outcome State Fault Refusal :=
  live s (recvFrame p.val f (frameOk f && f.tt == 0x16) (partnerTunnel p.val f))

/-- PARTNER_LOCK_TRANSACTION (R358): UR for a locked read; the others are discarded. -/
def execPartnerLockTransaction (p : Fin 8) (f : Frame) (s : State) : Host.Outcome State Fault Refusal :=
  live s (recvFrame p.val f (frameOk f && (f.tt == 0x04 || f.tt == 0x11 || f.tt == 0x12)) (fun s =>
    when (f.cls == 0) (answerFrame p.val 1 f) (violFrame p.val 0x010C f.tag f.tt f s)))

/-- PORT_RESPONSE_ARRIVE (R376, R377): an answer that does not pass the gate, a bank's or one given outside it, follows
what the gate has released before. -/
def portResponse (p i : Nat) (s : State) : State :=
  match takeArrived (2 + p) i s with
  | none => s
  | some (x, s1) =>
    if x.cls = 2 ∧ x.hdrBad = false ∧ passesGate (2 + p) x = false ∧ s.leads p = true then
      let (y, s2) := checkParity (2 + p) x s1
      lpiPush p y s2
    else s

/-- PORT_RESPONSE_ARRIVE (R377). -/
def execPortResponseArrive (p : Fin 8) (i : Nat) (s : State) : Host.Outcome State Fault Refusal :=
  live s (portResponse p.val i)

end Sys2Proof.Machine
end

