-- ==== Sys2Proof/Machine/Irt.lean ====
section
/-!
DEFINITION. The vector pool and its MSI-X writes (R227, R387 to R392), and the binding and service registers of
functions (R393, R402, R403). The IRT's NI is 39.
-/
namespace Sys2Proof.Machine

/-! ## Vectors -/

/-- The vectors of FN n are backed (R388). -/
def State.vecBound (s : State) (fn : Nat) : Bool := s.flag F.fVecEn fn

/-- The pool entry of vector v of FN n (R388). -/
def State.poolEntry (s : State) (fn v : Nat) : Nat := (s.fget F.fVecBase fn + v) % 32768

/-- The function and vector that a pool entry backs. -/
def State.entryOwner (s : State) (p : Nat) : Option (Nat × Nat) :=
  ((List.range 2048).find? (fun fn => s.vecBound fn && decide (s.fget F.fVecBase fn ≤ p)
    && decide (p < s.fget F.fVecBase fn + s.vectorsOf fn))).map (fun fn => (fn, p - s.fget F.fVecBase fn))

/-- Entry p of FN n may be delivered (R390): MSI-X enabled and unmasked, Bus Master Enable, D0. -/
def State.deliverable (s : State) (fn p : Nat) : Bool :=
  s.cfgGet fn .msixEnable == 1 && s.cfgGet fn .functionMask == 0 && !(s.vec p).mask && s.bme fn && s.inD0 fn

/-- One MSI-X write of entry p goes out, no earlier than 5 ns past the latest request it covers (R227, R391). -/
def msixSend (fn p : Nat) (s : State) : State :=
  let v := s.vec p
  let s1 := s.setVec p { v with last := some s.now, held := 0 }
  { s1 with fn := { s1.fn with msix := s1.fn.msix ++ [(fn, v.addr, v.data, v.reqTime)] } }

/-- The moderation interval of an entry is over. -/
def Vec.due (v : Vec) (now : Nat) : Bool :=
  match v.last with
  | none => true
  | some t => decide (now ≥ t + 256 * v.modInt)

/-- A request to deliver entry p under moderation (R391). -/
def deliver (fn p : Nat) (s : State) : State :=
  let v := s.vec p
  if v.modInt = 0 ∨ v.due s.now = true then msixSend fn p s
  else
    let s1 := s.setVec p { v with held := v.held + 1 }
    if v.modCnt ≠ 0 ∧ v.modCnt ≤ v.held + 1 then msixSend fn p s1 else s1

/-- The later of two TIMEs. -/
def laterTime (a b : Nat) : Nat := if timeBefore a b then b else a

/-- A request of FN n that the IRT cannot deliver signals PME from D3hot where PME_En is set (R302). -/
def signalPme (fn : Nat) (s : State) : State :=
  when (!s.inD0 fn && s.cfgGet fn .pmeEn == 1) (fun s => (s.cfgPut fn .pmeStatus 1).emit (.pme fn)) s

/-- An interrupt request for a vector (R390). -/
def irtRequest (q : Packet) (s : State) : State :=
  let fn := q.fn
  let v := q.addr % 2048
  if s.under 39 fn then s.fsat F.irtCntFencedDrops 0 1
  else if !s.vecBound fn || decide (s.vectorsOf fn ≤ v) then
    violPkt 39 0x0305 q v (b2n (s.vecBound fn)) (s.fsat F.irtCntBadVec 0 1)
  else
    let p := s.poolEntry fn v
    let x := s.vec p
    let s1 := s.setVec p { x with
      reqTime := if x.held = 0 ∧ x.pending = false then q.stamp.time else laterTime x.reqTime q.stamp.time }
    if s1.deliverable fn p then deliver fn p s1
    else signalPme fn (s1.setVec p { s1.vec p with pending := true })

/-- INTERRUPT_REQUEST (R390). -/
def interruptRequest (i : Nat) (s : State) : State :=
  match takeSound 39 i s with
  | none => s
  | some (q, s1) => if q.cls = 1 ∧ q.ty = 0x12 then irtRequest q s1 else s

/-- INTERRUPT_REQUEST (R390). -/
def execInterruptRequest (i : Nat) (s : State) : Host.Outcome State Fault Refusal := live s (interruptRequest i)

/-- MSIX_WRITE_STAMP (R227, R390): the write leaves toward its port, behind the earlier ones of its function. -/
def msixStamp (i : Nat) (s : State) : State :=
  match s.fn.msix[i]? with
  | none => s
  | some (fn, addr, data, t) =>
    if (s.fn.msix.take i).any (fun x => x.1 == fn) || !timeBefore (t + 5) (s.niTime 39) then s
    else
      let s1 := { s with fn := { s.fn with msix := dropAt s.fn.msix i } }
      offer { s1.mkPkt 1 0x12 39 (portOf fn) fn with
        asp := portOf fn, addr := addr, len := 4, data := leBytes 4 data, fbe := fbeFor addr 4, lbe := lbeFor addr 4 }
        (s1.fsat F.irtCntSent 0 1)

/-- MSIX_WRITE_STAMP (R227). -/
def execMsixWriteStamp (i : Nat) (s : State) : Host.Outcome State Fault Refusal := live s (msixStamp i)

/-- MOD_INTERVAL_EXPIRE (R391). -/
def modExpire (p : Nat) (s : State) : State :=
  let v := s.vec p
  if 0 < v.held ∧ v.due s.now = true then
    match s.entryOwner p with
    | none => s
    | some (fn, _) => msixSend fn p s
  else s

/-- MOD_INTERVAL_EXPIRE (R391). -/
def execModIntervalExpire (entry : Fin 32768) (s : State) : Host.Outcome State Fault Refusal := live s (modExpire entry.val)

/-- PENDING_VECTOR_DELIVER (R392). -/
def pendingDeliver (fn v : Nat) (s : State) : State :=
  let p := s.poolEntry fn v
  if s.vecBound fn && decide (v < s.vectorsOf fn) && (s.vec p).pending && s.deliverable fn p then
    deliver fn p (s.setVec p { s.vec p with pending := false })
  else s

/-- PENDING_VECTOR_DELIVER (R392). -/
def execPendingVectorDeliver (fn : Fin 2048) (v : Fin 1024) (s : State) : Host.Outcome State Fault Refusal :=
  live s (pendingDeliver fn.val v.val)

/-- Entries of FN n that hold requests and have become undeliverable turn pending (R391). -/
def irtCheck (fn : Nat) (s : State) : State :=
  if s.vecBound fn then
    forN (s.vectorsOf fn) (fun v s =>
      let p := s.poolEntry fn v
      let x := s.vec p
      if 0 < x.held ∧ s.deliverable fn p = false then s.setVec p { x with held := 0, pending := true } else s) s
  else s

/-! ## The MSI-X table and PBA (R387 to R389, R392) -/

/-- A 4-byte word of the table entry behind a table offset. -/
def Vec.word (v : Vec) (i : Nat) : Nat :=
  match i with
  | 0 => v.addr % 2 ^ 32
  | 1 => v.addr / 2 ^ 32
  | 2 => v.data
  | _ => b2n v.mask

/-- A 4-byte word of a table entry written. -/
def Vec.putWord (v : Vec) (i x : Nat) : Vec :=
  match i with
  | 0 => { v with addr := v.addr / 2 ^ 32 * 2 ^ 32 + x }
  | 1 => { v with addr := x * 2 ^ 32 + v.addr % 2 ^ 32 }
  | 2 => { v with data := x }
  | _ => { v with mask := x % 2 == 1 }

/-- One word of the table at a function-area offset from 0x8000 on. -/
def tableWordPut (fn off x : Nat) (s : State) : State :=
  let v := (off - 0x8000) / 16
  if 0x8000 ≤ off ∧ off < 0xC000 ∧ s.vecBound fn = true ∧ v < s.vectorsOf fn then
    let p := s.poolEntry fn v
    s.setVec p ((s.vec p).putWord (off % 16 / 4) x)
  else s

/-- A write of 4 or 8 bytes to the table; the PBA is read-only. -/
def tableWrite (fn off width value : Nat) (s : State) : State :=
  let s1 := tableWordPut fn off (value % 2 ^ 32) s
  irtCheck fn (if width = 8 then tableWordPut fn (off + 4) (value / 2 ^ 32 % 2 ^ 32) s1 else s1)

/-- One word of the table or the PBA; both read zero while nothing is bound. -/
def State.tableWord (s : State) (fn off : Nat) : Nat :=
  if !s.vecBound fn then 0
  else if off < 0xC000 then
    let v := (off - 0x8000) / 16
    if v < s.vectorsOf fn then (s.vec (s.poolEntry fn v)).word (off % 16 / 4) else 0
  else
    let b := 8 * (off - 0xC000)
    ((List.range 32).map (fun i => 2 ^ i *
      b2n (decide (b + i < s.vectorsOf fn) && (s.vec (s.poolEntry fn (b + i))).pending))).sum

/-- A read of 4 or 8 bytes. -/
def State.tableRead (s : State) (fn off width : Nat) : Nat :=
  s.tableWord fn off + (if width = 8 then s.tableWord fn (off + 4) * 2 ^ 32 else 0)

/-- MSIX_TABLE_WRITE (R389): an aligned write of 4 or 8 bytes. -/
def execMsixTableWrite (fn : Fin 2048) (off width : Nat) (value : BitVec 64) (s : State) :
    Host.Outcome State Fault Refusal :=
  live s (fun s => if (width = 4 ∨ width = 8) ∧ off % width = 0 then tableWrite fn.val off width value.toNat s else s)

/-! ## Binding and service classes -/

/-- The range of a binding overlaps that of another function (R388). -/
def State.overlaps (s : State) (fn base : Nat) : Bool :=
  (List.range 2048).any (fun m => m != fn && s.vecBound m && decide (base < s.fget F.fVecBase m + s.vectorsOf m)
    && decide (s.fget F.fVecBase m < base + s.vectorsOf fn))

/-- F_VEC_n (R388): refused with BUSY while MSI-X is enabled, and with a record where the range does not fit. -/
def fVecWrite (w : Writer) (p : Packet) (fn : Nat) (value : Word) (s : State) : State :=
  let en := bitsGet value 31 31
  let base := bitsGet value 14 0
  if s.fget F.fVecEn fn = en ∧ s.fget F.fVecBase fn = base then s
  else if s.cfgGet fn .msixEnable = 1 then busyWrite w p s
  else if en = 1 ∧ (32768 < base + s.vectorsOf fn ∨ s.overlaps fn base = true) then violSource p s
  else (s.fset F.fVecEn fn en).fset F.fVecBase fn base

/-- F_VEC_WRITE (R388). -/
def execFVecWrite (w : Writer) (fn : Fin 2048) (value : BitVec 32) (s : State) : Host.Outcome State Fault Refusal :=
  live s (guardedP w .fVec fn.val (value.setWidth 64) (fun p => fVecWrite w p fn.val (value.setWidth 64)))

/-- F_SVC_n (R393, R394). -/
def fSvcWrite (fn : Nat) (value : Word) (s : State) : State :=
  (s.fset F.fSvcTagCap fn (bitsGet value 23 16)).fset F.fSvcQc fn (bitsGet value 2 0)

/-- F_SVC_WRITE (R393). -/
def execFSvcWrite (w : Writer) (fn : Fin 2048) (value : BitVec 32) (s : State) : Host.Outcome State Fault Refusal :=
  live s (guarded w .fSvc fn.val (value.setWidth 64) (fSvcWrite fn.val (value.setWidth 64)))

/-- SVC_LV_COMMIT (R403). -/
def execSvcLvCommit (w : Writer) (s : State) : Host.Outcome State Fault Refusal :=
  live s (guarded w .svcCtl 0 0x80000000 (commitRws .svcLv 0 1))

end Sys2Proof.Machine
end

