-- ==== Sys2Proof/Machine/Resets.lean ====
section
/-!
DEFINITION. Cuts (R108), the reset of a function and its fence (R398 to R401), the flush of a host port with what
starts and ends it (R303 to R308, R498), and configuration requests (R284 to R288, R305). A fence is named by its
function, or as 2048 + k for every function of port k.
-/
namespace Sys2Proof.Machine

/-! ## Cuts (R108) -/

/-- The NI of an arbiter's resource (Table 5-1). -/
def arbNi (a : Nat) : Nat := if a < 16 then 18 + a else if a < 20 then 34 + (a - 16) else if a < 28 then 10 + (a - 20) else 40

/-- What every cut does besides ending the grant: CUT, ARB_CUT_WHO and ARB_CUT_TIME, the notice to the holder's NI, the
abort of the far lock, and the records. -/
def cutRecord (a : Nat) (g : Grant) (s : State) : State :=
  let ni := arbNi a
  let p := g.pkt
  let s1 := ((s.fset F.arbStsCut a 1).fset F.arbCutWhoNi a p.src).fset F.arbCutWhoFn a p.fn
  let s2 := s1.fset F.arbCutTimeTime a (s1.niTime ni)
  let s3 := offer { notice ni p.src 0 0 ni p.fn [] with tag := p.tag } s2
  let s4 := if 20 ≤ a ∧ a < 28 ∧ 2 ≤ p.dst ∧ p.dst < 10 then
      let q := s3.leadOf (p.dst - 2)
      match (s3.lpi q).lockOf q p with
      | none => s3
      | some k => pushAbort q k s3
    else s3
  trace ni 1 1 p.fn (leBytes 1 a ++ leBytes 1 g.idx ++ leBytes 2 p.fn) p.inj (violPkt ni 0x0501 p a g.idx s4)

/-- A belay is cut: later packets of it fail (R108). -/
def cutBelay (a : Nat) (g : Grant) (s : State) : State :=
  let b := s.arbiter a
  cutRecord a g (s.setArbiter a {
    b with belay := none, cut := (g.pkt.src, g.pkt.fn, s.niTime (arbNi a)) :: b.cut })

/-- A plain grant is cut; its request is not served: a non-posted one completes with CA, a posted one is recorded, as
packets of a cut belay are (the spec names no answer: DESIGN CHOICE, log 21). -/
def cutGrant (a : Nat) (g : Grant) (s : State) : State :=
  let s1 := cutRecord a g (s.setArbiter a { s.arbiter a with grant := none })
  if g.pkt.cls = 0 then offer { g.pkt.reply 0x21 2 [] with src := arbNi a } s1
  else if g.pkt.cls = 1 then pfr (arbNi a) g.pkt 7 0 s1
  else s1

/-- A grant has run past its hold limit, in ns (R108). -/
def Grant.past (g : Grant) (now : Nat) : Bool := decide (now > g.at_ + g.limit)

/-- ARB_HOLD_CUT (R108). -/
def holdCut (a : Nat) (s : State) : State :=
  let s1 := match (s.arbiter a).belay with
    | none => s
    | some g => if g.past s.now then cutBelay a g s else s
  match (s1.arbiter a).grant with
  | none => s1
  | some g => if g.past s1.now then cutGrant a g s1 else s1

/-- ARB_HOLD_CUT (R108). -/
def execArbHoldCut (a : Fin 29) (s : State) : Host.Outcome State Fault Refusal := live s (holdCut a.val)

/-! ## Applying a fence (R398, R399) -/

/-- The key of a fence at an NI. -/
def fenceKey (ni x : Nat) : Nat := if x < 2048 then 2048 * ni + x else 94208 + 2 * ni + (x - 2048)

/-- Step 5: an arbiter's belay held for the function is cut. -/
def fenceBelay (a : Nat) (mine : Nat → Bool) (s : State) : State :=
  match (s.arbiter a).belay with
  | none => s
  | some g => if mine g.pkt.fn then cutBelay a g s else s

/-- A tag's request of a fenced function counts as answered, and the tag is cooled without a report (step 4). -/
def coolQuiet (key : Nat) (s : State) : State :=
  s.setTag key { s.tag key with cooled := true, quiet := true, coolAt := s.now }

/-- The tags of port g whose requests of the functions are outstanding. -/
def State.outTags (s : State) (g : Nat) (mine : Nat → Bool) : List (Nat × Tag) :=
  s.port.tags.filter (fun t => t.1 / 4096 == g && t.2.out && !t.2.cooled && mine t.2.fn)

/-- Steps 4 and 6 at a host port: outstanding reads count as answered, and the gate discards held MSI-X writes. -/
def fenceHpi (k : Nat) (mine : Nat → Bool) (s : State) : State :=
  let s1 := forL (s.outTags k mine) (fun t => coolQuiet t.1) s
  let h := s1.hpi k
  let s2 := s1.setHpi k {
    h with np := h.np.filter (fun e => !mine e.pkt.fn), gather := h.gather.filter (fun g => !mine g.req.fn) }
  let fresh := h.np.filter (fun e => mine e.pkt.fn && e.off == 0)
  let s3 := forL (fresh.map (·.pkt) ++ (h.gather.map (·.req)).filter (fun r => mine r.fn))
    (fun r => offer { r.reply 0x21 2 [] with src := k, xv := 5 }) s2
  let gt := s3.gate k
  let drop := fun (x : Held) => x.pkt.cls == 1 && x.pkt.ty == 0x12 && mine x.pkt.fn
  forL (gt.held.filter drop) (fun x => offer (allowanceReturn k x.pkt true))
    (s3.setGate k { gt with held := gt.held.filter (fun x => !drop x) })

/-- Step 4 at a Drevlink port: outstanding requests count as answered, and each open far lock of the function is
aborted. -/
def fenceLpi (p : Nat) (mine : Nat → Bool) (s : State) : State :=
  let locks := (s.lpi p).far.filter (fun k => mine k.req.fn)
  let s1 := forL (s.outTags (2 + p) mine) (fun t s => tagFailed p (t.1 % 4096) t.2 2 5 (coolQuiet t.1 s)) s
  forL (locks.filter (fun k => !(s.tag (4096 * (2 + p) + k.tag)).out)) (pushAbort p) s1

/-- Steps 3 and 4 at a cluster: FNRST sets; a context that has handed all its writes to the NI completes with its
status, and any other stops with FENCED. -/
def fenceCluster (c : Nat) (mine : Nat → Bool) (s : State) : State :=
  let s1 := forN 8 (fun i s =>
    let e := 8 * c + i
    when (s.hasTask e && mine (s.eng e).fn) (setEvt e 5) s) s
  forL ((s1.ctxsOf c).filter (fun x => x.2.used && !x.2.done && mine x.2.fn)) (fun x s =>
    if x.2.fail = 0 ∧ x.2.wrOff = x.2.len ∧ s.atEgress x.1 = false then s
    else s.setCtx x.1 { x.2 with stopped := true, fail := 5, got := [] }) s1

/-- Step 6 at the IRT: pending bits and held counts are cleared and the pool entries reset; their moderation settings
stay. -/
def fenceIrt (mine : Nat → Bool) (s : State) : State :=
  let s1 := { s with fn := { s.fn with msix := s.fn.msix.filter (fun m => !mine m.1) } }
  forN 2048 (fun fn s =>
    if mine fn && s.vecBound fn then
      forN (s.vectorsOf fn) (fun v s =>
        let p := s.poolEntry fn v
        s.setVec p { modInt := (s.vec p).modInt, modCnt := (s.vec p).modCnt, last := (s.vec p).last }) s
    else s) s1

/-- Step 2 at QM (R248). -/
def fenceQm (mine : Nat → Bool) (s : State) : State :=
  forL (s.qm.queues.filter (fun q => q.2.en && mine (q.1 / 4))) (fun q => queueDisable q.1) s

/-- What the block of an NI does when it applies a fence (Table 16-2, R114). -/
def fenceBlock (ni x : Nat) (s : State) : State :=
  let mine := fenceOf x
  if ni < 2 then fenceHpi ni mine s
  else if ni < 10 then fenceLpi (ni - 2) mine s
  else if ni < 18 then fenceBelay (20 + (ni - 10)) mine (fenceCluster (ni - 10) mine s)
  else if ni < 34 then fenceBelay (ni - 18) mine s
  else if ni = 34 then bumpOwned mine s
  else if ni = 38 then fenceQm mine s
  else if ni = 39 then fenceIrt mine s
  else if ni = 40 then s.setSemFence x true
  else s

/-- An NI applies a fence (R398). -/
def applyFence (ni x : Nat) (s : State) : State := fenceBlock ni x (s.setFenced (fenceKey ni x) true)

/-- The functions of port k that exist: the PF and its VFs (R284). -/
def State.functionsOf (s : State) (k : Nat) : List Nat :=
  1024 * k :: ((span 1 (if s.cfgGet (1024 * k) .vfEnable = 1 then s.cfgGet (1024 * k) .numVfs else 0)).map (· + 1024 * k))

/-- The port's NI stamps a fence, applies it, and sends its notice to every other NI (R398). `fns` are the functions
whose reset it starts, for the trace. -/
def stampFence (k x why : Nat) (perst : Bool) (fns : List Nat) (s : State) : State :=
  let s1 := forL fns (fun fn => trace k 2 1 fn (leBytes 2 fn ++ leBytes 1 why) false) s
  let others := (List.range 46).filter (fun ni => ni != k)
  let s2 := (s1.stamped k).setFnReset x (some { stamp := s1.now, perst := perst, left := others })
  applyFence k x (forL others (fun ni s => s.setNotices ni (s.notices ni ++ [x])) s2)

/-- The reset that covers a function: its own, or the flush of its port. -/
def State.resetOf (s : State) (fn : Nat) : Option FnReset :=
  match s.fnReset (2048 + fn / 1024) with
  | some r => some r
  | none => s.fnReset fn

/-- A function is in reset. -/
def State.inReset (s : State) (fn : Nat) : Bool := (s.resetOf fn).isSome

/-- The reset of one function starts (R398), unless one runs already (R308, R401). -/
def startFnReset (why fn : Nat) (s : State) : State :=
  if s.inReset fn then s else stampFence (portOf fn) fn why false [fn] s

/-- VF Enable is cleared: every VF of the port is reset (R286). -/
def clearVfs (k : Nat) (s : State) : State :=
  let vfs := (s.functionsOf k).tail
  forL vfs (startFnReset 1) (s.cfgPut (1024 * k) .vfEnable 0)

/-- Initiate Function Level Reset (R305): that of a PF also clears its VF Enable. -/
def initiateFlr (fn : Nat) (s : State) : State :=
  if s.inReset fn then s
  else when (isPf fn) (clearVfs (portOf fn)) (startFnReset 0 fn s)

/-! ## The flush of a host port (R303, R498) -/

/-- How a flush of Hk answers a request in the port's place (R303, R498); XV = 6 marks the answer. -/
def hostFlushAnswer (k : Nat) (r : Packet) (s : State) : State :=
  if r.len = 0 then offer { r.reply 0x21 0 [] with src := k, xv := 6, addr := 0 } s
  else if r.ty = 0 ∧ 2 ≤ r.src ∧ r.src < 10 then
    offer { r.reply 0x20 0 (List.replicate r.len 0xFF) with src := k, xv := 6 } s
  else offer { r.reply 0x21 2 [] with src := k, xv := 6 } s

/-- A packet that the gate of a flushed host port discards (R65, R303). -/
def hostFlushOne (k : Nat) (p : Packet) (s : State) : State :=
  if p.cls = 1 then flushPosted k p s else if p.cls = 0 then hostFlushAnswer k p s else s

/-- The flush of host port k, PERST's or not; `cause` is the trace's (Table 17-13). -/
def hostFlush (k cause : Nat) (s : State) : State :=
  let x := 2048 + k
  let s1 := parkNi k (trace k 2 3 0xFFFF (leBytes 1 k ++ leBytes 1 cause) false s)
  let s2 := freeTags k (gateDrop k (hostFlushOne k) s1)
  let h := s2.hpi k
  let reads := (h.egress.filter (fun e => e.pkt.cls == 0)).map (·.pkt)
    ++ (h.np.filter (fun e => e.off == 0)).map (·.pkt) ++ h.gather.map (·.req)
  let s3 := s2.setHpi k { h with reqs := [], opens := [], egress := [], np := [], gather := [] }
  let s4 := forL reads (hostFlushAnswer k) s3
  let s5 := forN 29 (fun a s =>
    let b := s.arbiter a
    when (decide (a < 20) || a == 28) (fun s => s.setArbiter a {
      b with losses := mput 0 b.losses k 0, backoff := mput false b.backoff k false }) s) s4
  let s6 := ((s5.sput .winCw k 0).sput .winAcc k 0).sput .winTag k 0
  stampFence k x 2 (cause == 0) (s6.functionsOf k) s6

/-- A flush starts, or, while one runs, only its cause changes: one flush only (R308). HDk is ON for it (R452). -/
def startFlush (k cause : Nat) (s : State) : State :=
  match s.fnReset (2048 + k) with
  | some r => when (cause == 0) (fun s => s.setFnReset (2048 + k) (some { r with perst := true })) s
  | none => startWake (14 + k) (hostFlush k cause s)

/-- The speed and width read zero without a link. -/
def noLink (k : Nat) (x : LinkState) (s : State) : State :=
  setHostLink k x (((s.fset F.hpiLinkStsSpeed k 0).fset F.hpiLinkStsWidth k 0).fset F.hpiLinkStsFlit k 0)

/-- The power domain of host port k (Table 19-1). -/
def hostDom (k : Nat) : Nat := 14 + k

/-- The port trains once PERST_Nk is deasserted and its domain is ON (R304, Table 19-3). -/
def hostTrain (k : Nat) (s : State) : State :=
  let h := s.hpi k
  if h.perst || !s.domOn (hostDom k) || h.link != .down then s else setHostLink k .training s

/-- The end of an entry that PERST has overtaken. -/
def dropEntry (k : Nat) (s : State) : State := when ((s.dom (hostDom k)).trans == 1) (cancelEntry (hostDom k)) s

/-- PERST_ASSERT (R303, R304): a fundamental reset. A domain in RET or OFF wakes first, and the flush waits for it
(R452). -/
def perstAssert (k : Nat) (s : State) : State :=
  if (s.hpi k).perst then s
  else
    let s1 := noLink k .flushing (dropEntry k (s.setHpi k { s.hpi k with perst := true }))
    if s1.domOn (hostDom k) then startFlush k 0 s1 else startWake (hostDom k) s1

/-- PERST_ASSERT (R303). -/
def execPerstAssert (k : Fin 2) (s : State) : Host.Outcome State Fault Refusal := live s (perstAssert k.val)

/-- PERST_DEASSERT (R304, R445): HDk wakes from OFF, or the port trains. -/
def perstDeassert (k : Nat) (s : State) : State :=
  let s1 := dropEntry k (s.setHpi k { s.hpi k with perst := false })
  if (s1.dom (hostDom k)).st = 2 then startWake (hostDom k) s1 else hostTrain k s1

/-- PERST_DEASSERT (R304). -/
def execPerstDeassert (k : Fin 2) (s : State) : Host.Outcome State Fault Refusal := live s (perstDeassert k.val)

/-- The link of a port has left the states down and flushing. -/
def State.hasLink (s : State) (k : Nat) : Bool :=
  !(s.hpi k).perst && (s.hpi k).link != .down && (s.hpi k).link != .flushing

/-- A hot reset or link disable received in training flushes the port (R303). -/
def linkReset (k : Nat) (x : LinkState) (s : State) : State :=
  if s.hasLink k then startFlush k 1 (noLink k x s) else s

/-- HOT_RESET_RECEIVED (R303). -/
def execHotResetReceived (k : Fin 2) (s : State) : Host.Outcome State Fault Refusal :=
  live s (linkReset k.val .hotReset)

/-- LINK_DISABLE_RECEIVED (R303). -/
def execLinkDisableReceived (k : Fin 2) (s : State) : Host.Outcome State Fault Refusal :=
  live s (linkReset k.val .disabled)

/-- SURPRISE_REMOVAL (R306): LOST sets, LOST_CNT counts, a correctable error is raised to the MGC, and the other
port's PF reports it (Table 17-8). -/
def surpriseRemoval (k : Nat) (s : State) : State :=
  if s.hostUp k && !(s.hpi k).perst then
    let s1 := (s.fset F.hpiSentinelLost k 1).fsat F.hpiSentinelLostCnt k 1
    let s2 := startFlush k 2 (noLink k .flushing s1)
    let s3 := viol { ni := k, code := 0x0204, port := k, value := s2.fget F.hpiSentinelLostCnt k } s2
    aerCorrectedAt (1 - k) (s3.emit (.mgcCorr "surprise removal"))
  else s

/-- SURPRISE_REMOVAL (R306). -/
def execSurpriseRemoval (k : Fin 2) (s : State) : Host.Outcome State Fault Refusal := live s (surpriseRemoval k.val)

/-- DL_DOWN (R303): for any other reason. -/
def execDlDown (k : Fin 2) (s : State) : Host.Outcome State Fault Refusal :=
  live s (fun s => if s.hostUp k.val then startFlush k.val 3 (noLink k.val .flushing s) else s)

/-- The image has been applied: functions answer configuration requests (R459, R466). -/
def State.booted (s : State) : Bool := decide (7 ≤ s.fget F.bootStsStage 0)

/-- HOST_LINK_UP (R281, R304): the link is DL_Active at a speed from 1 to 6 and a width; 64 GT/s runs in FLIT mode. The
NI unparks. -/
def hostLinkUp (k speed width : Nat) (flit : Bool) (s : State) : State :=
  let fenced := match s.fnReset (2048 + k) with
    | none => true
    | some r => r.left.isEmpty
  if s.hasLink k && !s.hostUp k && s.domOn (hostDom k) && fenced && decide (1 ≤ speed) && (flit || speed != 6)
      && [1, 2, 4, 8, 16].contains width then
    let s1 := s.setHpi k { s.hpi k with width := width }
    let s2 := ((s1.fset F.hpiLinkStsSpeed k speed).fset F.hpiLinkStsWidth k width).fset F.hpiLinkStsFlit k (b2n flit)
    let s3 := setHostLink k .l0 s2
    when (s3.niParked k && !s3.untimed k) (unparkNi k) s3
  else s

/-- HOST_LINK_UP (R304). -/
def execHostLinkUp (k : Fin 2) (speed : Fin 7) (width : Nat) (flit : Bool) (s : State) :
    Host.Outcome State Fault Refusal := live s (hostLinkUp k.val speed.val width flit)

/-! ## Fences arriving and resets ending (R398, R399) -/

/-- A reset's record of the NIs that have not applied its fence loses one. -/
def noteApplied (ni x : Nat) (s : State) : State :=
  match s.fnReset x with
  | none => s
  | some r => s.setFnReset x (some { r with left := r.left.filter (fun n => n != ni) })

/-- HDk enters OFF after the flush of a fundamental reset if OFF_OK is 1 (R452). -/
def perstOff (k : Nat) (s : State) : State :=
  when ((s.hpi k).perst && s.domOn (hostDom k) && (s.dom (hostDom k)).trans == 0 && s.flag F.pwrDomOffOk (hostDom k)
    && !s.flag F.pwrDomForceOn (hostDom k)) (beginEntry (hostDom k) true) s

/-- The flush actions of a port are over once every NI has applied its fence: STATE leaves flushing. -/
def flushOver (x : Nat) (s : State) : State :=
  match s.fnReset x with
  | some r =>
    if 2048 ≤ x ∧ r.left.isEmpty = true ∧ (s.hpi (x - 2048)).link = .flushing then
      perstOff (x - 2048) (hostTrain (x - 2048) (setHostLink (x - 2048) .down s))
    else s
  | none => s

/-- FENCE_APPLY (R398, R399): fence notice i of those on their way to the NI arrives; one toward a domain that is not ON
waits (R447), and the sink takes one toward a FAILED domain. -/
def fenceApply (ni i : Nat) (s : State) : State :=
  match (s.notices ni)[i]? with
  | none => s
  | some x =>
    let s1 := s.setNotices ni (dropAt (s.notices ni) i)
    if s.niAwake ni then flushOver x (noteApplied ni x (applyFence ni x s1))
    else if s.niFailed ni then flushOver x (noteApplied ni x s1)
    else s

/-- FENCE_APPLY (R398). -/
def execFenceApply (ni : Fin 46) (i : Nat) (s : State) : Host.Outcome State Fault Refusal := live s (fenceApply ni.val i)

/-- Some operation of the functions has not been released, executed or discarded (step 8). Every operation left
stands before the fence, as none enters after it. A posted-fault record on its way to TRC counts too, so that step 10
discards it (Table 17-11). -/
def State.drainLeft (s : State) (mine : Nat → Bool) : Bool :=
  let f := fun (p : Packet) => (p.cls != 3 || (p.ty == 0x33 && p.addr % 16 == 6)) && mine p.fn
  s.beforeRelease f || s.fab.arrived.any (fun q => q.2.any f)
    || s.arb.arbs.any (fun b => b.2.waiting.any (fun w => f w.2)
      || b.2.slots.any (fun x => match x.2 with | none => false | some r => f r.pkt)
      || (match b.2.grant with | none => false | some g => f g.pkt))

/-- AER fields that PCI Express makes sticky (R304). -/
def stickyField (i : Nat) : Bool :=
  i == CfgField.aerUncorStatus.ctorIdx || i == CfgField.aerUncorMask.ctorIdx || i == CfgField.aerUncorSeverity.ctorIdx
    || i == CfgField.aerCorStatus.ctorIdx || i == CfgField.aerCorMask.ctorIdx

/-- A DOE mailbox forgets its SPDM session, and SEC the signatures it awaits (R468). -/
def dropMailbox (k : Nat) (s : State) : State :=
  let s1 := (s.setSpdmAt k 0).setTranscript k []
  { s1 with boot := { s1.boot with signQ := s1.boot.signQ.filter (fun x => x.1 != k) } }

/-- Steps 9 and 10 for one function: its service class, its configuration registers, its function page, its
posted-fault ring and a PF's mailbox. The sticky AER fields stay where `keep` says so. -/
def clearFn (keep : Bool) (fn : Nat) (s : State) : State :=
  let s1 := s.fset F.fSvcQc fn (s.fget (if fn < 1024 then F.svcCtlDefQc0 else F.svcCtlDefQc1) 0)
  let s2 := { s1 with port := { s1.port with
    cfg := s1.port.cfg.filter (fun c => c.1 / 64 != fn || (keep && stickyField (c.1 % 64))) } }
  let s3 := forN 4 (fun q s =>
    let i := 4 * fn + q
    let x := s.queue i
    [RegId.qSqbase, .qCqbase, .qParam, .qCfg, .qCtl, .qSts].foldl (fun s r => (s.rput r i (r.reset i)).sput r i (r.reset i))
      (s.setQueue i { held := x.held, bind := if x.held then x.bind else 0 })) s2
  when (isPf fn) (dropMailbox (portOf fn))
    (((stgPut (pfrBase fn) (List.replicate 512 0) (s3.rput .pfrCtl fn 0)).fset F.pfrStsTotal fn 0).setRingOver fn none)

/-- Step 11: the reset of a function ends. -/
def endReset (keep : Bool) (stamp fn : Nat) (s : State) : State :=
  let us := (s.now - stamp + 999) / 1000
  let s1 := ((clearFn keep fn s).fset F.fnrStsLastUs 0 us).fset F.fnrStsLastFn 0 fn
  trace (portOf fn) 2 2 fn (leBytes 2 fn ++ leBytes 2 0 ++ leBytes 4 us) false s1

/-- The fences of a reset are lifted. -/
def liftFences (x : Nat) (s : State) : State := forN 46 (fun ni s => s.setFenced (fenceKey ni x) false) s

/-- Every NI has applied the fence, every operation before it has drained, and SEM has freed the semaphores. -/
def State.drainOver (s : State) (x : Nat) (r : FnReset) : Bool :=
  r.left.isEmpty && !s.drainLeft (fenceOf x) && !s.semFence x

/-- FN_RESET_DRAIN_DONE (R399): a function's reset ends; the flush of its port, with the resets of its functions that
ran, once the link is DL_Active again (R306, R401). -/
def resetDone (fn : Nat) (s : State) : State :=
  let k := portOf fn
  match s.fnReset (2048 + k) with
  | some r =>
    if s.drainOver (2048 + k) r && s.hostUp k then
      let own := (span (1024 * k) 1024).filter (fun n => (s.fnReset n).isSome)
      let fns := s.functionsOf k ++ own.filter (fun n => !(s.functionsOf k).contains n)
      let s1 := forL own (fun n s => (liftFences n (s.setSemFence n false)).setFnReset n none) s
      (forL fns (endReset (!r.perst) r.stamp) (liftFences (2048 + k) s1)).setFnReset (2048 + k) none
    else s
  | none =>
    match s.fnReset fn with
    | none => s
    | some r => if s.drainOver fn r then (endReset false r.stamp fn (liftFences fn s)).setFnReset fn none else s

/-- FN_RESET_DRAIN_DONE (R399). -/
def execFnResetDrainDone (fn : Fin 2048) (s : State) : Host.Outcome State Fault Refusal := live s (resetDone fn.val)

/-! ## Configuration requests (R284 to R288, R302, R305, R309) -/

/-- Fields that only the PF's capabilities hold, besides those SR-IOV reserves in VFs (Table 12-4). -/
def pfOnly : CfgField → Bool
  | .memorySpaceEnable | .bar0 | .bar2 | .powerState | .pmeEn | .pmeStatus | .numVfs | .vfEnable | .vfMse | .vfBar0
  | .vfBar2 => true
  | f => pfField f

/-- The value that a read of a field returns. -/
def State.cfgRead (s : State) (fn : Nat) (f : CfgField) : Nat := if !isPf fn && pfOnly f then 0 else s.cfgGet fn f

/-- The number of bits of a field that holds what is written to it; 0 for one that does not. -/
def cfgWidth : CfgField → Nat
  | .memorySpaceEnable | .busMasterEnable | .pmeEn | .ctoDisable | .ltrEnable | .tag10En | .tag14En | .extTagEn
  | .msixEnable | .functionMask | .vfMse | .ecrcGenEn | .ecrcCheckEn => 1
  | .maxPayloadSize | .maxReadRequestSize => 3
  | .ctoValue => 4
  | .aerUncorMask | .aerUncorSeverity | .aerCorMask => 32
  | .maxSnoop | .maxNoSnoop => 16
  | _ => 0

/-- A base address register of 2^n bytes: the low bits read zero. -/
def barBits (n v : Nat) : Nat := v % 2 ^ 64 / 2 ^ n * 2 ^ n

/-- A write of a configuration field: read-only ones keep their value, status bits clear where a 1 is written. -/
def cfgField (fn : Nat) (f : CfgField) (v : Nat) (s : State) : State :=
  let k := portOf fn
  if !isPf fn && pfOnly f then s
  else
    match f with
    | .initiateFlr => when (v % 2 == 1) (initiateFlr fn) s
    | .vfEnable =>
      if v % 2 = 1 then s.cfgPut fn .vfEnable 1 else if s.cfgGet fn .vfEnable = 1 then clearVfs k s else s
    | .numVfs => if s.cfgGet fn .vfEnable = 1 ∨ 1023 < v then s else s.cfgPut fn .numVfs v
    | .bar0 => s.cfgPut fn .bar0 (barBits 25 v)
    | .bar2 => s.cfgPut fn .bar2 (barBits (s.fget F.hpiCfgPfBar2Log2 k) v)
    | .vfBar0 => s.cfgPut fn .vfBar0 (barBits 16 v)
    | .vfBar2 => s.cfgPut fn .vfBar2 (barBits (s.fget F.hpiCfgVfBar2Log2 k) v)
    | .powerState => if v = 0 ∨ v = 3 then s.cfgPut fn .powerState v else s
    | .pmeStatus => when (v % 2 == 1) (fun s => s.cfgPut fn .pmeStatus 0) s
    | .aerUncorStatus => s.cfgPut fn f (s.cfgGet fn f &&& (2 ^ 32 - 1 - v % 2 ^ 32))
    | .aerCorStatus => s.cfgPut fn f (s.cfgGet fn f &&& (2 ^ 32 - 1 - v % 2 ^ 32))
    | f => if cfgWidth f = 0 then s else s.cfgPut fn f (v % 2 ^ cfgWidth f)

/-- A configuration write, which completes once the IRT has applied what it changes (R389). -/
def cfgWrite (fn : Nat) (f : CfgField) (v : Nat) (s : State) : State := irtCheck fn (cfgField fn f v s)

/-- HOST_CONFIG_REQUEST (R284, R287, R304, R305): a routing ID beyond the VFs is unsupported; a function in reset, or
any before READY, asks for a retry. -/
def configRequest (k rid : Nat) (r : CfgReq) (s : State) : State :=
  let fn := 1024 * k + rid
  if !s.hostLive k then s
  else if rid ≠ 0 ∧ s.vfExists k rid = false then s.emit (.tlpCpl k (1024 * k) 0 0 1 [] false false)
  else if s.inReset fn || !s.booted then s.emit (.tlpCpl k fn 0 0 2 [] false false)
  else
    match r with
    | .read f => s.emit (.tlpCpl k fn 0 0 0 (leBytes 8 (s.cfgRead fn f)) false false)
    | .write f v => (cfgWrite fn f v s).emit (.tlpCpl k fn 0 0 0 [] false false)

/-- HOST_CONFIG_REQUEST (R287). -/
def execHostConfigRequest (k : Fin 2) (rid : Nat) (r : CfgReq) (s : State) : Host.Outcome State Fault Refusal :=
  live s (configRequest k.val rid r)

/-- A configuration write by the host reaches a function. -/
def State.configurable (s : State) (fn : Nat) : Bool :=
  s.hostLive (portOf fn) && s.booted && (isPf fn || s.vfExists (portOf fn) (fn % 1024)) && !s.inReset fn

/-- FLR_INITIATE (R305). -/
def execFlrInitiate (fn : Fin 2048) (s : State) : Host.Outcome State Fault Refusal :=
  live s (fun s => if s.configurable fn.val then initiateFlr fn.val s else s)

/-- VF_ENABLE_CLEAR (R286). -/
def execVfEnableClear (k : Fin 2) (s : State) : Host.Outcome State Fault Refusal :=
  live s (fun s => if s.configurable (1024 * k.val) then cfgWrite (1024 * k.val) .vfEnable 0 s else s)

end Sys2Proof.Machine
end

