-- ==== Sys2Proof/Machine/Power.lean ====
section
/-!
DEFINITION. Power domains (chapter 19): idle entry with its refusals, isolation and what a domain in OFF loses, the wake
sequence, WAKE_SENSE and deep idle. Domains are numbered as Table 19-1 numbers them: 2 to 5 SG, 6 to 13 PD, 14 and 15
HD, 16 to 23 LD.
-/
namespace Sys2Proof.Machine

/-! ## Refusals (R442, Table 19-2) -/

/-- Who refuses an entry: the cause, KIND (1 an NI, 2 an FN) and WHO. -/
structure Refuser where
  cause : Nat
  kind : Nat
  who : Nat
deriving DecidableEq, Repr

/-- The pair with the smallest first number. -/
def oldest (l : List (Nat × Nat)) : Option (Nat × Nat) :=
  l.foldl (fun b x => match b with
    | none => some x
    | some y => if x.1 < y.1 then some x else some y) none

/-- PDc: an engine in RUN, a transfer context in use, a wake list or message hold that is not empty. -/
def State.pdRefuser (s : State) (c : Nat) : Option Refuser :=
  let k := s.clu c
  let waits := k.wakes.map (·.pkt) ++ k.hold.map (·.2)
  match (span (8 * c) 8).find? (fun e => (s.eng e).st == .run), (s.ctxsOf c).find? (fun x => x.2.used),
      waits.foldl (fun b x => match b with
        | none => some x
        | some y => if timeBefore x.age y.age then some x else some y) (none : Option Packet) with
  | some e, _, _ => some ⟨0x01, 2, (s.eng e).fn⟩
  | none, some x, _ => some ⟨0x02, 2, x.2.fn⟩
  | none, none, some p => some ⟨0x03, 1, p.src⟩
  | none, none, none => none

/-- A tag of gate g's port that is outstanding or cooled. -/
def State.heldTag (s : State) (g : Nat) : Option Tag :=
  (s.port.tags.find? (fun t => t.1 / 4096 == g && (t.2.out || t.2.cooled))).map (·.2)

/-- HD and LD: a tag, then packets and frames held; released packets that have not left count with those of the gate. -/
def State.portRefuser (s : State) (g : Nat) : Option Refuser :=
  let held := (s.gate g).held.map (fun h => (h.at_, h.pkt.fn))
  let sent := if g < 2 then (s.hpi g).egress.map (fun e => (e.at_, e.pkt.fn)) ++ (s.hpi g).np.map (fun e => (e.at_, e.pkt.fn))
    else (s.lpi (g - 2)).egress.map (fun e => (e.at_, e.pkt.fn)) ++ (s.lpi (g - 2)).replay.map (fun t => (t.at_, t.frame.fn))
  match s.heldTag g, oldest (held ++ sent) with
  | some t, _ => some ⟨0x05, 2, t.fn⟩
  | none, some x => some ⟨0x06, 2, x.2⟩
  | none, none => none

/-- The dependant of a staging group that holds it ON, by its NI: the lowest-numbered of Table 19-1. -/
def State.holder (s : State) (k : Nat) : Option Nat :=
  if k = 0 then ((List.range 8).find? (fun c => (s.ctxsOf c).any (fun x => x.2.used))).map (· + 10)
  else if k < 3 then ((k - 1) :: (span (4 * (k - 1)) 4).map (· + 2)).find? (fun g => (s.heldTag g).isSome)
  else none

/-- A request presenting, granted or belayed at an arbiter: its requester's NI; the bank's own for its scrubber. -/
def State.presenter (s : State) (a : Nat) : Option Nat :=
  let b := s.arbiter a
  let idx := b.waiting.map (·.1) ++ (b.slots.filter (fun x => x.2.isSome)).map (·.1)
    ++ ((b.grant.map (·.idx)).toList) ++ ((b.belay.map (·.idx)).toList)
  (idx.map (fun i => if i < 46 then i else 18 + a)).head?

/-- SGk: a dependant, then its arbiters, then an enabled scrub. -/
def State.sgRefuser (s : State) (k : Nat) : Option Refuser :=
  match s.holder k, (span (4 * k) 4).filterMap s.presenter with
  | some ni, _ => some ⟨0x07, 1, ni⟩
  | none, ni :: _ => some ⟨0x09, 1, ni⟩
  | none, [] => if natBit (s.fget F.scrubCtlGrpEn 0) k then some ⟨0x09, 1, 18 + 4 * k⟩ else none

/-- The link of a host port is in L1.1 or L1.2. -/
def State.inL1Sub (s : State) (k : Nat) : Bool := (s.hpi k).link == .l11 || (s.hpi k).link == .l12

/-- A Drevlink port from which its domain may be entered: DISABLED, FAILED or SLEEP. -/
def State.portQuiet (s : State) (p : Nat) : Bool :=
  let st := (s.lpi (s.leadOf p)).st
  st == 0 || st == 8 || st == 6

/-- The first condition of Table 19-2 that holds against the entry of domain d, in the table's order. An LD whose port
is ACTIVE is asked by the SLEEP exchange, and does not refuse by 0x08 here. -/
def State.refuser (s : State) (d : Nat) : Option Refuser :=
  if d < 6 then s.sgRefuser (d - 2)
  else if d < 14 then s.pdRefuser (d - 6)
  else
    match s.portRefuser (d - 14) with
    | some r => some r
    | none =>
      if d < 16 then (if s.inL1Sub (d - 14) then none else some ⟨0x08, 2, 1024 * (d - 14)⟩)
      else if s.portQuiet (d - 16) || ((s.lpi (d - 16)).st == 5 && s.leads (d - 16)) then none
      else some ⟨0x08, 1, d - 14⟩

/-- Domain d may enter OFF (R440); HD enters it only from PERST. -/
def State.mayOff (s : State) (d : Nat) : Bool :=
  s.flag F.pwrDomOffOk d &&
    (if d < 6 then false
     else if d < 14 then (span (8 * (d - 6)) 8).all (fun e => (s.eng e).st == .idle)
     else if d < 16 then false
     else (s.lpi (s.leadOf (d - 16))).st != 6)

/-! ## Idle entry (R441 to R443) -/

/-- The idle timer of domain d has reached the IDLE_T it started with; it does not run while IDLE_T is 0 or FORCE_ON is
1, nor for an HD outside L1.1 and L1.2 (R452). -/
def State.idleOver (s : State) (d : Nat) : Bool :=
  let x := s.dom d
  decide (2 ≤ d) && x.st == 0 && x.trans == 0 && s.fget F.pwrDomIdleT d != 0 && x.limit != 0
    && !s.flag F.pwrDomForceOn d && decide (s.now ≥ x.last + 1000 * x.limit)
    && (d != 14 && d != 15 || s.inL1Sub (d - 14))

/-- IDLE_TIMER_EXPIRE (R441, R442): a refusal, the SLEEP message of an ACTIVE port, or the start of an entry. -/
def idleExpire (d : Nat) (s : State) : State :=
  if !s.idleOver d then s
  else
    match s.refuser d with
    | some r => pwrRefuse d r.cause r.kind r.who s
    | none =>
      let p := d - 16
      if 16 ≤ d ∧ s.portQuiet p = false then
        if (s.lpi p).sleepSent then s
        else sleepExit p (sendMl p 0x09 [] (s.setLpi p { s.lpi p with sleepSent := true, sleepAt := s.now }))
      else beginEntry d (s.mayOff d) s

/-- IDLE_TIMER_EXPIRE (R441). -/
def execIdleTimerExpire (d : Fin 24) (s : State) : Host.Outcome State Fault Refusal := live s (idleExpire d.val)

/-- PARTNER_SLEEP_TIMEOUT (R442): no SLEEP from the partner within 100 µs. -/
def sleepTimeout (d : Nat) (s : State) : State :=
  let l := s.lpi (d - 16)
  if 16 ≤ d ∧ l.st = 5 ∧ l.sleepSent = true ∧ l.sleepRecv = false ∧ s.now ≥ l.sleepAt + 100000 then
    pwrRefuse d 0x08 1 (d - 14) (s.setLpi (d - 16) { l with sleepSent := false })
  else s

/-- PARTNER_SLEEP_TIMEOUT (R442). -/
def execPartnerSleepTimeout (d : Fin 24) (s : State) : Host.Outcome State Fault Refusal := live s (sleepTimeout d.val)

/-- A packet aborts an entry before isolation (R443): a refusal of CAUSE 0x0B; a port in SLEEP leaves it. -/
def abortEntry (d src : Nat) (s : State) : State :=
  if (s.dom d).trans = 1 then
    let s1 := pwrRefuse d 0x0B 1 src (cancelEntry d s)
    when (decide (16 ≤ d) && s1.leads (d - 16)) (leaveSleep (d - 16)) s1
  else s

/-- DOMAIN_ENTRY_ABORT (R443). -/
def execDomainEntryAbort (d : Fin 24) (src : Fin 46) (s : State) : Host.Outcome State Fault Refusal :=
  live s (abortEntry d.val src.val)

/-! ## Isolation, and what OFF loses (R438, R440, R443) -/

/-- The range of control-space offsets of a domain's own registers. -/
def domBlock (d : Nat) : Nat × Nat :=
  if d < 14 then (0x80000 + 0x1000 * (d - 6), 0x1000)
  else if d < 16 then (0x20000 + 0x4000 * (d - 14), 0x4000)
  else (0x30000 + 0x4000 * (d - 16), 0x4000)

/-- The place in the register file belongs to a register in a range of control-space offsets. -/
def inBlock (lo n key : Nat) : Bool :=
  regRows.any (fun row => !row.fa && row.reg.ctorIdx == key / 65536 && decide (row.first ≤ key % 65536)
    && decide (key % 65536 < row.first + row.n1 * row.n2)
    && (let off := regOffset row.reg (key % 65536); decide (lo ≤ off) && decide (off < lo + n)))

/-- The registers of a domain return to their reset values. -/
def dropRegs (d : Nat) (s : State) : State :=
  let (lo, n) := domBlock d
  { s with reg := { act := mclear (inBlock lo n) s.reg.act, shad := mclear (inBlock lo n) s.reg.shad } }

/-- PDc is lost: engines, registers, scratch, program store, contexts, lists and the egress (R440). -/
def dropPd (c : Nat) (s : State) : State :=
  let eng := fun e => e / 8 == c
  { s with
    pcl := {
      engs := mclear eng s.pcl.engs
      gregs := mclear (fun k => eng (k / 32)) s.pcl.gregs
      clus := mclear (fun k => k == c) s.pcl.clus
      ctxs := mclear (fun k => k / 512 == c) s.pcl.ctxs }
    mem := { s.mem with
      scratch := mclear (fun k => eng (k / 65536)) s.mem.scratch
      scrPoison := mclear (fun k => eng (k / 8192)) s.mem.scrPoison
      ps := mclear (fun k => k / 131072 == c) s.mem.ps
      psEcc := mclear (fun k => k / 131072 == c) s.mem.psEcc }
    arb := { s.arb with arbs := mclear (fun a => a == 20 + c) s.arb.arbs } }

/-- HDk is lost, its configuration space with it; its image fields are loaded again. -/
def dropHd (k : Nat) (s : State) : State :=
  let s1 := freeTags k (s.setHpi k { perst := (s.hpi k).perst })
  let s2 := { s1 with port := { s1.port with cfg := mclear (fun c => c / 65536 == k) s1.port.cfg } }
  loadImage .hpiLtr k (loadImage .hpiCfg k s2)

/-- LDp is lost; its image fields are loaded again, a WIDTH that differs as a change of width (R500). -/
def dropLd (p v : Nat) (s : State) : State :=
  let s1 := loadImage .lbFn p (loadImage .lnkCtl p (freeTags (2 + p) (s.setLpi p { stAt := s.now })))
  let w := s1.fget F.lnkCtlWidth p
  let s2 := s1.fset F.lnkCtlWidth p v
  if s2.leads p && w != v && (s2.widthPorts p w).all (fun q => (s2.lpi q).st == 0) then changeWidth p w s2 else s2

/-- A domain's supply is off: everything in it is lost. -/
def dropDomain (d : Nat) (s : State) : State :=
  let s1 := dropRegs d s
  if d < 14 then dropPd (d - 6) s1
  else if d < 16 then dropHd (d - 14) s1
  else dropLd (d - 16) (s.fget F.lnkCtlWidth (d - 16)) s1

/-- Nothing stands against isolation: no packet has reached an NI of the domain, and no condition of Table 19-2 holds
again; an HD on its way to OFF needs PERST. -/
def State.mayIsolate (s : State) (d : Nat) : Bool :=
  (nisOf d).all (fun ni => (s.arrived ni).isEmpty)
    && (if (s.dom d).toOff && (d == 14 || d == 15) then (s.hpi (d - 14)).perst else (s.refuser d).isNone)

/-- DOMAIN_ISOLATION (R443, R444). -/
def isolate (d : Nat) (s : State) : State :=
  let x := s.dom d
  if x.st = 0 ∧ x.trans = 1 ∧ s.mayIsolate d = true then
    let s1 := s.setDom d { x with st := if x.toOff then 2 else 1, trans := 0, since := s.now }
    when x.toOff (dropDomain d) (pwrTrace (if x.toOff then 2 else 1) d 0 s1)
  else s

/-- DOMAIN_ISOLATION (R443). -/
def execDomainIsolation (d : Fin 24) (s : State) : Host.Outcome State Fault Refusal := live s (isolate d.val)

/-! ## The wake sequence (R446, R447) -/

/-- What waits for a domain once it is ON: a host port flushes for the PERST that woke it, or trains; a Drevlink port
leaves SLEEP, or starts as its EN says. -/
def afterWake (d : Nat) (s : State) : State :=
  if d < 14 then s
  else if d < 16 then
    let k := d - 14
    if (s.hpi k).link = .flushing ∧ (s.fnReset (2048 + k)).isNone = true then startFlush k 0 s else hostTrain k s
  else
    let p := d - 16
    if !s.leads p then s
    else if (s.lpi p).st = 6 then leaveSleep p s
    else when ((s.lpi p).st == 0 && s.flag F.lnkCtlEn p) (restartPort p) s

/-- A wake is complete (R446): the domain is ON, and its NIs await a load of the time, after which they unpark. -/
def wakeDone (d : Nat) (s : State) : State :=
  let failed := s.fget F.pwrStsFailed 0
  let s1 := (s.setDom d { s.dom d with st := 0, trans := 0, toOff := false, stage := 0 }).fset F.pwrStsFailed 0
    (if natBit failed d then failed - 2 ^ d else failed)
  afterWake d (forL (nisOf d) (fun ni s => s.setUntimed ni true) (pwrTrace 3 d 0 (touch d s1)))

/-- An attempt runs the step `n`. -/
def State.waking (s : State) (d n : Nat) : Bool := (s.dom d).trans == 2 && (s.dom d).stage == n

/-- POWER_GOOD (R446): HD and LD start their PLLs, the others are ON. -/
def powerGood (d : Nat) (s : State) : State :=
  if s.waking d 0 then
    if 14 ≤ d then s.setDom d { s.dom d with stage := 1, at_ := s.now } else wakeDone d s
  else s

/-- POWER_GOOD (R446). -/
def execPowerGood (d : Fin 24) (s : State) : Host.Outcome State Fault Refusal := live s (powerGood d.val)

/-- A domain becomes FAILED (R446, R447): refusal, violation, FAILED, ARM; a Drevlink port reads DISABLED. -/
def domFail (d cause : Nat) (s : State) : State :=
  let failed := s.fget F.pwrStsFailed 0
  let s1 := pwrRefuse d 0x0A 1 44 (s.setDom d { s.dom d with st := 3, trans := 0, stage := 0 })
  let s2 := viol { ni := 44, code := 0x0508, object := d, value := cause } s1
  let s3 := (s2.fset F.pwrStsFailed 0 (if natBit failed d then failed else failed + 2 ^ d)).fset F.wsCtlArm 0 1
  let s4 := pwrTrace 5 d 0x0A s3
  when (decide (16 ≤ d) && s4.leads (d - 16)) (fun s =>
    setTrain (d - 16) 0 (when ((s.lpi (d - 16)).lst != 0) (lpiFlush (d - 16) 0) s)) s4

/-- An attempt fails (R446): the supply goes off, and after the fourth the domain is FAILED. -/
def attemptFail (d cause : Nat) (s : State) : State :=
  if (s.dom d).attempts < 4 then s.setDom d { s.dom d with stage := 2, at_ := s.now } else domFail d cause s

/-- WAKE_POWER_TIMEOUT (R446): 2 ms without power-good. -/
def execWakePowerTimeout (d : Fin 24) (s : State) : Host.Outcome State Fault Refusal :=
  live s (fun s => if s.waking d.val 0 && decide (s.now ≥ (s.dom d.val).at_ + 2000000) then attemptFail d.val 1 s else s)

/-- WAKE_PLL_LOCK (R446). -/
def execWakePllLock (d : Fin 24) (s : State) : Host.Outcome State Fault Refusal :=
  live s (fun s => if s.waking d.val 1 then wakeDone d.val s else s)

/-- WAKE_PLL_TIMEOUT (R446): 200 µs without lock. -/
def execWakePllTimeout (d : Fin 24) (s : State) : Host.Outcome State Fault Refusal :=
  live s (fun s => if s.waking d.val 1 && decide (s.now ≥ (s.dom d.val).at_ + 200000) then attemptFail d.val 2 s else s)

/-- WAKE_RETRY_DELAY_EXPIRE (R446): 10 µs after a failed attempt the next one starts. -/
def execWakeRetryDelayExpire (d : Fin 24) (s : State) : Host.Outcome State Fault Refusal :=
  live s (fun s =>
    let x := s.dom d.val
    if s.waking d.val 2 && decide (s.now ≥ x.at_ + 10000) then
      s.setDom d.val { x with attempts := x.attempts + 1, stage := 0, at_ := s.now }
    else s)

/-! ## Wake sources (R445, Table 19-3) -/

/-- A flit or a fence notice waits for an NI of the domain. -/
def State.packetWaits (s : State) (d : Nat) : Bool :=
  (nisOf d).any (fun ni => !(s.notices ni).isEmpty
    || s.fab.dirs.any (fun x => x.2.wire.isSome && receiverOf (x.1 / 2) (x.1 % 2 == 1) == 20 + ni))

/-- 2 µs before the earliest deadline of an engine in WAIT (R448). -/
def State.timerDue (s : State) (c : Nat) : Bool :=
  (span (8 * c) 8).any (fun e => (s.eng e).st == .wait && (s.eng e).tmr != 0
    && timeLe (s.eng e).tmr ((s.engNow e + 2000) % 2 ^ 48))

/-- A source of Table 19-3 that the state shows asks for domain d. RETRY acts through DOMAIN_RETRY. -/
def State.wakeAsked (s : State) (d : Nat) : WakeSource → Bool
  | .packet => s.packetWaits d
  | .timerLead => decide (6 ≤ d) && decide (d < 14) && (s.dom d).st == 1 && s.timerDue (d - 6)
  | .stagingAccess => decide (2 ≤ d) && decide (d < 6)
  | .scrubEnable => decide (2 ≤ d) && decide (d < 6) && natBit (s.fget F.scrubCtlGrpEn 0) (d - 2)
  | .clkreq => (d == 14 || d == 15) && (s.dom d).st == 1
  | .packetToSend => (d == 14 || d == 15) && (s.dom d).st == 1 && (s.packetWaits d || (s.portRefuser (d - 14)).isSome)
  | .perst => (d == 14 || d == 15) && (s.dom d).st == 2 && !(s.hpi (d - 14)).perst
  | .wakePattern => decide (16 ≤ d) && s.flag F.mlStsWakeSeen (d - 16)
  | .lnkEn => decide (16 ≤ d) && (s.dom d).st == 2 && (s.lpi (s.leadOf (d - 16))).st != 0
  | .forceOn => s.flag F.pwrDomForceOn d
  | .retry => false
  | .wakeSense => s.flag F.wsCtlTrig 0 && natBit (s.fget F.wsMaskMask 0) d

/-- DOMAIN_WAKE_REQUEST (R445): the device asserts CLKREQ itself for a packet to send (Table 19-5). -/
def wakeRequest (d : Nat) (src : WakeSource) (s : State) : State :=
  if s.wakeAsked d src && ((s.dom d).st == 1 || (s.dom d).st == 2) && (s.dom d).trans == 0 then
    when ((src == .packetToSend || src == .packet) && (d == 14 || d == 15) && (s.dom d).st == 1)
      (fun s => s.emit (.clkreq (d - 14))) (startWake d s)
  else s

/-- DOMAIN_WAKE_REQUEST (R445). -/
def execDomainWakeRequest (d : Fin 24) (src : WakeSource) (s : State) : Host.Outcome State Fault Refusal :=
  live s (wakeRequest d.val src)

/-- PD_TIMER_LEAD (R448). -/
def execPdTimerLead (c : Fin 8) (s : State) : Host.Outcome State Fault Refusal :=
  live s (wakeRequest (6 + c.val) .timerLead)

/-- CLKREQ_ASSERT (R452). -/
def execClkreqAssert (k : Fin 2) (s : State) : Host.Outcome State Fault Refusal :=
  live s (wakeRequest (14 + k.val) .clkreq)

/-- WAKE_SENSE_TRIGGER (R450): LEVEL shows the comparator; while ARM is 1 the trigger sets TRIG, restarts every FAILED
domain and wakes those of WS_MASK, whose bits 0 and 1 are ignored. -/
def wakeSense (s : State) : State :=
  let s1 := { s with pwr := { s.pwr with wsLevel := true } }
  if s1.flag F.wsCtlArm 0 then
    forL (span 2 22) (fun d s =>
      wakeFailed d (when (natBit (s.fget F.wsMaskMask 0) d) (startWake d) s)) (s1.fset F.wsCtlTrig 0 1)
  else s1

/-- WAKE_SENSE_TRIGGER (R450). -/
def execWakeSenseTrigger (s : State) : Host.Outcome State Fault Refusal := live s wakeSense

/-! ## PWC registers (R451, R455) -/

/-- RETRY = 1. -/
def retryWrite (d : Nat) (s : State) : State := wakeFailed d s

/-- DOMAIN_RETRY (R446). -/
def execDomainRetry (w : Writer) (d : Fin 24) (s : State) : Host.Outcome State Fault Refusal :=
  live s (guarded w .pwrDom d.val (BitVec.ofNat 64 (2 ^ 27)) (retryWrite d.val))

/-- FORCE_ON = 1 from NI `ni`: as a packet during entry, else a wake (Table 19-6); ignored for domains 0 and 1. -/
def forceOn (ni d : Nat) (s : State) : State :=
  if d < 2 then s else startWake d (abortEntry d ni (s.fset F.pwrDomForceOn d 1))

/-- DOMAIN_FORCE_ON (R445). -/
def execDomainForceOn (w : Writer) (d : Fin 24) (s : State) : Host.Outcome State Fault Refusal :=
  live s (guarded w .pwrDom d.val (BitVec.ofNat 64 (2 ^ 25)) (forceOn (writerNi w) d.val))

/-- MGC_SRC: a 1 counts only while MGC_PLL_LOCK is 1. -/
def mgcSrc (src : Bool) (s : State) : State :=
  if !src then s.fset F.pwcClkMgcSrc 0 0 else when (s.flag F.pwcClkMgcPllLock 0) (fun s => s.fset F.pwcClkMgcSrc 0 1) s

/-- MGC_SRC_WRITE (R451). -/
def execMgcSrcWrite (w : Writer) (src : Bool) (s : State) : Host.Outcome State Fault Refusal :=
  live s (guarded w .pwcClk 0 (BitVec.ofNat 64 (2 * b2n src)) (mgcSrc src))

/-- MGC_PLL_LOCK (R460): the MGC PLL, which runs while enabled outside deep idle, locks. -/
def execMgcPllLock (s : State) : Host.Outcome State Fault Refusal :=
  live s (fun s =>
    if s.flag F.pwcClkMgcPllEn 0 && !s.pwr.deep then
      let s1 := s.fset F.pwcClkMgcPllLock 0 1
      { s1 with tb := { s1.tb with mgcLockSince := some s.now } }
    else s)

/-- Every switchable domain has been down for DEEP_T (R451). -/
def State.allDown (s : State) : Bool :=
  (span 2 22).all (fun d => (s.dom d).st != 0 && (s.dom d).trans != 2
    && decide (s.now ≥ (s.dom d).since + 1000 * s.fget F.pwrCtlDeepT 0))

/-- DEEP_IDLE_ENTER (R451): the MGC island moves to its ring oscillator, and its PLL stops. -/
def deepEnter (s : State) : State :=
  if s.flag F.pwrCtlDeepEn 0 && !s.pwr.deep && s.allDown then
    let s1 := { s with pwr := { s.pwr with deep := true }, tb := { s.tb with mgcLockSince := none } }
    pwrTrace 6 0 0 (((s1.fset F.pwrStsDeep 0 1).fset F.pwcClkMgcSrc 0 0).fset F.pwcClkMgcPllLock 0 0)
  else s

/-- DEEP_IDLE_ENTER (R451). -/
def execDeepIdleEnter (s : State) : Host.Outcome State Fault Refusal := live s deepEnter

end Sys2Proof.Machine
end

