-- ==== Sys2Proof/Machine/BootCmd.lean ====
section
/-!
DEFINITION. The BOOT block beside bring-up (chapter 20): calibration values, and BOOT_CMD: raising the fused counts, and
erasing and writing flash.
-/
namespace Sys2Proof.Machine

/-! ## Calibration (R467) -/

/-- A calibration field (Table 20-6): its indices, its factory width, whether it is signed, its offset width and its
clamp. -/
structure CalField where
  count : Nat
  width : Nat
  signed : Bool
  offWidth : Nat
  low : Int
  high : Int

/-- Table 20-6. -/
def calField : Nat → Option CalField
  | 1 => some ⟨32, 5, false, 4, 0, 31⟩
  | 2 => some ⟨10, 6, false, 4, 0, 63⟩
  | 3 => some ⟨1, 8, false, 5, 0, 255⟩
  | 4 => some ⟨1, 8, false, 5, 0, 255⟩
  | 5 => some ⟨1, 6, true, 4, -31, 31⟩
  | 6 => some ⟨4, 8, true, 5, -128, 127⟩
  | 7 => some ⟨1, 5, false, 0, 0, 31⟩
  | _ => none

/-- The factory value of a field, as its width and sign give it. -/
def calFactory (c : CalField) (f i : Nat) : Int :=
  let x := (Config.factory f i % 2 ^ c.width).toNat
  if c.signed then signedOf c.width x else x

/-- The offset that an accepted entry has given. -/
def State.calOff (s : State) (f i : Nat) : Int := s.calOffset (65536 * f + i)

/-- The effective value of a field. -/
def State.calEffective (s : State) (c : CalField) (f i : Nat) : Int :=
  clampInt (calFactory c f i + s.calOff f i) c.low c.high

/-- A number as a byte of a register. -/
def byteOf (x : Int) : Nat := (x % 256).toNat

/-- CAL_EFF of the field that CAL_SEL names, once the fuses are read; a field or index that Table 20-6 does not have
reads zero. -/
def State.calView (s : State) : Word :=
  let f := s.fget F.calSelField 0
  let i := s.fget F.calSelIndex 0
  match calField f with
  | none => 0
  | some c =>
    if c.count ≤ i ∨ s.fget F.bootStsStage 0 = 0 then 0
    else BitVec.ofNat 64 (byteOf (calFactory c f i) * 2 ^ 24 + byteOf (s.calOff f i) * 2 ^ 16
      + byteOf (s.calEffective c f i))

/-! ## Results (Table 20-10) -/

/-- RESULT: 0 done, 1 busy, 2 out of range, 3 booted slot, 4 flash error. -/
def bootResult (r : Nat) (s : State) : State := s.fset F.bootResResult 0 r

/-- A command that arrives while another runs does nothing but report it (R471). -/
def unlessBusy (f : State → State) (s : State) : State := if s.boot.cmd.isSome then bootResult 1 s else f s

/-! ## Counts (R465) -/

/-- The fused counts as BOOT_SVN shows them. -/
def showCounts (s : State) : State :=
  (s.fset F.bootSvnOsvnFuse 0 s.boot.ownerCount).fset F.bootSvnVsvnFuse 0 s.boot.vendorCount

/-- The owner count rises to the running image's OSVN; it never falls. -/
def commitOwner (s : State) : State :=
  bootResult 0 (showCounts
    { s with boot := { s.boot with ownerCount := max s.boot.ownerCount (s.fget F.bootSvnOsvnImg 0) } })

/-- The vendor count rises to the running firmware's VSVN. -/
def commitVendor (s : State) : State :=
  bootResult 0 (showCounts
    { s with boot := { s.boot with vendorCount := max s.boot.vendorCount (s.fget F.bootSvnVsvnImg 0) } })

/-! ## Flash (R472) -/

/-- The flash slot of an offset: 0 A, 1 B (R462). -/
def flashSlot (a : Nat) : Nat := a / 2 ^ 24

/-- A range of staging memory lies in free ranges alone (Table 11-5, whose regions are multiples of 256 KiB). -/
def State.freeStaging (s : State) (a n : Nat) : Bool :=
  n == 0 || (decide (a + n ≤ 2 ^ 26)
    && (span (a / 2 ^ 18) ((a + n - 1) / 2 ^ 18 + 1 - a / 2 ^ 18)).all (fun b => !s.reservedStg (b * 2 ^ 18)))

/-- The command's range is permitted: within one slot, at most 16 MiB, an erase aligned to 4 KiB, a write from free
staging. -/
def State.flashRangeOk (s : State) (c : FlashCmd) : Bool :=
  decide (c.len ≤ 2 ^ 24) && (c.len == 0 || flashSlot c.dst == flashSlot (c.dst + c.len - 1))
    && (if c.write then s.freeStaging c.src c.len else c.dst % 4096 == 0)

/-- A flash command starts, or is refused: out of range, or aimed at the slot booted from. -/
def flashStart (write : Bool) (s : State) : State :=
  let c : FlashCmd := { write := write, dst := s.fget F.bootDstOffset 0, src := s.fget F.bootSrcAddr 0,
                        len := s.fget F.bootLenLen 0 }
  if !s.flashRangeOk c then bootResult 2 s
  else if s.fget F.bootStsSlot 0 = flashSlot c.dst + 1 then bootResult 3 s
  else { s with boot := { s.boot with cmd := some c } }.fset F.bootResBusy 0 1

/-- Bytes from flash offset `a` on. -/
def putFlash (a : Nat) (data : List Byte) (s : State) : State :=
  forN data.length (fun i s => s.setFlashByte (a + i) (data.getD i 0)) s

/-- A range of flash whose bytes nothing tells. -/
def freeFlash (a n : Nat) (s : State) : State :=
  let (i, s1) := takeFree s
  putFlash a ((List.range n).map (Config.freeByte i)) s1

/-- A flash command ends: erased bytes are ones, written bytes are those of staging memory. On a flash error the spec
does not say what the range holds. -/
def flashEnd (ok : Bool) (s : State) : State :=
  match s.boot.cmd with
  | none => s
  | some c =>
    let s1 := { s with boot := { s.boot with cmd := none } }.fset F.bootResBusy 0 0
    if ok then
      let s2 := if c.write then
          let s' := stgCheckRange c.src c.len s1
          putFlash c.dst (s'.stgBytes c.src c.len) s'
        else putFlash c.dst (List.replicate c.len 0xFF) s1
      bootResult 0 (s2.setTornSlot (flashSlot c.dst) false)
    else bootResult 4 (freeFlash c.dst c.len s1)

/-- What BOOT_CMD.OP starts (Table 20-10): 0 and 5 to 7 have no effect. -/
def bootCmd (op : Nat) (s : State) : State :=
  match op with
  | 1 => unlessBusy commitOwner s
  | 2 => unlessBusy commitVendor s
  | 3 => unlessBusy (flashStart false) s
  | 4 => unlessBusy (flashStart true) s
  | _ => s

/-- COMMIT_OWNER_COUNT (R465). -/
def execCommitOwnerCount (w : Writer) (s : State) : Host.Outcome State Fault Refusal :=
  live s (guarded w .bootCmd 0 1 (bootCmd 1))

/-- COMMIT_VENDOR_COUNT (R465). -/
def execCommitVendorCount (w : Writer) (s : State) : Host.Outcome State Fault Refusal :=
  live s (guarded w .bootCmd 0 2 (bootCmd 2))

/-- FLASH_ERASE (R472). -/
def execFlashErase (w : Writer) (s : State) : Host.Outcome State Fault Refusal :=
  live s (guarded w .bootCmd 0 3 (bootCmd 3))

/-- FLASH_WR (R472). -/
def execFlashWr (w : Writer) (s : State) : Host.Outcome State Fault Refusal :=
  live s (guarded w .bootCmd 0 4 (bootCmd 4))

/-- FLASH_OP_COMPLETE (R472). -/
def execFlashOpComplete (ok : Bool) (s : State) : Host.Outcome State Fault Refusal := live s (flashEnd ok)

end Sys2Proof.Machine
end

