-- ==== Sys2Proof/Machine/Errors.lean ====
section
/-!
DEFINITION. Error handling (chapter 17): notices about damaged packets (R410, R411), the logs that TRC writes and their
readers (R416, R418, R419, R422, R424, R427), scrubbing (R414, R415) and error injection (R425). TRC's NI is 41.
-/
namespace Sys2Proof.Machine

/-! ## Notices about damaged packets (R410, R411, Table 17-4) -/

/-- The fault notice of a kind at place i of an NI's arrived packets, taken out. -/
def takeNotice (ni i kind : Nat) (s : State) : Option (Packet × State) :=
  match takeArrived ni i s with
  | none => none
  | some (p, s1) => if p.cls = 3 ∧ p.ty = 0x33 ∧ p.addr % 16 = kind ∧ p.hdrBad = false then some (p, s1) else none

/-- The COUNT of a notice. -/
def noticeCount (p : Packet) : Nat := p.addr / 16 % 4096

/-- COUNT_QUERY (R410): the source answers with its injection count toward the one that asks. -/
def execCountQuery (ni : Fin 46) (i : Nat) (s : State) : Host.Outcome State Fault Refusal :=
  live s (fun s =>
    match takeNotice ni.val i 3 s with
    | none => s
    | some (p, s1) => offer (notice ni.val p.src 4 (s1.injCnt (ckey ni.val p.src)) ni.val p.fn []) s1)

/-- COUNT_ANSWER (R410): the count is confirmed once the packets received from the source reach it. -/
def execCountAnswer (ni : Fin 46) (i : Nat) (s : State) : Host.Outcome State Fault Refusal :=
  live s (fun s =>
    match takeNotice ni.val i 4 s with
    | none => s
    | some (p, s1) =>
      let r := s1.recvCnt (ckey ni.val p.src)
      if reached r (noticeCount p) then resolveCounts ni.val p.src r [noticeCount p] s1 else s)

/-- DAMAGED_REQUEST_NOTICE (R411): the source completes the request with CA; XV = 7 marks its own answer. -/
def execDamagedRequestNotice (ni : Fin 46) (i : Nat) (s : State) : Host.Outcome State Fault Refusal :=
  live s (fun s =>
    match takeNotice ni.val i 1 s with
    | none => s
    | some (p, s1) =>
      let a : Packet := { cls := 2, ty := 0x21, src := p.src, dst := ni.val, fn := p.fn, tag := p.tag, qc := p.qc,
                          csts := 2, xv := 7 }
      s1.setArrived ni.val (s1.arrived ni.val ++ [a]))

/-- DAMAGED_POSTED_NOTICE (R411): the source takes note; the packet's allowance has been returned by its gate. -/
def execDamagedPostedNotice (ni : Fin 46) (i : Nat) (s : State) : Host.Outcome State Fault Refusal :=
  live s (fun s =>
    match takeNotice ni.val i 2 s with
    | none => s
    | some (_, s1) => s1)

/-! ## TRC's logs (R416 to R419, R422) -/

/-- The bases of the violation log and of the trace buffer (Table 11-5). -/
def vlogBase : Nat := 0x3900000
def traceBase : Nat := 0x3C00000

/-- TRC cannot write while SG3 is FAILED: the record is discarded and counted (R447). -/
def trcWrite (f : State → State) (s : State) : State :=
  if (s.dom 5).st = 3 then s.fsat F.pwrStsLostRec 0 1 else f s

/-- The record of a violation is written at the next slot (R416). -/
def vlogWrite (rec_ : List Byte) (s : State) : State :=
  let r := s.fget F.vlogStsNext 0
  let slot := r % 4096
  let s1 := when (s.unread slot) (fun s => s.fsat F.vlogStsLost 0 1) s
  let s2 := stgPut (vlogBase + 64 * slot) (rec_.take 24 ++ leBytes 4 r ++ (rec_.drop 28).take 36) s1
  (s2.setUnread slot true).fwrap F.vlogStsNext 0 1

/-- VIOLATION_RECORD (R416). -/
def execViolationRecord (i : Nat) (s : State) : Host.Outcome State Fault Refusal :=
  live s (fun s =>
    match takeNotice 41 i 5 s with
    | none => s
    | some (p, s1) => trcWrite (vlogWrite p.data) s1)

/-- The header of the memory write that a posted-fault record's AER report logs (R419; its layout is PCI Express's:
PRESUMED, log 16). -/
def faultHdr (fn : Nat) (rec_ : List Byte) : List Nat :=
  let a := leNat ((rec_.drop 16).take 8)
  let n := leNat ((rec_.drop 24).take 2)
  tlpHdr 0 { addr := a, len := n, fbe := fbeFor a n, lbe := lbeFor a n, data := [], ro := false, ido := false,
             ns := false, ep := false, tag := 0, requester := fn % 1024, ecrcErr := false }

/-- The AER report of a posted fault: non-fatal whatever the severity register says, and not advisory (R419). -/
def aerPosted (fn cause : Nat) (hdr : List Nat) (s : State) : State :=
  let bit := if cause = 3 then 20 else 15
  let st := s.cfgGet fn .aerUncorStatus
  let s1 := if natBit st bit then s else s.cfgPut fn .aerUncorStatus (st + 2 ^ bit)
  if natBit (s1.cfgGet fn .aerUncorMask) bit then s1
  else s1.emit (.aer fn 1 (if cause = 3 then "Unsupported Request" else "Completer Abort") hdr)

/-- A record enters the ring of its function: TOTAL counts, and unless the function is in reset the AER report and the
fault vector's request follow (R418, R419). -/
def ringWrite (fn : Nat) (rec_ : List Byte) (s : State) : State :=
  let s1 := s.fwrap F.pfrStsTotal fn 1
  let t := s1.fget F.pfrStsTotal fn
  let s2 := when (decide (16 < t)) (fun s => s.setRingOver fn (some s.now)) s1
  let s3 := stgPut (pfrBase fn + 32 * ((t + 15) % 16)) (rec_.take 8 ++ leBytes 4 t ++ (rec_.drop 12).take 20) s2
  if s3.inReset fn then s3
  else
    let s4 := aerPosted fn (leNat ((rec_.drop 12).take 1)) (faultHdr fn rec_) s3
    when (s4.flag F.pfrCtlEn fn)
      (fun s => offer { s.mkPkt 1 0x12 41 39 fn with addr := s.fget F.pfrCtlVec fn } s) s4

/-- POSTED_FAULT_RECORD (R418, R419). -/
def execPostedFaultRecord (i : Nat) (s : State) : Host.Outcome State Fault Refusal :=
  live s (fun s =>
    match takeNotice 41 i 6 s with
    | none => s
    | some (p, s1) => trcWrite (ringWrite p.fn p.data) s1)

/-- A trace record is written at WP (R422): in STOP mode the buffer fills once and later records are dropped. -/
def traceWrite (rec_ : List Byte) (s : State) : State :=
  if s.flag F.trcStsFull 0 && s.flag F.trcCtlStop 0 then s.fsat F.trcStsDrops 0 1
  else
    let wp := s.fget F.trcStsWp 0
    let s1 := (stgPut (traceBase + 32 * wp) rec_ s).fset F.trcStsWp 0 (wp + 1)
    when (decide (wp + 1 = 131072) && s1.flag F.trcCtlStop 0) (fun s => s.fset F.trcStsFull 0 1) s1

/-- The class of an event is recorded: anchors and fabric faults always, others while EN and their MASK bit are 1
(R422). -/
def State.traced (s : State) (cls : Nat) : Bool :=
  cls == 0 || cls == 7 || (s.flag F.trcCtlEn 0 && natBit (s.fget F.trcCtlMask 0) cls)

/-- TRC takes a trace event. -/
def traceEvent (rec_ : List Byte) (s : State) : State :=
  when (s.traced (leNat ((rec_.drop 8).take 1))) (trcWrite (traceWrite rec_)) s

/-- TRACE_RECORD (R422). -/
def execTraceRecord (i : Nat) (s : State) : Host.Outcome State Fault Refusal :=
  live s (fun s =>
    match takeNotice 41 i 7 s with
    | none => s
    | some (p, s1) => traceEvent p.data s1)

/-- A mark (R424): the value written, then the function that wrote it. -/
def markWrite (fn : Nat) (value : Word) (s : State) : State :=
  traceEvent (leBytes 8 (s.stampAt 41).bits ++ leBytes 1 6 ++ leBytes 1 1 ++ leBytes 1 41 ++ leBytes 1 0
    ++ leBytes 2 fn ++ leBytes 2 0 ++ leBytes 8 value.toNat ++ leBytes 8 fn) s

/-- TRC_MARK (R424). -/
def execTrcMark (w : Writer) (value : BitVec 64) (s : State) : Host.Outcome State Fault Refusal :=
  live s (guarded w .trcMark 0 value (fun s => markWrite (s.writerFn w) value s))

/-- FULL is cleared: the buffer restarts at record 0 (Table 17-10). -/
def fullClear (s : State) : State :=
  when (s.flag F.trcStsFull 0) (fun s => (s.fset F.trcStsFull 0 0).fset F.trcStsWp 0 0) s

/-- TRC_FULL_CLEAR (R422). -/
def execTrcFullClear (w : Writer) (s : State) : Host.Outcome State Fault Refusal :=
  live s (guarded w .trcSts 0 0x80000000 fullClear)

/-! ## Log readers (R427) -/

/-- A reader's place: FN 0, FN 1024 and the MGC have one each. -/
def readerOf : Writer → Nat
  | .host k => k.val
  | _ => 2

/-- The selected word: the address of a record's word. A word beyond the record, or an index beyond the log, has no
stated value (DESIGN CHOICE, log 22). -/
def logAddr (log word index : Nat) : Option Nat :=
  if log = 0 then (if index < 4096 then some (vlogBase + 64 * index + 8 * word) else none)
  else if 4 ≤ word then none
  else if log = 1 then some (traceBase + 32 * index + 8 * word)
  else if index < 32768 then some (pfrBase (index / 16) + 32 * (index % 16) + 8 * word)
  else none

/-- A read of LOG_DATA returns the word and advances the place. -/
def logRead (k : Nat) (s : State) : Word × State :=
  let log := s.fget F.logSelLog k
  let word := s.fget F.logSelWord k
  let index := s.fget F.logSelIndex k
  let (v, s1) := match logAddr log word index with
    | some a =>
      let s1 := stgCheckRange a 8 s
      (BitVec.ofNat 64 (s1.stgNat a 8), if log = 0 then s1.setUnread index false else s1)
    | none =>
      let (n, s1) := takeFree s
      (Config.freeWord n, s1)
  (v, if (if log = 0 then 7 else 3) ≤ word then (s1.fset F.logSelWord k 0).fset F.logSelIndex k (index + 1)
      else s1.fset F.logSelWord k (word + 1))

/-- A writer that Tables 17-10 and 22-1 let read the control space of PF BAR0. -/
def mayRead : Writer → Bool
  | .host _ | .mgc => true
  | _ => false

/-- LOG_DATA_READ (R427). -/
def execLogDataRead (w : Writer) (s : State) : Host.Outcome State Fault Refusal :=
  live s (fun s =>
    if mayRead w then
      let (v, s1) := logRead (readerOf w) s
      s1.emit (.readValue w v false)
    else s.emit (.readValue w 0 true))

/-! ## Scrubbing (R414, R415) -/

/-- A window whose descriptor copy a scrub has read, or an entry, is resolved at once (R257, R258, R414). -/
def resolveWindow (w : Nat) (s : State) : State :=
  let got := [0, 1, 2].map (fun c => (c, s.descCopy c w))
  match resolveDesc (got.map (·.2)) with
  | none => enqueue (.rewrite false w (s.epochAt w) none []) s
  | some d =>
    let fix := toFix got d
    if fix = [] then s else enqueue (.rewrite false w (s.epochAt w) (some d) fix) s
def resolveEntry (e : Nat) (s : State) : State :=
  let got := [0, 1].map (fun c => (c, s.entCopy c e))
  match resolveEnt (s.entCopy 0 e) (s.entCopy 1 e) with
  | none => enqueue (.rewrite true e (s.epochAt (4096 + e)) none []) s
  | some d =>
    let fix := toFix got d
    if fix = [] then s else enqueue (.rewrite true e (s.epochAt (4096 + e)) (some d) fix) s

/-- The resolutions that the 64 bytes at an address ask for. -/
def resolveLine (a : Nat) (s : State) : State :=
  let s1 := forN 3 (fun c s =>
    let b := s.descBase c
    when (decide (b ≤ a ∧ a < b + 0x40000)) (resolveWindow ((a - b) / 64)) s) s
  forN 2 (fun c s =>
    let b := s.entBase c
    when (decide (b ≤ a ∧ a < b + 0x400000)) (forN 4 (fun i => resolveEntry ((a - b) / 16 + i))) s) s1

/-- One line is read: single-bit errors are corrected, uncorrectable words poisoned, and both counted. -/
def scrubLine (a : Nat) (s : State) : State :=
  let ws := wordsOf a 64
  let corr := (ws.filter (fun w => s.eccAt w % 4 == 1)).length
  let unc := (ws.filter (fun w => decide (2 ≤ s.eccAt w % 4))).length
  resolveLine a ((((stgCheckRange a 64 s).fsat F.scrubStsCorr 0 corr).fsat F.scrubStsUnc 0 unc))

/-- SCRUB_READ (R414, R415): while the group is enabled and GAP µs have passed, the scrubber of a bank asks at its arbiter
as index 46; within its grant it reads the next line. -/
def scrubRead (b : Nat) (s : State) : State :=
  let x := s.arbiter b
  match x.grant with
  | some g =>
    if g.idx = 46 ∧ g.serving = true then
      let line := s.scrubAt b
      let s1 := scrubLine (2 ^ 22 * b + 64 * line) s
      (s1.setScrubAt b ((line + 1) % 65536)).setArbiter b { x with grant := some { g with serving := false } }
    else s
  | none =>
    if natBit (s.fget F.scrubCtlGrpEn 0) (b / 4) && s.domOn (2 + b / 4) && decide (s.now ≥ s.scrubAt (16 + b))
        && (mget none x.slots 46).isNone && !x.waiting.any (fun w => w.1 == 46) then
      request b 46 { src := 46, dst := 18 + b, asp := 3, len := 64, addr := 2 ^ 22 * b + 64 * s.scrubAt b }
        (s.setScrubAt (16 + b) (s.now + 1000 * s.fget F.scrubCtlGap 0))
    else s

/-- SCRUB_READ (R414). -/
def execScrubRead (bank : Fin 16) (s : State) : Host.Outcome State Fault Refusal := live s (scrubRead bank.val)

/-- PS_SCRUB_READ (R414): one word of a program store. -/
def psScrub (c : Nat) (s : State) : State :=
  if natBit (s.fget F.scrubCtlPsEn 0) c && s.domOn (6 + c) && decide (s.now ≥ s.psScrubAt (8 + c)) then
    let w := s.psScrubAt c
    let s1 := if s.psUe c w then psUeRecord c w s
      else when (s.psEccAt (psKey c w) % 4 == 1) (fun s => (psCorrect c w s).fsat F.scrubStsCorr 0 1) s
    (s1.setPsScrubAt c ((w + 1) % 131072)).setPsScrubAt (8 + c) (s.now + 1000 * s.fget F.scrubCtlGap 0)
  else s

/-- PS_SCRUB_READ (R414). -/
def execPsScrubRead (c : Fin 8) (s : State) : Host.Outcome State Fault Refusal := live s (psScrub c.val)

/-! ## Error injection (R425) -/

/-- The value of a GO write. -/
def injWord (kind ni addr : Nat) : Word := BitVec.ofNat 64 (2 ^ 63 + ni * 2 ^ 52 + kind * 2 ^ 48 + addr)

/-- A further bit error in a word: the state of its check (1 single, 2 multiple; 4 added: injected). -/
def addErr (e n : Nat) : Nat := 4 + min 2 (e % 4 + n)

/-- `n` bits of a staging word flip. The data of a word whose error can still be corrected stands for its corrected
value; which bits an uncorrectable error changes is free. -/
def injStaging (w n : Nat) (s : State) : State :=
  let e := addErr (s.eccAt w) n
  let s1 := s.setEccAt w e
  if e % 4 = 2 then
    let (i, s2) := takeFree s1
    let v := s2.stgNat (8 * w) 8 ^^^ (Config.errBits i).toNat
    forN 8 (fun b s => s.setByte (8 * w + b) (BitVec.ofNat 8 (v / 256 ^ b))) s2
  else s1

/-- `n` bits of a program-store word flip. -/
def injStore (k n : Nat) (s : State) : State :=
  let e := addErr (s.psEccAt k) n
  let s1 := s.setPsEccAt k e
  if e % 4 = 2 then
    let (i, s2) := takeFree s1
    s2.setPsWord k (s2.psWord k ^^^ (Config.errBits i).setWidth 32)
  else s1

/-- One injection; a target that does not exist has no effect. -/
def inject (kind ni addr : Nat) (s : State) : State :=
  match kind with
  | 1 | 2 | 3 => if ni < 46 then s.setPktInj ni (some kind) else s
  | 4 => injStaging (addr / 8) 1 s
  | 5 => injStaging (addr / 8) 2 s
  | 6 => if 10 ≤ ni ∧ ni < 18 ∧ addr < 131072 then injStore (psKey (ni - 10) addr) 1 s else s
  | 7 => if 10 ≤ ni ∧ ni < 18 ∧ addr < 131072 then injStore (psKey (ni - 10) addr) 2 s else s
  | 8 => if addr < 352 then linkRepeat addr 1 true s else s
  | 9 => if ni < 2 then s.setHpi ni { s.hpi ni with inj := true } else s
  | _ => s

/-- A write of ERR_INJ: NI, KIND (a reserved KIND keeps its field, R12) and ADDR are held, and GO = 1 injects. -/
def errInjWrite (v : Word) (s : State) : State :=
  let kind := bitsGet v 51 48
  let s1 := (s.fset F.errInjNi 0 (bitsGet v 57 52)).fset F.errInjAddr 0 (bitsGet v 25 0)
  let s2 := if kind ≤ 9 then s1.fset F.errInjKind 0 kind else s1
  if bitsGet v 63 63 = 1 then inject (s2.fget F.errInjKind 0) (s2.fget F.errInjNi 0) (s2.fget F.errInjAddr 0) s2 else s2

/-- A GO write by a writer. -/
def goWrite (w : Writer) (kind ni addr : Nat) (s : State) : State :=
  guarded w .errInj 0 (injWord kind ni addr) (errInjWrite (injWord kind ni addr)) s

/-- ERR_INJ_PAYLOAD_PARITY (R425). -/
def execErrInjPayloadParity (w : Writer) (ni : BitVec 6) (s : State) : Host.Outcome State Fault Refusal :=
  live s (goWrite w 1 ni.toNat 0)
/-- ERR_INJ_HEADER_PARITY (R425). -/
def execErrInjHeaderParity (w : Writer) (ni : BitVec 6) (s : State) : Host.Outcome State Fault Refusal :=
  live s (goWrite w 2 ni.toNat 0)
/-- ERR_INJ_STAMP_PARITY (R425). -/
def execErrInjStampParity (w : Writer) (ni : BitVec 6) (s : State) : Host.Outcome State Fault Refusal :=
  live s (goWrite w 3 ni.toNat 0)
/-- ERR_INJ_STAGING_SINGLE (R425). -/
def execErrInjStagingSingle (w : Writer) (addr : BitVec 26) (s : State) : Host.Outcome State Fault Refusal :=
  live s (goWrite w 4 0 addr.toNat)
/-- ERR_INJ_STAGING_DOUBLE (R425). -/
def execErrInjStagingDouble (w : Writer) (addr : BitVec 26) (s : State) : Host.Outcome State Fault Refusal :=
  live s (goWrite w 5 0 addr.toNat)
/-- ERR_INJ_PS_SINGLE (R425). -/
def execErrInjPsSingle (w : Writer) (ni : BitVec 6) (addr : BitVec 26) (s : State) : Host.Outcome State Fault Refusal :=
  live s (goWrite w 6 ni.toNat addr.toNat)
/-- ERR_INJ_PS_DOUBLE (R425). -/
def execErrInjPsDouble (w : Writer) (ni : BitVec 6) (addr : BitVec 26) (s : State) : Host.Outcome State Fault Refusal :=
  live s (goWrite w 7 ni.toNat addr.toNat)
/-- ERR_INJ_CONTROL_CODE (R425). -/
def execErrInjControlCode (w : Writer) (addr : BitVec 26) (s : State) : Host.Outcome State Fault Refusal :=
  live s (goWrite w 8 0 addr.toNat)
/-- ERR_INJ_ECRC (R425). -/
def execErrInjEcrc (w : Writer) (ni : BitVec 6) (s : State) : Host.Outcome State Fault Refusal :=
  live s (goWrite w 9 ni.toNat 0)

end Sys2Proof.Machine
end

