-- ==== Sys2Proof/Machine/Control.lean ====
section
/-!
DEFINITION. Control-space accesses (R7 to R15, chapter 22): what a write of a register does, field by field under its
access codes and beyond them, what a read returns, and REGISTER_WRITE.
-/
namespace Sys2Proof.Machine

/-! ## Fields under their access codes (R7, R11, R12) -/

/-- The effect of a write of `v` on one field: a reserved encoding leaves it, WO and RO fields hold nothing. -/
def writeField (r : RegId) (i : Nat) (v : Word) (f : Field) (s : State) : State :=
  let x := bitsGet v f.hi f.lo
  let n : Fld := ⟨r, f.hi, f.lo⟩
  match f.acc with
  | .ro | .wo => s
  | .rw | .rwl => if encodingOk r f.lo x then s.fset n i x else s
  | .rwc => when (x != 0) (fun s => s.fset n i 0) s
  | .rws => if encodingOk r f.lo x then s.fsetS n i x else s

/-- The fields of a register written, but for those whose lowest bits are listed. -/
def writeFields (r : RegId) (i : Nat) (v : Word) (skip : List Nat) (s : State) : State :=
  forL (r.fields.filter (fun f => !skip.contains f.lo)) (writeField r i v) s

/-- Every field written. -/
def plain (r : RegId) (i : Nat) (v : Word) (s : State) : State := writeFields r i v [] s

/-- A register with RWL fields (R15): while its block runs, those that would change keep their value, and the write is
reported once. -/
def rwlWrite (busy : Bool) (w : Writer) (p : Packet) (r : RegId) (i : Nat) (v : Word) (s : State) : State :=
  let diff := r.fields.filter (fun f => f.acc == .rwl && bitsGet v f.hi f.lo != s.fget ⟨r, f.hi, f.lo⟩ i)
  if busy && !diff.isEmpty then busyWrite w p (writeFields r i v (diff.map (·.lo)) s) else plain r i v s

/-! ## Registers whose writes do more than hold a value -/

/-- LNK_CTL (R333): the fields beside a refused WIDTH or MAX_RATE take effect. The LPIs of a group that do not lead it
take no writes. -/
def lnkCtlWrite (w : Writer) (x : Packet) (p : Nat) (v : Word) (s : State) : State :=
  if !s.leads p then s
  else
    let wd := bitsGet v 9 8
    let rt := bitsGet v 11 10
    let wRef := s.widthBusy p wd
    let rRef := rt != s.fget F.lnkCtlMaxRate p && (s.lpi p).st != 0
    let s1 := s.fset F.lnkCtlFarLoopOk p (bitsGet v 3 3)
    let s2 := when (!wRef) (widthWrite p wd) s1
    let s3 := when (!rRef && rt != 0) (fun s => s.fset F.lnkCtlMaxRate p rt) s2
    let s4 := when (wRef || rRef) (busyWrite w x) s3
    let s5 := when (bitsGet v 2 2 != s.fget F.lnkCtlMode p) (linkMode p (bitsGet v 2 2 == 1)) s4
    let s6 := if bitsGet v 0 0 = 1 then linkEnable p s5 else linkDisable p s5
    when (bitsGet v 1 1 == 1 && (s6.lpi p).st == 5) (startRetrain p) s6

/-- PWR_DOM_d (R455, Table 19-6): a write that lets the idle timer run starts it. -/
def pwrDomWrite (w : Writer) (d : Nat) (v : Word) (s : State) : State :=
  if d < 2 then s
  else
    let ran := s.fget F.pwrDomIdleT d != 0 && !s.flag F.pwrDomForceOn d
    let s1 := when (decide (6 ≤ d)) (fun s => s.fset F.pwrDomOffOk d (bitsGet v 26 26)) s
    let t := bitsGet v 19 0
    let s2 := when (encodingOk .pwrDom 0 t) (fun s => s.fset F.pwrDomIdleT d t) s1
    let s3 := when (bitsGet v 27 27 == 1) (retryWrite d) s2
    let s4 := if bitsGet v 25 25 = 1 then forceOn (writerNi w) d s3 else s3.fset F.pwrDomForceOn d 0
    when (!ran) (touch d) s4

/-- PWC_CLK: a PLL that does not run has no lock. -/
def pwcClkWrite (v : Word) (s : State) : State :=
  let s1 := s.fset F.pwcClkMgcPllEn 0 (bitsGet v 0 0)
  let s2 := when (bitsGet v 0 0 == 0) (fun s =>
    { s with tb := { s.tb with mgcLockSince := none } }.fset F.pwcClkMgcPllLock 0 0) s1
  mgcSrc (bitsGet v 1 1 == 1) s2

/-- TB_CTL (Table 3-5): PLL_EN stays while SRC is 1, and a PLL that does not run has no lock. -/
def tbCtlWrite (v : Word) (s : State) : State :=
  let s1 := srcWrite (bitsGet v 1 1 == 1) (when (bitsGet v 2 2 == 1) (fun s => s.fset F.tbCtlLockLost 0 0) s)
  if bitsGet v 0 0 = 1 then s1.fset F.tbCtlPllEn 0 1
  else when (!s1.flag F.tbCtlSrc 0) (fun s =>
    ({ s with tb := { s.tb with lockSince := none } }.fset F.tbCtlPllLock 0 0).fset F.tbCtlPllEn 0 0) s1

/-- Q_CTL (Table 10-7). -/
def qCtlWrite (q : Nat) (v : Word) (s : State) : State :=
  let s1 := if bitsGet v 0 0 = 1 then queueEnable q s else queueDisable q s
  when (bitsGet v 1 1 == 1) (queueSkip q) s1

/-- IRT_MOD of the entry that IRT_SEL names. -/
def irtModWrite (v : Word) (s : State) : State :=
  let e := s.fget F.irtSelEntry 0
  s.setVec e { s.vec e with modCnt := bitsGet v 15 8, modInt := bitsGet v 7 0 }

/-- TE_CMD (R265); OP 0 does nothing and 3 is reserved. -/
def teCmdWrite (w : Writer) (op : Nat) (s : State) : State :=
  if op = 1 then teCmd w teWrite s else if op = 2 then teCmd w teRead s else s

/-- A doorbell store leaves its port as TYPE 0x13 (R233). -/
def doorbellWrite (w : Writer) (kind q : Nat) (v : Word) (s : State) : State :=
  offer (s.doorbellPkt (writerNi w) (q / 4) kind q (bitsGet v 15 0)) s

/-- What a write of `v` that arrives as packet `p` does to a register that takes it. -/
def regWrite (w : Writer) (p : Packet) (r : RegId) (i : Nat) (v : Word) (s : State) : State :=
  match r with
  | .arbCtl => when (bitsGet v 31 31 == 1) (arbCommit i) (plain r i v s)
  | .arbMap =>
    writeFields r i v (((List.range 8).filter (fun n => !arbHasIndex (i / 6) (8 * (i % 6) + n))).map (4 * ·)) s
  | .bootCmd => bootCmd (bitsGet v 2 0) s
  | .c52PrioLo => c52Write i false v s
  | .c52PrioHi => c52Write i true v s
  | .coreVmonSts => when (bitsGet v 2 2 == 1) (fun s => s.fset F.coreVmonStsVmin 0 0xFF) (plain r i v s)
  | .sqTailDb => doorbellWrite w 0 i v s
  | .cqHeadDb => doorbellWrite w 1 i v s
  | .errInj => errInjWrite v s
  | .fSvc => fSvcWrite i v s
  | .fVec => fVecWrite w p i v s
  | .fWin => fWinWrite i v s
  | .fabCtl => when (bitsGet v 0 0 == 1) fabCommit (plain r i v s)
  | .gateAllow => when (s.feeds (i % 46) (i / 46)) (plain r i v) s
  | .gateCtl => when (bitsGet v 0 0 == 1) (gateCommit i) (plain r i v s)
  | .gateLag => when (bitsGet v 31 31 == 1) (fun s => s.fset F.gateLagMaxAdded i 0) s
  | .irtMod => irtModWrite v s
  | .laneInj =>
    let s1 := plain r i v s
    when (bitsGet v 31 31 == 1) (laneGo (i / 4) (i % 4) (s1.fget F.laneInjKind i)) s1
  | .laneTst =>
    let s1 := writeFields r i v [9] s
    if bitsGet v 9 9 = 1 then checkerEnable i s1 else s1.fset F.laneTstChkEn i 0
  | .linkSts => forceOut p (bitsGet v 30 30 == 1) s
  | .lnkCtl => lnkCtlWrite w p i v s
  | .pclCtl => if bitsGet v 0 0 = 1 then runStart i s else s.fset F.pclCtlRun i 0
  | .pclEng => when (bitsGet v 29 29 == 1) (restart i) (when (bitsGet v 28 28 == 1) (setEvt i 4) s)
  | .pclLimits => when (bitsGet v 31 31 == 1) (commitRws .pclLimits i 1) (plain r i v s)
  | .pclPsAddr => rwlWrite (!s.stopped i) w p r i v s
  | .pclPsData => psWrite p i (v.setWidth 32) s
  | .pwcClk => pwcClkWrite v s
  | .pwrDom => pwrDomWrite w i v s
  | .qCfg | .qCqbase | .qParam | .qSqbase | .qmQbind => rwlWrite (s.qBusy i) w p r i v s
  | .qCtl => qCtlWrite i v s
  | .qmQerr => errWrite i (bitsGet v 7 0) p s
  | .qmQhead => headWrite i (bitsGet v 15 0) p s
  | .rtData => rtWrite v.toNat s
  | .semCmd => semCmd w (bitsGet v 31 30) (bitsGet v 10 0) s
  | .slotCtl => when (bitsGet v 31 31 == 1) (slotCommit i) s
  | .stepMonCtl => stepMonWrite v s
  | .svcCtl => when (bitsGet v 31 31 == 1) (commitRws .svcLv 0 1) (plain r i v s)
  | .tbCtl => tbCtlWrite v s
  | .tbStep => when (v.toNat % 2 ^ 32 != 0) (fun s => { s with tb := { s.tb with step := v.toNat % 2 ^ 32 } }) s
  | .teCmd => teCmdWrite w (bitsGet v 1 0) s
  | .teSel => rwlWrite (s.teBusy i) w p r i v s
  | .trcCtl => plain r i (v ||| 0x81) s
  | .trcMark => markWrite p.fn v s
  | .trcSts => when (bitsGet v 31 31 == 1) fullClear s
  | .winCmd => winCmd w (bitsGet v 1 0) s
  | .winSel => winSelWrite w p v s
  | _ => plain r i v s

/-! ## Which instance (R262, R492, R494) -/

/-- The instance of a register: of the function whose area is accessed, of the source where a register exists once per
source. -/
def instOf (w : Writer) (fa : Bool) (fn : Nat) (r : RegId) (i : Nat) : Nat :=
  if fa then (if r = .pfrCtl ∨ r = .pfrSts then fn else 4 * fn + i)
  else
    match r with
    | .winSel | .winCw | .winAcc | .winTag | .winCmd | .winSts | .teSel | .teData | .teCmd | .teSts | .teWver => setOf w
    | .semResult | .logSel | .logData => readerOf w
    | _ => i

/-- A link-layer or bridge register of an LPI that does not lead its group (R494). -/
def State.deadReg (s : State) (r : RegId) (i : Nat) : Bool :=
  match r with
  | .llCnt | .llCred | .llCtl | .llDr | .llLeak | .llSeq | .llSts | .llTmr | .lbFn | .lbPf | .lbPfcnt | .lbStg | .lbSts =>
    !s.leads i
  | .lbTun => !s.leads (i / 64)
  | _ => false

/-! ## Writes (R8, R13, R493, R496) -/

/-- A write of the wrong width or alignment is discarded and recorded. -/
def badWidth (p : Packet) (s : State) : State := violPkt p.src 0x0201 p p.addr p.len s

/-- A write of a register: QM itself judges who stores to QM_QHEAD and QM_QERR (R238). -/
def regAccept (w : Writer) (p : Packet) (r : RegId) (i : Nat) (v : Word) (s : State) : State :=
  if s.deadReg r i then s
  else if r = .qmQhead ∨ r = .qmQerr then regWrite w p r i v s
  else if writerOk w r i then regWrite w p r i v s
  else violSource p s

/-- A control-space write of `width` bytes at `off`, which counts from PF BAR0, or with `fa` from the function area of
FN `fn`. The MGC reaches no function area. -/
def ctlWrite (w : Writer) (p : Packet) (fa : Bool) (fn off width : Nat) (v : Word) (s : State) : State :=
  if fa && areaMem off then
    if (width = 4 ∨ width = 8) ∧ off % width = 0 then
      when (decide (0x8000 ≤ off)) (tableWrite fn off width v.toNat) s
    else badWidth p s
  else if !fa && decide (0x1FF0000 ≤ off) then violSource p s
  else
    match regAt regRows fa off width with
    | .reg r i _ => regAccept w p r (instOf w fa fn r i) v s
    | .misaligned => badWidth p s
    | .none => if (width = 4 ∨ width = 8) ∧ off % width = 0 then s else badWidth p s

/-! ## Reads -/

/-- The fields of a register as Table 0-4 has them read. -/
def State.rawView (s : State) (r : RegId) (i : Nat) : Word :=
  BitVec.ofNat 64 ((r.fields.map (fun f =>
    let n : Fld := ⟨r, f.hi, f.lo⟩
    2 ^ f.lo * (match f.acc with
      | .wo => 0
      | .rws => s.fgetS n i
      | _ => s.fget n i))).sum)

/-- Bits [hi:lo] of a view replaced. -/
def putFld (f : Fld) (x : Nat) (v : Word) : Word := bitsPut v f.hi f.lo x

/-- A mask of the engines of cluster c in a state. -/
def State.engMask (s : State) (c : Nat) (st : EngSt) : Nat :=
  ((List.range 8).map (fun k => 2 ^ k * b2n ((s.eng (8 * c + k)).st == st))).sum

/-- Credits available as LL_CRED shows them: infinite is all ones (R346). -/
def Credits.shown (c : Credits) (top : Nat) (init avail : Nat) : Nat :=
  if !c.init then 0 else if init = 0 then top else avail

/-- Prefetched blocks held by a port (Table 15-8), in units of two. -/
def Lpi.pairsHeld (l : Lpi) : Nat := (l.pf.length + 1) / 2

/-- What the registers that show other state read as. -/
def State.regView (s : State) (r : RegId) (i : Nat) : Word :=
  let v := s.rawView r i
  match r with
  | .arbAct => s.rget .arbMap i
  | .arbSts =>
    let a := s.arbiter i
    let holder := match a.belay, a.grant with
      | some g, _ => g.idx
      | none, some g => g.idx
      | none, none => 0x3F
    putFld F.arbStsLastWin a.lastWin (putFld F.arbStsHolder holder (putFld F.arbStsBelay (b2n a.belay.isSome)
      (putFld F.arbStsCapped (s.capped i) v)))
  | .calEff => s.calView
  | .fabSts => putFld F.fabStsLinksOut s.linksOut v
  | .fnrSts => putFld F.fnrStsInReset ((List.range 2048).filter s.inReset).length v
  | .gateLag => putFld F.gateLagLagNi (s.lagNi i) v
  | .gateSts => BitVec.ofNat 64 ((s.gate i).held.length * 2 ^ 16 + (64 * s.gateHeldUnits i + 1023) / 1024)
  | .hpiLinkSts => putFld F.hpiLinkStsState (linkCode (s.hpi i).link) (putFld F.hpiLinkStsPerst (b2n (s.hpi i).perst) v)
  | .hpiTags => BitVec.ofNat 64 (s.tagsCooled i * 2 ^ 16 + s.tagsInUse i)
  | .irtMod =>
    let x := s.vec (s.fget F.irtSelEntry 0)
    BitVec.ofNat 64 (x.modCnt * 256 + x.modInt)
  | .lbSts =>
    let l := s.lpi i
    putFld F.lbStsLocks l.far.length (putFld F.lbStsBlocksPf l.pairsHeld v)
  | .linkSts =>
    let l := s.fget F.linkSelLink 0
    let k := s.link l
    BitVec.ofNat 64 (b2n (s.inService l) * 2 ^ 31 + b2n k.forced * 2 ^ 30 + b2n k.failed * 2 ^ 29
      + min k.repeats 255 * 256 + min k.corrections 255)
  | .llCred =>
    let l := s.lpi i
    BitVec.ofNat 64 (l.np.shown 0xFFFF l.np.hInit l.np.hAvail * 2 ^ 48 + l.po.shown 0xFFFF l.po.hInit l.po.hAvail * 2 ^ 32
      + l.po.shown 0xFFFFFF l.po.dInit l.po.dAvail)
  | .llSeq => BitVec.ofNat 64 ((s.lpi i).txNext * 2 ^ 16 + (s.lpi i).rxAck)
  | .llSts => putFld F.llStsLstate (s.lpi i).lst (putFld F.llStsReplayFr (s.lpi i).replay.length v)
  | .lnkSts => putFld F.lnkStsState (s.lpi i).st v
  | .mvDrop => putFld F.mvDropHeld (s.clu i).hold.length v
  | .mvSts => BitVec.ofNat 64 (s.blocksIn i * 2 ^ 16 + ((s.ctxsOf i).filter (fun x => x.2.used)).length)
  | .pclEng => BitVec.ofNat 64 ((s.eng i).st.ctorIdx * 2 ^ 30 + (s.eng i).lastFault * 2 ^ 16 + (s.eng i).qid)
  | .pclPsData => (s.psWord (psKey i (s.fget F.pclPsAddrWord i))).setWidth 64
  | .pclSts =>
    putFld F.pclStsIdle (s.engMask i .idle) (putFld F.pclStsHalt (s.engMask i .halted)
      (putFld F.pclStsWaiting (s.engMask i .wait) (putFld F.pclStsStopped (b2n (s.stopped i)) v)))
  | .pwrDom =>
    let d := s.dom i
    if i < 2 then 0
    else putFld F.pwrDomState d.st (putFld F.pwrDomTrans d.trans (putFld F.pwrDomAttempts d.attempts v))
  | .qSts | .qSqPtr | .qCqPtr | .qCtl => s.queueView r i
  | .rtData =>
    let u := s.fget F.rtSelUnit 0
    let d := s.fget F.rtSelDest 0
    BitVec.ofNat 64 (vote3 (s.routeOf u d 0) (s.routeOf u d 1) (s.routeOf u d 2))
  | .semSts => BitVec.ofNat 64 (s.sem i).bits
  | .slotSts => BitVec.ofNat 64 (b2n (s.hpi i).pendTable * 2 ^ 31 + (s.hpi i).slot)
  | .tbNow => BitVec.ofNat 64 s.tb.count
  | .winCw | .winSts | .teSts => s.xltView r i
  | .wsCtl => putFld F.wsCtlLevel (b2n s.pwr.wsLevel) v
  | _ => v

/-- A read of a register: none completes with UR. A read of LOG_DATA moves the reader's place, and one of PCL_PS_DATA
corrects or records the word (R158, R427). -/
def regRead (w : Writer) (r : RegId) (i : Nat) (s : State) : Option Word × State :=
  if s.deadReg r i then (some 0, s)
  else
    match r with
    | .logData =>
      let (v, s1) := logRead i s
      (some v, s1)
    | .pclPsAddr => (if w = .mgc then some (s.regView r i) else none, s)
    | .pclPsData =>
      if w = .mgc then
        let a := s.fget F.pclPsAddrWord i
        let s1 := if s.psUe i a then psUeRecord i a s else psCorrect i a s
        (some (s1.regView r i), s1)
      else (none, s)
    | _ => (some (s.regView r i), s)

/-- A control-space read of `width` bytes. The MGC's reads of the function area of PF BAR0 return zero (R496). -/
def ctlRead (w : Writer) (fa : Bool) (fn off width : Nat) (s : State) : Option Word × State :=
  if fa && areaMem off then
    if ¬((width = 4 ∨ width = 8) ∧ off % width = 0) then (none, s)
    else if 0x8000 ≤ off then (some (BitVec.ofNat 64 (s.tableRead fn off width)), s)
    else
      let a := pfrBase fn + (off - 0x4000)
      let s1 := stgCheckRange a width s
      (some (BitVec.ofNat 64 (s1.stgNat a width)), s1)
  else if !fa && decide (0x1FF0000 ≤ off) then (some 0, s)
  else
    match regAt regRows fa off width with
    | .reg r i _ => regRead w r (instOf w fa fn r i) s
    | .misaligned => (none, s)
    | .none => (if (width = 4 ∨ width = 8) ∧ off % width = 0 then some 0 else none, s)

/-! ## REGISTER_WRITE -/

/-- The packet of a write in a function area. -/
def State.areaPkt (s : State) (w : Writer) (fn off width : Nat) (v : Word) : Packet :=
  { s.regPkt w off width v with addr := fn * 2 ^ 32 + 0x1FF0000 + off, dst := areaNi off, fn := fn }

/-- A write of `width` bytes at an offset of PF BAR0, or for a driver of its function area. A host's offsets from
0x1FF_0000 on are the function area of its physical function (R492); what a program cannot reach its engine refuses
(R126). -/
def registerWrite (w : Writer) (off width : Nat) (v : Word) (s : State) : State :=
  match w with
  | .drv fn => ctlWrite w (s.areaPkt w fn.val off width v) true fn.val off width v s
  | .host k =>
    if 0x2000000 ≤ off then s
    else if 0x1FF0000 ≤ off then
      let fn : Fin 2048 := Fin.ofNat 2048 (1024 * k.val)
      ctlWrite (.drv fn) (s.areaPkt w fn.val (off - 0x1FF0000) width v) true fn.val (off - 0x1FF0000) width v s
    else ctlWrite w (s.regPkt w off width v) false 0 off width v s
  | .prog _ => if progReach true off then ctlWrite w (s.regPkt w off width v) false 0 off width v s else s
  | .mgc => if 0x2000000 ≤ off then s else ctlWrite w (s.regPkt w off width v) false 0 off width v s

/-- REGISTER_WRITE (R14). -/
def execRegisterWrite (w : Writer) (off width : Nat) (value : BitVec 64) (s : State) : Host.Outcome State Fault Refusal :=
  live s (registerWrite w off width value)

end Sys2Proof.Machine
end

