-- ==== Sys2Proof/Machine/Arrive.lean ====
section
/-!
DEFINITION. Packets that have reached their NI: the gates (R56, R61 to R65), allowance returns (R52), and everything
that an NI outside a gate does with a packet (R51, R193, R406, R407, R409 to R413). A packet that another row executes
at its block, a doorbell or a wake for instance, is left to that row.
-/
namespace Sys2Proof.Machine

/-! ## Malformed packets (R78, R413) -/

/-- TYPE belongs to CLASS (Table 4-5). -/
def typeOk (p : Packet) : Bool :=
  match p.cls with
  | 0 => decide (p.ty ≤ 6)
  | 1 => decide (0x10 ≤ p.ty) && decide (p.ty ≤ 0x15)
  | 2 => decide (0x20 ≤ p.ty) && decide (p.ty ≤ 0x23)
  | _ => decide (0x30 ≤ p.ty) && decide (p.ty ≤ 0x33)

/-- The rules of R413 that do not depend on the destination. -/
def formOk (p : Packet) : Bool := typeOk p && p.asp != 7 && decide (p.len ≤ 4096) && (p.cls != 2 || decide (p.csts ≤ 4))

/-- A read of LEN 0, which every destination serves (R217). -/
def zeroRead (p : Packet) : Bool := p.cls == 0 && p.ty == 0 && p.len == 0

/-- What the block behind gate `g` serves: reads and writes toward the host, MSI-X writes and tunnelled messages; reads,
atomics, locked reads and writes toward a partner, unit messages and tunnelled messages. -/
def gateServes (g : Nat) (p : Packet) : Bool :=
  match p.cls with
  | 0 => zeroRead p || (if g < 2 then p.ty == 0 && p.asp == g else decide (p.ty ≤ 4) && p.asp == 2)
  | 1 =>
    if g < 2 then ((p.ty == 0x10 || p.ty == 0x12) && p.asp == g) || (p.ty == 0x15 && p.asp == 6)
    else ((p.ty == 0x10 || p.ty == 0x11) && p.asp == 2) || ((p.ty == 0x14 || p.ty == 0x15) && p.asp == 6)
  | _ => p.ty == 0x20 || p.ty == 0x21

/-- A KIND of fault notice that an NI serves (Table 17-4). -/
def kindOk (ni kind : Nat) : Bool := decide (kind ≤ 4) || (ni == 41 && decide (kind ≤ 7))

/-- The NI of a block that has control registers (Tables 4-1 and 22-1). -/
def hasRegs (ni : Nat) : Bool := decide (ni < 18) || ni == 34 || decide (38 ≤ ni ∧ ni < 46)

/-- What an NI outside a gate serves (R413). -/
def blockServes (ni : Nat) (p : Packet) : Bool :=
  match p.cls with
  | 0 =>
    zeroRead p || (p.ty == 0 && p.asp == 4 && hasRegs ni) || (18 ≤ ni && ni < 34 && decide (p.ty ≤ 4) && p.asp == 3)
      || (34 ≤ ni && ni < 38 && p.ty == 6) || (ni == 40 && p.ty == 5)
  | 1 =>
    (p.ty == 0x10 && p.asp == 4 && hasRegs ni) || (18 ≤ ni && ni < 34 && (p.ty == 0x10 || p.ty == 0x11) && p.asp == 3)
      || (ni == 39 && p.ty == 0x12) || (ni == 38 && p.ty == 0x13)
      || (((10 ≤ ni && ni < 18) || ni == 42) && p.ty == 0x14) || (ni == 42 && p.ty == 0x15)
  | 2 => decide (ni < 18) || (34 ≤ ni && ni < 38)
  | _ => p.ty == 0x31 || (p.ty == 0x33 && kindOk ni (p.addr % 16)) || (10 ≤ ni && ni < 18 && p.ty == 0x30)
      || (ni == 38 && p.ty == 0x32)

/-- A locked read at an NI that is not a staging bank (R106): CA, violation 0x0302, and LOCK_REF where the NI has an
arbiter. -/
def lockRefuse (ni : Nat) (p : Packet) (s : State) : State :=
  let a := if 34 ≤ ni ∧ ni < 38 then 16 + (ni - 34) else 28
  let s1 := if (34 ≤ ni ∧ ni < 38) ∨ ni = 40 then violPkt ni 0x0302 p a p.src (s.fset F.arbStsLockRef a 1)
    else violPkt ni 0x0302 p (64 + ni) p.src s
  offer { p.reply 0x21 2 [] with src := ni } s1

/-! ## Requests that an NI has outstanding (R411, R413) -/

/-- The tags of the requests of NI `ni` that the block behind `src` has still to answer. -/
def State.openToward (s : State) (ni src : Nat) : List Nat :=
  if ni < 2 then
    (((s.hpi ni).opens.filter (fun o => o.dst == src)).map (·.tag))
      ++ ((s.hpi ni).reqs.filter (fun r => r.xltTag != 0x3FFF && 34 + 2 * ni + r.win % 2 == src)).map (·.xltTag)
  else if ni < 10 then ((s.lpi (ni - 2)).parts.filter (fun r => r.dst == src)).map (·.tag)
  else if ni < 18 then
    ((List.range 8).map (8 * (ni - 10) + ·)).flatMap (fun e =>
      let x := s.eng e
      match x.stall with
      | .none | .egress => []
      | .fence _ dests _ _ => if dests.contains src then [2048 + 64 * (e % 8) + src] else []
      | _ => if x.stallDst = src then [x.stallTag] else [])
    ++ (s.ctxsOf (ni - 10)).flatMap (fun y =>
      ((y.2.reads.filter (fun r => s.sideNi y.2.sasp (y.2.srcAt r.off) y.2.sxlt == src)).map (·.tag))
        ++ (if y.2.bankAcks.contains src then [0x3000 + y.1 % 512] else []))
  else if 34 ≤ ni ∧ ni < 38 then
    ((s.xlt.drains.filter (fun d => d.x == ni - 34 && d.started)).map (·.tag)).filter
      (fun t => !(s.arrived ni).any (fun p => p.cls == 2 && p.src == src && p.tag == t && !p.hdrBad))
  else []

/-- The request with a TAG is completed with CA at its own NI, which XV = 7 marks. -/
def completeCa (ni : Nat) (p : Packet) (s : State) : State :=
  s.setArrived ni (s.arrived ni ++ [{ p with
    ty := 0x21, csts := 2, xv := 7, data := [], len := 0, bad := [], ep := false, hdrBad := false }])

/-- Completed with CA if it is outstanding. -/
def completeOpen (ni : Nat) (p : Packet) (s : State) : State :=
  when ((s.openToward ni p.src).contains p.tag) (completeCa ni p) s

/-- A malformed packet (R413). At a gate the caller has counted it and returns its allowance. -/
def malformed (ni : Nat) (p : Packet) (s : State) : State :=
  let s1 := violPkt ni 0x0509 p p.ty p.cls s
  match p.cls with
  | 0 => offer { p.reply 0x21 1 [] with src := ni } s1
  | 1 => pfr ni p 0x0B 0 s1
  | 2 => completeOpen ni p s1
  | _ => s1

/-! ## Gates (R56, R61, R64, R65) -/

/-- A packet joins the held packets of gate `g`. -/
def hold (g : Nat) (p : Packet) (s : State) : State :=
  s.setGate g { s.gate g with held := (s.gate g).held ++ [{ pkt := p, at_ := s.now }] }

/-- The port behind gate `g` takes packets: its link is up, or a hold keeps what has arrived (R303, R353, R354). -/
def State.gateOpen (s : State) (g : Nat) : Bool := if g < 2 then s.hostUp g else (s.lpi (g - 2)).lst != 0

/-- A packet that arrives at the gate of a flushed port is discarded (R65, R303, R354, R498). -/
def discard (g : Nat) (p : Packet) (s : State) : State :=
  let s1 := offer (allowanceReturn g p true) s
  if g < 2 then hostFlushOne g p s1 else flushOne (g - 2) p s1

/-- What the gate does with a whole packet once it has counted it. -/
def gateTake (g : Nat) (p : Packet) (s : State) : State :=
  if !s.gateOpen g then discard g p s
  else if p.cls = 0 ∧ p.ty = 4 ∧ g < 2 then offer (allowanceReturn g p false) (lockRefuse g p s)
  else if !formOk p || !gateServes g p then offer (allowanceReturn g p false) (malformed g p s)
  else hold g p s

/-- GATE_PACKET_ARRIVE (R56, R410): the keeper counts the packet, a pending milestone may take effect, and counts that
this confirms are settled. -/
def gateArrive (g i : Nat) (s : State) : State :=
  match takeArrived g i s with
  | none => s
  | some (p0, s0) =>
    if !passesGate g p0 ∨ p0.icnt = 4096 then s
    else
      let (p, s1) := if p0.hdrBad then (p0, s0) else checkParity g p0 s0
      let k := ckey g p.src
      let f0 := s1.feeder k
      let f := keepPkt (s1.niTime g) p f0
      let s2 := s1.setFeeder k f
      let s3 := if p.hdrBad then noteDamaged g true p s2 else gateTake g p (s2.setSeenCnt k (s2.seenCnt k ++ [p.icnt]))
      resolveCounts g p.src f.recv (f0.pend.toList.map (·.count)) s3

/-- GATE_PACKET_ARRIVE (R56). -/
def execGatePacketArrive (g : Fin 10) (i : Nat) (s : State) : Host.Outcome State Fault Refusal :=
  live s (gateArrive g.val i)

/-- The block behind the gate takes releases: its domain is ON, and its link carries TLPs or frames; during a hold the
gate keeps its packets (R353). -/
def State.takesReleases (s : State) (g : Nat) : Bool := if g < 2 then s.hostLive g else s.domOn (14 + g) && s.portUp (g - 2)

/-- GATE_RELEASE (R61): one packet, in the order of the rule, passes to the port's egress. -/
def gateRelease (g : Nat) (s : State) : State :=
  if !s.takesReleases g then s
  else
    match s.pickRelease g with
    | none => s
    | some (i, h) =>
      let s1 := leaveGate g i h s
      if g < 2 then egressPush g h.pkt s1 else lpiRelease (g - 2) h.pkt s1

/-- GATE_RELEASE (R61). -/
def execGateRelease (g : Fin 10) (s : State) : Host.Outcome State Fault Refusal := live s (gateRelease g.val)

/-! ## Allowance returns (R52, R210, R211) -/

/-- ALLOWANCE_RETURN: the feeder's allowance is free again, and a mover learns that a context's write packet has been
released or discarded. -/
def allowanceArrive (ni i : Nat) (s : State) : State :=
  match takeArrived ni i s with
  | none => s
  | some (p, s1) =>
    if p.cls = 3 ∧ p.ty = 0x31 ∧ p.hdrBad = false ∧ p.src < 10 then
      let k := 10 * ni + p.src
      let s2 := s1.setUsedUnits k (s1.usedUnits k - p.addr % 2 ^ 16)
      when (decide (10 ≤ ni) && decide (ni < 18) && decide (0x2000 ≤ p.tag) && decide (p.tag < 0x2200))
        (ctxReleased (512 * (ni - 10) + (p.tag - 0x2000)) p.ep (natBit p.addr 16)) s2
    else s

/-- ALLOWANCE_RETURN (R52). -/
def execAllowanceReturn (ni : Fin 46) (i : Nat) (s : State) : Host.Outcome State Fault Refusal :=
  live s (allowanceArrive ni.val i)

/-! ## Control accesses (R7 to R15, R493) -/

/-- Who sends a control access: a host port, a driver through its function area, a program, the MGC. -/
def accessWriter (p : Packet) : Option Writer :=
  if p.src < 2 then
    some (if p.addr % 2 ^ 25 < 0x1FF0000 then .host (Fin.ofNat 2 p.src) else .drv (Fin.ofNat 2048 (faFn p.addr)))
  else if 10 ≤ p.src ∧ p.src < 18 then some (.prog (Fin.ofNat 64 (8 * (p.src - 10) + p.tag / 16 % 8)))
  else if p.src = 42 then some .mgc
  else none

/-- A control access executes: no other source may access a register. -/
def controlAccess (ni : Nat) (p : Packet) (s : State) : State :=
  let off := p.addr % 2 ^ 25
  let fa := decide (p.src < 2) && decide (0x1FF0000 ≤ off)
  let o := if fa then off - 0x1FF0000 else off
  let fn := faFn p.addr
  match accessWriter p with
  | none => if p.cls = 0 then offer { p.reply 0x21 1 [] with src := ni } s else violSource p s
  | some w =>
    if p.cls = 1 then ctlWrite w p fa fn o p.len (BitVec.ofNat 64 (leNat p.data)) s
    else
      match ctlRead w fa fn o p.len s with
      | (some v, s1) => offer { p.reply 0x20 0 (leBytes p.len v.toNat) with src := ni } s1
      | (none, s1) => offer { p.reply 0x21 1 [] with src := ni } s1

/-- A host port passes an access to SEM only after SEM has executed its previous one (R113). -/
def State.semAhead (s : State) (ni : Nat) (p : Packet) : Bool :=
  let b := s.arbiter 28
  ni == 40 && decide (p.src < 2) && (b.waiting.any (fun x => x.2.src == p.src)
    || b.slots.any (fun x => match x.2 with | none => false | some r => r.pkt.src == p.src)
    || (match b.grant with | none => false | some g => g.serving && g.pkt.src == p.src))

/-! ## Arrival outside a gate (R406, R407, R409 to R413) -/

/-- A register that Q_POINTER_READ answers. -/
def pointerReg (p : Packet) : Bool :=
  let off := p.addr % 2 ^ 25
  p.cls == 0 && p.ty == 0 && p.asp == 4 && decide (0x1FF0000 ≤ off) &&
    (match regAt regRows true (off - 0x1FF0000) p.len with
     | .reg .qSts _ _ | .reg .qSqPtr _ _ | .reg .qCqPtr _ _ => true
     | _ => false)

/-- A store that QM_QHEAD_WRITE or QM_QERR_WRITE executes. -/
def qmStorePkt (p : Packet) : Bool :=
  let off := p.addr % 2 ^ 25
  p.cls == 1 && p.ty == 0x10 && p.asp == 4 && p.len == 4 && decide (0x300000 ≤ off) && decide (off < 0x310000) && off % 4 == 0

/-- A request or posted packet that a row of its own executes when it is whole and unpoisoned: INTERRUPT_REQUEST, the
doorbells, QM's stores and pointer reads. -/
def soundRow (ni : Nat) (p : Packet) : Bool :=
  (ni == 39 && p.cls == 1 && p.ty == 0x12)
    || (ni == 38 && ((p.cls == 1 && p.ty == 0x13 && p.len == 0) || qmStorePkt p || pointerReg p))

/-- A packet that a row of its own executes whether poisoned or not: probes, unit messages, control packets and the
answers that a cluster, a Drevlink port, a translating host port or an XU awaits. -/
def State.ownRow (s : State) (ni : Nat) (p : Packet) : Bool :=
  match p.cls with
  | 0 => zeroRead p && p.asp == 6 && decide (34 ≤ p.src) && decide (p.src < 38)
  | 1 => p.ty == 0x14 && ((10 ≤ ni && ni < 18) || ni == 42)
  | 2 =>
    if ni < 2 then decide (8192 ≤ p.tag) && (s.hpi ni).reqs.any (fun r => r.xltTag == p.tag)
    else if ni < 10 then s.leads (ni - 2)
    else (s.openToward ni p.src).contains p.tag || (34 ≤ ni && ni < 38 && s.xlt.drains.any (fun d => d.tag == p.tag))
  | _ => p.ty != 0x33 || p.addr % 16 != 0 || (10 ≤ ni && ni < 18)

/-- A packet with EP = 1 at a block that does not accept poison (R407). -/
def poisonRefuse (ni : Nat) (p : Packet) (s : State) : State :=
  if p.cls = 0 then offer { p.reply 0x21 2 [] with src := ni } s else pfr ni p 0x0A 0 s

/-- A whole, well-formed request or posted packet executes at its block. -/
def blockTake (ni : Nat) (p : Packet) (s : State) : State :=
  if 18 ≤ ni ∧ ni < 34 then request (ni - 18) p.src p s
  else if zeroRead p then zeroAnswer ni p s
  else if p.ty = 0x15 then s.emit (.toMgc p)
  else if p.ep then poisonRefuse ni p s
  else if p.ty = 6 then request (16 + (ni - 34)) p.src p s
  else if p.ty = 5 then request 28 p.src p s
  else if p.asp = 4 then controlAccess ni p s
  else s

/-- A damaged response that has been recorded (R411): the request is completed with CA once every other request toward
its source has been answered, but for those whose answers are damaged too. -/
def damagedResponse (ni : Nat) (p : Packet) (s s0 : State) : State :=
  let lost := (s0.arrived ni ++ s0.damagedAt ni).filter (fun q => q.cls == 2 && q.hdrBad && q.src == p.src)
  if (s0.openToward ni p.src).all (fun t => t == p.tag || lost.any (fun q => q.tag == t)) then completeOpen ni p s0 else s

/-- A damaged packet outside a gate (R409, R410, R412). A port's NI counts none of these (R51), and disposes of them at
once. -/
def damagedArrive (ni : Nat) (p : Packet) (s : State) : State :=
  if ni < 10 then dispose ni { p with ep := true } 0 (s.fsat F.errCntDamaged 0 1) else noteDamaged ni false p s

/-- An answer that no row of its own takes: a host's goes to the host, any other is awaited by nobody. -/
def strayAnswer (ni : Nat) (p : Packet) (s : State) : State := if ni < 2 then hostAnswer ni p s else s

/-- A whole request or posted packet. -/
def wholeArrive (ni : Nat) (p : Packet) (s : State) : State :=
  if p.cls = 0 ∧ p.ty = 4 ∧ !(18 ≤ ni && ni < 34) then lockRefuse ni p s
  else if !formOk p || !blockServes ni p then malformed ni p s
  else blockTake ni p s

/-- DEST_NI_PACKET_ARRIVE (R413). -/
def destArrive (ni i : Nat) (s : State) : State :=
  match takeArrived ni i s with
  | none => s
  | some (p0, s0) =>
    if p0.hdrBad ∧ p0.icnt = 4096 then damagedResponse ni p0 s s0
    else if passesGate ni p0 then s
    else if p0.hdrBad then damagedArrive ni p0 s0
    else if p0.cls = 3 then
      if !typeOk p0 || !blockServes ni p0 then malformed ni p0 s0
      else if s.ownRow ni p0 then s
      else s0
    else if p0.cls = 2 then
      if !formOk p0 || !blockServes ni p0 then malformed ni p0 s0
      else if s.ownRow ni p0 then s
      else
        let (p, s1) := checkParity ni p0 s0
        strayAnswer ni p s1
    else if s.ownRow ni p0 || !s0.inOrder ni p0 || s.semAhead ni p0 then s
    else
      let (p, s1) := checkParity ni p0 s0
      if soundRow ni p && !p.ep then s else wholeArrive ni p s1

/-- DEST_NI_PACKET_ARRIVE (R413). -/
def execDestNiPacketArrive (ni : Fin 46) (i : Nat) (s : State) : Host.Outcome State Fault Refusal :=
  live s (destArrive ni.val i)

end Sys2Proof.Machine
end

