-- ==== Sys2Proof/Machine/Maintenance.lean ====
section
/-!
DEFINITION. The claims of maintenance activities (R434, R435, Table 18-4).
-/
namespace Sys2Proof.Machine

/-- The maintenance semaphores M0 to M39 that an activity claims, in ascending order (Table 18-4). -/
def claimSet : Activity → List Nat
  | .stagingScrub k => [16 + k.val]
  | .psScrub c => [30 + c.val]
  | .psUpdate c => [30 + c.val]
  | .migration groups => ((List.range 4).filter (fun k => groups.getLsbD k)).map (· + 16) ++ [39]
  | .laneMargin p => [20 + p.val]
  | .hostMargin k => [28 + k.val]
  | .retrain p => [20 + p.val]
  | .traceDump => [38]

/-- Semaphore Mm is held. -/
def State.claimed (s : State) (m : Nat) : Bool := (s.sem (1024 + m)).held

/-- The MGC acquires Mm; GEN counts it. -/
def claimOne (m : Nat) (s : State) : State :=
  s.setSem (1024 + m) { held := true, okind := 3, gen := ((s.sem (1024 + m)).gen + 1) % 4096 }

/-- The MGC releases Mm. -/
def unclaimOne (m : Nat) (s : State) : State := s.setSem (1024 + m) { gen := (s.sem (1024 + m)).gen }

/-- A claim (R434): all of its semaphores, or none and the answer BUSY. Two activities conflict exactly when their sets
overlap (R435), so the order rule of R112 is not applied between the sets of two activities (DEDUCED, log 23). -/
def claim (ms : List Nat) (s : State) : State :=
  if ms.any s.claimed then
    let got := ms.takeWhile (fun m => !s.claimed m)
    (forL got unclaimOne (forL got claimOne s)).emit (.claim false)
  else (forL ms claimOne s).emit (.claim true)

/-- MAINTENANCE_CLAIM (R434): a physical function or the management image asks. -/
def execMaintenanceClaim (act : Activity) (src : Writer) (s : State) : Host.Outcome State Fault Refusal :=
  live s (fun s => if mayRead src then claim (claimSet act) s else s)

end Sys2Proof.Machine
end

