-- ==== Sys2Proof/Machine/Boot.lean ====
section
/-!
DEFINITION. Power-on reset and bring-up (chapter 20): the stages, the checks of a slot, key records, what an image loads,
the clock step, INIT, readiness and recovery. BOOT_STS.STAGE says which stage runs: 0 fuses, 1 ROM, 2 read, 3 verify,
4 records, 5 load, 6 start, 7 READY, 8 recovery.
-/
namespace Sys2Proof.Machine

/-- The stage of bring-up that runs. -/
def State.stage (s : State) : Nat := s.fget F.bootStsStage 0

/-- The next stage. -/
def setStage (n : Nat) (s : State) : State := s.fset F.bootStsStage 0 n

/-- A command of stage n, while it runs. -/
def atStage (n : Nat) (f : State → State) (s : State) : Host.Outcome State Fault Refusal :=
  live s (fun s => when (s.stage == n) f s)

/-! ## Power-on reset (R456, R457, R479) -/

/-- A flash operation cut off: the spec does not say what its range holds, and a slot being written fails its checks
(R471). -/
def cutFlash (s : State) : State :=
  match s.boot.cmd with
  | none => s
  | some c => (freeFlash c.dst c.len s).setTornSlot (flashSlot c.dst) true

/-- Everything but fuses, flash and the levels of the pins takes its reset value. -/
def powerOn (por : PorGrp) (s0 : State) : State :=
  let s := cutFlash s0
  let b := s.boot
  let pin := fun k => ({ perst := (s.hpi k).perst } : Hpi)
  (({ ({} : State) with
      pending := s.pending, free := s.free, out := s.out, por := por
      boot := {
        fuseKeys := b.fuseKeys, ownerCount := b.ownerCount, vendorCount := b.vendorCount
        debugLock := b.debugLock, fuseBad := b.fuseBad, flash := b.flash, torn := b.torn }
    } : State).setHpi 0 (pin 0)).setHpi 1 (pin 1)

/-- Power-on reset is released: a port whose PERST is deasserted trains (R304, R457). -/
def release (s : State) : State :=
  if s.inPor then s else forN 2 (fun k s => when (!(s.hpi k).perst) (perstDeassert k) s) s

/-- PORST_N_ASSERT (R456). -/
def execPorstNAssert (s : State) : Host.Outcome State Fault Refusal :=
  .next (if s.por.porst then s else powerOn { s.por with porst := true } s)

/-- PORST_N_DEASSERT (R457, R458): the PERST pins are sampled. -/
def execPorstNDeassert (perst0 perst1 : Bool) (s : State) : Host.Outcome State Fault Refusal :=
  .next (if s.por.porst then
      let s1 := { s with por := { s.por with porst := false } }
      release ((s1.setHpi 0 { s1.hpi 0 with perst := perst0 }).setHpi 1 { s1.hpi 1 with perst := perst1 })
    else s)

/-- VAUX_BELOW_THRESHOLD (R479). -/
def execVauxBelowThreshold (s : State) : Host.Outcome State Fault Refusal :=
  .next (if s.por.vaux then s else powerOn { s.por with vaux := true } s)

/-- VAUX_ABOVE_THRESHOLD (R479): PORST_N may still hold the reset. -/
def execVauxAboveThreshold (s : State) : Host.Outcome State Fault Refusal :=
  .next (if s.por.vaux then release { s with por := { s.por with vaux := false } } else s)

/-! ## Fuses and ROM (R254, R464, R470) -/

/-- KEY_STS from the fuses: a spoiled slot, whose hash is not zero while ENROLLED is 0, reads as revoked. -/
def showKeys (s : State) : State :=
  let bits := fun (f : KeySlot → Bool) => ((List.range 4).map (fun k => 2 ^ k * b2n (f (s.keySlot k)))).sum
  ((s.fset F.keyStsEnrolled 0 (bits (·.enrolled))).fset F.keyStsRevoked 0
    (bits (fun k => k.revoked || (k.hash != 0 && !k.enrolled)))).fset F.keyStsDebugLock 0 (b2n s.boot.debugLock)

/-- BOOT_FUSE_STAGE (R458): every "fuse" field is loaded. -/
def execBootFuseStage (s : State) : Host.Outcome State Fault Refusal :=
  atStage 0 (fun s => setStage 1 (showCounts (showKeys s))) s

/-- Staging memory is zeroed, and with it the tables: every window has EN = 0 and XV = DXV = 0, every entry V = 0
(R254). -/
def zeroStaging (s : State) : State := { s with mem := { s.mem with cells := [], poison := [], ecc := [] } }

/-- BOOT_ROM_STAGE (R458). -/
def execBootRomStage (s : State) : Host.Outcome State Fault Refusal := atStage 1 (fun s => setStage 2 (zeroStaging s)) s

/-! ## The container (R462, Tables 20-3 and 20-4) -/

/-- `n` bytes of a container from an offset, and as a little-endian number. -/
def part (c : List Byte) (off n : Nat) : List Byte := (c.drop off).take n
def partNat (c : List Byte) (off n : Nat) : Nat := leNat (part c off n)

/-- Every byte is zero. -/
def zeros (l : List Byte) : Bool := l.all (· == 0)

/-- A section: its TYPE, OFFSET and SIZE. -/
structure Sect where
  ty : Nat
  off : Nat
  size : Nat
deriving DecidableEq, Repr

/-- The fields of the container's header. -/
def cOkey (c : List Byte) : Nat := partNat c 6 1
def cOsvn (c : List Byte) : Nat := partNat c 7 1
def cLength (c : List Byte) : Nat := partNat c 8 4
def cNsect (c : List Byte) : Nat := partNat c 12 4
def cVersion (c : List Byte) : Nat := partNat c 16 4

/-- The section table. -/
def sections (c : List Byte) : List Sect :=
  (List.range (cNsect c)).map (fun i => ⟨partNat c (64 + 16 * i) 4, partNat c (68 + 16 * i) 4, partNat c (72 + 16 * i) 4⟩)

/-- The sections of a TYPE, and the bytes of one. -/
def sectionsOf (c : List Byte) (ty : Nat) : List Sect := (sections c).filter (fun x => x.ty == ty)
def Sect.bytes (x : Sect) (c : List Byte) : List Byte := part c x.off x.size

/-- Key block and signature behind the container. -/
def keyBlock (c : List Byte) : List Byte := part c (cLength c) 528
def signature (c : List Byte) : List Byte := part c (cLength c + 528) 512

/-- The firmware section, and its VSVN: the first word of its header (PRESUMED, log 26). -/
def firmware (c : List Byte) : List Byte := ((sectionsOf c 1).head?.map (·.bytes c)).getD []
def vsvn (c : List Byte) : Nat := partNat (firmware c) 0 4

/-- A slot's container with its trailer, as flash holds it: a LENGTH beyond 12 MiB is not followed. -/
def State.readSlot (s : State) (b : Nat) : List Byte :=
  let base := b * 2 ^ 24
  let at_ := fun n => (List.range n).map (fun i => s.flashByte (base + i))
  let len := partNat (at_ 64) 8 4
  at_ (if len ≤ 12582912 then max 1088 (len + 1040) else 1088)

/-! ## The checks of a slot (R149, R463) -/

/-- Two sections do not overlap. -/
def Sect.apart (x y : Sect) : Bool := decide (x.off + x.size ≤ y.off) || decide (y.off + y.size ≤ x.off)

/-- Every pair of a list satisfies a relation. -/
def pairsOk {α : Type} (f : α → α → Bool) : List α → Bool
  | [] => true
  | x :: t => t.all (f x) && pairsOk f t

/-- Header, section table and TYPE counts: fields that the tables mark zero are zero. -/
def layoutOk (c : List Byte) : Bool :=
  partNat c 0 4 == 0x44565231 && partNat c 4 2 == 1 && decide (1 ≤ cNsect c) && decide (cNsect c ≤ 64)
    && decide (64 + 16 * cNsect c ≤ cLength c) && decide (cLength c ≤ 12582912) && zeros (part c 20 44)
    && (List.range (cNsect c)).all (fun i => partNat c (76 + 16 * i) 4 == 0)
    && (sections c).all (fun x => decide (x.off + x.size ≤ cLength c) && decide (1 ≤ x.ty) && decide (x.ty ≤ 9))
    && pairsOk Sect.apart (sections c) && (sectionsOf c 1).length == 1

/-- The fields of a program section's header (Table 6-8). -/
def pClusters (d : List Byte) : Nat := partNat d 6 1
def pWords (d : List Byte) : Nat := partNat d 8 4
def pScratch (d : List Byte) : Nat := partNat d 12 4
def pVersion (d : List Byte) : Nat := partNat d 16 4

/-- A word of the program. -/
def pWord (d : List Byte) (w : Nat) : Nat := partNat d (32 + 4 * w) 4

/-- A program section keeps Table 6-8 and R146: its three vectors point below WORDS, and words 3 to 15 are zero. -/
def programOk (d : List Byte) : Bool :=
  partNat d 0 4 == 0x53524631 && partNat d 4 2 == 1 && pClusters d != 0 && partNat d 7 1 == 0
    && decide (16 ≤ pWords d) && decide (pWords d ≤ 131072) && decide (pScratch d ≤ 0xFE00) && pScratch d % 8 == 0
    && zeros (part d 20 12) && decide (32 + 4 * pWords d + pScratch d ≤ d.length)
    && (List.range 3).all (fun w => decide (pWord d w < pWords d)) && (span 3 13).all (fun w => pWord d w == 0)

/-- R149 for every program section, no two of which name one cluster. -/
def programsOk (c : List Byte) : Bool :=
  let ps := (sectionsOf c 2).map (·.bytes c)
  ps.all programOk && pairsOk (fun a b => pClusters a &&& pClusters b == 0) ps

/-- Any owner slot is enrolled. -/
def State.anyEnrolled (s : State) : Bool := (List.range 4).any (fun k => (s.keySlot k).enrolled)

/-- A key block is that of an owner slot in use. -/
def State.ownerKey (s : State) (k : Nat) (kb : List Byte) : Bool :=
  let x := s.keySlot k
  x.enrolled && !x.revoked && x.hash == Config.sha512 kb

/-- The key block is acceptable: that of slot OKEY_IDX, or the vendor's while no slot is enrolled. -/
def State.keyOk (s : State) (c : List Byte) : Bool :=
  let kb := keyBlock c
  partNat kb 512 4 == 65537 && zeros (part kb 516 12)
    && (if s.anyEnrolled then decide (cOkey c < 4) && s.ownerKey (cOkey c) kb
        else Config.sha512 kb == Config.sha512 Config.vendorKey)

/-- The first check that a slot fails, as a cause; 0 for none. An uncorrectable fuse word fails every slot (R470). -/
def State.slotCause (s : State) (c : List Byte) : Nat :=
  let fw := firmware c
  if s.boot.fuseBad then 2
  else if !(layoutOk c && programsOk c) then 1
  else if !s.keyOk c then 2
  else if !Config.rsaVerify (keyBlock c) (c.take (cLength c + 528)) (signature c) then 3
  else if !Config.rsaVerify Config.vendorKey (fw.take (fw.length - 512)) (fw.drop (fw.length - 512)) then 4
  else if cOsvn c < s.boot.ownerCount ∨ vsvn c < s.boot.vendorCount then 5
  else 0

/-- A slot fails with a cause: the next one is read. -/
def slotFails (cause : Nat) (s : State) : State :=
  let k := s.boot.trySlot
  setStage 2 { s.fset (if k = 0 then F.bootStsFailA else F.bootStsFailB) 0 cause with
    boot := { s.boot with trySlot := k + 1, container := [] } }

/-- BOOT_READ_SLOT (R458, R462): slot A, and B after A has failed; all ones at offset 0 is cause 0x06. -/
def execBootReadSlot (b : Bool) (s : State) : Host.Outcome State Fault Refusal :=
  atStage 2 (fun s =>
    if s.boot.trySlot ≠ b2n b then s
    else
      let c := s.readSlot (b2n b)
      if (part c 0 4).all (· == 0xFF) then slotFails 6 s
      else setStage 3 { s with boot := { s.boot with container := c } }) s

/-- BOOT_VERIFY_SLOT (R463): a slot that a reset has torn fails, with cause 0x03 where no earlier check does (R471). -/
def execBootVerifySlot (s : State) : Host.Outcome State Fault Refusal :=
  atStage 3 (fun s =>
    let cause := s.slotCause s.boot.container
    let cause := if s.tornSlot s.boot.trySlot && (cause == 0 || decide (3 < cause)) then 3 else cause
    if cause = 0 then setStage 4 s else slotFails cause s) s

/-! ## Key records (R464) -/

/-- Slot k's fuses. -/
def setKey (k : Nat) (x : KeySlot) (s : State) : State := s.setKeySlot k x

/-- A key record applied: its effect already present, accepted, or refused. -/
def keyRecord (okey : Nat) (r : List Byte) (s : State) : State :=
  let op := partNat r 0 4
  let k := partNat r 4 4
  let hash := partNat r 8 64
  let kb := part r 80 528
  let x := s.keySlot k
  let signed := Config.rsaVerify kb (r.take 80) (part r 608 512)
  let owner := fun (p : Nat → Bool) => (List.range 4).any (fun j => p j && s.ownerKey j kb)
  let refuse := s.fset F.keyStsRecRef 0 1
  if 4 ≤ k ∨ r.length ≠ 1120 ∨ zeros (part r 72 8) = false then refuse
  else if op = 1 then
    if x.enrolled && x.hash == hash then s
    else if x.hash == 0 && signed
        && (if s.anyEnrolled then owner (fun _ => true) else Config.sha512 kb == Config.sha512 Config.vendorKey) then
      let s1 := setKey k { x with hash := hash, enrolled := true } s
      { s1 with boot := { s1.boot with debugLock := true } }
    else refuse
  else if op = 2 then
    let last := x.enrolled && !x.revoked
      && (List.range 4).all (fun j => j == k || !(s.keySlot j).enrolled || (s.keySlot j).revoked)
    if x.revoked then s
    else if signed && owner (fun j => j != k) && !last && k != okey then setKey k { x with revoked := true } s
    else refuse
  else refuse

/-- The records of a section. -/
def recordsOf (d : List Byte) : List (List Byte) := (List.range ((d.length + 1119) / 1120)).map (fun i => part d (1120 * i) 1120)

/-- BOOT_KEY_RECORDS (R464). -/
def execBootKeyRecords (s : State) : Host.Outcome State Fault Refusal :=
  atStage 4 (fun s =>
    let c := s.boot.container
    setStage 5 (showKeys (forL ((sectionsOf c 9).flatMap (fun x => recordsOf (x.bytes c))) (keyRecord (cOkey c)) s))) s

/-! ## Load (R150, R327, R466, R467, Table 20-4) -/

/-- The entries of `n` bytes of a section. -/
def entriesOf (n : Nat) (d : List Byte) : List (List Byte) := (List.range (d.length / n)).map (fun i => part d (n * i) n)

/-- A register preset: a register with "image" fields keeps the value for READY and the reloads of R304; any other
offset takes it as an MGC write. -/
def preset (e : List Byte) (s : State) : State :=
  let off := partNat e 0 4
  let width := partNat e 4 4
  let v := partNat e 8 8
  let write := registerWrite .mgc off width (BitVec.ofNat 64 v)
  match regAt regRows false off width with
  | .reg r i _ => if imageCount r = 0 then write s else s.setImageVal (regKey r i) (some v)
  | _ => write s

/-- A calibration entry (R467): an offset outside its width, or for a field that Table 20-6 does not have, is ignored
and sets CAL_IGN. -/
def calEntry (e : List Byte) (s : State) : State :=
  let f := partNat e 0 2
  let i := partNat e 2 2
  let x := signedOf 32 (partNat e 4 4)
  let ok := match calField f with
    | none => false
    | some c =>
      decide (i < c.count) && (if c.offWidth = 0 then x == 0
        else decide (-(2 ^ (c.offWidth - 1) : Int) ≤ x) && decide (x < (2 ^ (c.offWidth - 1) : Int)))
  if ok then s.setCalOffset (65536 * f + i) x else s.fset F.bootStsCalIgn 0 1

/-- A window descriptor, with XV and DXV zero, into its three copies, and a translation entry into its two. -/
def windowEntry (e : List Byte) (s : State) : State :=
  let words := (List.range 8).map (fun i => partNat e (8 + 8 * i) 8)
  forN 3 (putDesc (partNat e 0 8 % 4096) (withDxv (withXv words 0) 0)) s
def translationEntry (e : List Byte) (s : State) : State :=
  forN 2 (putEnt (partNat e 0 8 % 262144) [partNat e 8 8, 0]) s

/-- A program loaded into cluster c by the sequence of R150, with RUN left at 0: the words it does not name are zero,
and its scratch image goes to every engine. -/
def loadProgram (d : List Byte) (c : Nat) (s : State) : State :=
  let s1 := (claimOne (30 + c) s).fset F.pclCtlRun c 0
  let s2 := { s1 with mem := { s1.mem with
    ps := mclear (fun k => k / 131072 == c) s1.mem.ps, psEcc := mclear (fun k => k / 131072 == c) s1.mem.psEcc } }
  let s3 := forN (pWords d) (fun w s => s.setPsWord (psKey c w) (BitVec.ofNat 32 (pWord d w))) s2
  let image := part d (32 + 4 * pWords d) (pScratch d)
  let s4 := forN 8 (fun e s => scrWrite (8 * c + e) 0 image false s) s3
  let s5 := s4.setClu c { s4.clu c with loaded := true, image := pVersion d }
  unclaimOne (30 + c) ((s5.fset F.pclStsInitDone c 0).fset F.pclPsAddrWord c 0)

/-- The clusters that a program section names. -/
def clustersOf (d : List Byte) : List Nat := (List.range 8).filter (natBit (pClusters d))

/-- The bytes of cluster c's program store. -/
def State.storeBytes (s : State) (c : Nat) : List Byte :=
  (List.range 131072).flatMap (fun w => leBytes 4 (s.psWord (psKey c w)).toNat)

/-- The effective calibration and equalisation values in ascending order (Table 20-7; the order is PRESUMED, log 27). -/
def State.effectiveBytes (s : State) : List Byte :=
  (span 1 7).flatMap (fun f => match calField f with
    | none => []
    | some c => (List.range c.count).flatMap (fun i => leBytes 1 (byteOf (s.calEffective c f i))))
  ++ (List.range 96).flatMap (fun j =>
    let (a, b, c, d) := s.effTaps (j / 3) (j % 3)
    [a, b, c, d].flatMap (fun x => leBytes 1 (byteOf x)))

/-- The measurements of what has been loaded (Table 20-7, blocks 2 to 12). -/
def measure (s : State) : State :=
  let c := s.boot.container
  let s1 := (s.setMeasAt 2 (Config.sha512 (firmware c ++ leBytes 4 (vsvn c)))).setMeasAt 3 (Config.sha512 (c.take (cLength c)))
  let s2 := forN 8 (fun k s => s.setMeasAt (4 + k) (Config.sha512 (s.storeBytes k))) s1
  s2.setMeasAt 12 (Config.sha512 s2.effectiveBytes)

/-- Everything a verified container loads, and what BOOT_STS, BOOT_VER, BOOT_SVN and KEY_STS say of it. -/
def loadAll (s : State) : State :=
  let c := s.boot.container
  let each := fun ty (f : List Byte → State → State) (s : State) =>
    forL (sectionsOf c ty) (fun x s => f (x.bytes c) s) s
  let s1 := (((s.fset F.bootStsSlot 0 (s.boot.trySlot + 1)).fset F.bootVerVersion 0 (cVersion c)).fset F.bootSvnOsvnImg 0
    (cOsvn c)).fset F.bootSvnVsvnImg 0 (vsvn c)
  let s2 := each 4 (fun d => forL (entriesOf 16 d) preset) (s1.fset F.keyStsInUse 0 (cOkey c))
  let s3 := each 3 (fun d => forL ((List.range 96).zip (entriesOf 4 d)) (fun x s => s.setEqWord x.1 (leNat x.2))) s2
  let s4 := each 7 (fun d => forL (entriesOf 8 d) calEntry) s3
  let s5 := each 6 (fun d => forL (entriesOf 16 d) translationEntry) (each 5 (fun d => forL (entriesOf 72 d) windowEntry) s4)
  let s6 := each 8 (fun d s => { s with boot := { s.boot with chain := d } }) s5
  let s7 := each 2 (fun d s => forL (clustersOf d) (loadProgram d)
    { s with boot := { s.boot with named := s.boot.named ++ clustersOf d } }) s6
  measure s7

/-- BOOT_LOAD (R458). -/
def execBootLoad (s : State) : Host.Outcome State Fault Refusal := atStage 5 (fun s => setStage 6 (loadAll s)) s

/-! ## Start: clocks and INIT (R460, R461) -/

/-- BOOT_START (R460): the PLLs are enabled, the boot buffer is freed and the wait for the locks begins. Its RUN = 1
follows once the clock step is over (Table 20-2, stage 7). -/
def execBootStart (s : State) : Host.Outcome State Fault Refusal :=
  atStage 6 (fun s =>
    if s.boot.container.isEmpty then s
    else
      let s1 := (s.fset F.tbCtlPllEn 0 1).fset F.pwcClkMgcPllEn 0 1
      { s1 with boot := { s1.boot with container := [], startAt := s1.now } }) s

/-- The clock step runs: stage 7 has begun and RUN = 1 is still to be written. -/
def State.clockStep (s : State) : Bool := s.stage == 6 && s.boot.container.isEmpty && !s.boot.clocked

/-- The clock step is over: RUN = 1 in every named cluster, and INIT's time begins. -/
def settleClocks (s : State) : State :=
  forL s.boot.named runStart { s with boot := { s.boot with clocked := true, startAt := s.now } }

/-- Bring-up goes on with the ring oscillators. -/
def noTbclk (s : State) : State := settleClocks (s.fset F.bootStsNoTbclk 0 1)

/-- A lock has held for 1 ms. -/
def State.heldLock (s : State) (since : Option Nat) : Bool :=
  match since with
  | none => false
  | some t => decide (s.now ≥ t + 1000000)

/-- CLOCK_LOCK_HOLD_EXPIRE (R460): at stage 7 both locks have held for 1 ms, or one did not come within the first; after
READY each clock moves to its PLL once its lock has held. -/
def clockHold (s : State) : State :=
  let tb := s.heldLock s.tb.lockSince
  let mgc := s.heldLock s.tb.mgcLockSince
  if s.clockStep then
    if tb && mgc then settleClocks (mgcSrc true (srcWrite true s))
    else if (s.tb.lockSince.isNone || s.tb.mgcLockSince.isNone) && decide (s.now ≥ s.boot.startAt + 1000000) then noTbclk s
    else s
  else if s.stage = 7 then when mgc (mgcSrc true) (when tb (srcWrite true) s)
  else s

/-- CLOCK_LOCK_HOLD_EXPIRE (R460). -/
def execClockLockHoldExpire (s : State) : Host.Outcome State Fault Refusal := live s clockHold

/-- PLL_LOCK_DROP (R460): before the switch-over a lock drops, which at bring-up, once both had come, is the end of the
clock step. -/
def lockDrop (tbu : Bool) (s : State) : State :=
  let ends := s.clockStep && s.tb.lockSince.isSome && s.tb.mgcLockSince.isSome
  let s1 := if tbu then
      if s.flag F.tbCtlPllLock 0 && s.flag F.tbCtlCoarse 0 then
        { s with tb := { s.tb with lockSince := none } }.fset F.tbCtlPllLock 0 0
      else s
    else if s.flag F.pwcClkMgcPllLock 0 && !s.flag F.pwcClkMgcSrc 0 then
      { s with tb := { s.tb with mgcLockSince := none } }.fset F.pwcClkMgcPllLock 0 0
    else s
  when (ends && (s1.tb.lockSince.isNone || s1.tb.mgcLockSince.isNone)) noTbclk s1

/-- PLL_LOCK_DROP (R460). -/
def execPllLockDrop (tbu : Bool) (s : State) : Host.Outcome State Fault Refusal := live s (lockDrop tbu)

/-- A named cluster's INIT has ended, or its time has run out. -/
def State.initOver (s : State) (c : Nat) : Bool := s.flag F.pclStsInitDone c || natBit (s.fget F.bootStsInitTmo 0) c

/-- INIT_TIMEOUT (R461): 100 ms after RUN = 1. -/
def execInitTimeout (c : Fin 8) (s : State) : Host.Outcome State Fault Refusal :=
  atStage 6 (fun s =>
    if s.boot.clocked && s.boot.named.contains c.val && !s.initOver c.val && decide (s.now ≥ s.boot.startAt + 100000000) then
      (s.fset F.pclCtlRun c.val 0).fset F.bootStsInitTmo 0 (s.fget F.bootStsInitTmo 0 + 2 ^ c.val)
    else s) s

/-! ## Readiness and recovery (R466) -/

/-- The registers with image fields. -/
def imageRegs : List RegId := [.hpiCfg, .irtPort, .hpiLtr, .lnkCtl, .lbFn, .pwrDom]

/-- The widths of the image take effect, lower ports first (R500). -/
def imageWidths (s : State) : State :=
  forN 8 (fun p s => when (s.leads p) (widthWrite p (bitsGet (s.imageWord .lnkCtl p) 9 8)) s) s

/-- The image fields take their values, every domain's idle timer starts and enabled ports train; the subsystem IDs,
which no preset can name, take their recovery values. -/
def becomeReady (stage : Nat) (s : State) : State :=
  let s1 := loadImages imageRegs (imageWidths (s.setImageVal 0x30 (some 0x1F6B)))
  forN 8 (fun p s => when (s.flag F.lnkCtlEn p) (linkEnable p) s) (forL (span 2 22) touch (setStage stage s1))

/-- BOOT_READY (R466): every INIT is over, and COARSE reads 0 where the TBU has been switched (R460). -/
def execBootReady (s : State) : Host.Outcome State Fault Refusal :=
  atStage 6 (fun s =>
    if s.boot.clocked && s.boot.named.all s.initOver && (!s.flag F.tbCtlSrc 0 || !s.flag F.tbCtlCoarse 0) then
      becomeReady 7 s
    else s) s

/-- BOOT_RECOVERY (R466): both slots have failed. -/
def execBootRecovery (s : State) : Host.Outcome State Fault Refusal :=
  atStage 2 (fun s =>
    if s.boot.trySlot = 2 then becomeReady 8 { s with boot := { s.boot with image := [] } } else s) s

end Sys2Proof.Machine
end

