-- ==== Sys2Proof/Machine/Attest.lean ====
section
/-!
DEFINITION. DOE Discovery and the SPDM responder (R468, R469). A response is the name of its message and its fields in
order. A mailbox stands at 0 before GET_VERSION, at 1 after it, at 2 after GET_CAPABILITIES and at 3 after
NEGOTIATE_ALGORITHMS; SPDM itself sets this order (PRESUMED, log 28), and the errors UnexpectedRequest and
InvalidRequest.
-/
namespace Sys2Proof.Machine

/-- Bytes as numbers. -/
def natsOf (l : List Byte) : List Nat := l.map (·.toNat)

/-- The mailbox of port k's PF takes an object: its port carries TLPs, the PF is not in reset, and no response of this
mailbox still waits for its signature. -/
def State.mailbox (s : State) (k : Nat) : Bool :=
  s.hostLive k && s.booted && (s.fnReset (1024 * k)).isNone && !s.boot.signQ.any (fun x => x.1 == k)

/-- A request of mailbox k. -/
def doeReq (k : Nat) (f : State → State) (s : State) : Host.Outcome State Fault Refusal :=
  live s (fun s => when (s.mailbox k) f s)

/-- A message joins the transcript that a signature covers. -/
def note (k : Nat) (m : List Nat) (s : State) : State := s.setTranscript k (s.transcript k ++ m)

/-- A response, which joins the transcript. -/
def respond (k : Nat) (kind : String) (data : List Nat) (s : State) : State := (note k data s).emit (.doe k kind data)

/-- An SPDM error response; it changes nothing. -/
def spdmError (k : Nat) (err : String) (code : Nat) (s : State) : State := s.emit (.doe k ("ERROR " ++ err) [code])

/-- A request of code `code` in its turn, else ERROR UnexpectedRequest. -/
def inTurn (k code : Nat) (ok : Bool) (f : State → State) (s : State) : State :=
  if ok then f s else spdmError k "UnexpectedRequest" code s

/-- The certificate chain of a slot, none for an empty slot. -/
def State.certChain (s : State) (slot : Nat) : Option (List Byte) :=
  if slot = 0 then some Config.certArea
  else if slot = 1 ∧ s.boot.chain ≠ [] then some s.boot.chain
  else none

/-- A request that names a certificate slot: an empty one is ERROR InvalidRequest. -/
def withChain (k code slot : Nat) (f : List Byte → State → State) (s : State) : State :=
  match s.certChain slot with
  | none => spdmError k "InvalidRequest" code s
  | some c => f c s

/-! ## Discovery and negotiation -/

/-- DOE_DISCOVERY (R468): vendor, data object type and next index; an index beyond the two protocols has the vendor
0xFFFF of PCI Express. -/
def execDoeDiscovery (k : Fin 2) (index : BitVec 8) (s : State) : Host.Outcome State Fault Refusal :=
  doeReq k.val (fun s => s.emit (.doe k.val "DISCOVERY"
    (if index = 0 then [1, 0, 1] else if index = 1 then [1, 1, 0] else [0xFFFF, 0, 0]))) s

/-- GET_VERSION (R468): versions 1.1 and 1.2; the session starts anew. -/
def execGetVersion (k : Fin 2) (s : State) : Host.Outcome State Fault Refusal :=
  doeReq k.val (fun s => respond k.val "VERSION" [0x11, 0x12] (note k.val [0x84] ((s.setTranscript k.val []).setSpdmAt k.val 1))) s

/-- GET_CAPABILITIES (R468): CERT_CAP (bit 1), CHAL_CAP (bit 2) and MEAS_CAP with signature (bits 4:3 = 2). -/
def execGetCapabilities (k : Fin 2) (s : State) : Host.Outcome State Fault Refusal :=
  doeReq k.val (fun s => inTurn k.val 0xE1 (s.spdmAt k.val == 1)
    (fun s => respond k.val "CAPABILITIES" [0x16] (note k.val [0xE1] (s.setSpdmAt k.val 2))) s) s

/-- NEGOTIATE_ALGORITHMS (R468): TPM_ALG_RSASSA_4096 and TPM_ALG_RSAPSS_4096 as base asymmetric algorithms,
TPM_ALG_SHA_512 as base and measurement hash. -/
def execNegotiateAlgorithms (k : Fin 2) (s : State) : Host.Outcome State Fault Refusal :=
  doeReq k.val (fun s => inTurn k.val 0xE3 (s.spdmAt k.val == 2)
    (fun s => respond k.val "ALGORITHMS" [0x60, 0x4, 0x8] (note k.val [0xE3] (s.setSpdmAt k.val 3))) s) s

/-! ## Certificates -/

/-- A request that follows negotiation. -/
def negotiated (k code : Nat) (f : State → State) (s : State) : Host.Outcome State Fault Refusal :=
  doeReq k (fun s => inTurn k code (s.spdmAt k == 3) f s) s

/-- GET_DIGESTS (R468): the mask of the filled slots and the SHA-512 digest of each chain. -/
def execGetDigests (k : Fin 2) (s : State) : Host.Outcome State Fault Refusal :=
  negotiated k.val 0x81 (fun s =>
    let chains := [0, 1].filterMap s.certChain
    respond k.val "DIGESTS" ((if chains.length = 2 then 3 else 1) :: chains.map Config.sha512) (note k.val [0x81] s)) s

/-- The bytes of a chain that one 8 KiB data object holds: its DOE header takes 8 bytes and the response's own 8. -/
def portionMax : Nat := 8176

/-- GET_CERTIFICATE (R468): the portion's length, what remains behind it, and its bytes. -/
def execGetCertificate (k : Fin 2) (slot : BitVec 8) (off len : BitVec 16) (s : State) : Host.Outcome State Fault Refusal :=
  negotiated k.val 0x82 (withChain k.val 0x82 slot.toNat (fun c s =>
    if c.length ≤ off.toNat then spdmError k.val "InvalidRequest" 0x82 s
    else
      let portion := (c.drop off.toNat).take (min len.toNat portionMax)
      respond k.val "CERTIFICATE" ([portion.length, c.length - off.toNat - portion.length] ++ natsOf portion)
        (note k.val [0x82, slot.toNat, off.toNat, len.toNat] s))) s

/-! ## Signed responses -/

/-- A response joins SEC's queue; SEC signs one at a time, in the order of arrival (R468, R471). -/
def toSec (k : Nat) (r : SpdmReq) (s : State) : State :=
  { s with boot := { s.boot with signQ := s.boot.signQ ++ [(k, r)] } }

/-- CHALLENGE (R468). -/
def execChallenge (k : Fin 2) (slot : BitVec 8) (nonce : BitVec 256) (s : State) : Host.Outcome State Fault Refusal :=
  negotiated k.val 0x83 (withChain k.val 0x83 slot.toNat (fun _ s =>
    toSec k.val (.challenge slot.toNat) (note k.val [0x83, slot.toNat, nonce.toNat] s))) s

/-- The fuse state that block 13 measures: key hashes, ENROLLED, REVOKED, both counts, DEBUG_LOCK. -/
def State.fuseBytes (s : State) : List Byte :=
  let keys := (List.range 4).map s.keySlot
  keys.flatMap (fun x => leBytes 64 x.hash) ++ keys.map (fun x => BitVec.ofNat 8 (b2n x.enrolled))
    ++ keys.map (fun x => BitVec.ofNat 8 (b2n x.revoked)) ++ leBytes 8 s.boot.ownerCount ++ leBytes 4 s.boot.vendorCount
    ++ leBytes 1 (b2n s.boot.debugLock)

/-- The digest of a measurement block (Table 20-7); in recovery blocks 3 to 12 are absent. -/
def State.measurement (s : State) (i : Nat) : Option Nat :=
  if i = 1 then some (Config.sha512 Config.romImage)
  else if i = 13 then some (Config.sha512 s.fuseBytes)
  else if s.stage = 8 then (if i = 2 then some Config.recoveryFirmware else none)
  else if 2 ≤ i ∧ i ≤ 12 then some (s.measAt i)
  else none

/-- The blocks that a request for `index` reports, with their indices: 0 asks for their number, 0xFF for all. -/
def State.blocks (s : State) (index : Nat) : List (Nat × Nat) :=
  (span 1 13).filterMap (fun i => if index == 0xFF || index == i then (s.measurement i).map (fun d => (i, d)) else none)

/-- The fields of a MEASUREMENTS response. -/
def State.measFields (s : State) (index : Nat) : List Nat :=
  if index = 0 then [(s.blocks 0xFF).length] else (s.blocks index).flatMap (fun x => [x.1, x.2])

/-- GET_MEASUREMENTS (R469): with a signature it joins SEC's queue. -/
def execGetMeasurements (k : Fin 2) (index : BitVec 8) (sign : Bool) (nonce : BitVec 256) (s : State) :
    Host.Outcome State Fault Refusal :=
  negotiated k.val 0xE0 (fun s =>
    if index ≠ 0 ∧ s.blocks index.toNat = [] then spdmError k.val "InvalidRequest" 0xE0 s
    else
      let s1 := note k.val [0xE0, index.toNat, nonce.toNat] s
      if sign then toSec k.val (.measurements index.toNat) s1
      else respond k.val "MEASUREMENTS" (s1.measFields index.toNat) s1) s

/-- SPDM_UNSUPPORTED_REQUEST (R468). -/
def execSpdmUnsupportedRequest (k : Fin 2) (code : BitVec 8) (s : State) : Host.Outcome State Fault Refusal :=
  doeReq k.val (spdmError k.val "UnsupportedRequest" code.toNat) s

/-- A signed response: its fields, SEC's nonce, and the signature with the device key over the transcript that ends
with them. -/
def signed (k : Nat) (kind : String) (data : List Nat) (s : State) : State :=
  let (i, s1) := takeFree s
  let fields := data ++ [Config.random i]
  let s2 := note k fields s1
  let sig := Config.deviceSign (s2.transcript k)
  (s2.setTranscript k []).emit (.doe k kind (fields ++ [sig]))

/-- SEC ends the signature at the head of its queue. -/
def signHead (s : State) : State :=
  match s.boot.signQ with
  | [] => s
  | (k, r) :: rest =>
    let s1 := { s with boot := { s.boot with signQ := rest } }
    match r with
    | .challenge slot => signed k "CHALLENGE_AUTH" [slot, Config.sha512 ((s1.certChain slot).getD [])] s1
    | .measurements index => signed k "MEASUREMENTS" (s1.measFields index) s1

/-- SPDM_SIGN_COMPLETE (R468). -/
def execSpdmSignComplete (s : State) : Host.Outcome State Fault Refusal := live s signHead

/-- DOE_ABORT (R468): that mailbox's state goes, and no other's. -/
def execDoeAbort (k : Fin 2) (s : State) : Host.Outcome State Fault Refusal :=
  live s (when (s.hostLive k.val && s.booted) (dropMailbox k.val))

end Sys2Proof.Machine
end

