-- ==== Sys2Proof/Machine/Thermal.lean ====
section
/-!
DEFINITION. Temperature sensors and THERMTRIP_N (R489, R490), and the loss of the lane reference clock (R491).
-/
namespace Sys2Proof.Machine

/-- The temperature at sensor i from its raw reading: the calibration offset is applied (R490, Table 20-6). -/
def State.junction (s : State) (i : Nat) (t : BitVec 16) : Int :=
  match calField 6 with
  | none => t.toInt
  | some c => t.toInt + s.calEffective c 6 i

/-- A signed number in a 16-bit field. -/
def word16 (x : Int) : Nat := (BitVec.ofInt 16 x).toNat

/-- The TEMP of sensor i. -/
def putTemp (i : Nat) (t : BitVec 16) (s : State) : State := s.fset F.thermStsTemp i (word16 (s.junction i t))

/-- Some TEMP is at or above HOT_TH, both in two's complement. -/
def State.hot (s : State) : Bool :=
  (List.range 4).any (fun i => decide (signedOf 16 (s.fget F.thermCtlHotTh 0) ≤ signedOf 16 (s.fget F.thermStsTemp i)))

/-- THERM_UPDATE (R490). -/
def execThermUpdate (t0 t1 t2 t3 : BitVec 16) (s : State) : Host.Outcome State Fault Refusal :=
  live s (fun s =>
    let s1 := putTemp 3 t3 (putTemp 2 t2 (putTemp 1 t1 (putTemp 0 t0 s)))
    when s1.hot (fun s => s.fset F.thermCtlHot 0 1) s1)

/-- THERMTRIP_N asserts and stays until PORST_N. -/
def tripNow (s : State) : State :=
  if s.flag F.thermCtlTrip 0 then s else (s.fset F.thermCtlTrip 0 1).emit .thermtrip

/-- THERMTRIP_ASSERT (R489): the reading reaches 120 °C, to within 3 °C; nothing else changes. -/
def execThermtripAssert (sensor : Fin 4) (t : BitVec 16) (s : State) : Host.Outcome State Fault Refusal :=
  live s (fun s =>
    let (i, s1) := takeFree s
    when (decide (468 + ((Config.tripThr i).val : Int) ≤ s.junction sensor.val t)) tripNow s1)

/-- LREFCLK_LOSS (R491): the lanes of every Drevlink port lose codeword lock, so that each port in ACTIVE leaves it and
the grace hold runs (R325, R353). -/
def execLrefclkLoss (s : State) : Host.Outcome State Fault Refusal :=
  live s (forN 8 (fun p s =>
    when (s.leads p) (fun s => startRetrain p (s.setLpi p { s.lpi p with locks := [] })) s))

end Sys2Proof.Machine
end

