-- ==== Sys2Proof/Machine/Dispatch.lean ====
section
/-!
DEFINITION. The dispatch: one arm per constructor of Instr, each one call of that command's meaning.
-/
namespace Sys2Proof.Machine

/-- The effect of a command on everything but the queue of waiting commands. -/
def exec (i : Instr) (s : State) : Host.Outcome State Fault Refusal :=
  match i with
  | .registerWrite w off width value => Sys2Proof.Machine.execRegisterWrite w off width value s
  | .porstNAssert => Sys2Proof.Machine.execPorstNAssert s
  | .porstNDeassert perst0 perst1 => Sys2Proof.Machine.execPorstNDeassert perst0 perst1 s
  | .vauxBelowThreshold => Sys2Proof.Machine.execVauxBelowThreshold s
  | .vauxAboveThreshold => Sys2Proof.Machine.execVauxAboveThreshold s
  | .vmon100nsAverage uv => Sys2Proof.Machine.execVmon100nsAverage uv s
  | .vmon50nsAverage uv => Sys2Proof.Machine.execVmon50nsAverage uv s
  | .vnowUpdate => Sys2Proof.Machine.execVnowUpdate s
  | .vminClr w => Sys2Proof.Machine.execVminClr w s
  | .stepMonCtlWrite w value => Sys2Proof.Machine.execStepMonCtlWrite w value s
  | .stepMonWindowEnd steps => Sys2Proof.Machine.execStepMonWindowEnd steps s
  | .tbPllLock => Sys2Proof.Machine.execTbPllLock s
  | .tbSrcWrite w src => Sys2Proof.Machine.execTbSrcWrite w src s
  | .tbSwitchOver => Sys2Proof.Machine.execTbSwitchOver s
  | .tbFallback => Sys2Proof.Machine.execTbFallback s
  | .tbStepWrite w value => Sys2Proof.Machine.execTbStepWrite w value s
  | .tbStepApply => Sys2Proof.Machine.execTbStepApply s
  | .tbSlewWrite w value => Sys2Proof.Machine.execTbSlewWrite w value s
  | .tbSlewAdjust => Sys2Proof.Machine.execTbSlewAdjust s
  | .timeSerialLoad => Sys2Proof.Machine.execTimeSerialLoad s
  | .milestoneSend ni g => Sys2Proof.Machine.execMilestoneSend ni g s
  | .milestoneArrive n => Sys2Proof.Machine.execMilestoneArrive n s
  | .unparkHoldExpire ni => Sys2Proof.Machine.execUnparkHoldExpire ni s
  | .gatePacketArrive g n => Sys2Proof.Machine.execGatePacketArrive g n s
  | .gateRelease g => Sys2Proof.Machine.execGateRelease g s
  | .allowanceReturn ni n => Sys2Proof.Machine.execAllowanceReturn ni n s
  | .gateCommit w g => Sys2Proof.Machine.execGateCommit w g s
  | .gateLatClr w g => Sys2Proof.Machine.execGateLatClr w g s
  | .anchorRecord => Sys2Proof.Machine.execAnchorRecord s
  | .niInject ni q => Sys2Proof.Machine.execNiInject ni q s
  | .routerHeadArrive l up vc singleErr => Sys2Proof.Machine.execRouterHeadArrive l up vc singleErr s
  | .routeSwitchbackRequest l up vc => Sys2Proof.Machine.execRouteSwitchbackRequest l up vc s
  | .routeDetourRequest l up vc => Sys2Proof.Machine.execRouteDetourRequest l up vc s
  | .linkOutputArbitration l up => Sys2Proof.Machine.execLinkOutputArbitration l up s
  | .flitArrive l up err par => Sys2Proof.Machine.execFlitArrive l up err par s
  | .creditReturn l up => Sys2Proof.Machine.execCreditReturn l up s
  | .limiterTokenAdd ni qc => Sys2Proof.Machine.execLimiterTokenAdd ni qc s
  | .fabCommit w => Sys2Proof.Machine.execFabCommit w s
  | .forceOutWrite w out => Sys2Proof.Machine.execForceOutWrite w out s
  | .rtDataWrite w value => Sys2Proof.Machine.execRtDataWrite w value s
  | .destNiPacketArrive ni n => Sys2Proof.Machine.execDestNiPacketArrive ni n s
  | .arbRequestDeliver a idx => Sys2Proof.Machine.execArbRequestDeliver a idx s
  | .arbContestOpen a => Sys2Proof.Machine.execArbContestOpen a s
  | .arbContestDecide a => Sys2Proof.Machine.execArbContestDecide a s
  | .arbBackoffExpire a idx => Sys2Proof.Machine.execArbBackoffExpire a idx s
  | .arbGrantEnd a => Sys2Proof.Machine.execArbGrantEnd a s
  | .arbHoldCut a => Sys2Proof.Machine.execArbHoldCut a s
  | .arbCommit w a => Sys2Proof.Machine.execArbCommit w a s
  | .c52PrioWrite w a hi value => Sys2Proof.Machine.execC52PrioWrite w a hi value s
  | .semExecAcquire => Sys2Proof.Machine.execSemExecAcquire s
  | .semExecRelease => Sys2Proof.Machine.execSemExecRelease s
  | .semExecForceRelease => Sys2Proof.Machine.execSemExecForceRelease s
  | .semExecNoOp => Sys2Proof.Machine.execSemExecNoOp s
  | .semCmdAcquire k num => Sys2Proof.Machine.execSemCmdAcquire k num s
  | .semCmdRelease k num => Sys2Proof.Machine.execSemCmdRelease k num s
  | .semCmdForceRelease k num => Sys2Proof.Machine.execSemCmdForceRelease k num s
  | .semResetFree fn => Sys2Proof.Machine.execSemResetFree fn s
  | .clusterWakeArrive c n => Sys2Proof.Machine.execClusterWakeArrive c n s
  | .dispatch c => Sys2Proof.Machine.execDispatch c s
  | .wakeCreditReturn n => Sys2Proof.Machine.execWakeCreditReturn n s
  | .timerExpire e => Sys2Proof.Machine.execTimerExpire e s
  | .waitRelease e => Sys2Proof.Machine.execWaitRelease e s
  | .faultNoticeArrive e n => Sys2Proof.Machine.execFaultNoticeArrive e n s
  | .endContextsDrained e => Sys2Proof.Machine.execEndContextsDrained e s
  | .pclRunStart w c => Sys2Proof.Machine.execPclRunStart w c s
  | .pclRunStop w c => Sys2Proof.Machine.execPclRunStop w c s
  | .pclLimitsCommit w c => Sys2Proof.Machine.execPclLimitsCommit w c s
  | .engineRestart w e => Sys2Proof.Machine.execEngineRestart w e s
  | .engineKick w e => Sys2Proof.Machine.execEngineKick w e s
  | .psDataWrite w c value => Sys2Proof.Machine.execPsDataWrite w c value s
  | .psDataRead w c => Sys2Proof.Machine.execPsDataRead w c s
  | .reservedEncoding e => Sys2Proof.Machine.execReservedEncoding e s
  | .add e rd ra rb => Sys2Proof.Machine.execAdd e rd ra rb s
  | .sub e rd ra rb => Sys2Proof.Machine.execSub e rd ra rb s
  | .and e rd ra rb => Sys2Proof.Machine.execAnd e rd ra rb s
  | .or e rd ra rb => Sys2Proof.Machine.execOr e rd ra rb s
  | .xor e rd ra rb => Sys2Proof.Machine.execXor e rd ra rb s
  | .andn e rd ra rb => Sys2Proof.Machine.execAndn e rd ra rb s
  | .cmp e ra rb => Sys2Proof.Machine.execCmp e ra rb s
  | .tst e ra rb => Sys2Proof.Machine.execTst e ra rb s
  | .sll e rd ra rb => Sys2Proof.Machine.execSll e rd ra rb s
  | .srl e rd ra rb => Sys2Proof.Machine.execSrl e rd ra rb s
  | .sra e rd ra rb => Sys2Proof.Machine.execSra e rd ra rb s
  | .mul e rd ra rb => Sys2Proof.Machine.execMul e rd ra rb s
  | .mulhu e rd ra rb => Sys2Proof.Machine.execMulhu e rd ra rb s
  | .clz e rd ra => Sys2Proof.Machine.execClz e rd ra s
  | .addi e rd ra imm => Sys2Proof.Machine.execAddi e rd ra imm s
  | .andi e rd ra imm => Sys2Proof.Machine.execAndi e rd ra imm s
  | .ori e rd ra imm => Sys2Proof.Machine.execOri e rd ra imm s
  | .xori e rd ra imm => Sys2Proof.Machine.execXori e rd ra imm s
  | .slli e rd ra n => Sys2Proof.Machine.execSlli e rd ra n s
  | .srli e rd ra n => Sys2Proof.Machine.execSrli e rd ra n s
  | .srai e rd ra n => Sys2Proof.Machine.execSrai e rd ra n s
  | .cmpi e ra imm => Sys2Proof.Machine.execCmpi e ra imm s
  | .tsti e ra imm => Sys2Proof.Machine.execTsti e ra imm s
  | .li e rd imm => Sys2Proof.Machine.execLi e rd imm s
  | .addl e rd ra imm => Sys2Proof.Machine.execAddl e rd ra imm s
  | .orh e rd ra imm => Sys2Proof.Machine.execOrh e rd ra imm s
  | .cmpl e ra imm => Sys2Proof.Machine.execCmpl e ra imm s
  | .ldx e w rd ra imm => Sys2Proof.Machine.execLdx e w rd ra imm s
  | .ldg e w rd ra imm => Sys2Proof.Machine.execLdg e w rd ra imm s
  | .ldc e w rd ra imm => Sys2Proof.Machine.execLdc e w rd ra imm s
  | .stx e w rs ra imm => Sys2Proof.Machine.execStx e w rs ra imm s
  | .stg e w rs ra imm => Sys2Proof.Machine.execStg e w rs ra imm s
  | .stc e w rs ra imm => Sys2Proof.Machine.execStc e w rs ra imm s
  | .fadd e d rd ra rb => Sys2Proof.Machine.execFadd e d rd ra rb s
  | .swp e d rd ra rb => Sys2Proof.Machine.execSwp e d rd ra rb s
  | .cas e d rd ra rb => Sys2Proof.Machine.execCas e d rd ra rb s
  | .bCc e cond off => Sys2Proof.Machine.execBCc e cond off s
  | .callCc e cond off => Sys2Proof.Machine.execCallCc e cond off s
  | .jr e ra => Sys2Proof.Machine.execJr e ra s
  | .callr e ra => Sys2Proof.Machine.execCallr e ra s
  | .ret e => Sys2Proof.Machine.execRet e s
  | .srd e rd sreg => Sys2Proof.Machine.execSrd e rd sreg s
  | .swr e ra sreg => Sys2Proof.Machine.execSwr e ra sreg s
  | .sbis e ra sreg => Sys2Proof.Machine.execSbis e ra sreg s
  | .sbic e ra sreg => Sys2Proof.Machine.execSbic e ra sreg s
  | .nop e => Sys2Proof.Machine.execNop e s
  | .wait e => Sys2Proof.Machine.execWait e s
  | .end_ e => Sys2Proof.Machine.execEnd e s
  | .tdiff e rd ra rb => Sys2Proof.Machine.execTdiff e rd ra rb s
  | .tcmp e ra rb => Sys2Proof.Machine.execTcmp e ra rb s
  | .move e rd => Sys2Proof.Machine.execMove e rd s
  | .ctxack e rd => Sys2Proof.Machine.execCtxack e rd s
  | .xlt e rd ra xu => Sys2Proof.Machine.execXlt e rd ra xu s
  | .xltDrain e rd ra => Sys2Proof.Machine.execXltDrain e rd ra s
  | .fmark e => Sys2Proof.Machine.execFmark e s
  | .fenceP e rd => Sys2Proof.Machine.execFenceP e rd s
  | .lock e w sp rd ra => Sys2Proof.Machine.execLock e w sp rd ra s
  | .unlock e w sp rs ra => Sys2Proof.Machine.execUnlock e w sp rs ra s
  | .acq e rd num => Sys2Proof.Machine.execAcq e rd num s
  | .rel e rd num => Sys2Proof.Machine.execRel e rd num s
  | .acqr e rd ra => Sys2Proof.Machine.execAcqr e rd ra s
  | .relr e rd ra => Sys2Proof.Machine.execRelr e rd ra s
  | .umsg e unit => Sys2Proof.Machine.execUmsg e unit s
  | .raise e v => Sys2Proof.Machine.execRaise e v s
  | .raiser e ra => Sys2Proof.Machine.execRaiser e ra s
  | .engineReplyArrive e n => Sys2Proof.Machine.execEngineReplyArrive e n s
  | .fencePAnswersDone e => Sys2Proof.Machine.execFencePAnswersDone e s
  | .engineStallResume e => Sys2Proof.Machine.execEngineStallResume e s
  | .moverReadIssue c k => Sys2Proof.Machine.execMoverReadIssue c k s
  | .moverReadComplete c n => Sys2Proof.Machine.execMoverReadComplete c n s
  | .moverWriteSend c k => Sys2Proof.Machine.execMoverWriteSend c k s
  | .contextComplete c k => Sys2Proof.Machine.execContextComplete c k s
  | .raiseRequestPresent e => Sys2Proof.Machine.execRaiseRequestPresent e s
  | .unitMessageArrive ni n => Sys2Proof.Machine.execUnitMessageArrive ni n s
  | .unitMessageLandFromHold e => Sys2Proof.Machine.execUnitMessageLandFromHold e s
  | .sqTailDb fn q tail => Sys2Proof.Machine.execSqTailDb fn q tail s
  | .cqHeadDb fn q head => Sys2Proof.Machine.execCqHeadDb fn q head s
  | .doorbellSqTail n => Sys2Proof.Machine.execDoorbellSqTail n s
  | .doorbellCqHead n => Sys2Proof.Machine.execDoorbellCqHead n s
  | .queueWakeSend qid => Sys2Proof.Machine.execQueueWakeSend qid s
  | .qmQheadWrite n => Sys2Proof.Machine.execQmQheadWrite n s
  | .qmQerrWrite n => Sys2Proof.Machine.execQmQerrWrite n s
  | .qidReturn n => Sys2Proof.Machine.execQidReturn n s
  | .qPointerRead n => Sys2Proof.Machine.execQPointerRead n s
  | .queueEnable fn q => Sys2Proof.Machine.execQueueEnable fn q s
  | .queueDisable fn q => Sys2Proof.Machine.execQueueDisable fn q s
  | .queueSkip fn q => Sys2Proof.Machine.execQueueSkip fn q s
  | .queueErrClear fn q => Sys2Proof.Machine.execQueueErrClear fn q s
  | .xltLookup x => Sys2Proof.Machine.execXltLookup x s
  | .xuMissCopyArrive x m copy => Sys2Proof.Machine.execXuMissCopyArrive x m copy s
  | .copyRewriteExecute => Sys2Proof.Machine.execCopyRewriteExecute s
  | .hpiTranslationReply k n => Sys2Proof.Machine.execHpiTranslationReply k n s
  | .winCmdCommit w => Sys2Proof.Machine.execWinCmdCommit w s
  | .commitExecute => Sys2Proof.Machine.execCommitExecute s
  | .commitAcksDone => Sys2Proof.Machine.execCommitAcksDone s
  | .winCmdBump w => Sys2Proof.Machine.execWinCmdBump w s
  | .bumpExecute => Sys2Proof.Machine.execBumpExecute s
  | .winCmdDrain w => Sys2Proof.Machine.execWinCmdDrain w s
  | .drainStart x n => Sys2Proof.Machine.execDrainStart x n s
  | .probeArrive ni n => Sys2Proof.Machine.execProbeArrive ni n s
  | .probeAnswer ni n => Sys2Proof.Machine.execProbeAnswer ni n s
  | .drainProbesDone x n => Sys2Proof.Machine.execDrainProbesDone x n s
  | .dxvWriteExecute => Sys2Proof.Machine.execDxvWriteExecute s
  | .teCmdWrite w => Sys2Proof.Machine.execTeCmdWrite w s
  | .teCmdRead w => Sys2Proof.Machine.execTeCmdRead w s
  | .entryWriteExecute => Sys2Proof.Machine.execEntryWriteExecute s
  | .winSelWrite w value => Sys2Proof.Machine.execWinSelWrite w value s
  | .fWinWrite w fn value => Sys2Proof.Machine.execFWinWrite w fn value s
  | .xltLocWrite w value => Sys2Proof.Machine.execXltLocWrite w value s
  | .perstAssert k => Sys2Proof.Machine.execPerstAssert k s
  | .perstDeassert k => Sys2Proof.Machine.execPerstDeassert k s
  | .hotResetReceived k => Sys2Proof.Machine.execHotResetReceived k s
  | .linkDisableReceived k => Sys2Proof.Machine.execLinkDisableReceived k s
  | .surpriseRemoval k => Sys2Proof.Machine.execSurpriseRemoval k s
  | .dlDown k => Sys2Proof.Machine.execDlDown k s
  | .hostLinkUp k speed width flit => Sys2Proof.Machine.execHostLinkUp k speed width flit s
  | .hostLinkStateChange k st width => Sys2Proof.Machine.execHostLinkStateChange k st width s
  | .hostMemWrite k t => Sys2Proof.Machine.execHostMemWrite k t s
  | .hostMemRead k t => Sys2Proof.Machine.execHostMemRead k t s
  | .hostAtomicop k op t => Sys2Proof.Machine.execHostAtomicop k op t s
  | .hostConfigRequest k rid r => Sys2Proof.Machine.execHostConfigRequest k rid r s
  | .hostCompletionArrive k cpl => Sys2Proof.Machine.execHostCompletionArrive k cpl s
  | .hostVdmArrive k fn vendor dw3 msg => Sys2Proof.Machine.execHostVdmArrive k fn vendor dw3 msg s
  | .hostRequestIssue k n => Sys2Proof.Machine.execHostRequestIssue k n s
  | .hostCompletionTimeout k tag => Sys2Proof.Machine.execHostCompletionTimeout k tag s
  | .tagCoolExpire g tag => Sys2Proof.Machine.execTagCoolExpire g tag s
  | .flrInitiate fn => Sys2Proof.Machine.execFlrInitiate fn s
  | .vfEnableClear k => Sys2Proof.Machine.execVfEnableClear k s
  | .ltrSend k => Sys2Proof.Machine.execLtrSend k s
  | .hostEgressSend k => Sys2Proof.Machine.execHostEgressSend k s
  | .lnkEnable w p => Sys2Proof.Machine.execLnkEnable w p s
  | .lnkDisable w p => Sys2Proof.Machine.execLnkDisable w p s
  | .lnkModeWrite w p test => Sys2Proof.Machine.execLnkModeWrite w p test s
  | .lnkCtlRetrain w p => Sys2Proof.Machine.execLnkCtlRetrain w p s
  | .widthChange w p width => Sys2Proof.Machine.execWidthChange w p width s
  | .helloSend p => Sys2Proof.Machine.execHelloSend p s
  | .hello p rate loopOk width ident => Sys2Proof.Machine.execHello p rate loopOk width ident s
  | .rate p rate => Sys2Proof.Machine.execRate p rate s
  | .eqReq p lane tap up => Sys2Proof.Machine.execEqReq p lane tap up s
  | .eqAck p lane pre main post clamped => Sys2Proof.Machine.execEqAck p lane pre main post clamped s
  | .eqDone p => Sys2Proof.Machine.execEqDone p s
  | .locked p => Sys2Proof.Machine.execLocked p s
  | .retrain p => Sys2Proof.Machine.execRetrain p s
  | .linkDown p => Sys2Proof.Machine.execLinkDown p s
  | .sleep p => Sys2Proof.Machine.execSleep p s
  | .loopReq p mask enter => Sys2Proof.Machine.execLoopReq p mask enter s
  | .loopAck p done => Sys2Proof.Machine.execLoopAck p done s
  | .mlInvalidMessage p type => Sys2Proof.Machine.execMlInvalidMessage p type s
  | .trainingTimeout p => Sys2Proof.Machine.execTrainingTimeout p s
  | .eqCheckPass p => Sys2Proof.Machine.execEqCheckPass p s
  | .codewordReceive p lane corrected uncorrectable => Sys2Proof.Machine.execCodewordReceive p lane corrected uncorrectable s
  | .codewordLockGain p lane inverted => Sys2Proof.Machine.execCodewordLockGain p lane inverted s
  | .codewordLockLoss p lane => Sys2Proof.Machine.execCodewordLockLoss p lane s
  | .wakePatternDetect p => Sys2Proof.Machine.execWakePatternDetect p s
  | .laneInjSingle w p lane => Sys2Proof.Machine.execLaneInjSingle w p lane s
  | .laneInjBurst w p lane => Sys2Proof.Machine.execLaneInjBurst w p lane s
  | .laneInjRate w p lane => Sys2Proof.Machine.execLaneInjRate w p lane s
  | .laneInjStop w p lane => Sys2Proof.Machine.execLaneInjStop w p lane s
  | .laneCheckerEnable w p lane => Sys2Proof.Machine.execLaneCheckerEnable w p lane s
  | .checkerLock p lane => Sys2Proof.Machine.execCheckerLock p lane s
  | .checkerLoss p lane wrong => Sys2Proof.Machine.execCheckerLoss p lane wrong s
  | .controlSlotSend p => Sys2Proof.Machine.execControlSlotSend p s
  | .lcb p ackseq np hcnt dcnt => Sys2Proof.Machine.execLcb p ackseq np hcnt dcnt s
  | .nak p ackseq => Sys2Proof.Machine.execNak p ackseq s
  | .init p np hcred dcred => Sys2Proof.Machine.execInit p np hcred dcred s
  | .resume p ackseq keep => Sys2Proof.Machine.execResume p ackseq keep s
  | .erroredFrame p f => Sys2Proof.Machine.execErroredFrame p f s
  | .partnerRead p f => Sys2Proof.Machine.execPartnerRead p f s
  | .partnerWrite p f => Sys2Proof.Machine.execPartnerWrite p f s
  | .partnerDoorbellMessage p f => Sys2Proof.Machine.execPartnerDoorbellMessage p f s
  | .partnerInterruptMessage p f => Sys2Proof.Machine.execPartnerInterruptMessage p f s
  | .partnerUnitMessage p f => Sys2Proof.Machine.execPartnerUnitMessage p f s
  | .partnerTunnelledMessage p f => Sys2Proof.Machine.execPartnerTunnelledMessage p f s
  | .partnerCompletion p f => Sys2Proof.Machine.execPartnerCompletion p f s
  | .partnerLockTransaction p f => Sys2Proof.Machine.execPartnerLockTransaction p f s
  | .frameSend p => Sys2Proof.Machine.execFrameSend p s
  | .replayTimeout p => Sys2Proof.Machine.execReplayTimeout p s
  | .stallMicrosecond p => Sys2Proof.Machine.execStallMicrosecond p s
  | .droughtEpochEnd p => Sys2Proof.Machine.execDroughtEpochEnd p s
  | .leakSnapshot p => Sys2Proof.Machine.execLeakSnapshot p s
  | .linkDeparture p => Sys2Proof.Machine.execLinkDeparture p s
  | .graceExpire p => Sys2Proof.Machine.execGraceExpire p s
  | .llCompletionTimeout p tag => Sys2Proof.Machine.execLlCompletionTimeout p tag s
  | .prefetchExpire p n => Sys2Proof.Machine.execPrefetchExpire p n s
  | .farLockOpen p => Sys2Proof.Machine.execFarLockOpen p s
  | .portResponseArrive p n => Sys2Proof.Machine.execPortResponseArrive p n s
  | .interruptRequest n => Sys2Proof.Machine.execInterruptRequest n s
  | .msixWriteStamp n => Sys2Proof.Machine.execMsixWriteStamp n s
  | .modIntervalExpire entry => Sys2Proof.Machine.execModIntervalExpire entry s
  | .pendingVectorDeliver fn v => Sys2Proof.Machine.execPendingVectorDeliver fn v s
  | .msixTableWrite fn off width value => Sys2Proof.Machine.execMsixTableWrite fn off width value s
  | .fVecWrite w fn value => Sys2Proof.Machine.execFVecWrite w fn value s
  | .fSvcWrite w fn value => Sys2Proof.Machine.execFSvcWrite w fn value s
  | .svcLvCommit w => Sys2Proof.Machine.execSvcLvCommit w s
  | .slotCommit w k => Sys2Proof.Machine.execSlotCommit w k s
  | .fenceApply ni n => Sys2Proof.Machine.execFenceApply ni n s
  | .fnResetDrainDone fn => Sys2Proof.Machine.execFnResetDrainDone fn s
  | .countQuery ni n => Sys2Proof.Machine.execCountQuery ni n s
  | .countAnswer ni n => Sys2Proof.Machine.execCountAnswer ni n s
  | .damagedRequestNotice ni n => Sys2Proof.Machine.execDamagedRequestNotice ni n s
  | .damagedPostedNotice ni n => Sys2Proof.Machine.execDamagedPostedNotice ni n s
  | .violationRecord n => Sys2Proof.Machine.execViolationRecord n s
  | .postedFaultRecord n => Sys2Proof.Machine.execPostedFaultRecord n s
  | .traceRecord n => Sys2Proof.Machine.execTraceRecord n s
  | .scrubRead bank => Sys2Proof.Machine.execScrubRead bank s
  | .psScrubRead c => Sys2Proof.Machine.execPsScrubRead c s
  | .trcMark w value => Sys2Proof.Machine.execTrcMark w value s
  | .trcFullClear w => Sys2Proof.Machine.execTrcFullClear w s
  | .logDataRead w => Sys2Proof.Machine.execLogDataRead w s
  | .errInjPayloadParity w ni => Sys2Proof.Machine.execErrInjPayloadParity w ni s
  | .errInjHeaderParity w ni => Sys2Proof.Machine.execErrInjHeaderParity w ni s
  | .errInjStampParity w ni => Sys2Proof.Machine.execErrInjStampParity w ni s
  | .errInjStagingSingle w addr => Sys2Proof.Machine.execErrInjStagingSingle w addr s
  | .errInjStagingDouble w addr => Sys2Proof.Machine.execErrInjStagingDouble w addr s
  | .errInjPsSingle w ni addr => Sys2Proof.Machine.execErrInjPsSingle w ni addr s
  | .errInjPsDouble w ni addr => Sys2Proof.Machine.execErrInjPsDouble w ni addr s
  | .errInjControlCode w addr => Sys2Proof.Machine.execErrInjControlCode w addr s
  | .errInjEcrc w ni => Sys2Proof.Machine.execErrInjEcrc w ni s
  | .maintenanceClaim act src => Sys2Proof.Machine.execMaintenanceClaim act src s
  | .idleTimerExpire d => Sys2Proof.Machine.execIdleTimerExpire d s
  | .domainEntryAbort d src => Sys2Proof.Machine.execDomainEntryAbort d src s
  | .domainWakeRequest d src => Sys2Proof.Machine.execDomainWakeRequest d src s
  | .powerGood d => Sys2Proof.Machine.execPowerGood d s
  | .wakePowerTimeout d => Sys2Proof.Machine.execWakePowerTimeout d s
  | .wakePllLock d => Sys2Proof.Machine.execWakePllLock d s
  | .wakePllTimeout d => Sys2Proof.Machine.execWakePllTimeout d s
  | .wakeRetryDelayExpire d => Sys2Proof.Machine.execWakeRetryDelayExpire d s
  | .pdTimerLead c => Sys2Proof.Machine.execPdTimerLead c s
  | .wakeSenseTrigger => Sys2Proof.Machine.execWakeSenseTrigger s
  | .deepIdleEnter => Sys2Proof.Machine.execDeepIdleEnter s
  | .domainRetry w d => Sys2Proof.Machine.execDomainRetry w d s
  | .domainForceOn w d => Sys2Proof.Machine.execDomainForceOn w d s
  | .mgcSrcWrite w src => Sys2Proof.Machine.execMgcSrcWrite w src s
  | .clkreqAssert k => Sys2Proof.Machine.execClkreqAssert k s
  | .bootFuseStage => Sys2Proof.Machine.execBootFuseStage s
  | .bootRomStage => Sys2Proof.Machine.execBootRomStage s
  | .bootReadSlot b => Sys2Proof.Machine.execBootReadSlot b s
  | .bootVerifySlot => Sys2Proof.Machine.execBootVerifySlot s
  | .bootKeyRecords => Sys2Proof.Machine.execBootKeyRecords s
  | .bootLoad => Sys2Proof.Machine.execBootLoad s
  | .bootStart => Sys2Proof.Machine.execBootStart s
  | .clockLockHoldExpire => Sys2Proof.Machine.execClockLockHoldExpire s
  | .initTimeout c => Sys2Proof.Machine.execInitTimeout c s
  | .bootReady => Sys2Proof.Machine.execBootReady s
  | .bootRecovery => Sys2Proof.Machine.execBootRecovery s
  | .commitOwnerCount w => Sys2Proof.Machine.execCommitOwnerCount w s
  | .commitVendorCount w => Sys2Proof.Machine.execCommitVendorCount w s
  | .flashErase w => Sys2Proof.Machine.execFlashErase w s
  | .flashWr w => Sys2Proof.Machine.execFlashWr w s
  | .flashOpComplete ok => Sys2Proof.Machine.execFlashOpComplete ok s
  | .doeDiscovery k index => Sys2Proof.Machine.execDoeDiscovery k index s
  | .getVersion k => Sys2Proof.Machine.execGetVersion k s
  | .getCapabilities k => Sys2Proof.Machine.execGetCapabilities k s
  | .negotiateAlgorithms k => Sys2Proof.Machine.execNegotiateAlgorithms k s
  | .getDigests k => Sys2Proof.Machine.execGetDigests k s
  | .getCertificate k slot off len => Sys2Proof.Machine.execGetCertificate k slot off len s
  | .challenge k slot nonce => Sys2Proof.Machine.execChallenge k slot nonce s
  | .getMeasurements k index sign nonce => Sys2Proof.Machine.execGetMeasurements k index sign nonce s
  | .spdmUnsupportedRequest k code => Sys2Proof.Machine.execSpdmUnsupportedRequest k code s
  | .spdmSignComplete => Sys2Proof.Machine.execSpdmSignComplete s
  | .doeAbort k => Sys2Proof.Machine.execDoeAbort k s
  | .thermUpdate t0 t1 t2 t3 => Sys2Proof.Machine.execThermUpdate t0 t1 t2 t3 s
  | .thermtripAssert sensor t => Sys2Proof.Machine.execThermtripAssert sensor t s
  | .lrefclkLoss => Sys2Proof.Machine.execLrefclkLoss s
  | .mgmtMessageCrcError p => Sys2Proof.Machine.execMgmtMessageCrcError p s
  | .undefinedTtFrame p f => Sys2Proof.Machine.execUndefinedTtFrame p f s
  | .domainIsolation d => Sys2Proof.Machine.execDomainIsolation d s
  | .partnerSleepTimeout d => Sys2Proof.Machine.execPartnerSleepTimeout d s
  | .mgcPllLock => Sys2Proof.Machine.execMgcPllLock s
  | .pllLockDrop tbu => Sys2Proof.Machine.execPllLockDrop tbu s

end Sys2Proof.Machine
end

