-- ==== Sys2Proof/Safety.lean ====
section
/-!
DEFINITION. What counts as a sound state of the block and as a safe run, in the terms that claims use.
-/
namespace Sys2Proof.Machine

/-- Every memory is in its canonical form: staging memory with its poison and check marks, scratch, program stores. -/
def Memory.wf (m : MemGrp) : Bool :=
  mwf 0 m.cells && mwf false m.poison && mwf 0 m.ecc && mwf 0 m.scratch && mwf false m.scrPoison && mwf 0 m.ps
    && mwf 0 m.psEcc

/-- Active values and shadows of the register file are in their canonical form. -/
def RegFile.wf (r : RegGrp) : Bool := mwf none r.act && mwf none r.shad

/-- Memories and register file are in canonical form. -/
def State.wf (s : State) : Bool := Memory.wf s.mem && RegFile.wf s.reg

/-- What fuses can do (R464, R465): a count never falls, a fused hash never changes, and ENROLLED, REVOKED and
DEBUG_LOCK stay once blown. -/
def fusesKept (a b : BootGrp) : Prop :=
  a.ownerCount ≤ b.ownerCount ∧ a.vendorCount ≤ b.vendorCount ∧ (a.debugLock = true → b.debugLock = true)
    ∧ ∀ k, ((mget {} a.fuseKeys k).hash ≠ 0 → (mget {} b.fuseKeys k).hash = (mget {} a.fuseKeys k).hash)
      ∧ ((mget {} a.fuseKeys k).enrolled = true → (mget {} b.fuseKeys k).enrolled = true)
      ∧ ((mget {} a.fuseKeys k).revoked = true → (mget {} b.fuseKeys k).revoked = true)

/-- A run of `n` steps stops at no fault and no refusal. -/
def runsFor (n : Nat) (s : State) : Prop :=
  match n with
  | 0 => True
  | n + 1 => ∃ t, step s = .next t ∧ runsFor n t

end Sys2Proof.Machine
end

