-- ==== Sys2Proof/Certificates/Slice0/Obligations.lean ====
section
/-!
DEFINITION. What this sitting states of the block for the provers, with the predicates the statements share.
-/
open Sys2Proof Sys2Proof.Machine

namespace Sys2Proof.Claims

/-- Outside power-on reset (R456, R479). -/
abbrev up (s : State) : Prop := s.inPor = false

/-- What power-on reset leaves (R456): fuses, flash and the pins stay, everything else has its reset value. -/
abbrev clearedByReset (s t : State) : Prop :=
  t.tb = {} ∧ t.reg = {} ∧ t.mem = {} ∧ t.fab = {} ∧ t.ord = {} ∧ t.arb = {} ∧ t.pcl = {} ∧ t.qm = {} ∧ t.xlt = {}
    ∧ t.fn = {} ∧ t.err = {} ∧ t.pwr = {} ∧ t.port.cfg = [] ∧ t.port.tags = [] ∧ t.port.lpis = [] ∧ t.port.slots = []
    ∧ (∀ k < 2, t.hpi k = { perst := (s.hpi k).perst })
    ∧ t.boot = { fuseKeys := s.boot.fuseKeys, ownerCount := s.boot.ownerCount, vendorCount := s.boot.vendorCount
                 debugLock := s.boot.debugLock, fuseBad := s.boot.fuseBad, flash := s.boot.flash, torn := s.boot.torn }

/-- The word that engine e fetches, `k` words after s.pc, as the store holds it. -/
abbrev wordAt (s : State) (e k : Nat) : Nat := (s.psWord (psKey (clOf e) ((s.eng e).pc + k))).toNat

/-- Engine e is about to run `i`: the block is up, the engine is in RUN with nothing outstanding, neither budget nor an
uncorrectable word stops the fetch, both words of format L lie in the store, and the words at s.pc spell `i`. -/
abbrev runs (s : State) (e : Nat) (i : Soref) : Prop :=
  up s ∧ s.ready e = true ∧ overBudget (s.eng e) = false ∧ (s.eng e).cutPend = none
    ∧ s.psUe (clOf e) (s.eng e).pc = false
    ∧ (isLong (wordAt s e 0) = true → (s.eng e).pc + 1 < 131072 ∧ s.psUe (clOf e) ((s.eng e).pc + 1) = false)
    ∧ decodeSoref (wordAt s e 0) (wordAt s e 1) = some i

/-- What a fetch itself does: it restarts the idle timer of the cluster's domain and corrects single-bit errors of the
words fetched, and with words free of errors nothing else. -/
def fetched (s : State) (e : Nat) : State :=
  touch (6 + clOf e) (if isLong (wordAt s e 0) then psCorrect (clOf e) ((s.eng e).pc + 1) (psCorrect (clOf e) (s.eng e).pc s)
    else psCorrect (clOf e) (s.eng e).pc s)

/-- Between `u` and `t` only the pacers' state changed, and of it only engine e's and its registers. -/
def onlyEngine (u t : State) (e : Nat) : Prop :=
  { t with pcl := u.pcl } = u ∧ t.pcl.clus = u.pcl.clus ∧ t.pcl.ctxs = u.pcl.ctxs
    ∧ (∀ e', e' ≠ e → t.eng e' = u.eng e') ∧ (∀ k, k / 32 ≠ e → t.greg k = u.greg k)

/-- Engine e completed its instruction: its state is `x` with one more instruction counted and s.pc at `npc`. -/
def completed (s t : State) (e npc : Nat) (x : Eng) : Prop :=
  t.eng e = { x with pc := npc % 2 ^ 17, icnt := min (x.icnt + 1) 0xFFFFFFFF } ∧ onlyEngine (fetched s e) t e

/-- Every general register of engine e but g0, which reads as zero, and RD, which takes `v`, holds what it held. -/
def writes (s t : State) (e : Nat) (rd : Fin 32) (v : Word) : Prop :=
  t.gr e 0 = 0 ∧ ∀ r < 32, t.gr e r = if r = rd.val ∧ r ≠ 0 then v else s.gr e r

/-- No general register of engine e changed. -/
def keepsRegs (s t : State) (e : Nat) : Prop := ∀ r < 32, t.gr e r = s.gr e r

/-- s.flags of N, Z, C and V (Table 6-2: bits 3 to 0). -/
def flagNat (n z c v : Bool) : Nat :=
  (if n then 8 else 0) + (if z then 4 else 0) + (if c then 2 else 0) + (if v then 1 else 0)

/-- A number lies in the range of 64-bit signed numbers. -/
def fits (n : Int) : Bool := decide (-2 ^ 63 ≤ n ∧ n < 2 ^ 63)

/-- The flags of a sum and of a difference. -/
def sumFlags (a b : Word) : Nat :=
  flagNat (decide ((a + b).toInt < 0)) (decide (a + b = 0)) (decide (2 ^ 64 ≤ a.toNat + b.toNat))
    (!fits (a.toInt + b.toInt))
/-- The flags of a difference: C is the borrow. -/
def diffFlags (a b : Word) : Nat :=
  flagNat (decide ((a - b).toInt < 0)) (decide (a = b)) (decide (a.toNat < b.toNat)) (!fits (a.toInt - b.toInt))

/-- The command answers the state in which a one-word instruction of engine e wrote `v` to RD and `fl` to s.flags. -/
def gives (c : Instr) (s : State) (e : Fin 64) (rd : Fin 32) (v : Word) (fl : Nat) : Prop :=
  ∃ t, Sys2Proof.Machine.exec c s = .next t ∧ writes s t e rd v
    ∧ completed s t e ((s.eng e).pc + 1) { s.eng e with flags := fl }

/-- The same for an instruction that writes only flags. -/
def givesFlags (c : Instr) (s : State) (e : Fin 64) (fl : Nat) : Prop :=
  ∃ t, Sys2Proof.Machine.exec c s = .next t ∧ keepsRegs s t e
    ∧ completed s t e ((s.eng e).pc + 1) { s.eng e with flags := fl }

/-- The same for an instruction of format L. -/
def givesLong (c : Instr) (s : State) (e : Fin 64) (rd : Fin 32) (v : Word) (fl : Nat) : Prop :=
  ∃ t, Sys2Proof.Machine.exec c s = .next t ∧ writes s t e rd v
    ∧ completed s t e ((s.eng e).pc + 2) { s.eng e with flags := fl }

/-- s.flags of a result: Z and N from it, C and V given. -/
def zn (r : Word) (c v : Bool) : Nat := flagNat (decide (r.toInt < 0)) (decide (r = 0)) c v

/-- The carry of a shift by `n`, from 0 to 63 (R184): the last bit shifted out, 0 where none is. -/
def outLeft (a : Word) (n : Nat) : Bool := decide (n ≠ 0) && decide (a.toNat / 2 ^ (64 - n) % 2 = 1)
/-- The last bit that a right shift drops. -/
def outRight (a : Word) (n : Nat) : Bool := decide (n ≠ 0) && decide (a.toNat / 2 ^ (n - 1) % 2 = 1)
/-- V of s.flags. -/
def vOf (s : State) (e : Fin 64) : Bool := decide ((s.eng e).flags % 2 = 1)
/-- C of s.flags. -/
def cOf (s : State) (e : Fin 64) : Bool := decide ((s.eng e).flags / 2 % 2 = 1)

/-- The elapsed time from b to a (R200): (a - b) modulo 2^48 as a signed number of 48 bits. -/
def elapsed (a b : Word) : Int := ((a.toNat % 2 ^ 48 : Int) - (b.toNat % 2 ^ 48 : Int)).bmod (2 ^ 48)

/-- The command answers the state in which engine e enters a fault instead of completing, after its fetch. -/
def traps (c : Instr) (s : State) (e : Fin 64) (code addr info : Nat) : Prop :=
  Sys2Proof.Machine.exec c s = .next (raiseFault e code addr info (fetched s e))

/-- The command answers a state in which the engine, with state `x` and its registers as they were, continues at
`npc`. -/
def goesTo (c : Instr) (s : State) (e : Fin 64) (npc : Nat) (x : Eng) : Prop :=
  ∃ t, Sys2Proof.Machine.exec c s = .next t ∧ keepsRegs s t e ∧ completed s t e npc x

/-- The conditions of Table 7-4 over N, Z, C and V. -/
def taken (c : Cond) (n z cy v : Bool) : Bool :=
  match c with
  | .al => true | .eq => z | .ne => !z | .lt => n != v | .ge => n == v | .ltu => cy | .geu => !cy
  | .gt => !z && n == v | .le => z || n != v | .gtu => !cy && !z | .leu => cy || z
  | .mi => n | .pl => !n | .vs => v | .vc => !v

/-- Whether engine e's flags meet a condition (R169). -/
def takes (c : Cond) (s : State) (e : Fin 64) : Bool :=
  let f := (s.eng e).flags
  taken c (decide (f / 8 % 2 = 1)) (decide (f / 4 % 2 = 1)) (decide (f / 2 % 2 = 1)) (decide (f % 2 = 1))

/-- A return address on top of the return stack. -/
def pushed (s : State) (e : Fin 64) : Eng :=
  { s.eng e with stack := ((s.eng e).pc + 1) % 2 ^ 17 :: (s.eng e).stack }

/-- The engine after SWR of `v` to an RW special register (Table 6-2); none where the number is not one. -/
def swrTo (x : Eng) (n : Nat) (v : Word) : Option Eng :=
  match n with
  | 0x00 => some { x with fn := v.toNat % 2 ^ 11 }
  | 0x06 => some { x with emask := v.toNat % 2 ^ 16 }
  | 0x07 => some { x with tmr := v.toNat % 2 ^ 48 }
  | 0x08 => some { x with flags := v.toNat % 2 ^ 4 }
  | 0x0A => some { x with fault := v.toNat % 2 ^ 8 }
  | _ => none

/-- The value that an RW special register holds. -/
def rwOf (x : Eng) (n : Nat) : Word :=
  BitVec.ofNat 64 (match n with
    | 0x00 => x.fn | 0x06 => x.emask | 0x07 => x.tmr | 0x08 => x.flags | 0x0A => x.fault | _ => 0)

/-- SWR, SBIS or SBIC ends with the engine `y`, or raises PRIV where there is none. -/
def setsOrPriv (c : Instr) (s : State) (e : Fin 64) (y : Option Eng) : Prop :=
  match y with
  | some x => goesTo c s e ((s.eng e).pc + 1) x
  | none => traps c s e 0x0E 0 0

/-- A packet of engine e for the FN in s.fn, with its main tag, and with the given class, type, place and data. -/
def isReq (s : State) (e : Fin 64) (p : Packet) (cls ty dst asp addr len : Nat) (data : List Byte)
    (xv swap : Nat := 0) : Prop :=
  p.cls = cls ∧ p.ty = ty ∧ p.src = 10 + e.val / 8 ∧ p.dst = dst ∧ p.fn = (s.eng e).fn ∧ p.tag = 16 * (e.val % 8)
    ∧ p.asp = asp ∧ p.addr = addr ∧ p.len = len ∧ p.data = data
    ∧ p.xv = xv ∧ p.swap = swap

/-- From `u` to `t` engine e handed on `p`: to the mover egress where its slot is free (a RAISE waits even so), else it
waits behind the engine's earlier packets. Beside the pacers' state only that arbiter's requests changed. -/
def hands (u t : State) (e : Fin 64) (p : Packet) : Prop :=
  (if u.slotFree e = true ∧ p.ty ≠ 0x12 then
      (t.eng e).outq = (u.eng e).outq
        ∧ t.arbiter (20 + e.val / 8)
          = { u.arbiter (20 + e.val / 8) with waiting := (u.arbiter (20 + e.val / 8)).waiting ++ [(e.val % 8, p)] }
    else (t.eng e).outq = (u.eng e).outq ++ [p] ∧ t.arbiter (20 + e.val / 8) = u.arbiter (20 + e.val / 8))
  ∧ (∀ a, a ≠ 20 + e.val / 8 → t.arbiter a = u.arbiter a) ∧ { t.arb with arbs := u.arb.arbs } = u.arb
  ∧ { t with pcl := u.pcl, arb := u.arb } = u ∧ t.pcl.ctxs = u.pcl.ctxs
  ∧ (∀ e', e' ≠ e.val → t.eng e' = u.eng e') ∧ (∀ k : Nat, k / 32 ≠ e.val → t.greg k = u.greg k)

/-- The command leaves engine e, in state `x` but for what it stalls on, stalled for the reply to a request of the given
form, with s.pc and its registers as they were. -/
def stallsFor (c : Instr) (s : State) (e : Fin 64) (st : Stall) (x : Eng) (cls ty dst asp addr len : Nat)
    (data : List Byte) (xv swap : Nat := 0) (clus : SMap Cluster := s.pcl.clus) : Prop :=
  ∃ t p, Sys2Proof.Machine.exec c s = .next t ∧ isReq s e p cls ty dst asp addr len data xv swap ∧ keepsRegs s t e
    ∧ t.eng e = { x with stall := st, stallTag := p.tag, stallDst := dst, stallAddr := addr, outq := (t.eng e).outq }
    ∧ hands (fetched s e) t e p ∧ t.pcl.clus = clus

/-- The command completes a posted instruction: the packet is handed on, s.pc and s.icnt advance, its destination is
noted for FENCE.P, and the engine stalls only while its slot is taken. -/
def postsA (c : Instr) (s : State) (e : Fin 64) (x : Eng) (cls ty dst asp addr len : Nat) (data : List Byte)
    (xv swap : Nat := 0) : Prop :=
  ∃ t p, Sys2Proof.Machine.exec c s = .next t ∧ isReq s e p cls ty dst asp addr len data xv swap ∧ keepsRegs s t e
    ∧ t.eng e = { x with
        pc := ((s.eng e).pc + 1) % 2 ^ 17
        icnt := min ((s.eng e).icnt + 1) 0xFFFFFFFF
        posted := if (s.eng e).posted.contains dst then (s.eng e).posted else (s.eng e).posted ++ [dst]
        stall := if (fetched s e).slotFree e then .none else .egress
        outq := (t.eng e).outq }
    ∧ hands (fetched s e) t e p ∧ t.pcl.clus = s.pcl.clus

/-- The checks of an access (R175, R189): RANGE, then ALIGN, raise their fault with the address; else `ok` holds. -/
def checked (c : Instr) (s : State) (e : Fin 64) (size a n : Nat) (ok : Prop) : Prop :=
  (size < a + n → traps c s e 4 a 0) ∧ (a + n ≤ size ∧ a % n ≠ 0 → traps c s e 3 a 0)
    ∧ (a + n ≤ size ∧ a % n = 0 → ok)

/-- The checks of a control access (R126, R189): PRIV, SPACE, then those of every access. -/
def ctlChecked (c : Instr) (s : State) (e : Fin 64) (store wide : Bool) (a n : Nat) (ok : Prop) : Prop :=
  (a < 0x2000000 ∧ progReach store a = false → traps c s e 0x0E a 0)
    ∧ (¬(a < 0x2000000 ∧ progReach store a = false) →
        (wide = false → traps c s e 5 a 0) ∧ (wide = true → checked c s e 0x2000000 a n ok))

/-- The reset fence of s.fn stands at the cluster's NI (R137). -/
abbrev shut (s : State) (e : Fin 64) : Prop := s.fencedAt e (s.eng e).fn = true
/-- It does not. -/
abbrev open_ (s : State) (e : Fin 64) : Prop := s.fencedAt e (s.eng e).fn = false

/-- The bytes of a load width and of a store width. -/
def ldLen : LdWidth → Nat
  | .b | .sb => 1 | .h | .sh => 2 | .w | .sw => 4 | .d => 8
/-- The bytes of a store. -/
def stLen : StWidth → Nat
  | .b => 1 | .h => 2 | .w => 4 | .d => 8
/-- The NI of the bank of a staging address: bits 25 to 22. -/
def bankOf (a : Nat) : Nat := 18 + a / 2 ^ 22 % 16

/-- Where LOCK or UNLOCK at `a` goes (R218): destination, space, XV and SWAP; local addresses use the translation word
in g20. -/
def lockPlace (s : State) (e : Fin 64) (sp : LockSpace) (a : Nat) : Nat × Nat × Nat × Nat :=
  match sp with
  | .stg => (bankOf a, 3, 0, 0)
  | .loc => ((fetched s e).portNi (bitsGet (s.gr e 20) 44 42), 2, bitsGet (s.gr e 20) 55 48, bitsGet (s.gr e 20) 59 57)

/-- A local address that the word in g20 does not cover (R218). -/
def lockAstray (s : State) (e : Fin 64) (sp : LockSpace) (a : Nat) : Prop :=
  sp = .loc ∧ (bitsGet (s.gr e 20) 63 60 ≠ 0 ∨ a / 2 ^ 24 ≠ bitsGet (s.gr e 20) 41 0 / 2 ^ 24)

/-- The size of the space. -/
def lockSize : LockSpace → Nat
  | .stg => 0x4000000
  | .loc => 2 ^ 42

/-- The bytes of LOCK and UNLOCK. -/
def lockLen : LockWidth → Nat
  | .w => 4 | .d => 8 | .q => 16

/-- The checks of LOCK and UNLOCK. -/
def lockChecked (c : Instr) (s : State) (e : Fin 64) (w : LockWidth) (sp : LockSpace) (a : Nat) (ok : Prop) : Prop :=
  (lockAstray s e sp a → traps c s e 4 a 0)
    ∧ (¬lockAstray s e sp a → checked c s e (lockSize sp) a (lockLen w) ok)

/-- The NI of a unit number (Table 9-6); none for a reserved one. -/
def unitAt (s : State) (e : Fin 64) (u : Nat) : Option Nat :=
  if u ≤ 0x3F then some (10 + u / 8) else if u ≤ 0x47 then some (u - 0x36) else if u = 0x48 then some 42
  else if 0x80 ≤ u ∧ u ≤ 0x87 then some ((fetched s e).portNi (u - 0x80)) else none

/-- The 56 bytes that UMSG sends: g16 to g22, each low byte first. -/
def msgBytes (s : State) (e : Fin 64) : List Byte :=
  [16, 17, 18, 19, 20, 21, 22].flatMap (fun r => leBytes 8 (s.gr e r).toNat)

/-- The UNLOCK that the engine's open belay awaits: the same target and space, and no reset fence. -/
abbrev closes (s : State) (e : Fin 64) (sp : LockSpace) (a : Nat) : Prop :=
  (s.eng e).belay = true ∧ (s.eng e).belayTarget = (lockPlace s e sp a).1 ∧ (s.eng e).belayLoc = (sp == .loc) ∧ open_ s e

/-- The value that a load of a width writes to RD, from the bytes as a number (Table 7-6). -/
def extended (w : LdWidth) (n : Nat) : Word :=
  match w with
  | .b => (BitVec.ofNat 8 n).zeroExtend 64 | .h => (BitVec.ofNat 16 n).zeroExtend 64
  | .w => (BitVec.ofNat 32 n).zeroExtend 64 | .d => BitVec.ofNat 64 n
  | .sb => (BitVec.ofNat 8 n).signExtend 64 | .sh => (BitVec.ofNat 16 n).signExtend 64
  | .sw => (BitVec.ofNat 32 n).signExtend 64

/-- The bytes of engine e's scratch from `a` on as a little-endian number. -/
def scratchNat (s : State) (e : Fin 64) (a n : Nat) : Nat :=
  leNat ((List.range n).map (fun i => s.scrByte (65536 * e.val + a + i)))

/-- The effect of STX (R190): byte i of the value lies at a + i of the engine's scratch, every other byte of any
engine's scratch is as before, a whole word loses its poison, a zero in the VALID byte of a slot frees it (R223), and
nothing else but s.pc and s.icnt changes. -/
def stored (s t : State) (e : Fin 64) (a n : Nat) (v : Word) : Prop :=
  let u := fetched s e
  let x := s.eng e
  keepsRegs s t e
    ∧ (∀ k, t.scrByte k = if 65536 * e.val + a ≤ k ∧ k < 65536 * e.val + a + n then
        BitVec.ofNat 8 (v.toNat / 256 ^ (k - (65536 * e.val + a))) else s.scrByte k)
    ∧ (∀ k, t.scrPoisonAt k = if n = 8 ∧ k = 8192 * e.val + a / 8 then false else s.scrPoisonAt k)
    ∧ (∀ k < 3, (t.eng e).slots.getD k true = ((decide (a ≤ 0xFE44 + 64 * k ∧ 0xFE44 + 64 * k < a + n)
        && BitVec.ofNat 8 (v.toNat / 256 ^ (0xFE44 + 64 * k - a)) == 0) || x.slots.getD k true))
    ∧ t.eng e = { x with
        pc := (x.pc + 1) % 2 ^ 17
        icnt := min (x.icnt + 1) 0xFFFFFFFF
        slots := (t.eng e).slots }
    ∧ { t with pcl := u.pcl, mem := u.mem } = u
    ∧ { t.mem with scratch := u.mem.scratch, scrPoison := u.mem.scrPoison } = u.mem
    ∧ t.pcl.clus = u.pcl.clus ∧ t.pcl.ctxs = u.pcl.ctxs ∧ (∀ e', e' ≠ e.val → t.eng e' = u.eng e')
    ∧ (∀ k : Nat, k / 32 ≠ e.val → t.greg k = u.greg k)

/-- The instruction that a Soref command runs, and its engine; a reserved encoding stands for none. -/
def sorefOf : Instr → Option (Fin 64 × Option Soref)
  | .reservedEncoding e => some (e, none)
  | .add e d a b => some (e, some (.add d a b)) | .sub e d a b => some (e, some (.sub d a b))
  | .and e d a b => some (e, some (.and d a b)) | .or e d a b => some (e, some (.or d a b))
  | .xor e d a b => some (e, some (.xor d a b)) | .andn e d a b => some (e, some (.andn d a b))
  | .cmp e a b => some (e, some (.cmp a b)) | .tst e a b => some (e, some (.tst a b))
  | .sll e d a b => some (e, some (.sll d a b)) | .srl e d a b => some (e, some (.srl d a b))
  | .sra e d a b => some (e, some (.sra d a b)) | .mul e d a b => some (e, some (.mul d a b))
  | .mulhu e d a b => some (e, some (.mulhu d a b)) | .clz e d a => some (e, some (.clz d a))
  | .addi e d a v => some (e, some (.addi d a v)) | .andi e d a v => some (e, some (.andi d a v))
  | .ori e d a v => some (e, some (.ori d a v)) | .xori e d a v => some (e, some (.xori d a v))
  | .slli e d a n => some (e, some (.slli d a n)) | .srli e d a n => some (e, some (.srli d a n))
  | .srai e d a n => some (e, some (.srai d a n)) | .cmpi e a v => some (e, some (.cmpi a v))
  | .tsti e a v => some (e, some (.tsti a v)) | .li e d v => some (e, some (.li d v))
  | .addl e d a v => some (e, some (.addl d a v)) | .orh e d a v => some (e, some (.orh d a v))
  | .cmpl e a v => some (e, some (.cmpl a v)) | .ldx e w d a v => some (e, some (.ldx w d a v))
  | .ldg e w d a v => some (e, some (.ldg w d a v)) | .ldc e w d a v => some (e, some (.ldc w d a v))
  | .stx e w d a v => some (e, some (.stx w d a v)) | .stg e w d a v => some (e, some (.stg w d a v))
  | .stc e w d a v => some (e, some (.stc w d a v)) | .fadd e w d a b => some (e, some (.fadd w d a b))
  | .swp e w d a b => some (e, some (.swp w d a b)) | .cas e w d a b => some (e, some (.cas w d a b))
  | .bCc e c o => some (e, some (.bCc c o)) | .callCc e c o => some (e, some (.callCc c o))
  | .jr e a => some (e, some (.jr a)) | .callr e a => some (e, some (.callr a)) | .ret e => some (e, some .ret)
  | .srd e d n => some (e, some (.srd d n)) | .swr e a n => some (e, some (.swr a n))
  | .sbis e a n => some (e, some (.sbis a n)) | .sbic e a n => some (e, some (.sbic a n))
  | .nop e => some (e, some .nop) | .wait e => some (e, some .wait) | .end_ e => some (e, some .end_)
  | .tdiff e d a b => some (e, some (.tdiff d a b)) | .tcmp e a b => some (e, some (.tcmp a b))
  | .move e d => some (e, some (.move d)) | .ctxack e d => some (e, some (.ctxack d))
  | .xlt e d a x => some (e, some (.xlt d a x)) | .xltDrain e d a => some (e, some (.xltDrain d a))
  | .fmark e => some (e, some .fmark) | .fenceP e d => some (e, some (.fenceP d))
  | .lock e w p d a => some (e, some (.lock w p d a)) | .unlock e w p d a => some (e, some (.unlock w p d a))
  | .acq e d n => some (e, some (.acq d n)) | .rel e d n => some (e, some (.rel d n))
  | .acqr e d a => some (e, some (.acqr d a)) | .relr e d a => some (e, some (.relr d a))
  | .umsg e u => some (e, some (.umsg u)) | .raise e v => some (e, some (.raise v))
  | .raiser e a => some (e, some (.raiser a))
  | _ => none

/-- The bytes of a fault record of engine e in state `u` (Table 6-6). -/
def recordOf (u : State) (e : Fin 64) (code nest addr info : Nat) : List Byte :=
  let x := u.eng e
  leBytes 8 (u.stampAt (10 + e.val / 8)).bits ++ leBytes 4 x.pc
    ++ leBytes 4 (u.psWord (131072 * (e.val / 8) + x.pc)).toNat ++ [BitVec.ofNat 8 code, BitVec.ofNat 8 nest]
    ++ leBytes 2 x.fn ++ leBytes 2 x.qid ++ [0, 0] ++ leBytes 8 addr ++ leBytes 4 info ++ List.replicate 28 0

/-- Scratch of `t` is that of `u` but for `data` from `off` on in engine e's. -/
def scratchTakes (u t : State) (e : Fin 64) (off : Nat) (data : List Byte) : Prop :=
  ∀ k, t.scrByte k = if 65536 * e.val + off ≤ k ∧ k < 65536 * e.val + off + data.length then
    data.getD (k - (65536 * e.val + off)) 0 else u.scrByte k

/-- What an NI hands its block of the packet at place `i` of those that have arrived: with payload parity checked, and the
state that has taken it out. -/
def got (ni i : Nat) (p : Packet) (s : State) : Packet × State :=
  checkParity ni p (s.setArrived ni (dropAt (s.arrived ni) i))

/-- From `u` to `t` engine e, in state `x` with no cut waiting, completed a one-word instruction that wrote `v` to RD. -/
def completesWith (u t : State) (e : Fin 64) (rd : Fin 32) (v : Word) (x : Eng) : Prop :=
  t.eng e = { x with
      pc := (x.pc + 1) % 2 ^ 17
      icnt := min (x.icnt + 1) 0xFFFFFFFF
      stall := .none }
    ∧ writes u t e rd v ∧ onlyEngine u t e

/-- The number of posted-fault records that FENCE.P reports (R217), all ones after a damaged posted packet (R412). -/
def faultCount (u : State) (e : Fin 64) (dam : Bool) : Nat :=
  if dam then 0xFFFFFFFF else u.pfrCount (u.eng e).fn (u.eng e).marker

/-- The task of engine e ended (R140, R202): the engine is IDLE without a QID and with one more instruction counted, and
its contexts are free; other contexts, other engines and every general register are as before. -/
def ended (s t : State) (e : Fin 64) : Prop :=
  t.eng e = { s.eng e with
      st := .idle
      ending := false
      stall := .none
      hold := false
      icnt := min ((s.eng e).icnt + 1) 0xFFFFFFFF
      ctx := 0x3FF
      ctxsts := 0
      done := []
      qid := 0xFFFF
      outq := (t.eng e).outq }
    ∧ (∀ k ∈ s.owned e, t.ctx k = {}) ∧ (∀ k, k ∉ s.owned e → t.ctx k = s.ctx k)
    ∧ (∀ e', e' ≠ e.val → t.eng e' = s.eng e') ∧ ∀ k, t.greg k = s.greg k

/-- The packet `p0` has arrived at place `i` of an NI, is a reply and has a good header. -/
abbrev replyAt (s : State) (ni i : Nat) (p0 : Packet) : Prop :=
  up s ∧ (s.arrived ni)[i]? = some p0 ∧ p0.cls = 2 ∧ p0.hdrBad = false

/-- ENGINE_REPLY_ARRIVE ends the stall of engine e with `v` in RD, from the state in which the reply is taken. -/
def repliesWith (s : State) (e : Fin 64) (i : Nat) (p0 : Packet) (rd : Fin 32) (v : Word) (x : Eng) : Prop :=
  ∃ t, Sys2Proof.Machine.exec (.engineReplyArrive e i) s = .next t
    ∧ completesWith (got (10 + e.val / 8) i p0 s).2 t e rd v x

/-- Writer `w` may write instance `i` of register `r` (R13), and the block is up. -/
abbrev may (s : State) (w : Writer) (r : RegId) (i : Nat) : Prop := up s ∧ writerOk w r i = true

/-- The three copies of an entry of a route or reach table hold the same value. -/
abbrev agreed (s : State) (unit d v : Nat) : Prop :=
  s.routeOf unit d 0 = v ∧ s.routeOf unit d 1 = v ∧ s.routeOf unit d 2 = v

/-- What a link's output sends next (R88): of the channels with a credit and a flit that waits, the first by rank, with
its flit and where the flit waits. -/
def nextOut (s : State) (l : Nat) (up : Bool) : Option (Nat × Flit × Contender) :=
  let ready := (List.range 8).filterMap (fun vc =>
    let k := 16 * l + 8 * (if up then 1 else 0) + vc
    if s.hasCredit k then (s.nextFlit k).map (fun x => (k, x.1, x.2)) else none)
  match bestOf (ready.map (fun x => { x.2.2 with via := some x.1 })) with
  | none => none
  | some b => ready.find? (fun x => some x.1 == b.via)

/-- What SEM does with the granted request of a pacer (R111): the semaphore takes `x` (none: it stays), a refusal with
VALUE `v` is recorded, the reply carries `csts` and the semaphore, and the grant waits for its end. -/
def semAnswered (s : State) (g : Grant) (x : Option Sem) (csts : Nat) (v : Option Nat) : State :=
  let n := g.pkt.addr % 2048
  let s1 := match x with
    | none => s
    | some y => s.setSem n y
  let s2 := match v with
    | none => s1
    | some k => violPkt 40 0x0301 g.pkt n k s1
  let s3 := offer { g.pkt.reply 0x23 csts (leBytes 4 (s2.sem n).bits) with src := 40 } s2
  s3.setArbiter 28 { s3.arbiter 28 with grant := some { g with serving := false } }

/-- The packet `p` has arrived at place `i` of an NI, with a good header and no parity error, and the state without it. -/
abbrev whole (s : State) (ni i : Nat) (p : Packet) : Prop :=
  (s.arrived ni)[i]? = some p ∧ p.hdrBad = false ∧ p.bad = []
/-- The state without the packet at place `i` of those that have arrived at an NI. -/
abbrev taken_ (s : State) (ni i : Nat) : State := s.setArrived ni ((s.arrived ni).eraseIdx i)

/-- The packet `p` at place `i` of an NI is whole, without poison, and in its source's order. -/
abbrev sound (s : State) (ni i : Nat) (p : Packet) : Prop :=
  whole s ni i p ∧ p.ep = false ∧ s.inOrder ni p = true

/-- The command `c` is at the head of the commit sequencer, with nothing else in progress, and M39 is not held. -/
abbrev atHead (s : State) (c : SeqCmd) (rest : List SeqCmd) : Prop :=
  s.xlt.cur = none ∧ s.xlt.seq = c :: rest ∧ (s.sem 1063).held = false

/-- The state with other commands in the sequencer. -/
abbrev seqIs (s : State) (l : List SeqCmd) (cur : Option SeqCmd) : State :=
  { s with xlt := { s.xlt with
    seq := l
    cur := cur } }

/-- A host TLP names a function of port `k` that takes it: the port is live and has room, the address hits its BAR at
`off`, the function is out of reset with memory space on in D0, and the TLP has neither poison nor an ECRC error. -/
abbrev reaches (s : State) (k kind : Nat) (t : Tlp) (fn : Nat) (bar2 : Bool) (off : Nat) : Prop :=
  s.hostLive k = true ∧ s.hostRoom k kind = true ∧ s.barHit k t.addr = some (fn, bar2, off) ∧ s.under k fn = false
    ∧ s.memEnabled fn = true ∧ s.inD0 fn = true ∧ t.ecrcErr = false ∧ t.ep = false

/-- The command `c` leaves the training state of port `p` at `n` (Table 13-6). -/
abbrev trainsTo (s : State) (c : Instr) (p n : Nat) : Prop :=
  ∃ t, Sys2Proof.Machine.exec c s = .next t ∧ (t.lpi p).st = n

/-- The state after a valid management message of a type has reached port `p` (R320). -/
abbrev heard (s : State) (p ty : Nat) : State := s.fset F.mlStsLastType p ty

/-- The port `p` takes the frame `f`: it is up, the frame is sound and next in sequence, and within its credits. -/
abbrev getsFrame (s : State) (p : Nat) (f : Frame) : Prop :=
  s.portUp p = true ∧ f.errored = false ∧ s.seqDist p f = 0 ∧ s.withinCredits p f = true

/-- The state once port `p` has taken the frame `f`: its credits are used, its SEQ is the last one accepted, and its
domain's idle timer begins anew. -/
abbrev tookFrame (s : State) (p : Nat) (f : Frame) : State :=
  (touch (16 + p) s).setLpi p { takeGiven (s.lpi p) f with
    rxAck := f.seq % 4096
    nakLock := false }

/-- From `s` to `t` only vectors, waiting MSI-X writes and the rest of the functions' state changed. -/
abbrev onlyVectors (s t : State) : Prop := { t with fn := s.fn } = s

/-- The command answers a state in which vector entry `p` of the FN is `x` with its request sent now: one more MSI-X
write waits, with the address, data and request time of `x` (R227, R391). -/
abbrev tellsHost (c : Instr) (s : State) (fn p : Nat) (x : Vec) : Prop :=
  ∃ t, Sys2Proof.Machine.exec c s = .next t
    ∧ t.vec p = { x with
        last := some s.now
        held := 0 }
    ∧ t.fn.msix = s.fn.msix ++ [(fn, x.addr, x.data, x.reqTime)]

/-- The packet `p` at place `i` of an NI is a whole fault notice of a KIND (Table 17-4). -/
abbrev tellsOf (s : State) (ni i : Nat) (p : Packet) (kind : Nat) : Prop :=
  whole s ni i p ∧ p.cls = 3 ∧ p.ty = 0x33 ∧ p.addr % 16 = kind

/-- From `s` to `t` staging memory took `data` at `a`; every other byte of it is as before. -/
def putsBytes (s t : State) (a : Nat) (data : List Byte) : Prop :=
  ∀ k, t.byte k = if a ≤ k ∧ k < a + data.length then data.getD (k - a) 0 else s.byte k

/-- The trace buffer took the record (R422): at WP, which counts on and wraps, and with STOP sets FULL at the end. -/
def traceTakes (s t : State) (rec_ : List Byte) : Prop :=
  putsBytes s t (0x3C00000 + 32 * s.fget F.trcStsWp 0) rec_ ∧ t.fget F.trcStsWp 0 = (s.fget F.trcStsWp 0 + 1) % 131072

/-- The registers of error injection after a write with the given KIND, NI and ADDR (R425, Table 17-12). -/
abbrev injects (s : State) (kind ni addr : Nat) : State :=
  ((s.fset F.errInjNi 0 ni).fset F.errInjAddr 0 addr).fset F.errInjKind 0 kind

/-- The state in which domain `d` has begun the first attempt of a wake, which also ends deep idle (R446, R451). -/
abbrev wakesNow (s : State) (d : Nat) : State := endDeep (s.setDom d { s.dom d with
  trans := 2
  attempts := 1
  stage := 0
  at_ := s.now })

/-- What the end of a wake leaves (R446), before what waits for the domain follows: ON, with its idle timer begun anew, its
FAILED bit clear, its return recorded, and its NIs without the time. -/
abbrev backOn (s : State) (d : Nat) : State :=
  let f := s.fget F.pwrStsFailed 0
  let u := (s.setDom d { s.dom d with
    st := 0
    trans := 0
    toOff := false
    stage := 0 }).fset F.pwrStsFailed 0 (if natBit f d then f - 2 ^ d else f)
  forL (nisOf d) (fun ni s => s.setUntimed ni true) (pwrTrace 3 d 0 (touch d u))

/-- A failed attempt: after fewer than four the supply goes off and the retry delay begins; after the fourth the domain
is FAILED, its FAILED bit and ARM are set (R446, R450). -/
def attemptEnds (c : Instr) (s : State) (d : Nat) : Prop :=
  ((s.dom d).attempts < 4 → Sys2Proof.Machine.exec c s = .next (s.setDom d { s.dom d with
    stage := 2
    at_ := s.now }))
  ∧ (4 ≤ (s.dom d).attempts → d < 16 → ∃ t, Sys2Proof.Machine.exec c s = .next t ∧ (t.dom d).st = 3 ∧ (t.dom d).trans = 0
    ∧ t.fget F.wsCtlArm 0 = 1 ∧ t.fget F.pwrStsFailed 0 / 2 ^ d % 2 = 1 ∧ t.fget F.pwrRefCause d = 0x0A)

/-- What a slot's failure leaves (R463): its cause, and the next slot to read. -/
abbrev slotFailed (s : State) (cause : Nat) (t : State) : Prop :=
  t.fget F.bootStsStage 0 = 2 ∧ t.boot.trySlot = s.boot.trySlot + 1
    ∧ t.fget (if s.boot.trySlot = 0 then F.bootStsFailA else F.bootStsFailB) 0 = cause

/-- The command answers a state in which mailbox `k` has answered `kind` with `data`, stands at `n`, and its transcript
is `tr`; only what SEC, SPDM and the outputs hold has changed. -/
def answersDoe (c : Instr) (s : State) (k : Nat) (kind : String) (data : List Nat) (n : Nat) (tr : List Nat) : Prop :=
  ∃ t, Sys2Proof.Machine.exec c s = .next t ∧ t.out = .doe k kind data :: s.out ∧ t.spdmAt k = n ∧ t.transcript k = tr
    ∧ { t with boot := s.boot, out := s.out } = s

/-- The command is answered with an error, and nothing else changes. -/
abbrev errsDoe (c : Instr) (s : State) (k : Nat) (err : String) (code : Nat) : Prop :=
  Sys2Proof.Machine.exec c s = .next (s.emit (.doe k ("ERROR " ++ err) [code]))

/-- The command's response waits for SEC's signature, behind those that wait already. -/
def waitsForSec (c : Instr) (s : State) (k : Nat) (r : SpdmReq) (msg : List Nat) : Prop :=
  ∃ t, Sys2Proof.Machine.exec c s = .next t ∧ t.boot.signQ = s.boot.signQ ++ [(k, r)]
    ∧ t.transcript k = s.transcript k ++ msg ∧ t.out = s.out ∧ t.spdmAt k = s.spdmAt k ∧ { t with boot := s.boot } = s

/-- The registers whose write does what the access codes of their fields say and nothing more. -/
def plainRegs : List RegId :=
  [.arbSts, .bootDst, .bootLen, .bootSrc, .c52Sts, .calSel, .fabSts, .hpiLtr, .hpiSentinel, .injLim, .irtSel, .keySts,
    .lanePat, .lbFn, .lbPf, .lbStg, .lbTun, .linkSel, .llCtl, .llDr, .llSts, .llTmr, .logSel, .mlSts, .pwrCtl, .rtSel,
    .scrubCtl, .slot, .svcLv, .tbSlew, .teData, .thermCtl, .winAcc, .winCw, .winTag, .wsCtl, .wsMask]

/-- What a write of `v` leaves in a field under its access code (Table 0-4, R7, R11, R12): `t` after it, `s` before. -/
def tookField (r : RegId) (i : Nat) (v : Word) (f : Field) (s t : State) : Prop :=
  let x := bitsGet v f.hi f.lo
  let n : Fld := ⟨r, f.hi, f.lo⟩
  match f.acc with
  | .ro | .wo => t.fget n i = s.fget n i ∧ t.fgetS n i = s.fgetS n i
  | .rw | .rwl => t.fget n i = (if encodingOk r f.lo x then x else s.fget n i)
  | .rwc => t.fget n i = (if x = 0 then s.fget n i else 0)
  | .rws => t.fgetS n i = (if encodingOk r f.lo x then x else s.fgetS n i) ∧ t.fget n i = s.fget n i

/-- Of a map's hit: the register `r` that the access falls on, whole. -/
def hitsReg (fa : Bool) (off width : Nat) (r : RegId) (i : Nat) : Prop := ∃ w, regAt regRows fa off width = .reg r i w

/-- The register that a command with a row of its own writes: its writer, the register, the instance and the word. -/
def registerOf : Instr → Option (Writer × RegId × Nat × Word)
  | .vminClr w => some (w, .coreVmonSts, 0, 4)
  | .stepMonCtlWrite w v => some (w, .stepMonCtl, 0, v.setWidth 64)
  | .tbSrcWrite w src => some (w, .tbCtl, 0, BitVec.ofNat 64 (2 * b2n src))
  | .tbStepWrite w v => some (w, .tbStep, 0, v.setWidth 64)
  | .tbSlewWrite w v => some (w, .tbSlew, 0, v.setWidth 64)
  | .gateCommit w g => some (w, .gateCtl, g.val, 1)
  | .gateLatClr w g => some (w, .gateLag, g.val, 0x80000000)
  | .fabCommit w => some (w, .fabCtl, 0, 1)
  | .forceOutWrite w out => some (w, .linkSts, 0, BitVec.ofNat 64 (2 ^ 30 * b2n out))
  | .rtDataWrite w v => some (w, .rtData, 0, v)
  | .arbCommit w a => some (w, .arbCtl, a.val, 0x80000000)
  | .c52PrioWrite w a hi v => some (w, if hi then .c52PrioHi else .c52PrioLo, a.val, v.setWidth 64)
  | .pclRunStart w c => some (w, .pclCtl, c.val, 1)
  | .pclRunStop w c => some (w, .pclCtl, c.val, 0)
  | .pclLimitsCommit w c => some (w, .pclLimits, c.val, 0x80000000)
  | .engineRestart w e => some (w, .pclEng, e.val, 0x20000000)
  | .engineKick w e => some (w, .pclEng, e.val, 0x10000000)
  | .psDataWrite w c v => some (w, .pclPsData, c.val, v.setWidth 64)
  | .winCmdCommit w => some (w, .winCmd, setOf w, 1)
  | .winCmdDrain w => some (w, .winCmd, setOf w, 2)
  | .winCmdBump w => some (w, .winCmd, setOf w, 3)
  | .teCmdWrite w => some (w, .teCmd, setOf w, 1)
  | .teCmdRead w => some (w, .teCmd, setOf w, 2)
  | .winSelWrite w v => some (w, .winSel, setOf w, v.setWidth 64)
  | .fWinWrite w fn v => some (w, .fWin, fn.val, v.setWidth 64)
  | .xltLocWrite w v => some (w, .xltLoc, 0, v.setWidth 64)
  | .lnkEnable w p => some (w, .lnkCtl, p.val, 1)
  | .lnkDisable w p => some (w, .lnkCtl, p.val, 0)
  | .lnkModeWrite w p test => some (w, .lnkCtl, p.val, BitVec.ofNat 64 (4 * b2n test))
  | .lnkCtlRetrain w p => some (w, .lnkCtl, p.val, 2)
  | .widthChange w p width => some (w, .lnkCtl, p.val, BitVec.ofNat 64 (width.toNat * 256))
  | .laneCheckerEnable w p lane => some (w, .laneTst, 4 * p.val + lane.val, 0x200)
  | .laneInjSingle w p lane => some (w, .laneInj, 4 * p.val + lane.val, BitVec.ofNat 64 (2 ^ 31 + 0 * 2 ^ 29))
  | .laneInjBurst w p lane => some (w, .laneInj, 4 * p.val + lane.val, BitVec.ofNat 64 (2 ^ 31 + 1 * 2 ^ 29))
  | .laneInjRate w p lane => some (w, .laneInj, 4 * p.val + lane.val, BitVec.ofNat 64 (2 ^ 31 + 2 * 2 ^ 29))
  | .laneInjStop w p lane => some (w, .laneInj, 4 * p.val + lane.val, BitVec.ofNat 64 (2 ^ 31 + 3 * 2 ^ 29))
  | .fVecWrite w fn v => some (w, .fVec, fn.val, v.setWidth 64)
  | .fSvcWrite w fn v => some (w, .fSvc, fn.val, v.setWidth 64)
  | .svcLvCommit w => some (w, .svcCtl, 0, 0x80000000)
  | .slotCommit w k => some (w, .slotCtl, k.val, 0x80000000)
  | .trcMark w v => some (w, .trcMark, 0, v)
  | .trcFullClear w => some (w, .trcSts, 0, 0x80000000)
  | .errInjPayloadParity w ni => some (w, .errInj, 0, injWord 1 ni.toNat 0)
  | .errInjHeaderParity w ni => some (w, .errInj, 0, injWord 2 ni.toNat 0)
  | .errInjStampParity w ni => some (w, .errInj, 0, injWord 3 ni.toNat 0)
  | .errInjStagingSingle w a => some (w, .errInj, 0, injWord 4 0 a.toNat)
  | .errInjStagingDouble w a => some (w, .errInj, 0, injWord 5 0 a.toNat)
  | .errInjPsSingle w ni a => some (w, .errInj, 0, injWord 6 ni.toNat a.toNat)
  | .errInjPsDouble w ni a => some (w, .errInj, 0, injWord 7 ni.toNat a.toNat)
  | .errInjControlCode w a => some (w, .errInj, 0, injWord 8 0 a.toNat)
  | .errInjEcrc w ni => some (w, .errInj, 0, injWord 9 ni.toNat 0)
  | .domainRetry w d => some (w, .pwrDom, d.val, BitVec.ofNat 64 (2 ^ 27))
  | .domainForceOn w d => some (w, .pwrDom, d.val, BitVec.ofNat 64 (2 ^ 25))
  | .mgcSrcWrite w src => some (w, .pwcClk, 0, BitVec.ofNat 64 (2 * b2n src))
  | .commitOwnerCount w => some (w, .bootCmd, 0, 1)
  | .commitVendorCount w => some (w, .bootCmd, 0, 2)
  | .flashErase w => some (w, .bootCmd, 0, 3)
  | .flashWr w => some (w, .bootCmd, 0, 4)
  | _ => none

end Sys2Proof.Claims

open Sys2Proof.Claims

/-- For every command c, every rest of the queue and every state s: a step of s with c at the front of its queue is exec
of c on s with the rest as its queue. The queue is the model's own form of commands that wait. -/
def Obligations.StepRunsTheFrontCommand : Prop :=
  ∀ (c : Instr) (rest : List Instr) (s : State),
    Sys2Proof.Machine.step { s with pending := c :: rest } = Sys2Proof.Machine.exec c { s with pending := rest }

/-- With no command waiting: in power-on reset the step leaves the state; outside it the count rises by 1 modulo 2^64
and TB_SLEW, a signed 16-bit number, adds to the correction owed; nothing else changes. That the step ticks is the
model's choice (log 2). -/
def Obligations.EmptyQueueTicks : Prop :=
  ∀ s : State, s.pending = [] →
    (s.inPor = true → Sys2Proof.Machine.step s = .next s)
    ∧ (s.inPor = false → Sys2Proof.Machine.step s = .next { s with tb := { s.tb with
        count := (s.tb.count + 1) % 2 ^ 64
        slewAcc := s.tb.slewAcc + signedOf 16 (s.fget F.tbSlewSlew 0) } })

/-- Memories and register file of State.reset are in canonical form, its queue is empty, it is outside power-on reset
and every state reset by it lists nothing in memory. The values without a rule are the log's. -/
def Obligations.ResetIsWellFormed : Prop :=
  State.reset.wf = true ∧ State.reset.pending = [] ∧ State.reset.inPor = false
    ∧ (∀ a, State.reset.byte a = 0) ∧ (∀ k, State.reset.greg k = 0) ∧ (∀ e, State.reset.eng e = {})

/-- For every state s whose memories (staging memory with poison and check marks, scratch, program stores) and register
file are in canonical form: if a step answers a next state, that state is so too. Not only over runs from reset. The
canonical form is the model's. -/
def Obligations.StepKeepsCanonicalForm : Prop :=
  ∀ s t : State, s.wf = true → Sys2Proof.Machine.step s = .next t → t.wf = true

/-- For every step: the owner and vendor counts never fall, a hash in an owner key slot that is not zero never changes,
and ENROLLED, REVOKED and DEBUG_LOCK stay once they are blown, in every state. -/
def Obligations.FusesNeverFall : Prop :=
  ∀ s t : State, Sys2Proof.Machine.step s = .next t →
    s.boot.ownerCount ≤ t.boot.ownerCount ∧ s.boot.vendorCount ≤ t.boot.vendorCount
    ∧ (s.boot.debugLock = true → t.boot.debugLock = true)
    ∧ ∀ k, ((s.keySlot k).hash ≠ 0 → (t.keySlot k).hash = (s.keySlot k).hash)
        ∧ ((s.keySlot k).enrolled = true → (t.keySlot k).enrolled = true)
        ∧ ((s.keySlot k).revoked = true → (t.keySlot k).revoked = true)

/-- For every command and state: the next state has the same queue of waiting commands, has taken at least as many free
values, and the record of what has left the block ends in what it held before. -/
def Obligations.ExecLeavesTheQueue : Prop :=
  ∀ (c : Instr) (s t : State), Sys2Proof.Machine.exec c s = .next t →
    t.pending = s.pending ∧ s.free ≤ t.free ∧ s.out <:+ t.out

/-- VAUX_BELOW_THRESHOLD leaves the device held by the monitor. While the monitor holds it, the block is in power-on
reset whatever PORST_N shows, and every command but VAUX_ABOVE_THRESHOLD leaves it held. VAUX_ABOVE_THRESHOLD ends
the monitor's hold; PORST_N alone then says whether the block is in reset. -/
def Obligations.VauxMonitorHoldsPowerOnReset : Prop :=
  (∀ s : State, ∃ t, Sys2Proof.Machine.exec .vauxBelowThreshold s = .next t ∧ t.por.vaux = true)
  ∧ (∀ s : State, s.por.vaux = true → s.inPor = true)
  ∧ (∀ (c : Instr) (s t : State), s.por.vaux = true → c ≠ .vauxAboveThreshold →
      Sys2Proof.Machine.exec c s = .next t → t.por.vaux = true)
  ∧ (∀ s : State, s.por.vaux = true → ∃ t, Sys2Proof.Machine.exec .vauxAboveThreshold s = .next t
      ∧ t.por.vaux = false ∧ t.inPor = s.por.porst)

/-- While PORST_N is asserted or VAUX is low, every command other than PORST_N_ASSERT, PORST_N_DEASSERT,
VAUX_BELOW_THRESHOLD and VAUX_ABOVE_THRESHOLD answers the same state. That nothing happens then is the model's
reading of the reset (log 3). -/
def Obligations.PowerOnResetFreezesTheBlock : Prop :=
  ∀ (c : Instr) (s : State), s.inPor = true → c ≠ .porstNAssert → (∀ a b, c ≠ .porstNDeassert a b) →
    c ≠ .vauxBelowThreshold → c ≠ .vauxAboveThreshold → Sys2Proof.Machine.exec c s = .next s

/-- PORST_N_ASSERT outside an asserted PORST_N, and VAUX_BELOW_THRESHOLD outside a low VAUX, with no flash operation
running: the next state holds the fuses, the flash with its torn slots and the levels of PERST_N0 and PERST_N1, the
cause of the reset, and in every other part the state after reset (the queue, the count of free values and the
record of outputs belong to the model). PORST_N_DEASSERT with VAUX low only samples the pins. -/
def Obligations.PowerOnResetClearsAllButFusesAndFlash : Prop :=
  (∀ s : State, s.por.porst = false → s.boot.cmd = none → ∃ t, Sys2Proof.Machine.exec .porstNAssert s = .next t
      ∧ t.por = { s.por with porst := true } ∧ clearedByReset s t)
  ∧ (∀ s : State, s.por.vaux = false → s.boot.cmd = none → ∃ t, Sys2Proof.Machine.exec .vauxBelowThreshold s = .next t
      ∧ t.por = { s.por with vaux := true } ∧ clearedByReset s t)
  ∧ (∀ (s : State) (a b : Bool), s.por.porst = true → s.por.vaux = true →
      ∃ t, Sys2Proof.Machine.exec (.porstNDeassert a b) s = .next t ∧ t.por = { porst := false, vaux := true }
        ∧ (t.hpi 0).perst = a ∧ (t.hpi 1).perst = b ∧ t.reg = s.reg ∧ t.mem = s.mem ∧ t.boot = s.boot ∧ t.tb = s.tb)

/-- For every engine about to run one of them (R181 to R183): the command answers a next state; RD (unless g0) takes a +
b or a - b modulo 2^64, CMP and CMPI write no register; N and Z are those of the result, C is the carry or the
borrow, V says that the signed result does not fit; s.pc and s.icnt advance by one. Every other register, engine and
part of the block is as the fetch left it. -/
def Obligations.AddSubCompareResults : Prop :=
  ∀ (s : State) (e : Fin 64) (rd ra rb : Fin 32) (imm : BitVec 12),
    (runs s e (.add rd ra rb) → gives (.add e rd ra rb) s e rd (s.gr e ra + s.gr e rb) (sumFlags (s.gr e ra) (s.gr e rb)))
    ∧ (runs s e (.sub rd ra rb) → gives (.sub e rd ra rb) s e rd (s.gr e ra - s.gr e rb) (diffFlags (s.gr e ra) (s.gr e rb)))
    ∧ (runs s e (.addi rd ra imm) → gives (.addi e rd ra imm) s e rd (s.gr e ra + imm.signExtend 64)
        (sumFlags (s.gr e ra) (imm.signExtend 64)))
    ∧ (runs s e (.cmp ra rb) → givesFlags (.cmp e ra rb) s e (diffFlags (s.gr e ra) (s.gr e rb)))
    ∧ (runs s e (.cmpi ra imm) → givesFlags (.cmpi e ra imm) s e (diffFlags (s.gr e ra) (imm.signExtend 64)))

/-- For every engine about to run one of them (Table 8-1): every bit of RD (unless g0) is the stated function of the
operands' bits, with IMM zero-extended; Z and N come from the result, C and V are cleared; TST and TSTI write no
register. Nothing else changes but s.pc and s.icnt. -/
def Obligations.LogicResults : Prop :=
  ∀ (s : State) (e : Fin 64) (rd ra rb : Fin 32) (imm : BitVec 12),
    let a := s.gr e ra
    let b := s.gr e rb
    let z := imm.zeroExtend 64
    (runs s e (.and rd ra rb) → gives (.and e rd ra rb) s e rd (a &&& b) (zn (a &&& b) false false))
    ∧ (runs s e (.or rd ra rb) → gives (.or e rd ra rb) s e rd (a ||| b) (zn (a ||| b) false false))
    ∧ (runs s e (.xor rd ra rb) → gives (.xor e rd ra rb) s e rd (a ^^^ b) (zn (a ^^^ b) false false))
    ∧ (runs s e (.andn rd ra rb) → gives (.andn e rd ra rb) s e rd (a &&& ~~~b) (zn (a &&& ~~~b) false false))
    ∧ (runs s e (.andi rd ra imm) → gives (.andi e rd ra imm) s e rd (a &&& z) (zn (a &&& z) false false))
    ∧ (runs s e (.ori rd ra imm) → gives (.ori e rd ra imm) s e rd (a ||| z) (zn (a ||| z) false false))
    ∧ (runs s e (.xori rd ra imm) → gives (.xori e rd ra imm) s e rd (a ^^^ z) (zn (a ^^^ z) false false))
    ∧ (runs s e (.tst ra rb) → givesFlags (.tst e ra rb) s e (zn (a &&& b) false false))
    ∧ (runs s e (.tsti ra imm) → givesFlags (.tsti e ra imm) s e (zn (a &&& z) false false))

/-- For every engine about to run a shift (R184), with n = b[5:0] or IMM[5:0]: SLL writes a * 2^n modulo 2^64, SRL the
quotient of a by 2^n, SRA the floor of signed a by 2^n; C is the last bit shifted out, 0 for n = 0; Z and N come
from the result and V is unchanged. -/
def Obligations.ShiftResults : Prop :=
  ∀ (s : State) (e : Fin 64) (rd ra rb : Fin 32) (k : BitVec 6),
    let a := s.gr e ra
    let left := fun n => BitVec.ofNat 64 (a.toNat * 2 ^ n)
    let right := fun n => BitVec.ofNat 64 (a.toNat / 2 ^ n)
    let sright := fun n => BitVec.ofInt 64 (a.toInt / 2 ^ n)
    let m := (s.gr e rb).toNat % 64
    (runs s e (.sll rd ra rb) → gives (.sll e rd ra rb) s e rd (left m) (zn (left m) (outLeft a m) (vOf s e)))
    ∧ (runs s e (.srl rd ra rb) → gives (.srl e rd ra rb) s e rd (right m) (zn (right m) (outRight a m) (vOf s e)))
    ∧ (runs s e (.sra rd ra rb) → gives (.sra e rd ra rb) s e rd (sright m) (zn (sright m) (outRight a m) (vOf s e)))
    ∧ (runs s e (.slli rd ra k) → gives (.slli e rd ra k) s e rd (left k.toNat)
        (zn (left k.toNat) (outLeft a k.toNat) (vOf s e)))
    ∧ (runs s e (.srli rd ra k) → gives (.srli e rd ra k) s e rd (right k.toNat)
        (zn (right k.toNat) (outRight a k.toNat) (vOf s e)))
    ∧ (runs s e (.srai rd ra k) → gives (.srai e rd ra k) s e rd (sright k.toNat)
        (zn (sright k.toNat) (outRight a k.toNat) (vOf s e)))

/-- For every engine about to run one of them (R185, R200, R201): MUL and MULHU write the low and high 64 bits of the
unsigned product, CLZ the number of zero bits above the highest 1 (64 for zero), TDIFF the elapsed time from b to a
as a signed 48-bit number; TCMP sets Z when the TIMEs are equal and N when a is before b. C and V are unchanged. -/
def Obligations.MultiplyCountAndTimeResults : Prop :=
  ∀ (s : State) (e : Fin 64) (rd ra rb : Fin 32),
    let a := s.gr e ra
    let b := s.gr e rb
    let flg := fun r => zn r (cOf s e) (vOf s e)
    let lo := BitVec.ofNat 64 (a.toNat * b.toNat)
    let hi := BitVec.ofNat 64 (a.toNat * b.toNat / 2 ^ 64)
    let lz := BitVec.ofNat 64 (if a = 0 then 64 else 63 - Nat.log 2 a.toNat)
    let dt := BitVec.ofInt 64 (elapsed a b)
    (runs s e (.mul rd ra rb) → gives (.mul e rd ra rb) s e rd lo (flg lo))
    ∧ (runs s e (.mulhu rd ra rb) → gives (.mulhu e rd ra rb) s e rd hi (flg hi))
    ∧ (runs s e (.clz rd ra) → gives (.clz e rd ra) s e rd lz (flg lz))
    ∧ (runs s e (.tdiff rd ra rb) → gives (.tdiff e rd ra rb) s e rd dt (flg dt))
    ∧ (runs s e (.tcmp ra rb) → givesFlags (.tcmp e ra rb) s e
        (flagNat (decide (elapsed a b < 0 ∧ elapsed a b ≠ -2 ^ 47)) (decide (elapsed a b = 0)) (cOf s e) (vOf s e)))

/-- For every engine about to run one of them, both words in the store (R159, R186): LI writes the sign-extended
immediate, ADDL adds it with the flags of ADD, ORH ORs IMML into the upper half, CMPL sets the flags of a comparison
and writes no register; s.pc advances by two. Where the second word lies beyond the store, the instruction raises
RANGE (R160). -/
def Obligations.LongImmediateResults : Prop :=
  (∀ (s : State) (e : Fin 64) (rd ra : Fin 32) (imm : BitVec 44) (low : BitVec 32),
    let a := s.gr e ra
    let v : Word := imm.signExtend 64
    (runs s e (.li rd imm) → givesLong (.li e rd imm) s e rd v (s.eng e).flags)
    ∧ (runs s e (.addl rd ra imm) → givesLong (.addl e rd ra imm) s e rd (a + v) (sumFlags a v))
    ∧ (runs s e (.orh rd ra low) → givesLong (.orh e rd ra low) s e rd (a ||| BitVec.ofNat 64 (low.toNat * 2 ^ 32))
        (s.eng e).flags)
    ∧ (runs s e (.cmpl ra imm) → goesTo (.cmpl e ra imm) s e ((s.eng e).pc + 2)
        { s.eng e with flags := diffFlags a v }))
  ∧ ∀ (s : State) (e : Fin 64) (rd ra : Fin 32) (imm : BitVec 44) (low : BitVec 32) (c : Instr) (j : Soref),
      c = .li e rd imm ∨ c = .addl e rd ra imm ∨ c = .orh e rd ra low ∨ c = .cmpl e ra imm →
      up s → s.ready e = true → overBudget (s.eng e) = false → s.psEccAt (psKey (clOf e) (s.eng e).pc) = 0 →
      isLong (wordAt s e 0) = true → (s.eng e).pc = 131071 → decodeSoref (wordAt s e 0) 0 = some j →
      Sys2Proof.Machine.exec c s = .next (raiseFault e 4 0 0 s)

/-- For every engine about to run one of them (R169, R176, R187, R188): an untaken B or CALL goes on at s.pc + 1; a
taken one goes to s.pc + OFF, CALL and CALLR push s.pc + 1, JR and CALLR go to a, RET pops. A target outside 0 to
131,071 raises RANGE; a call onto 16 entries and RET from none raise RSTACK. No register or flag changes. -/
def Obligations.BranchesCallsAndReturns : Prop :=
  ∀ (s : State) (e : Fin 64) (ra : Fin 32) (c : Cond) (off : BitVec 20),
    let x := s.eng e
    let t : Int := x.pc + off.toInt
    let a := (s.gr e ra).toNat
    (runs s e (.bCc c off) → (takes c s e = false → goesTo (.bCc e c off) s e (x.pc + 1) x)
        ∧ (takes c s e = true → (0 ≤ t ∧ t < 131072 → goesTo (.bCc e c off) s e t.toNat x)
          ∧ (¬(0 ≤ t ∧ t < 131072) → traps (.bCc e c off) s e 4 0 0)))
    ∧ (runs s e (.callCc c off) → (takes c s e = false → goesTo (.callCc e c off) s e (x.pc + 1) x)
        ∧ (takes c s e = true →
          (0 ≤ t ∧ t < 131072 ∧ x.stack.length < 16 → goesTo (.callCc e c off) s e t.toNat (pushed s e))
          ∧ (0 ≤ t ∧ t < 131072 ∧ 16 ≤ x.stack.length → traps (.callCc e c off) s e 6 0 0)
          ∧ (¬(0 ≤ t ∧ t < 131072) → traps (.callCc e c off) s e 4 0 0)))
    ∧ (runs s e (.jr ra) → (a < 2 ^ 17 → goesTo (.jr e ra) s e a x) ∧ (2 ^ 17 ≤ a → traps (.jr e ra) s e 4 0 0))
    ∧ (runs s e (.callr ra) → (a < 2 ^ 17 ∧ x.stack.length < 16 → goesTo (.callr e ra) s e a (pushed s e))
        ∧ (a < 2 ^ 17 ∧ 16 ≤ x.stack.length → traps (.callr e ra) s e 6 0 0)
        ∧ (2 ^ 17 ≤ a → traps (.callr e ra) s e 4 0 0))
    ∧ (runs s e .ret → (x.stack = [] → traps (.ret e) s e 6 0 0)
        ∧ (∀ p rest, x.stack = p :: rest → goesTo (.ret e) s e p { x with stack := rest }))

/-- For every engine about to run one of them and every SREG (R195 to R197, Table 6-2): SRD writes the register,
zero-extended, and zero for a reserved number; SWR stores the low bits in the five RW registers and clears events
written as 1 in s.evt; SBIS and SBIC set and clear bits of the five. Anything else raises PRIV. No other register
changes. -/
def Obligations.SpecialRegisterAccess : Prop :=
  ∀ (s : State) (e : Fin 64) (rd ra : Fin 32) (n : BitVec 8),
    let x := s.eng e
    let a := s.gr e ra
    let k := n.toNat
    (runs s e (.srd rd n) → gives (.srd e rd n) s e rd (s.sreg e k) x.flags)
    ∧ (swrTo x k a ≠ none → s.sreg e k = rwOf x k)
    ∧ s.sreg e 0x01 = BitVec.ofNat 64 x.qid ∧ s.sreg e 0x02 = BitVec.ofNat 64 e ∧ s.sreg e 0x03 = x.stamp
    ∧ s.sreg e 0x05 = BitVec.ofNat 64 x.evt ∧ s.sreg e 0x09 = BitVec.ofNat 64 x.pc
    ∧ s.sreg e 0x0B = BitVec.ofNat 64 x.fpc ∧ s.sreg e 0x12 = BitVec.ofNat 64 x.icnt
    ∧ s.sreg e 0x13 = BitVec.ofNat 64 x.stack.length ∧ (0x15 ≤ k → s.sreg e k = 0)
    ∧ (runs s e (.swr ra n) → setsOrPriv (.swr e ra n) s e
        (if k = 5 then some { x with evt := x.evt &&& (0xFFFF - a.toNat % 2 ^ 16) } else swrTo x k a))
    ∧ (runs s e (.sbis ra n) → setsOrPriv (.sbis e ra n) s e (swrTo x k (rwOf x k ||| a)))
    ∧ (runs s e (.sbic ra n) → setsOrPriv (.sbic e ra n) s e (swrTo x k (rwOf x k &&& ~~~a)))

/-- For every engine about to run one of them (R126, R127, R137, R175, R189 to R194): a failing check raises its fault
with the address; else the engine stalls, having sent one request for the bytes at the address to the bank or
register owner, with the operands of an atomic as data, s.pc and registers unchanged; under the reset fence of s.fn
it sends nothing and RD takes all ones. -/
def Obligations.LoadsAndAtomicsStallForTheirReply : Prop :=
  ∀ (s : State) (e : Fin 64) (w : LdWidth) (d : Bool) (rd ra rb : Fin 32) (imm : BitVec 12),
    let x := s.eng e
    let a := (s.gr e ra + imm.signExtend 64).toNat
    let m := (s.gr e ra).toNat
    let k := if d then 8 else 4
    let b := fun v : Word => leBytes k v.toNat
    let all : Word := BitVec.allOnes 64
    let wide := w == .w || w == .sw || w == .d
    (runs s e (.ldg w rd ra imm) → checked (.ldg e w rd ra imm) s e 0x4000000 a (ldLen w)
      ((shut s e → gives (.ldg e w rd ra imm) s e rd all x.flags)
        ∧ (open_ s e → stallsFor (.ldg e w rd ra imm) s e (.load rd w) x 0 0x00 (bankOf a) 3 a (ldLen w) [])))
    ∧ (runs s e (.ldc w rd ra imm) → ctlChecked (.ldc e w rd ra imm) s e false wide a (ldLen w)
      ((shut s e → gives (.ldc e w rd ra imm) s e rd all x.flags)
        ∧ (open_ s e → stallsFor (.ldc e w rd ra imm) s e (.load rd w) x 0 0x00 (ownerNi a) 4 a (ldLen w) [])))
    ∧ (runs s e (.fadd d rd ra rb) → checked (.fadd e d rd ra rb) s e 0x4000000 m k
      ((shut s e → gives (.fadd e d rd ra rb) s e rd all x.flags)
        ∧ (open_ s e → stallsFor (.fadd e d rd ra rb) s e (.atomic rd d) x 0 0x01 (bankOf m) 3 m k (b (s.gr e rb)))))
    ∧ (runs s e (.swp d rd ra rb) → checked (.swp e d rd ra rb) s e 0x4000000 m k
      ((shut s e → gives (.swp e d rd ra rb) s e rd all x.flags)
        ∧ (open_ s e → stallsFor (.swp e d rd ra rb) s e (.atomic rd d) x 0 0x02 (bankOf m) 3 m k (b (s.gr e rb)))))
    ∧ (runs s e (.cas d rd ra rb) → checked (.cas e d rd ra rb) s e 0x4000000 m k
      ((shut s e → gives (.cas e d rd ra rb) s e rd all x.flags)
        ∧ (open_ s e → stallsFor (.cas e d rd ra rb) s e (.atomic rd d) x 0 0x03 (bankOf m) 3 m k
            (b (s.gr e rd) ++ b (s.gr e rb)))))

/-- For every engine about to run one of them (R213, R215, R218, R221): operands out of range raise RANGE, a misaligned
LOCK ALIGN; else the engine stalls on one request to the XU, SEM, the bank or the port, and registers and s.pc stay;
XLT_DRAIN clears the translation hold; LOCK enters s.fn in the cluster's belay record, and a second belay of that FN
is refused with RESP and LOCK_REF. Under the reset fence the code of R137 is written instead. -/
def Obligations.TranslationsSemaphoresAndLocksStall : Prop :=
  ∀ (s : State) (e : Fin 64) (rd ra : Fin 32) (xu : Fin 4) (num : BitVec 11) (w : LockWidth) (sp : LockSpace),
    let x := s.eng e
    let a := (s.gr e ra).toNat
    let at_ := lockPlace s e sp a
    let k := s.clu (e.val / 8)
    (runs s e (.xlt rd ra xu) → (2 ^ 54 ≤ a → traps (.xlt e rd ra xu) s e 4 a 0)
      ∧ (a < 2 ^ 54 → (shut s e → gives (.xlt e rd ra xu) s e rd (BitVec.ofNat 64 (7 * 2 ^ 60)) x.flags)
        ∧ (open_ s e → stallsFor (.xlt e rd ra xu) s e (.xlt rd) x 0 0x06 (34 + xu.val) 0 a 0 [])))
    ∧ (runs s e (.xltDrain rd ra) → (2 ^ 12 ≤ a → traps (.xltDrain e rd ra) s e 4 a 0)
      ∧ (a < 2 ^ 12 → (shut s e → gives (.xltDrain e rd ra) s e rd 2 x.flags)
        ∧ (open_ s e → stallsFor (.xltDrain e rd ra) s e (.drain rd) { x with hold := false } 0 0x06 (34 + a % 4) 0
            (2 ^ 63 + a) 0 [])))
    ∧ (runs s e (.acq rd num) → (shut s e → gives (.acq e rd num) s e rd 2 x.flags)
        ∧ (open_ s e → stallsFor (.acq e rd num) s e (.sem rd) x 0 0x05 40 6 (4096 + num.toNat) 0 []))
    ∧ (runs s e (.rel rd num) → (shut s e → gives (.rel e rd num) s e rd 2 x.flags)
        ∧ (open_ s e → stallsFor (.rel e rd num) s e (.sem rd) x 0 0x05 40 6 (8192 + num.toNat) 0 []))
    ∧ (runs s e (.acqr rd ra) → (2 ^ 11 ≤ a → traps (.acqr e rd ra) s e 4 a 0)
      ∧ (a < 2 ^ 11 → (shut s e → gives (.acqr e rd ra) s e rd 2 x.flags)
        ∧ (open_ s e → stallsFor (.acqr e rd ra) s e (.sem rd) x 0 0x05 40 6 (4096 + a) 0 [])))
    ∧ (runs s e (.relr rd ra) → (2 ^ 11 ≤ a → traps (.relr e rd ra) s e 4 a 0)
      ∧ (a < 2 ^ 11 → (shut s e → gives (.relr e rd ra) s e rd 2 x.flags)
        ∧ (open_ s e → stallsFor (.relr e rd ra) s e (.sem rd) x 0 0x05 40 6 (8192 + a) 0 [])))
    ∧ (runs s e (.lock w sp rd ra) → lockChecked (.lock e w sp rd ra) s e w sp a
        (open_ s e →
          (k.belays.contains x.fn = false →
            stallsFor (.lock e w sp rd ra) s e (.lock rd w (sp == .loc) at_.1 a) x 0 0x04 at_.1 at_.2.1 a (lockLen w) []
              at_.2.2.1 at_.2.2.2
              ((fetched s e).setClu (e.val / 8) { k with belays := x.fn :: k.belays }).pcl.clus)
          ∧ (k.belays.contains x.fn = true → ∃ u, u.pcl = s.pcl
              ∧ u.fget F.arbStsLockRef (if sp = .stg then at_.1 - 18 else 20 + e.val / 8) = 1
              ∧ Sys2Proof.Machine.exec (.lock e w sp rd ra) s
                = .next (raiseFault e 0x0C a ((10 + e.val / 8) * 2 ^ 26 + 2 * 2 ^ 23) u))))

/-- For every engine about to run one of them (R128, R173, R175, R189, R192, R219, R222, R225): failing checks raise
their fault; else the packet with the stored bytes is handed on, s.pc and s.icnt advance, and the engine stalls only
while its slot is taken. UNLOCK of the open belay clears s.belay; any other UNLOCK is refused into the posted-fault
ring and completes. Under the reset fence nothing is sent. -/
def Obligations.PostedInstructionsGoOn : Prop :=
  ∀ (s : State) (e : Fin 64) (w : StWidth) (lw : LockWidth) (sp : LockSpace) (rs ra : Fin 32) (imm u : BitVec 12)
    (v : BitVec 11),
    let x := s.eng e
    let a := (s.gr e ra + imm.signExtend 64).toNat
    let m := (s.gr e ra).toNat
    let at_ := lockPlace s e sp m
    let bytes := leBytes (stLen w) (s.gr e rs).toNat
    let skips := fun c => goesTo c s e (x.pc + 1) x
    let intr := fun c n => (2 ^ 11 ≤ n → traps c s e 4 n 0)
      ∧ (n < 2 ^ 11 → (shut s e → skips c) ∧ (open_ s e → postsA c s e x 1 0x12 39 0 n 0 []))
    (runs s e (.stg w rs ra imm) → checked (.stg e w rs ra imm) s e 0x4000000 a (stLen w)
      ((shut s e → skips (.stg e w rs ra imm))
        ∧ (open_ s e → postsA (.stg e w rs ra imm) s e x 1 0x10 (bankOf a) 3 a (stLen w) bytes)))
    ∧ (runs s e (.stc w rs ra imm) → ctlChecked (.stc e w rs ra imm) s e true (w == .w || w == .d) a (stLen w)
      ((shut s e → skips (.stc e w rs ra imm))
        ∧ (open_ s e → postsA (.stc e w rs ra imm) s e x 1 0x10 (ownerNi a) 4 a (stLen w) bytes)))
    ∧ (runs s e (.unlock lw sp rs ra) → lockChecked (.unlock e lw sp rs ra) s e lw sp m
      ((closes s e sp m → postsA (.unlock e lw sp rs ra) s e { x with belay := false } 1 0x11 at_.1 at_.2.1 m
          (lockLen lw) (leBytes (lockLen lw) (s.grBytes e rs (lockLen lw))) at_.2.2.1 at_.2.2.2)
        ∧ (¬closes s e sp m → ∃ t r, Sys2Proof.Machine.exec (.unlock e lw sp rs ra) s = .next t ∧ keepsRegs s t e
            ∧ t.pcl.clus = s.pcl.clus ∧ t.arb = s.arb ∧ t.inq (25 * clNi e + 24) = (fetched s e).inq (25 * clNi e + 24) ++ [r]
            ∧ r.dst = 41 ∧ r.addr % 16 = 6 ∧ r.fn = x.fn
            ∧ t.eng e = { x with
                pc := (x.pc + 1) % 2 ^ 17
                icnt := min (x.icnt + 1) 0xFFFFFFFF })))
    ∧ (runs s e (.umsg u) → match unitAt s e u.toNat with
        | none => traps (.umsg e u) s e 4 0 0
        | some ni => (shut s e → skips (.umsg e u))
          ∧ (open_ s e → postsA (.umsg e u) s e x 1 0x14 ni 6 u.toNat 56 (msgBytes s e)))
    ∧ (runs s e (.raise v) → intr (.raise e v) v.toNat)
    ∧ (runs s e (.raiser ra) → intr (.raiser e ra) m)

/-- For every engine about to run LDX or STX (R125 to R127, R145, R189, R190, R223, R408): an address past 64 KiB raises
RANGE, a misaligned one ALIGN, a load of a poisoned word POISON; else LDX writes RD with the zero- or sign-extended
bytes, and STX stores exactly its bytes in the engine's own scratch: every other byte of every scratch and all other
memory stay. -/
def Obligations.ScratchLoadsAndStores : Prop :=
  ∀ (s : State) (e : Fin 64) (w : LdWidth) (sw : StWidth) (rd ra : Fin 32) (imm : BitVec 12),
    let a := (s.gr e ra + imm.signExtend 64).toNat
    let bad := (List.range (ldLen w)).any (fun i => s.scrPoisonAt (8192 * e.val + (a + i) / 8))
    (runs s e (.ldx w rd ra imm) → checked (.ldx e w rd ra imm) s e 0x10000 a (ldLen w)
      ((bad = true → traps (.ldx e w rd ra imm) s e 0x0D a 0)
        ∧ (bad = false → gives (.ldx e w rd ra imm) s e rd (extended w (scratchNat s e a (ldLen w))) (s.eng e).flags)))
    ∧ (runs s e (.stx sw rd ra imm) → checked (.stx e sw rd ra imm) s e 0x10000 a (stLen sw)
        (∃ t, Sys2Proof.Machine.exec (.stx e sw rd ra imm) s = .next t ∧ stored s t e a (stLen sw) (s.gr e rd)))

/-- For each of the 77 Soref rows (R146, R147, R160, R174, R175): nothing happens while the engine is not ready; over
the budget BUDGET is raised in place of the fetch, and the budget rises once by 256; an uncorrectable first word
raises PS_UE with a record; a reserved encoding raises ILLEGAL by RESERVED_ENCODING; and a command whose instruction
is not the one at s.pc is no event. -/
def Obligations.FetchAndItsFaultsComeFirst : Prop :=
  ∀ (c : Instr) (e : Fin 64) (i : Option Soref) (s : State), sorefOf c = some (e, i) → up s →
    let x := s.eng e
    let two := isLong (wordAt s e 0) = true
    (s.ready e = false → Sys2Proof.Machine.exec c s = .next s)
    ∧ (s.ready e = true ∧ overBudget x = true →
        Sys2Proof.Machine.exec c s = .next (raiseFault e 9 0 0
          (if x.raised then s else s.setEng e { x with budget := x.budget + 256, raised := true })))
    ∧ (s.ready e = true ∧ overBudget x = false ∧ s.psUe (e.val / 8) x.pc = true →
        Sys2Proof.Machine.exec c s = .next (raiseFault e 2 0 0 (psUeRecord (e.val / 8) x.pc s)))
    ∧ (s.ready e = true ∧ overBudget x = false ∧ s.psEccAt (psKey (e.val / 8) x.pc) = 0
        ∧ (two → x.pc + 1 < 131072 ∧ s.psEccAt (psKey (e.val / 8) (x.pc + 1)) = 0) →
      (decodeSoref (wordAt s e 0) (wordAt s e 1) ≠ i → Sys2Proof.Machine.exec c s = .next s)
      ∧ (i = none ∧ decodeSoref (wordAt s e 0) (wordAt s e 1) = none →
          Sys2Proof.Machine.exec c s = .next (raiseFault e 1 0 0 s)))

/-- For every state and fault (R141, R143, R144, Table 6-6), raiseFault with s.fault zero writes the 64-byte record at
0xFF00 of the engine's scratch, sets s.fault and s.fpc, continues at the trailhead in word 0 of the store, and
leaves registers and the rest of the engine; with s.fault set it writes the nested record at 0xFF40 and the engine
is HALTED. Other engines and all other scratch stay. -/
def Obligations.FaultEntryAndHalt : Prop :=
  ∀ (u : State) (e : Fin 64) (code addr info : Nat),
    let t := raiseFault e code addr info u
    let x := u.eng e
    (x.fault = 0 → t.eng e = { x with
          st := .run
          stall := .none
          fault := code
          fpc := x.pc
          pc := (u.psWord (131072 * (e.val / 8))).toNat % 2 ^ 17
          hold := false
          lastFault := code }
        ∧ scratchTakes u t e 0xFF00 (recordOf u e code 0 addr info)
        ∧ (∀ k, t.greg k = u.greg k) ∧ (∀ e', e' ≠ e.val → t.eng e' = u.eng e')
        ∧ t.arb = u.arb ∧ t.pcl.ctxs = u.pcl.ctxs ∧ t.mem.cells = u.mem.cells)
    ∧ (x.fault ≠ 0 → (t.eng e).st = .halted ∧ (t.eng e).fault = x.fault ∧ (t.eng e).pc = x.pc
        ∧ (t.eng e).belay = false ∧ (∀ k ∈ u.semsOf e, (t.sem k).held = false)
        ∧ scratchTakes u t e 0xFF40 (recordOf u e code 1 addr info)
        ∧ (∀ k, t.greg k = u.greg k) ∧ t.mem.cells = u.mem.cells)

/-- For every engine about to run WAIT: with s.emask zero and FNRST clear it raises WAIT_NOEVT; else with s.belay 1 it
raises WAIT_BELAY, FNRST or not; in neither case does the engine enter the wait. With FNRST set and no belay it ends
at once, whatever s.emask holds: s.pc advances and the engine stays in RUN, as it does with an enabled event
pending; else the engine enters WAIT. No event bit is cleared. -/
def Obligations.WaitFaultsOrWaits : Prop :=
  ∀ (s : State) (e : Fin 64), runs s e .wait →
    let x := s.eng e
    let fnrst := x.evt / 32 % 2 = 1
    let next : Eng := { x with hold := false }
    (x.emask = 0 ∧ ¬fnrst → traps (.wait e) s e 8 0 0)
    ∧ (¬(x.emask = 0 ∧ ¬fnrst) ∧ x.belay = true → traps (.wait e) s e 7 0 0)
    ∧ (∀ code, ((raiseFault e code 0 0 (fetched s e)).eng e).st ≠ .wait)
    ∧ (x.belay = false ∧ fnrst → goesTo (.wait e) s e (x.pc + 1) next)
    ∧ (x.belay = false ∧ ¬fnrst ∧ x.evt &&& x.emask ≠ 0 → goesTo (.wait e) s e (x.pc + 1) next)
    ∧ (x.belay = false ∧ ¬fnrst ∧ x.emask ≠ 0 ∧ x.evt &&& x.emask = 0 →
        goesTo (.wait e) s e (x.pc + 1) { next with st := .wait })

/-- For every DISPATCH and engine: an engine whose state it changes has the TIME of its s.stamp as its marker. For every
engine about to run FMARK: the marker takes s.now, the 48-bit local time of the cluster's NI, no packet is sent and
no register, arbiter or other part of the block changes but s.pc and s.icnt. -/
def Obligations.MarkerOfDispatchAndFmark : Prop :=
  (∀ (s t : State) (c : Fin 8) (e : Nat), Sys2Proof.Machine.exec (.dispatch c) s = .next t → t.eng e ≠ s.eng e →
    (t.eng e).marker = (t.eng e).stamp.toNat / 2 ^ 16)
  ∧ ∀ (s : State) (e : Fin 64), runs s e .fmark →
      goesTo (.fmark e) s e ((s.eng e).pc + 1) { s.eng e with marker := s.niTime (10 + e.val / 8) }

/-- For every engine about to run one (R204 to R206, R212, Table 9-1): MOVE writes 2 under the reset fence of its
function, 3 for a descriptor that breaks R206, 4 for a local side it cannot use, 1 at CTX_CAP or with no free
context, and else takes the lowest free context with every field of the descriptor and writes its number; CTXACK
writes 0xFF with none complete, else tag, number and status, frees the context and loads the next one. -/
def Obligations.MoveAndCtxack : Prop :=
  ∀ (s : State) (e : Fin 64) (rd : Fin 32),
    let x := s.eng e
    let d := s.desc e
    let f := d.fn x.fn
    let c := e.val / 8
    (runs s e (.move rd) →
      (s.fencedAt e f = true → gives (.move e rd) s e rd 2 x.flags)
      ∧ (s.fencedAt e f = false ∧ d.valid f = false → gives (.move e rd) s e rd 3 x.flags)
      ∧ (s.fencedAt e f = false ∧ d.valid f = true ∧ d.xlate = true → gives (.move e rd) s e rd 4 x.flags)
      ∧ (s.fencedAt e f = false ∧ d.valid f = true ∧ d.xlate = false →
          ((s.freeCtx c = none ∨ x.ctxCap ≤ s.ctxn e) → gives (.move e rd) s e rd 1 x.flags)
          ∧ (∀ key, s.freeCtx c = some key ∧ s.ctxn e < x.ctxCap → ∃ t,
              Sys2Proof.Machine.exec (.move e rd) s = .next t ∧ writes s t e rd (BitVec.ofNat 64 (256 * (key % 512)))
              ∧ t.eng e = { x with
                  pc := (x.pc + 1) % 2 ^ 17
                  icnt := min (x.icnt + 1) 0xFFFFFFFF }
              ∧ t.ctx key = openCtx d f e (s.clu c).nextCtx ∧ (t.ctx key).used = true ∧ (t.ctx key).eng = e.val
              ∧ (t.ctx key).fn = f ∧ (t.ctx key).saddr = d.saddr ∧ (t.ctx key).daddr = d.daddr
              ∧ (t.ctx key).len = d.len ∧ (t.ctx key).tag = d.tag
              ∧ (∀ k, k ≠ key → t.ctx k = s.ctx k) ∧ (t.clu c).nextCtx = (s.clu c).nextCtx + 1
              ∧ { t with pcl := s.pcl } = { fetched s e with pcl := s.pcl }
              ∧ (∀ e', e' ≠ e.val → t.eng e' = s.eng e'))))
    ∧ (runs s e (.ctxack rd) →
      (x.ctx = 0x3FF → gives (.ctxack e rd) s e rd 0xFF x.flags)
      ∧ (x.ctx ≠ 0x3FF → ∃ t, Sys2Proof.Machine.exec (.ctxack e rd) s = .next t
          ∧ writes s t e rd (BitVec.ofNat 64 ((s.ctx (512 * c + x.ctx)).tag * 2 ^ 32 + x.ctx * 256 + x.ctxsts))
          ∧ t.ctx (512 * c + x.ctx) = {} ∧ (∀ k, k ≠ 512 * c + x.ctx → t.ctx k = s.ctx k)
          ∧ t.eng e = { x with
              pc := (x.pc + 1) % 2 ^ 17
              icnt := min (x.icnt + 1) 0xFFFFFFFF
              ctx := (x.done.head?.map (·.1)).getD 0x3FF
              ctxsts := (x.done.head?.map (·.2)).getD 0
              done := x.done.tail
              evt := if x.done = [] then x.evt &&& 0xFFFD else x.evt }
          ∧ { t with pcl := s.pcl } = { fetched s e with pcl := s.pcl } ∧ (∀ e', e' ≠ e.val → t.eng e' = s.eng e')))

/-- R172, R202, R140, R217 for an engine about to run one: NOP only goes on; END raises STATE while the engine holds a
semaphore or a belay, ends the task when every context it owns is complete, and else waits for that
(END_CONTEXTS_DRAINED then ends it); FENCE.P writes FENCED under the reset fence of s.fn, the count at once where no
posted packet went out, and else stalls until every destination has answered (FENCE_P_ANSWERS_DONE then writes
FENCED or the count, all ones after a damaged packet). -/
def Obligations.NopEndAndPostedFences : Prop :=
  ∀ (s : State) (e : Fin 64) (rd : Fin 32),
    let x := s.eng e
    (runs s e .nop → goesTo (.nop e) s e (x.pc + 1) x)
    ∧ (runs s e .end_ →
      (s.semn e ≠ 0 ∨ x.belay = true → traps (.end_ e) s e 0x0B 0 0)
      ∧ (s.semn e = 0 ∧ x.belay = false →
        (s.drained e = true → ∃ t, Sys2Proof.Machine.exec (.end_ e) s = .next t ∧ ended s t e)
        ∧ (s.drained e = false → ∃ t, Sys2Proof.Machine.exec (.end_ e) s = .next t ∧ keepsRegs s t e
            ∧ t.eng e = { x with
                hold := false
                st := .wait
                ending := true }
            ∧ onlyEngine (fetched s e) t e)))
    ∧ (up s → x.ending = true → s.drained e = true →
        ∃ t, Sys2Proof.Machine.exec (.endContextsDrained e) s = .next t ∧ ended s t e)
    ∧ (runs s e (.fenceP rd) →
      (shut s e → gives (.fenceP e rd) s e rd 2 x.flags)
      ∧ (open_ s e → x.posted = [] → ∃ t, Sys2Proof.Machine.exec (.fenceP e rd) s = .next t
          ∧ completesWith (fetched s e) t e rd (BitVec.ofNat 64 (256 * faultCount (fetched s e) e false)) x)
      ∧ (open_ s e → x.posted ≠ [] → ∃ t, Sys2Proof.Machine.exec (.fenceP e rd) s = .next t ∧ keepsRegs s t e
          ∧ t.eng e = { x with
              posted := []
              stall := .fence rd.val x.posted false false
              outq := (t.eng e).outq }
          ∧ (∀ e', e' ≠ e.val → t.eng e' = s.eng e')))
    ∧ (∀ dam refused, up s → x.cutPend = none → x.stall = .fence rd.val [] dam refused →
        ∃ t, Sys2Proof.Machine.exec (.fencePAnswersDone e) s = .next t
          ∧ completesWith s t e rd (BitVec.ofNat 64 (if refused then 2 else 256 * faultCount s e dam)) x)

/-- R127, R137, R213, R215, R221, R228: with the reply that engine e is stalled on (its tag and source), a good one
without poison writes RD (a load extended by its width, an atomic its old value, XLT and XLT_DRAIN the word, a
semaphore its word above bit 31) and the instruction completes; a lock sets s.belay and its target. A refusal by a
fence (CSTS 2 with XV 5) writes all ones, XST 7 or FENCED. BUSY of a semaphore writes 5. Another status is RESP, and
poison POISON, with a cut that waits taken after. An answer to FENCE.P leaves one destination fewer to wait for. -/
def Obligations.RepliesEndStalls : Prop :=
  ∀ (s : State) (e : Fin 64) (i : Nat) (p0 : Packet) (rd : Fin 32),
    let x := s.eng e
    let p := (got (10 + e.val / 8) i p0 s).1
    let u := (got (10 + e.val / 8) i p0 s).2
    replyAt s (10 + e.val / 8) i p0 → x.cutPend = none →
    (p0.tag = x.stallTag ∧ p0.src = x.stallDst →
      (p.csts = 0 ∧ p.ep = false ∧ p.xv ≠ 5 →
        (∀ w, x.stall = .load rd.val w → repliesWith s e i p0 rd (extended w (leNat p.data)) x)
        ∧ (∀ d, x.stall = .atomic rd.val d →
            repliesWith s e i p0 rd (BitVec.ofNat 64 (leNat p.data % 2 ^ (if d then 64 else 32))) x)
        ∧ (x.stall = .drain rd.val → repliesWith s e i p0 rd (BitVec.ofNat 64 (leNat p.data)) x)
        ∧ (x.stall = .sem rd.val → repliesWith s e i p0 rd (BitVec.ofNat 64 (leNat p.data % 2 ^ 32 * 2 ^ 32)) x)
        ∧ (x.stall = .xlt rd.val → repliesWith s e i p0 rd (BitVec.ofNat 64 (leNat p.data)) { x with
            hold := x.hold || xwXst (BitVec.ofNat 64 (leNat p.data)) == 0
            holds := if !x.hold && xwXst (BitVec.ofNat 64 (leNat p.data)) == 0 then x.holds + 1 else x.holds })
        ∧ (∀ w loc target a, x.stall = .lock rd.val w loc target a → lockLen w ≠ 16 →
            repliesWith s e i p0 rd (BitVec.ofNat 64 (leNat p.data)) { x with
              belay := true
              belayLoc := loc
              belayTarget := target
              belayAddr := a }))
      ∧ (p.csts = 2 ∧ p.xv = 5 →
        (∀ w, x.stall = .load rd.val w → repliesWith s e i p0 rd (BitVec.allOnes 64) x)
        ∧ (∀ d, x.stall = .atomic rd.val d → repliesWith s e i p0 rd (BitVec.allOnes 64) x)
        ∧ (x.stall = .xlt rd.val → repliesWith s e i p0 rd (BitVec.ofNat 64 (7 * 2 ^ 60)) x)
        ∧ (x.stall = .drain rd.val → repliesWith s e i p0 rd 2 x)
        ∧ (x.stall = .sem rd.val → repliesWith s e i p0 rd 2 x))
      ∧ (p.csts = 4 → x.stall = .sem rd.val → repliesWith s e i p0 rd 5 x)
      ∧ (∀ w, x.stall = .load rd.val w → p.csts = 0 → p.xv ≠ 5 → p.ep = true →
          Sys2Proof.Machine.exec (.engineReplyArrive e i) s
            = .next (checkCut e (raiseFault e 0x0D x.stallAddr (p.src * 2 ^ 26) u)))
      ∧ (∀ w, x.stall = .load rd.val w → p.csts ≠ 0 → p.xv ≠ 5 →
          Sys2Proof.Machine.exec (.engineReplyArrive e i) s
            = .next (checkCut e (raiseFault e 0x0C x.stallAddr (p.src * 2 ^ 26 + p.csts * 2 ^ 23) u))))
    ∧ (∀ dests dam refused, x.stall = .fence rd.val dests dam refused →
        p0.tag = 2048 + 64 * (e.val % 8) + p0.src → p0.src ∈ dests →
        Sys2Proof.Machine.exec (.engineReplyArrive e i) s = .next (u.setEng e { x with
          stall := .fence rd.val (dests.erase p.src) (dam || p.ep) (refused || p.xv == 5) }))

/-- R173, R226: with the engine's arbiter entry free, a stalled engine's one waiting packet (not a RAISE) becomes its
request at the mover egress and the stall ends, or the stall ends alone with nothing waiting; a RAISE at the head of
the waiting packets becomes a request once every context it must follow has handed on its last write, and else
nothing changes. -/
def Obligations.SlotWaitersGoOn : Prop :=
  ∀ (s : State) (e : Fin 64) (p : Packet) (rest : List Packet),
    let x := s.eng e
    let b := s.arbiter (20 + e.val / 8)
    let asked (y : Eng) := (s.setEng e y).setArbiter (20 + e.val / 8) { b with waiting := b.waiting ++ [(e.val % 8, p)] }
    up s →
    (x.cutPend = none → x.stall = .egress → s.entryFree e = true →
      (x.outq = [] → Sys2Proof.Machine.exec (.engineStallResume e) s = .next (s.setEng e { x with stall := .none }))
      ∧ (x.outq = [p] → p.ty ≠ 0x12 → ∃ t, Sys2Proof.Machine.exec (.engineStallResume e) s = .next t
          ∧ t.eng e = { x with
              outq := []
              stall := .none }
          ∧ t.arb = (asked x).arb ∧ { t with pcl := s.pcl } = { asked x with pcl := s.pcl }
          ∧ ∀ e', e' ≠ e.val → t.eng e' = s.eng e'))
    ∧ (x.outq = p :: rest → p.ty = 0x12 → s.entryFree e = true → s.raiseClear e p = true →
        Sys2Proof.Machine.exec (.raiseRequestPresent e) s = .next (asked { x with outq := rest }))
    ∧ (x.outq = p :: rest → (p.ty ≠ 0x12 ∨ s.entryFree e = false ∨ s.raiseClear e p = false) →
        Sys2Proof.Machine.exec (.raiseRequestPresent e) s = .next s)

/-- R30, R31, R36, R37: at 0.60 V and above, a 100 ns average is coded with the reading's error, VMIN keeps the lower
code and BELOW_FLOOR sets below the threshold; a 50 ns average below its threshold sets CORE_UV once and one of 0.60
V and above changes nothing; VNOW takes the latest average and a permitted VMIN_CLR sets VMIN to 0xFF; a permitted
write of STEP_MON_CTL clears VALID and starts or stops the window, whose end sets STEPS and VALID and starts the
next. The errors and thresholds are free values. -/
def Obligations.MonitorsMeasureSupplyAndSteps : Prop :=
  ∀ (s : State) (w : Writer) (uv steps : Nat) (v : BitVec 32), up s →
    (600000 ≤ uv → ∃ t code, Sys2Proof.Machine.exec (.vmon100nsAverage uv) s = .next t
      ∧ code = vmonCode uv s.free ∧ code ≤ 255 ∧ t.pwr = { s.pwr with avg := code }
      ∧ t.fget F.coreVmonStsVmin 0 = min code (s.fget F.coreVmonStsVmin 0)
      ∧ (uv < 635000 + (Config.floorThr s.free).val → t.fget F.coreVmonStsBelowFloor 0 = 1)
      ∧ (635000 + (Config.floorThr s.free).val ≤ uv → t.fget F.coreVmonStsBelowFloor 0 = s.fget F.coreVmonStsBelowFloor 0)
      ∧ t.free = s.free + 1 ∧ { t with reg := s.reg, pwr := s.pwr, free := s.free } = s)
    ∧ (600000 ≤ uv → Sys2Proof.Machine.exec (.vmon50nsAverage uv) s = .next { s with free := s.free + 1 })
    ∧ (uv < 570000 + (Config.uvThr s.free).val → s.fget F.coreVmonStsCoreUv 0 ≠ 1 →
        ∃ t, Sys2Proof.Machine.exec (.vmon50nsAverage uv) s = .next t ∧ t.fget F.coreVmonStsCoreUv 0 = 1)
    ∧ Sys2Proof.Machine.exec .vnowUpdate s = .next (s.fset F.coreVmonStsVnow 0 s.pwr.avg)
    ∧ (writerOk w .coreVmonSts 0 = true →
        Sys2Proof.Machine.exec (.vminClr w) s = .next (s.fset F.coreVmonStsVmin 0 0xFF))
    ∧ (writerOk w .stepMonCtl 0 = true → ∃ t, Sys2Proof.Machine.exec (.stepMonCtlWrite w v) s = .next t
        ∧ t.fget F.stepMonResultValid 0 = 0
        ∧ t.pwr = { s.pwr with
            winStart := if v.toNat / 4 % 2 = 1 then some s.tb.count else none
            winFor := v.toNat % 4 }
        ∧ { t with reg := s.reg, pwr := s.pwr } = s)
    ∧ (∀ b, s.pwr.winStart = some b → b + windowNs s.pwr.winFor ≤ s.tb.count →
        Sys2Proof.Machine.exec (.stepMonWindowEnd steps) s = .next { (s.fset F.stepMonResultSteps 0 steps).fset
            F.stepMonResultValid 0 1 with pwr := { s.pwr with winStart := some (b + windowNs s.pwr.winFor) } })

/-- R40 to R42, R67 with a permitted writer: the PLL locks only enabled; SRC = 1 counts only with PLL_LOCK; switch-over
saves the count in TB_COARSE_END, clears COARSE and records anchor 2; the loss of lock after it sets COARSE and
LOCK_LOST and clears SRC and PLL_LOCK; TB_STEP takes a step that is not 0, applied at a 256 ns boundary; TB_SLEW
takes values within 5,000; 10^7 units owed move the count by one nanosecond more or less; and each 2^32 ns period of
the count gets one periodic anchor record. -/
def Obligations.TimeBaseFollowsItsRegisters : Prop :=
  ∀ (s : State) (w : Writer) (v : BitVec 32), up s →
    let set (f : Fld) (x : Nat) (u : State) : State := u.fset f 0 x
    (s.fget F.tbCtlPllEn 0 = 1 → Sys2Proof.Machine.exec .tbPllLock s
        = .next { set F.tbCtlPllLock 1 s with tb := { s.tb with lockSince := some s.tb.count } })
    ∧ (writerOk w .tbCtl 0 = true →
        (s.fget F.tbCtlPllLock 0 = 1 → Sys2Proof.Machine.exec (.tbSrcWrite w true) s = .next (set F.tbCtlSrc 1 s))
        ∧ (s.fget F.tbCtlPllLock 0 ≠ 1 → Sys2Proof.Machine.exec (.tbSrcWrite w true) s = .next s)
        ∧ Sys2Proof.Machine.exec (.tbSrcWrite w false) s = .next s)
    ∧ (s.fget F.tbCtlSrc 0 = 1 → s.fget F.tbCtlCoarse 0 = 1 → s.fget F.tbCtlPllLock 0 = 1 →
        Sys2Proof.Machine.exec .tbSwitchOver s
          = .next (anchor 2 (set F.tbCtlCoarse 0 (s.rput .tbCoarseEnd 0 (BitVec.ofNat 64 s.tb.count)))))
    ∧ (s.fget F.tbCtlSrc 0 = 1 → s.fget F.tbCtlCoarse 0 ≠ 1 → ∃ t u, Sys2Proof.Machine.exec .tbFallback s = .next t
        ∧ u = set F.tbCtlPllLock 0 (set F.tbCtlCoarse 1 (set F.tbCtlLockLost 1 (set F.tbCtlSrc 0 s)))
        ∧ t = anchor 3 (aerCorrected ({ u with tb := { s.tb with lockSince := none } }.emit (.mgcCorr "LOCK_LOST"))))
    ∧ (writerOk w .tbStep 0 = true → Sys2Proof.Machine.exec (.tbStepWrite w v) s
        = .next (if v = 0 then s else { s with tb := { s.tb with step := v.toNat } }))
    ∧ (s.tb.count % 256 = 0 → Sys2Proof.Machine.exec .tbStepApply s = .next { s with tb := { s.tb with
        count := (s.tb.count + s.tb.step) % 2 ^ 64
        step := 0 } })
    ∧ (writerOk w .tbSlew 0 = true → Sys2Proof.Machine.exec (.tbSlewWrite w v) s
        = .next (if v.toNat % 65536 ≤ 5000 ∨ 60536 ≤ v.toNat % 65536 then set F.tbSlewSlew (v.toNat % 65536) s else s))
    ∧ (10000000 ≤ s.tb.slewAcc → Sys2Proof.Machine.exec .tbSlewAdjust s = .next { s with tb := { s.tb with
        count := (s.tb.count + 2) % 2 ^ 64
        slewAcc := s.tb.slewAcc - 10000000 } })
    ∧ (s.tb.slewAcc ≤ -10000000 → Sys2Proof.Machine.exec .tbSlewAdjust s
        = .next { s with tb := { s.tb with slewAcc := s.tb.slewAcc + 10000000 } })
    ∧ (s.tb.count / 2 ^ 32 ≠ s.tb.anchor → Sys2Proof.Machine.exec .anchorRecord s
        = .next (anchor 1 { s with tb := { s.tb with anchor := s.tb.count / 2 ^ 32 } }))

/-- R43, R44, R54 to R59: a feeder that is not parked and has the time sends its milestone (24 bits of local time, its
count toward the gate) 32 ns after the last; the full time, once for each 256 ns period, leaves no NI without it;
the hold after an unpark ends at its time; and a keeper that takes a milestone raises its watermark when the count
is reached, keeps it pending when not, and takes an unpark at once. -/
def Obligations.FeedersKeepTime : Prop :=
  (∀ (s : State) (ni : Fin 46) (g : Fin 10), up s → s.feeds ni g = true → s.niParked ni = false →
      s.untimed ni = false → s.lastSent (10 * ni.val + g.val) + 32 ≤ s.tb.count →
      ∃ t, Sys2Proof.Machine.exec (.milestoneSend ni g) s = .next t
        ∧ t.ord.miles = s.ord.miles ++ [{
            time := s.niTime ni % 2 ^ 24
            src := ni
            gate := g
            count := s.injCnt (46 * ni.val + g.val) % 4096
            coarse := s.flag F.tbCtlCoarse 0
            park := false
            unpark := false }]
        ∧ t.lastSent (10 * ni.val + g.val) = s.tb.count ∧ { t with ord := s.ord } = s)
  ∧ (∀ s : State, up s → s.tb.count / 256 ≠ s.tb.loaded → ∃ t, Sys2Proof.Machine.exec .timeSerialLoad s = .next t
        ∧ ∀ ni < 46, t.untimed ni = false)
  ∧ (∀ (s : State) (ni : Fin 46), up s →
      (s.holdTill ni ≤ s.tb.count → Sys2Proof.Machine.exec (.unparkHoldExpire ni) s = .next (s.setHoldTill ni 0))
      ∧ (s.tb.count < s.holdTill ni → Sys2Proof.Machine.exec (.unparkHoldExpire ni) s = .next s))
  ∧ (∀ (s : State) (i : Nat) (ms : Milestone) (f : Feeder), up s → s.ord.miles[i]? = some ms →
      f = s.feeder (46 * ms.gate + ms.src) →
      let own := fullTime (s.niTime ms.gate) ms.time
      let g : Feeder := if ms.unpark then { f with
            w := own
            parked := false
            pend := none }
          else if reached f.recv ms.count then { f with
            w := if timeBefore f.w own then own else f.w
            parked := ms.park || f.parked
            pend := none }
          else { f with pend := some ms }
      Sys2Proof.Machine.exec (.milestoneArrive i) s = .next (resolveCounts ms.gate ms.src f.recv [ms.count]
        ({ s with ord := { s.ord with miles := s.ord.miles.eraseIdx i } }.setFeeder (46 * ms.gate + ms.src) g)))

/-- R52, R56, R61, R69, R70: a packet that its gate orders and serves, with no damage and the port open, counts, moves
its feeder's record and is held from now on; a release takes the packet that the rule picks out of the hold memory,
offers its allowance return and passes it on, and nothing happens without one; an allowance return lowers its
feeder's units in use; a permitted commit of allowances happens only if they fit, else ALLOW_ERR sets; a permitted
LAT_CLR clears MAX_ADDED. -/
def Obligations.GatesOrderAndReturn : Prop :=
  ∀ (s : State) (g : Fin 10), up s →
    (∀ (i : Nat) (p : Packet), (s.arrived g)[i]? = some p → passesGate g p = true → p.icnt ≠ 4096 → p.hdrBad = false →
      p.bad = [] → s.gateOpen g = true → formOk p = true → gateServes g p = true →
      ∃ u f, f = keepPkt (s.niTime g) p (s.feeder (46 * g.val + p.src))
        ∧ u.arrived g = (s.arrived g).eraseIdx i ∧ u.feeder (46 * g.val + p.src) = f
        ∧ (u.gate g).held = (s.gate g).held ++ [{
            pkt := p
            at_ := s.tb.count }]
        ∧ { u with ord := s.ord, fab := s.fab } = s
        ∧ Sys2Proof.Machine.exec (.gatePacketArrive g i) s = .next (resolveCounts g p.src f.recv
            ((s.feeder (46 * g.val + p.src)).pend.toList.map (·.count)) u))
    ∧ (∀ (i : Nat) (h : Held), s.takesReleases g = true → s.pickRelease g = some (i, h) →
        ∃ u, (u.gate g).held = (s.gate g).held.eraseIdx i
          ∧ u.inq (25 * g.val + 24) = s.inq (25 * g.val + 24)
              ++ [{ allowanceReturn g h.pkt false with born := s.tb.count }]
          ∧ Sys2Proof.Machine.exec (.gateRelease g) s
              = .next (if g.val < 2 then egressPush g h.pkt u else lpiRelease (g.val - 2) h.pkt u))
    ∧ (s.takesReleases g = false ∨ s.pickRelease g = none → Sys2Proof.Machine.exec (.gateRelease g) s = .next s)
    ∧ (∀ (ni : Fin 46) (i : Nat) (p : Packet), (s.arrived ni)[i]? = some p → p.cls = 3 → p.ty = 0x31 →
        p.hdrBad = false → p.src < 10 → (ni.val < 10 ∨ 18 ≤ ni.val) →
        Sys2Proof.Machine.exec (.allowanceReturn ni i) s = .next ((s.setArrived ni ((s.arrived ni).eraseIdx i)).setUsedUnits
          (10 * ni.val + p.src) (s.usedUnits (10 * ni.val + p.src) - p.addr % 2 ^ 16)))
    ∧ (∀ w : Writer, writerOk w .gateCtl g = true →
        Sys2Proof.Machine.exec (.gateCommit w g) s = .next (if s.allowOk g then commitRws .gateAllow (46 * g.val) 46 s
          else s.fset F.gateCtlAllowErr g 1))
    ∧ (∀ w : Writer, writerOk w .gateLag g = true →
        Sys2Proof.Machine.exec (.gateLatClr w g) s = .next (s.fset F.gateLagMaxAdded g 0))

/-- R74, R80, R84, R87, R88, R90, R193 with route copies that agree: the packet at the front of an injection queue that
nothing holds back enters; a request under the fence of its FN is answered at its own NI; a head at a router asks
for its adaptive channels or, on a switchback channel, for the switchback one; a waiting head may also ask for the
switchback and, at an edge before its detour, for the detour channels; an idle link sends the flit that the
arbitration picks; a router takes an error-free flit into its buffer and asks for a bad one again; a credit goes
back to its channel; and a bank's NI hands a sound access in order to the bank's arbiter. -/
def Obligations.FabricMovesPackets : Prop :=
  ∀ s : State, up s →
    (∀ (ni : Fin 46) (q : Fin 25) (p : Packet) (rest : List Packet), s.inq (25 * ni.val + q.val) = p :: rest →
      s.niAwake ni = true →
      let u := s.setInq (25 * ni.val + q.val) rest
      (p.cls = 0 → s.under ni p.fn = true → Sys2Proof.Machine.exec (.niInject ni q) s
          = .next (u.setArrived ni (s.arrived ni ++ [{ p.reply 0x21 2 [] with dst := ni, xv := 5 }])))
      ∧ (∀ v, ¬(p.cls < 2 ∧ s.under ni p.fn = true) → agreed s (20 + ni.val) p.dst v → u.routeOk ni p = true →
          u.allowed ni p = true → u.admits ni p = true → u.queueFree ni p = true → u.untimed ni = false →
          u.postedAhead ni p = false → (u.niParked ni && passesGate p.dst p) = false →
          Sys2Proof.Machine.exec (.niInject ni q) s = .next (touchNi ni (enter ni p u))))
    ∧ (∀ (l : Fin 352) (up : Bool) (vc : Fin 8) (f : Flit) (rest : List Flit) (e : Nat),
      let k := 16 * l.val + 8 * (if up then 1 else 0) + vc.val
      let x := receiverOf l up
      let p := s.pktOf f.pid
      let u := s.chan k
      let asks (more : List Nat) : State :=
        s.setChan k { u with req := u.req ++ more.filter (fun y => !u.req.contains y) }
      u.buf = f :: rest → agreed s x p.dst e →
      (f.idx = 0 → u.seen = false → x < 20 → Sys2Proof.Machine.exec (.routerHeadArrive l up vc false) s
          = .next (s.setChan k { u with
              seen := true
              req := if vc.val % 2 = 1 then s.switchback x (groupLinks x (e / 1024 % 32)) p.cls
                else s.adaptive x (groupLinks x (e % 32)) p.cls }))
      ∧ (u.seen = true → u.req ≠ [] → vc.val % 2 = 0 →
          Sys2Proof.Machine.exec (.routeSwitchbackRequest l up vc) s
            = .next (asks (s.switchback x (groupLinks x (e / 1024 % 32)) p.cls))
          ∧ (6 ≤ x → p.dt = false → niRouter p.dst ≠ x → s.fget F.fabCtlDetourWait 0 ≠ 0 →
            Sys2Proof.Machine.exec (.routeDetourRequest l up vc) s
              = .next (asks (s.adaptive x (groupLinks x (e / 32 % 32)) p.cls)))))
    ∧ (∀ (l : Fin 352) (up : Bool),
      let d := 2 * l.val + if up then 1 else 0
      let a := allocate l up s
      ((a.dir d).wire = none → (a.link l).failed = false →
        (nextOut a l up = none → Sys2Proof.Machine.exec (.linkOutputArbitration l up) s = .next a)
        ∧ ∀ k x c, nextOut a l up = some (k, x, c) → ∃ t, Sys2Proof.Machine.exec (.linkOutputArbitration l up) s = .next t
            ∧ (t.dir d).wire = some (k, x) ∧ (t.dir d).tries = 0)
      ∧ (∀ k x (err : FlitError) (par : BitVec 8), (s.dir d).wire = some (k, x) → receiverOf l up < 20 →
          (err = .ok → ∀ f, s.flight x.pid = some f → ∃ t, Sys2Proof.Machine.exec (.flitArrive l up err par) s = .next t
            ∧ (t.dir d).wire = none ∧ (t.chan k).buf = (s.chan k).buf ++ [x]
            ∧ { t with fab := s.fab } = s)
          ∧ (err = .ctlCode → (s.dir d).tries ≠ 63 → Sys2Proof.Machine.exec (.flitArrive l up err par) s
            = .next (linkRepeat l 1 false (s.setDir d { s.dir d with tries := (s.dir d).tries + 1 }))))
      ∧ (∀ vc rest, (s.dir d).owed = vc :: rest → receiverOf l up < 20 →
          let k := 16 * l.val + 8 * (if up then 1 else 0) + vc
          Sys2Proof.Machine.exec (.creditReturn l up) s = .next ((s.setDir d { s.dir d with owed := rest }).setChan k
            { s.chan k with used := (s.chan k).used - 1 })))
    ∧ (∀ (ni : Fin 46) (i : Nat) (p : Packet), (s.arrived ni)[i]? = some p → 18 ≤ ni.val → ni.val < 34 → p.hdrBad = false →
        p.cls = 0 → p.ty = 0 → p.asp = 3 → p.len ≠ 0 → p.len ≤ 4096 → p.bad = [] →
        (s.setArrived ni ((s.arrived ni).eraseIdx i)).inOrder ni p = true →
        Sys2Proof.Machine.exec (.destNiPacketArrive ni i) s
          = .next (request (ni.val - 18) p.src p (s.setArrived ni ((s.arrived ni).eraseIdx i))))

/-- R90, R91, R94 to R96, R102, R104, R105 with a permitted writer: an enabled limiter whose 64 ns are over gains RATE
up to its ceiling; a commit takes every INJ_LIM shadow, or sets LIM_ERR where an enabled one is zero; FORCE_OUT
takes a link out of service (recorded) and back, but never the last of its group; RT_DATA replaces all three copies
of the selected entry; an arbiter commit takes map and control together; and a C52_PRIO write puts a consistent pair
in force at once, else sets PAIR_SKEW and leaves the set in force. -/
def Obligations.FabricAndArbiterRegisters : Prop :=
  ∀ (s : State) (w : Writer), up s →
    (∀ (ni : Fin 46) (qc : Fin 8), s.fget F.injLimEn (8 * ni.val + qc.val) = 1 →
      s.tokenTime (8 * ni.val + qc.val) + 64 ≤ s.tb.count →
      ∃ t, Sys2Proof.Machine.exec (.limiterTokenAdd ni qc) s = .next t
        ∧ t.tokens (8 * ni.val + qc.val) = min (s.burst (8 * ni.val + qc.val))
            (s.tokens (8 * ni.val + qc.val) + s.fget F.injLimRate (8 * ni.val + qc.val))
        ∧ t.tokenTime (8 * ni.val + qc.val) = s.tb.count ∧ { t with fab := s.fab } = s)
    ∧ (writerOk w .fabCtl 0 = true →
      (s.limitsOk = true → ∃ t, Sys2Proof.Machine.exec (.fabCommit w) s = .next t
        ∧ ∀ i < 368, t.rget .injLim i = s.sget .injLim i)
      ∧ (s.limitsOk = false → Sys2Proof.Machine.exec (.fabCommit w) s = .next (s.fset F.fabStsLimErr 0 1)))
    ∧ (writerOk w .linkSts 0 = true →
      let l := s.fget F.linkSelLink 0
      (Sys2Proof.Machine.exec (.forceOutWrite w false) s = .next (s.setLink l { s.link l with forced := false }))
      ∧ ((s.link l).forced = false → s.lastOfGroup l = false →
          Sys2Proof.Machine.exec (.forceOutWrite w true) s = .next (
            let u := s.setLink l { s.link l with forced := true }
            if (s.link l).out then u else aerCorrected (fabFault (nearestNi l) 5 l F.fabStsLinkOut false u)))
      ∧ ((s.link l).forced = false → s.lastOfGroup l = true → Sys2Proof.Machine.exec (.forceOutWrite w true) s
          = .next (violSource (s.writePkt w .linkSts 0 (BitVec.ofNat 64 (2 ^ 30))) s)))
    ∧ (∀ v : BitVec 64, writerOk w .rtData 0 = true → ∃ t, Sys2Proof.Machine.exec (.rtDataWrite w v) s = .next t
        ∧ agreed t (s.fget F.rtSelUnit 0) (s.fget F.rtSelDest 0)
            (if s.fget F.rtSelUnit 0 < 20 then v.toNat % 2 ^ 15 else v.toNat / 2 ^ 15 % 2 * 2 ^ 15))
    ∧ (∀ a : Fin 29, writerOk w .arbCtl a = true → ∃ t, Sys2Proof.Machine.exec (.arbCommit w a) s = .next t
        ∧ t.rget .arbCtl a = s.sget .arbCtl a ∧ ∀ i < 6, t.rget .arbMap (6 * a.val + i) = s.sget .arbMap (6 * a.val + i))
    ∧ (∀ (a : Fin 29) (v : BitVec 32), writerOk w .c52PrioLo a = true →
        let u := s.rput .c52PrioLo a (v.setWidth 64)
        (consistent (v.setWidth 64) (s.rget .c52PrioHi a) = false →
          Sys2Proof.Machine.exec (.c52PrioWrite w a false v) s = .next (u.fset F.c52StsPairSkew a 1))
        ∧ (consistent (v.setWidth 64) (s.rget .c52PrioHi a) = true → s.fget F.c52StsPairSkew a ≠ 1 → ∃ t,
            Sys2Proof.Machine.exec (.c52PrioWrite w a false v) s = .next t
              ∧ (t.c52Force (2 * a.val)).getD 0x76543210 = v.setWidth 64
              ∧ (t.c52Force (2 * a.val + 1)).getD 0xFEDCBA98 = s.rget .c52PrioHi a))

/-- R97 to R100, R106 to R108: the oldest delivered request of an index enters its empty slot with the time; a free
arbiter with a presenting request opens a contest with the map and COMPAT_EN; deciding grants the winner, whose slot
empties and whose losses return to zero, with every other presenting index backed off, and a locked read opens the
belay; a backoff ends; a bank executes the packet of its grant as the grant ends, an egress offers it to its NI; a
grant within its limit is not cut and one past it is. -/
def Obligations.ArbitersContestGrantAndBelay : Prop :=
  ∀ (s : State) (a : Fin 29) (idx : Fin 47), up s →
    let b := s.arbiter a
    (∀ p rest, b.waiting = (idx.val, p) :: rest → mget none b.slots idx = none →
      Sys2Proof.Machine.exec (.arbRequestDeliver a idx) s = .next (s.setArbiter a { b with
        slots := mput none b.slots idx (some {
          pkt := p
          at_ := s.tb.count })
        waiting := rest }))
    ∧ (b.contest = none → b.grant = none → s.presenting a ≠ [] →
      Sys2Proof.Machine.exec (.arbContestOpen a) s = .next (s.setArbiter a { b with contest := some {
        map := (List.range 47).map (s.inputOf a)
        compat := s.flag F.arbCtlCompatEn a } }))
    ∧ (∀ c w r, b.contest = some c → s.winner a c = some w → mget none b.slots w = some r →
      ∃ t g, Sys2Proof.Machine.exec (.arbContestDecide a) s = .next t
        ∧ g = {
            idx := w
            pkt := r.pkt
            at_ := s.tb.count
            limit := s.fget F.arbCtlHoldLimit a
            serving := true }
        ∧ (t.arbiter a).contest = none ∧ (t.arbiter a).grant = some g
        ∧ (t.arbiter a).belay = (if opensBelay a r.pkt then some g else b.belay)
        ∧ mget none (t.arbiter a).slots w = none ∧ mget 0 (t.arbiter a).losses w = 0
        ∧ (∀ i ∈ s.presenting a, i ≠ w → mget false (t.arbiter a).backoff i = true)
        ∧ (∀ a', a' ≠ a.val → t.arbiter a' = s.arbiter a') ∧ { t with arb := s.arb } = s)
    ∧ Sys2Proof.Machine.exec (.arbBackoffExpire a idx) s
        = .next (s.setArbiter a { b with backoff := mput false b.backoff idx false })
    ∧ (∀ g, b.grant = some g →
      (a.val < 16 → g.idx ≠ 46 → (closesBelay a g.pkt = false ∨ b.belay = none) → Sys2Proof.Machine.exec (.arbGrantEnd a) s
          = .next ((bankExec (18 + a.val) g.pkt (touch (2 + a.val / 4) s)).setArbiter a { b with grant := none }))
      ∧ (20 ≤ a.val → a.val < 28 → g.pkt.ty ≠ 0x11 → Sys2Proof.Machine.exec (.arbGrantEnd a) s
          = .next (offer g.pkt (s.setArbiter a { b with grant := none })))
      ∧ (b.belay = none →
          (s.tb.count ≤ g.at_ + g.limit → Sys2Proof.Machine.exec (.arbHoldCut a) s = .next s)
          ∧ (g.at_ + g.limit < s.tb.count → Sys2Proof.Machine.exec (.arbHoldCut a) s = .next (cutGrant a g s))))

/-- R110 to R114, R499: with a granted pacer request for a semaphore below 1,024 outside its reset fence, acquire takes
a free one (generation up by 1), succeeds on its own, is refused as out of order while the owner holds a higher
number, and else is BUSY; release frees the owner's own and is else refused; force-release and the unused operation
are refused. A host port's SEM_CMD joins SEM's arbiter through the mutual-exclusion element. Once no operation
stamped before a function's fence is left, its semaphores are freed and the fence ends. -/
def Obligations.SemaphoresAreOwned : Prop :=
  (∀ (s : State) (g : Grant), up s → (s.arbiter 28).grant = some g → g.serving = true → 10 ≤ g.pkt.src ∧ g.pkt.src < 18 →
      s.semFenced g.pkt = false → g.pkt.addr % 2048 < 1024 →
    let op := g.pkt.addr / 4096 % 4
    let n := g.pkt.addr % 2048
    let x := s.sem n
    let o : Sem := {
      held := true
      okind := 2
      engine := 8 * (g.pkt.src - 10) + g.pkt.tag / 16 % 8
      fn := g.pkt.fn }
    (op = 1 →
      (x.held = true ∧ sameOwner x o = true →
        Sys2Proof.Machine.exec .semExecAcquire s = .next (semAnswered s g none 0 none))
      ∧ ((x.held && sameOwner x o) = false →
        (s.holdsAbove o n = true → Sys2Proof.Machine.exec .semExecAcquire s = .next (semAnswered s g none 2 (some 2)))
        ∧ (s.holdsAbove o n = false →
          (x.held = true → Sys2Proof.Machine.exec .semExecAcquire s = .next (semAnswered s g none 4 none))
          ∧ (x.held = false → Sys2Proof.Machine.exec .semExecAcquire s
              = .next (semAnswered s g (some { o with gen := (x.gen + 1) % 4096 }) 0 none)))))
    ∧ (op = 2 →
      (x.held = true ∧ sameOwner x o = true →
        Sys2Proof.Machine.exec .semExecRelease s = .next (semAnswered s g (some { gen := x.gen }) 0 none))
      ∧ ((x.held && sameOwner x o) = false →
        Sys2Proof.Machine.exec .semExecRelease s = .next (semAnswered s g none 2 (some 3))))
    ∧ (op = 3 → Sys2Proof.Machine.exec .semExecForceRelease s = .next (semAnswered s g none 2 (some 5)))
    ∧ (op = 0 → Sys2Proof.Machine.exec .semExecNoOp s = .next (semAnswered s g none 1 (some 7))))
  ∧ (∀ (s : State) (g : Grant), up s → (s.arbiter 28).grant = some g → g.serving = true → g.pkt.src < 2 →
      s.semFenced g.pkt = false → g.pkt.addr / 4096 % 4 = 3 → g.pkt.addr % 2048 < 1024 →
      ∃ t, Sys2Proof.Machine.exec .semExecForceRelease s = .next t
        ∧ t.sem (g.pkt.addr % 2048) = { gen := (s.sem (g.pkt.addr % 2048)).gen } ∧ t.fget F.semResultResult g.pkt.src = 0)
  ∧ (∀ (s : State) (k : Fin 2) (num : BitVec 11), up s →
      Sys2Proof.Machine.exec (.semCmdAcquire k num) s = .next (request 28 0 (s.semPkt (.host k) 1 num.toNat) s)
      ∧ Sys2Proof.Machine.exec (.semCmdRelease k num) s = .next (request 28 0 (s.semPkt (.host k) 2 num.toNat) s)
      ∧ Sys2Proof.Machine.exec (.semCmdForceRelease k num) s = .next (request 28 0 (s.semPkt (.host k) 3 num.toNat) s))
  ∧ (∀ (s : State) (fn : Fin 2048), up s → s.semFence fn = true → s.semFence (2048 + fn.val / 1024) = false →
      s.semPending (fun f => f == fn.val) = false → ∃ t, Sys2Proof.Machine.exec (.semResetFree fn) s = .next t
        ∧ t.semFence fn = false
        ∧ ∀ n < 1024, t.sem n = if (s.sem n).held = true ∧ (s.sem n).fn = fn.val ∧ (s.sem n).okind ≠ 3
            then { gen := (s.sem n).gen } else s.sem n)

/-- R108, R129 to R135, R142, R198, R222 to R224: a queue wake joins its cluster's list with its level; a message with a
free entry too; DISPATCH starts a due INIT on engine 0 first, and else the best wake on the lowest IDLE engine,
where a queue wake's credit goes back; a credit that returns lowers the count spent; a timer past its time sets its
event; a waiting engine with an enabled event runs; a cut notice closes the record of the belay and faults the
holder; unit messages land in the next free slot, wait in the hold or land from it, and go to the MGC. -/
def Obligations.ClustersTakeWork : Prop :=
  ∀ (s : State), up s →
    (∀ (c : Fin 8) (i : Nat) (p : Packet), whole s (10 + c.val) i p →
      let u := taken_ s (10 + c.val) i
      let k := s.clu c
      (p.cls = 3 → p.ty = 0x30 → Sys2Proof.Machine.exec (.clusterWakeArrive c i) s = .next (u.setClu c { k with
        wakes := k.wakes ++ [{
          lv := p.addr % 8
          age := p.age
          pkt := p }] }))
      ∧ (p.cls = 1 → p.ty = 0x14 → p.asp = 6 → p.addr = 0x40 + c.val → s.msgWakes c < 8 →
          k.hold.any (fun x => x.1 == 8) = false →
          Sys2Proof.Machine.exec (.clusterWakeArrive c i) s = .next (u.setClu c { k with
            wakes := k.wakes ++ [{
              msg := true
              lv := p.lv
              age := p.age
              pkt := p }] })))
    ∧ (∀ c : Fin 8, s.fget F.pclCtlRun c = 1 →
      ((s.clu c).initPend = true → (s.eng (8 * c.val)).st = .idle →
        Sys2Proof.Machine.exec (.dispatch c) s = .next (startInit c s))
      ∧ ((s.clu c).initPend = false → ∀ e i w, s.idleEngine c = some e → s.bestWake c = some (i, w) →
        let u := s.setClu c { s.clu c with wakes := (s.clu c).wakes.eraseIdx i }
        Sys2Proof.Machine.exec (.dispatch c) s
          = .next (if w.msg then startMsgTask e w (refillWakes c u) else startQueueTask e w u)))
    ∧ (∀ (i : Nat) (p : Packet), whole s 38 i p → p.cls = 3 → p.ty = 0x32 → p.addr / 2 ^ 17 % 2 = 0 →
        Sys2Proof.Machine.exec (.wakeCreditReturn i) s
          = .next ((taken_ s 38 i).setSpent (p.src - 10) (s.spent (p.src - 10) - 1)))
    ∧ (∀ (e : Fin 64) (i : Nat) (p : Packet),
      let x := s.eng e
      (s.domOn (6 + e.val / 8) = true → s.hasTask e = true → x.tmr ≠ 0 → timeLe x.tmr (s.engNow e) = true →
        Sys2Proof.Machine.exec (.timerExpire e) s = .next (setEvt e 3 s))
      ∧ (s.domOn (6 + e.val / 8) = true → x.st = .wait → x.ending = false → released x = true →
        Sys2Proof.Machine.exec (.waitRelease e) s = .next (s.setEng e { x with st := .run }))
      ∧ (whole s (10 + e.val / 8) i p → p.cls = 3 → p.ty = 0x33 → p.addr % 16 = 0 → p.tag / 16 % 8 = e.val % 8 →
        let u := (closeRecord (e.val / 8) p.fn (taken_ s (10 + e.val / 8) i)).setEng e { x with cutPend := some p.src }
        Sys2Proof.Machine.exec (.faultNoticeArrive e i) s = .next (if x.stall = .none then checkCut e u else u))
      ∧ (whole s (10 + e.val / 8) i p → p.cls = 1 → p.ty = 0x14 → p.addr = e.val →
        let u := taken_ s (10 + e.val / 8) i
        let k := s.clu (e.val / 8)
        Sys2Proof.Machine.exec (.unitMessageArrive (Fin.ofNat 46 (10 + e.val / 8)) i) s
          = .next (if s.hasTask e = false then dropMsg (e.val / 8) p u
            else if s.slotOpen e && !k.hold.any (fun y => y.1 == e.val % 8) then landMsg e p u
            else if k.hold.length < 32 then u.setClu (e.val / 8) { k with hold := k.hold ++ [(e.val % 8, p)] }
            else dropMsg (e.val / 8) p u))
      ∧ (∀ rest, (s.clu (e.val / 8)).hold = (e.val % 8, p) :: rest → s.hasTask e = true → s.slotOpen e = true →
        Sys2Proof.Machine.exec (.unitMessageLandFromHold e) s
          = .next (landMsg e p (s.setClu (e.val / 8) { s.clu (e.val / 8) with hold := rest }))))
    ∧ (∀ (i : Nat) (p : Packet), whole s 42 i p → p.cls = 1 → p.ty = 0x14 →
        Sys2Proof.Machine.exec (.unitMessageArrive 42 i) s = .next ((taken_ s 42 i).emit (.toMgc p)))

/-- R134, R147, R150, R158: RUN taking 1 after a load starts INIT on an IDLE engine 0 or leaves it due; RUN taking 0
only clears it; a commit takes PCL_LIMITS; RESTART makes a HALTED engine IDLE without its fault and records it; KICK
sets the event; while the cluster is stopped a write of PCL_PS_DATA stores the word without errors, advances WORD
and counts as a load; a refused one is recorded as BUSY; the MGC reads the word at WORD, any other reader gets UR. -/
def Obligations.PacerRegistersActOnClusters : Prop :=
  ∀ (s : State) (w : Writer), up s →
    (∀ c : Fin 8, writerOk w .pclCtl c = true →
      (s.fget F.pclCtlRun c = 1 → Sys2Proof.Machine.exec (.pclRunStart w c) s = .next s)
      ∧ (s.fget F.pclCtlRun c ≠ 1 →
        let u := s.fset F.pclCtlRun c 1
        Sys2Proof.Machine.exec (.pclRunStart w c) s = .next (
          if (s.clu c).loaded then
            if (s.eng (8 * c.val)).st = .idle then startInit c u
            else u.setClu c { s.clu c with
              initPend := true
              loaded := false }
          else u))
      ∧ Sys2Proof.Machine.exec (.pclRunStop w c) s = .next (s.fset F.pclCtlRun c 0))
    ∧ (∀ c : Fin 8, writerOk w .pclLimits c = true → Sys2Proof.Machine.exec (.pclLimitsCommit w c) s
        = .next (s.rput .pclLimits c (s.sget .pclLimits c)))
    ∧ (∀ e : Fin 64, writerOk w .pclEng e = true →
      ((s.eng e).st = .halted → Sys2Proof.Machine.exec (.engineRestart w e) s
        = .next (trace (10 + e.val / 8) 1 4 0xFFFF (leBytes 1 e) false (s.setEng e { s.eng e with
          st := .idle
          fault := 0 })))
      ∧ ((s.eng e).st ≠ .halted → Sys2Proof.Machine.exec (.engineRestart w e) s = .next s)
      ∧ Sys2Proof.Machine.exec (.engineKick w e) s = .next (setEvt e 4 s))
    ∧ (∀ (c : Fin 8) (v : BitVec 32), writerOk w .pclPsData c = true →
      let a := s.fget F.pclPsAddrWord c
      (s.stopped c = true → ∃ t, Sys2Proof.Machine.exec (.psDataWrite w c v) s = .next t
        ∧ t.psWord (131072 * c.val + a) = v ∧ t.psEccAt (131072 * c.val + a) = 0 ∧ (t.clu c).loaded = true
        ∧ t.fget F.pclStsInitDone c = 0 ∧ (∀ k, k ≠ 131072 * c.val + a → t.psWord k = s.psWord k))
      ∧ (s.stopped c = false → s.psWord (131072 * c.val + a) ≠ v → Sys2Proof.Machine.exec (.psDataWrite w c v) s
          = .next (busyMgc (s.writePkt w .pclPsData c (v.setWidth 64)) s)))
    ∧ (∀ (c : Fin 8) (k : Fin 2), Sys2Proof.Machine.exec (.psDataRead (.host k) c) s
        = .next (s.emit (.readValue (.host k) 0 true)))
    ∧ (∀ c : Fin 8, s.psEccAt (131072 * c.val + s.fget F.pclPsAddrWord c) = 0 →
        Sys2Proof.Machine.exec (.psDataRead .mgc c) s = .next (s.emit (.readValue .mgc
          ((s.psWord (131072 * c.val + s.fget F.pclPsAddrWord c)).setWidth 64) false)))

/-- R205 to R211: a context in use with bytes to read takes the next bytes from scratch or asks staging memory for them;
a response that has every byte lands in the buffer, one with another status gives the context its first failure; the
next write packet in address order goes to scratch or to its bank, with the poison of its bytes; and a context that
has nothing outstanding completes into the ctx and ctxsts registers of its engine when they are free, and sets XFER. -/
def Obligations.MoversCopy : Prop :=
  ∀ (s : State) (c : Fin 8) (k : Fin 512), up s →
    let key := 512 * c.val + k.val
    let x := s.ctx key
    (x.used = true → x.done = false → x.fail = 0 → x.stopped = false → x.rdOff < x.len → x.blocks < 128 →
      s.blocksIn c < 512 →
      let n := min (512 - x.srcAt x.rdOff % 512) (x.len - x.rdOff)
      (x.sasp = 5 → Sys2Proof.Machine.exec (.moverReadIssue c k) s = .next (s.setCtx key { x with
        rdOff := x.rdOff + n
        got := x.got ++ [(x.rdOff, s.scrBytes x.eng (x.saddr + x.rdOff) n,
          s.scrPoisoned x.eng (x.saddr + x.rdOff) n)] }))
      ∧ (x.sasp = 3 →
        Sys2Proof.Machine.exec (.moverReadIssue c k) s = .next (moverSend c
          { (s.ctxPkt key x 0 0 (bankNi (x.saddr + x.rdOff))).span 3 (x.saddr + x.rdOff) n with tag := s.readTag c }
          (s.setCtx key { x with
            rdOff := x.rdOff + n
            reads := x.reads ++ [{
              tag := s.readTag c
              off := x.rdOff
              len := n }] }))))
    ∧ (∀ (i key : Nat) (p : Packet) (y : Ctx) (r : CtxRead), whole s (10 + c.val) i p → p.cls = 2 → p.tag < 0x3000 →
      (s.ctxsOf c).find? (fun y => y.2.reads.any (fun r => r.tag == p.tag)) = some (key, y) →
      y.reads.find? (fun r => r.tag == p.tag) = some r →
      let left := y.reads.filter (fun q => q.tag != r.tag)
      let u := taken_ s (10 + c.val) i
      (p.csts = 0 → p.data.length = r.len → y.stopped = false →
        Sys2Proof.Machine.exec (.moverReadComplete c i) s = .next (askBanks key (u.setCtx key { y with
          reads := left
          got := y.got ++ [(r.off, p.data, p.ep)] })))
      ∧ (p.csts = 1 → p.xv = 0 → y.fail = 0 →
        Sys2Proof.Machine.exec (.moverReadComplete c i) s = .next (askBanks key (u.setCtx key { y with
          reads := left
          fail := 1 }))))
    ∧ (∀ bs, x.used = true → x.done = false → x.stopped = false → x.wrOff < x.len →
      bytesIn x.got x.wrOff x.writeLen = some bs →
      let ep := bs.any (·.2)
      let y : Ctx := { x with
        wrOff := x.wrOff + x.writeLen
        got := dropBlocks x.got (x.wrOff + x.writeLen)
        poisoned := x.poisoned || ep }
      (x.dasp = 5 → Sys2Proof.Machine.exec (.moverWriteSend c k) s
        = .next (scrWrite x.eng (x.daddr + x.wrOff) (bs.map (·.1)) ep (s.setCtx key y)))
      ∧ (x.dasp = 3 → x.banks.contains (bankNi (x.daddr + x.wrOff)) = true →
        Sys2Proof.Machine.exec (.moverWriteSend c k) s = .next (askBanks key (moverSend c
          { (s.ctxPkt key x 1 0x10 (bankNi (x.daddr + x.wrOff))).span 3 (x.daddr + x.wrOff) x.writeLen with
            data := bs.map (·.1)
            ep := ep
            uo := x.uo }
          (notePosted x.eng (bankNi (x.daddr + x.wrOff)) (s.setCtx key y))))))
    ∧ (s.ctxReady key = true → x.fail = 0 → (s.eng x.eng).st ≠ .halted → (s.eng x.eng).ctx = 0x3FF →
      Sys2Proof.Machine.exec (.contextComplete c k) s = .next (setEvt x.eng 1
        ((s.setCtx key { x with done := true }).setEng x.eng { s.eng x.eng with
          ctx := key % 512
          ctxsts := if x.poisoned then 4 else 0 })))

/-- R230, R233 to R240, R244, R246, R247: a doorbell write becomes a doorbell packet to QM; a doorbell in its ring moves
its pointer; a head write of the bound cluster moves SQHEAD and CQTAIL together; an error write keeps the first
code; a QID return ends the hold; a queue that asks for a wake, with a credit, gets one and is held; an enable that
is acceptable starts the queue from zero; EN = 0 stops it; SKIP passes one record; ERR clears. -/
def Obligations.QueuesFollowTheirRings : Prop :=
  ∀ s : State, up s →
    (∀ (fn : Fin 2048) (q : Fin 4) (v : BitVec 16),
      let n := 4 * fn.val + q.val
      let x := s.queue n
      let f := s.mkPkt 1 0x13 (portOf fn.val) 38 fn
      Sys2Proof.Machine.exec (.sqTailDb fn q v) s
          = .next (offer { f with addr := n % 8192 * 2 ^ 16 + v.toNat } s)
      ∧ Sys2Proof.Machine.exec (.cqHeadDb fn q v) s
          = .next (offer { f with addr := 2 ^ 29 + n % 8192 * 2 ^ 16 + v.toNat } s)
      ∧ (x.en = false → s.enableOk n = true → ∃ t, Sys2Proof.Machine.exec (.queueEnable fn q) s = .next t
        ∧ t.queue n = {
          en := true
          sqbase := s.fget F.qSqbaseBase n
          cqbase := s.fget F.qCqbaseBase n
          sqmask := 2 ^ s.fget F.qCfgSqLog2 n - 1
          cqmask := 2 ^ s.fget F.qCfgCqLog2 n - 1
          bind := s.qbind n
          param := s.fget F.qParamParam n })
      ∧ (x.en = false → s.enableOk n = false →
        Sys2Proof.Machine.exec (.queueEnable fn q) s = .next (s.fset F.qStsCfgErr n 1))
      ∧ (∃ t, Sys2Proof.Machine.exec (.queueDisable fn q) s = .next t ∧ t.queue n = { x with en := false }
        ∧ (∀ m, m ≠ n → t.queue m = s.queue m) ∧ { t with qm := s.qm } = s)
      ∧ (s.fget F.qStsErr n = 1 → x.sqhead ≠ x.sqtail → ∃ t, Sys2Proof.Machine.exec (.queueSkip fn q) s = .next t
        ∧ t.queue n = { x with sqhead := (x.sqhead + 1) % (x.sqmask + 1) } ∧ t.fget F.qStsErr n = 0)
      ∧ (∃ t, Sys2Proof.Machine.exec (.queueErrClear fn q) s = .next t ∧ t.fget F.qStsErr n = 0
        ∧ { t with reg := s.reg } = s))
    ∧ (∀ (i : Nat) (p : Packet), sound s 38 i p → p.cls = 1 → p.ty = 0x13 → p.len = 0 →
      let n := p.addr / 65536 % 8192
      let v := p.addr % 65536
      let x := s.queue n
      p.src < 2 → p.fn = n / 4 → x.en = true → x.held = false →
      (p.addr / 2 ^ 29 % 2 = 0 → v ≤ x.sqmask →
        ringDist x.sqtail v x.sqmask ≤ x.sqmask - ringDist x.sqhead x.sqtail x.sqmask →
        ∃ t, Sys2Proof.Machine.exec (.doorbellSqTail i) s = .next t
          ∧ ∃ d, t.queue n = { x with sqtail := v, dbStamp := d } ∧ (d = x.dbStamp ∨ d = p.stamp.time))
      ∧ (p.addr / 2 ^ 29 % 2 = 1 → v ≤ x.cqmask →
        ringDist x.cqhead v x.cqmask ≤ ringDist x.cqhead x.cqtail x.cqmask →
        ∃ t, Sys2Proof.Machine.exec (.doorbellCqHead i) s = .next t
          ∧ ∃ d, t.queue n = { x with cqhead := v, dbStamp := d } ∧ (d = x.dbStamp ∨ d = p.stamp.time)))
    ∧ (∀ (i n : Nat) (p : Packet), sound s 38 i p → p.cls = 1 → p.ty = 0x10 → p.asp = 4 → p.len = 4 → n < 8192 →
      let u := taken_ s 38 i
      let x := s.queue n
      let v := leNat p.data
      let j := ringDist x.sqhead (v % 65536) x.sqmask
      x.held = true → p.src = 10 + x.cluster →
      (p.addr % 2 ^ 25 = 0x300000 + 8 * n → v % 65536 ≤ x.sqmask → j ≤ ringDist x.sqhead x.sqtail x.sqmask →
        j ≤ x.cqmask - ringDist x.cqhead x.cqtail x.cqmask → x.cqtail + j ≤ x.cqmask →
        Sys2Proof.Machine.exec (.qmQheadWrite i) s = .next (putQueue n { x with
          sqhead := v % 65536
          cqtail := (x.cqtail + j) % (x.cqmask + 1)
          headTime := p.stamp.time + 1 } u))
      ∧ (p.addr % 2 ^ 25 = 0x300000 + 8 * n + 4 → v % 256 ≠ 0 →
        Sys2Proof.Machine.exec (.qmQerrWrite i) s = .next (queueError n (v % 256) u)))
    ∧ (∀ (i : Nat) (p : Packet), sound s 38 i p → isQidReturn p = true →
      let n := p.addr % 8192
      ∃ t, Sys2Proof.Machine.exec (.qidReturn i) s = .next t ∧ t.queue n = { s.queue n with held := false })
    ∧ (∀ n : Fin 8192, s.wantsWake n = true → s.wakesAhead n < s.wakeCredits (s.queue n).cluster →
      s.niFailed (10 + (s.queue n).cluster) = false →
      ∃ t u, Sys2Proof.Machine.exec (.queueWakeSend n) s = .next t
        ∧ u.queue n = { s.queue n with held := true } ∧ u.spent (s.queue n).cluster = s.spent (s.queue n).cluster + 1
        ∧ t = trace 38 5 2 (n.val / 4) (leBytes 2 n ++ leBytes 1 (s.queue n).cluster) false (offer
          { u.mkPkt 3 0x30 38 (10 + (s.queue n).cluster) (n.val / 4) with
            addr := u.queueLevel n
            len := 64
            data := u.queueBytes n } u))
    ∧ (∀ (i n m : Nat) (p : Packet) (w : Nat), sound s 38 i p → p.cls = 0 → p.ty = 0 → p.asp = 4 →
      0x1FF0000 ≤ p.addr % 2 ^ 25 → regAt regRows true (p.addr % 2 ^ 25 - 0x1FF0000) p.len = .reg .qSqPtr m w →
      n = 4 * faFn p.addr + m → (taken_ s 38 i).pointerReady n = true →
      Sys2Proof.Machine.exec (.qPointerRead i) s = .next (offer { p.reply 0x20 0
        (leBytes 4 (BitVec.ofNat 64 ((s.queue n).sqtail * 65536 + (s.queue n).sqhead)).toNat) with src := 38 }
        (taken_ s 38 i)))

/-- R252, R255 to R259, R263 to R267: a lookup whose descriptor and entry are in the XU's cache answers with the word of
R252; the second entry copy that agrees ends a miss with that word and enters the cache; an unresolvable window is
quarantined once; a commit that passes its checks writes XV + 1 to the three copies and sends invalidates, and ends
when they are acknowledged; a failing one leaves the copies alone and gives its code; a bump writes XV + 1; an entry
write raises WVER by 1 and drops cached results; a DXV write ends its drain. -/
def Obligations.TranslationLooksUpAndCommits : Prop :=
  ∀ s : State, up s →
    (∀ (x : Fin 4) (g : Grant) (d v : List Nat) (e : Nat), (s.arbiter (16 + x.val)).grant = some g → g.serving = true →
      isDrainReq g.pkt = false → s.under (34 + x.val) g.pkt.fn = false → s.quarAt (reqWin g.pkt) = false →
      s.cached x false (reqWin g.pkt) = some d → descCheck d (reqOff g.pkt) g.pkt.fn = .inr e →
      s.quarAt (4096 + e) = false → s.cached x true e = some v →
      Sys2Proof.Machine.exec (.xltLookup x) s
        = .next (markServed (16 + x.val) g (xltAnswer x g.pkt e (xltWord d v (reqOff g.pkt)) s)))
    ∧ (∀ (x : Fin 4) (i e : Nat) (m : Miss) (d v : List Nat), (s.missList x)[i]? = some m → m.readD = false →
      m.replied = false → m.desc = some d → m.ent = some e → m.eGot = [(0, some v)] →
      let u := stgCheckRange (s.entBase 1 + 16 * e) 16 s
      let line : Line := {
        entry := true
        idx := e
        words := v }
      let t := xltAnswer x m.pkt e (xltWord d v (reqOff m.pkt)) (cacheIn x line u)
      u.entCopy 1 e = some v → u.epochAt (4096 + e) = m.eEpoch →
      Sys2Proof.Machine.exec (.xuMissCopyArrive x i 4) s = .next (t.setMissList x (dropAt (t.missList x) i)))
    ∧ (∀ w rest, atHead s (.rewrite false w (s.epochAt w) none []) rest → s.quarAt w = false →
      Sys2Proof.Machine.exec .copyRewriteExecute s
        = .next (viol { ni := 34, code := 0x0503, object := w } (((seqIs s rest none).setQuarAt w true).fsat F.xltCntQuarEvents 0 1)))
    ∧ (∀ k w words rest d, atHead s (.commit k w words) rest → s.activeDesc w = some d →
      let err := commitError words (dXv d) (dDxv d)
      let u := bumpEpoch w ((forN 3 (putDesc w (withDxv (withXv words (dXv d + 1)) (dDxv d))) s).setQuarAt w false)
      (err = 0 → Sys2Proof.Machine.exec .commitExecute s = .next (seqIs u rest (some (.commit k w words))))
      ∧ (err ≠ 0 → k < 11 →
        Sys2Proof.Machine.exec .commitExecute s = .next ((seqIs s rest none).fset F.winStsErr k err)))
    ∧ (∀ k w words, s.xlt.cur = some (.commit k w words) → k < 11 →
      Sys2Proof.Machine.exec .commitAcksDone s
        = .next ((forgetWindow w (seqIs s s.xlt.seq none)).fset F.winStsErr k 0))
    ∧ (∀ k w rest d, atHead s (.bump k w false) rest → s.bumpDrain w = false → s.activeDesc w = some d →
      (dXv d + 1 + 256 - dDxv d) % 256 < 128 →
      Sys2Proof.Machine.exec .bumpExecute s
        = .next (seqIs (bumpEpoch w (forN 3 (putDesc w (withXv d (dXv d + 1))) s)) rest (some (.bump k w false))))
    ∧ (∀ k e w0 rest x, atHead s (.entry k e w0) rest → s.entCopy 0 e = some x → s.entCopy 1 e = some x →
      Sys2Proof.Machine.exec .entryWriteExecute s
        = .next (forgetEntry e (bumpEpoch (4096 + e)
          ((forN 2 (putEnt e [w0 % 2 ^ 23, (x.getD 1 0 + 1) % 2 ^ 32]) (seqIs s rest none)).setQuarAt (4096 + e) false))))
    ∧ (∀ w v tag rest d (j : Drain) (k : Nat), atHead s (.dxv w v tag) rest → s.activeDesc w = some d →
      s.xlt.drains.find? (fun y => y.tag == tag) = some j → j.req = none → j.set = some k → k < 11 →
      Sys2Proof.Machine.exec .dxvWriteExecute s = .next ((endDrain j
        (bumpEpoch w (forN 3 (putDesc w (withDxv d v)) (seqIs s rest none)))).fset F.winStsErr k 0))

/-- R215, R256, R262 to R267, R269, R280 with a permitted writer: WIN_CMD starts a commit, a bump or a drain of the
selected window, or sets ERR 5 while its set is busy; a drain whose XV is its DXV ends at once, and else sends ten
probes; a probe is held at its source with the work it waits for and answered when that is gone; when all have
answered, the DXV write joins the sequencer; TE_CMD starts an entry write, reads an entry, or sets IGN while busy;
WIN_SEL loads the shadows; F_WIN drops the cached results of its FN; XLT_LOC takes its value. -/
def Obligations.DrainsAndWindowRegisters : Prop :=
  ∀ (s : State) (w : Writer), up s →
    let k := setOf w
    let win := s.fget F.winSelWin k
    (writerOk w .winCmd k = true →
      ((s.winBusy k || s.winDraining k) = false →
        Sys2Proof.Machine.exec (.winCmdCommit w) s = .next (enqueue (.commit k win (s.setWords k)) s)
        ∧ Sys2Proof.Machine.exec (.winCmdBump w) s = .next (enqueue (.bump k win false) s)
        ∧ Sys2Proof.Machine.exec (.winCmdDrain w) s = .next (addDrain {
          x := win % 4
          win := win
          set := some k } s))
      ∧ ((s.winBusy k || s.winDraining k) = true →
        Sys2Proof.Machine.exec (.winCmdCommit w) s = .next (s.fset F.winStsErr k 5)
        ∧ Sys2Proof.Machine.exec (.winCmdBump w) s = .next (s.fset F.winStsErr k 5)
        ∧ Sys2Proof.Machine.exec (.winCmdDrain w) s = .next (s.fset F.winStsErr k 5)))
    ∧ (writerOk w .teCmd k = true →
      let e := s.fget F.teSelEntry k
      (s.teBusy k = false → Sys2Proof.Machine.exec (.teCmdWrite w) s = .next (enqueue (.entry k e (s.rget .teData k).toNat) s))
      ∧ (s.teBusy k = true → Sys2Proof.Machine.exec (.teCmdWrite w) s = .next (s.fset F.teStsIgn k 1)
        ∧ Sys2Proof.Machine.exec (.teCmdRead w) s = .next (s.fset F.teStsIgn k 1))
      ∧ (∀ v : List Nat, s.teBusy k = false →
        let u := stgCheckRange (s.entBase 1 + 16 * e) 16 (stgCheckRange (s.entBase 0 + 16 * e) 16 s)
        u.entCopy 0 e = some v → u.entCopy 1 e = some v → u.quarAt (4096 + e) = false →
        Sys2Proof.Machine.exec (.teCmdRead w) s = .next (((u.rput .teData k (BitVec.ofNat 64 (v.getD 0 0))).rput .teWver k
          (BitVec.ofNat 64 (v.getD 1 0 % 2 ^ 32))).fset F.teStsQuar k 0)))
    ∧ (∀ (x : Fin 4) (i : Nat) (d : Drain), s.drainAt x i = some d →
      (d.started = false → d.forBump = false → s.inSeq d.win = false → ∀ q, s.activeDesc d.win = some q →
        (dXv q = dDxv q → ∀ j, d.req = none → d.set = some j → j < 11 →
          Sys2Proof.Machine.exec (.drainStart x i) s = .next ((endDrain d s).fset F.winStsErr j 0))
        ∧ (dXv q ≠ dDxv q → Sys2Proof.Machine.exec (.drainStart x i) s = .next (forL probeNis
          (fun ni s => offer { s.mkPkt 0 0 (34 + x) ni 0 with asp := 6, addr := d.win, tag := d.tag } s)
          (putDrain { d with started := true, v := dXv q } s))))
      ∧ (d.started = true → d.forBump = false → probeNis.all (fun n => (s.arrived (34 + x)).any (probeAnswerOf d n)) = true →
        Sys2Proof.Machine.exec (.drainProbesDone x i) s = .next (enqueue (.dxv d.win d.v d.tag)
          (putDrain { d with started := true } (s.setArrived (34 + x)
            ((s.arrived (34 + x)).filter (fun p => !probeNis.any (fun n => probeAnswerOf d n p))))))))
    ∧ (∀ (ni : Fin 46) (i : Nat) (p : Packet), ni.val < 2 → whole s ni i p → p.cls = 0 → p.ty = 0 → p.asp = 6 → p.len = 0 →
      34 ≤ p.src → p.src < 38 →
      Sys2Proof.Machine.exec (.probeArrive ni i) s = .next ((taken_ s ni i).setProbesAt ni (s.probesAt ni ++ [{
        pkt := p
        at_ := s.now }])))
    ∧ (∀ (ni : Fin 46) (i : Nat) (x : Probe), (s.probesAt ni)[i]? = some x → s.probeReady ni x = true →
      Sys2Proof.Machine.exec (.probeAnswer ni i) s = .next (offer { x.pkt.reply 0x21 0 [] with src := ni }
        (s.setProbesAt ni ((s.probesAt ni).eraseIdx i))))
    ∧ (∀ (v : BitVec 32) (d : List Nat), writerOk w .winSel k = true → (s.winBusy k || s.winDraining k) = false →
      s.activeDesc (v.toNat % 4096) = some d → ∃ t, Sys2Proof.Machine.exec (.winSelWrite w v) s = .next t
        ∧ t.fget F.winSelWin k = v.toNat % 4096 ∧ t.sget .winCw k = BitVec.ofNat 64 (d.getD 0 0 % 2 ^ 50)
        ∧ t.sget .winAcc k = BitVec.ofNat 64 (d.getD 1 0 % 2 ^ 44) ∧ t.sget .winTag k = BitVec.ofNat 64 (d.getD 2 0))
    ∧ (∀ (fn : Fin 2048) (v : BitVec 32), writerOk w .fWin fn = true → Sys2Proof.Machine.exec (.fWinWrite w fn v) s
      = .next (hpiForget (fn.val / 1024) (fun l => l.fn == fn.val)
        ((s.fset F.fWinEn fn (bitsGet (v.setWidth 64) 31 31)).fset F.fWinWin fn (bitsGet (v.setWidth 64) 11 0))))
    ∧ (∀ v : BitVec 32, writerOk w .xltLoc 0 = true →
      Sys2Proof.Machine.exec (.xltLocWrite w v) s = .next (s.rput .xltLoc 0 (v.setWidth 64 &&& 0xFFFFF)))

/-- R282, R284 to R287, R303 to R308, R398, R399, R452: PERST, a hot reset, a link disable, a removal and a link loss
start the flush of the port with its STATE; deasserting PERST wakes HD or trains the link; the link comes up with
its speed, width and mode, and narrows in L0p; configuration reads and writes complete, and ask for a retry before
READY; an FLR starts the reset of its function; clearing VF Enable resets the VFs; an NI that is ON applies a fence;
a drained reset ends. -/
def Obligations.HostLinksResetAndFlush : Prop :=
  ∀ (s : State) (k : Fin 2), up s →
    let d := 14 + k.val
    let h := s.hpi k
    (h.perst = false → (s.dom d).trans = 0 →
      let u := s.setHpi k { h with perst := true }
      (s.domOn d = true → Sys2Proof.Machine.exec (.perstAssert k) s = .next (startFlush k 0 (noLink k .flushing u)))
      ∧ (s.domOn d = false → Sys2Proof.Machine.exec (.perstAssert k) s = .next (startWake d (noLink k .flushing u))))
    ∧ ((s.dom d).trans = 0 →
      let u := s.setHpi k { h with perst := false }
      ((s.dom d).st = 2 → Sys2Proof.Machine.exec (.perstDeassert k) s = .next (startWake d u))
      ∧ (s.domOn d = true → h.link = .down →
        Sys2Proof.Machine.exec (.perstDeassert k) s = .next (setHostLink k .training u)))
    ∧ (s.hasLink k = true →
      Sys2Proof.Machine.exec (.hotResetReceived k) s = .next (startFlush k 1 (noLink k .hotReset s))
      ∧ Sys2Proof.Machine.exec (.linkDisableReceived k) s = .next (startFlush k 1 (noLink k .disabled s)))
    ∧ (s.hostUp k = true → Sys2Proof.Machine.exec (.dlDown k) s = .next (startFlush k 3 (noLink k .flushing s))
      ∧ (h.perst = false →
        let u := startFlush k 2 (noLink k .flushing ((s.fset F.hpiSentinelLost k 1).fsat F.hpiSentinelLostCnt k 1))
        Sys2Proof.Machine.exec (.surpriseRemoval k) s = .next (aerCorrectedAt (1 - k) ((viol {
          ni := k
          code := 0x0204
          port := k
          value := u.fget F.hpiSentinelLostCnt k } u).emit (.mgcCorr "surprise removal")))))
    ∧ (∀ (speed : Fin 7) (w : Nat) (flit : Bool), h.perst = false → h.link = .training → s.domOn d = true →
      s.fnReset (2048 + k) = none → 1 ≤ speed.val → (flit = true ∨ speed.val ≠ 6) → w ∈ [1, 2, 4, 8, 16] →
      s.niParked k = false →
      Sys2Proof.Machine.exec (.hostLinkUp k speed w flit) s = .next (setHostLink k .l0
        ((((s.setHpi k { h with width := w }).fset F.hpiLinkStsSpeed k speed).fset F.hpiLinkStsWidth k w).fset
          F.hpiLinkStsFlit k (if flit then 1 else 0))))
    ∧ (∀ w, h.link = .l0 → s.domOn d = true → w ∈ [1, 2, 4, 8] → w < h.width →
      Sys2Proof.Machine.exec (.hostLinkStateChange k .l0p w) s
        = .next (setHostLink k .l0p (s.fset F.hpiLinkStsWidth k w)))
    ∧ (∀ f v, s.hostLive k = true →
      (s.booted = false → Sys2Proof.Machine.exec (.hostConfigRequest k 0 (.read f)) s
        = .next (s.emit (.tlpCpl k (1024 * k) 0 0 2 [] false false)))
      ∧ (s.booted = true → s.inReset (1024 * k) = false →
        Sys2Proof.Machine.exec (.hostConfigRequest k 0 (.read f)) s
          = .next (s.emit (.tlpCpl k (1024 * k) 0 0 0 (leBytes 8 (s.cfgGet (1024 * k) f)) false false))
        ∧ Sys2Proof.Machine.exec (.hostConfigRequest k 0 (.write .maxPayloadSize v)) s
          = .next ((irtCheck (1024 * k) (s.cfgPut (1024 * k) .maxPayloadSize (v % 8))).emit
            (.tlpCpl k (1024 * k) 0 0 0 [] false false))))
    ∧ (∀ fn : Fin 2048, s.configurable fn = true → fn.val % 1024 ≠ 0 →
      Sys2Proof.Machine.exec (.flrInitiate fn) s = .next (stampFence (fn.val / 1024) fn 0 false [fn] s))
    ∧ (s.configurable (1024 * k) = true → s.cfgGet (1024 * k) .vfEnable = 1 →
      Sys2Proof.Machine.exec (.vfEnableClear k) s = .next (irtCheck (1024 * k)
        (forL (s.functionsOf k).tail (startFnReset 1) (s.cfgPut (1024 * k) .vfEnable 0))))
    ∧ (∀ (ni : Fin 46) (i x : Nat), (s.notices ni)[i]? = some x → s.niAwake ni = true →
      Sys2Proof.Machine.exec (.fenceApply ni i) s
        = .next (flushOver x (noteApplied ni x (applyFence ni x (s.setNotices ni ((s.notices ni).eraseIdx i))))))
    ∧ (∀ (fn : Fin 2048) (r : FnReset), s.fnReset (2048 + fn.val / 1024) = none → s.fnReset fn = some r → r.left = [] →
      s.drainLeft (fenceOf fn) = false → s.semFence fn = false →
      Sys2Proof.Machine.exec (.fnResetDrainDone fn) s
        = .next ((endReset false r.stamp fn (liftFences fn s)).setFnReset fn none))

/-- R256, R260, R290 to R297, R301, R381, R394 to R397: a host write, read or AtomicOp of BAR2 that misses the cache
asks for its translation and waits in the pipeline; a successful translation makes its packet; a read of the host
takes a tag when its function may master the bus, and fails otherwise; its last completion lands and frees the tag;
a timeout cools the tag, and four limits later it is free; a vendor message joins its tunnel; LTR sends a changed
requirement; the slot chosen sends its head; a slot commit waits for the round boundary. -/
def Obligations.HostRequestsAreServed : Prop :=
  ∀ (s : State) (k : Fin 2), up s →
    let h := s.hpi k
    (∀ (c : Instr) (kind : Nat) (t : Tlp) (fn off : Nat) (op : AtomOp),
      (c, kind) ∈ [(.hostMemWrite k t, 0), (.hostMemRead k t, 1), (.hostAtomicop k op t, atomKind op)] →
      reaches s k kind t fn true off → s.fget F.fWinEn fn = 1 → s.cacheHit k fn (s.fget F.fWinWin fn) off = none →
      let win := s.fget F.fWinWin fn
      let tag := s.xltTag k
      Sys2Proof.Machine.exec c s = .next (offer
        { s.mkPkt 0 6 k (34 + 2 * k + win % 2) fn with
          addr := win * 2 ^ 42 + off
          tag := tag
          len := 0 }
        (hostPush k {
          kind := kind
          tlp := t
          fn := fn
          win := win
          off := off
          xltTag := tag } s)))
    ∧ (∀ (i : Nat) (p : Packet) (r : HostReq), whole s k i p → p.cls = 2 → 8192 ≤ p.tag → p.ty = 0x22 → p.csts = 0 →
      p.ep = false → h.reqs.find? (fun r => r.xltTag == p.tag) = some r → r.nocache = true →
      let w : Word := BitVec.ofNat 64 (leNat p.data)
      xwXst w = 0 → (xwWp w = 0 ∨ r.kind = 1) →
      Sys2Proof.Machine.exec (.hpiTranslationReply k i) s
        = .next (resolveReq k r (.inr ((taken_ s k i).bar2Pkt k r.fn r.kind r.tlp w)) (taken_ s k i)))
    ∧ (∀ (i t : Nat) (e : Egress), h.np[i]? = some e → s.hostLive k = true →
      (h.np.take i).any (fun x => x.pkt.fn == e.pkt.fn) = false →
      (s.bme e.pkt.fn = false → Sys2Proof.Machine.exec (.hostRequestIssue k i) s
        = .next (hostGather k (onGather e.pkt (fun g => g.failed (e.pkt.len - e.off) 1 0))
          (gatherOpen k e (npNext k i e.pkt.len e s))))
      ∧ (s.bme e.pkt.fn = true → s.freeTag k = some t → s.underCap k e.pkt.fn = true →
        let n := s.reqLen k e
        Sys2Proof.Machine.exec (.hostRequestIssue k i) s = .next (sendTlp k
          (.tlpRead k e.pkt.fn (e.pkt.addr + e.off) n t e.pkt.ro e.pkt.ns e.pkt.ido (s.ecrcOf e.pkt.fn))
          ((gatherOpen k e (npNext k i (e.off + n) e s)).setTag (4096 * k + t) {
            out := true
            fn := e.pkt.fn
            off := e.off
            len := n
            at_ := s.now
            limit := ctoLimit (s.cfgGet (1024 * k) .ctoValue)
            req := e.pkt }))))
    ∧ (∀ (c : Cpl) (t : Tag), s.hostLive k = true → c.tag < 4096 → s.tag (4096 * k + c.tag) = t → t.out = true →
      t.cooled = false → c.status = 0 → c.ep = false → c.ecrcErr = false → t.got + c.data.length = t.len →
      Sys2Proof.Machine.exec (.hostCompletionArrive k c) s
        = .next (hostGather k (onGather t.req (fun g => g.land (t.off + t.got) c.data false))
          ((stgWrite (landing k c.tag + t.got) c.data (List.replicate c.data.length true) false s).setTag
            (4096 * k + c.tag) {})))
    ∧ (∀ (tag : Fin 4096) (t : Tag), s.tag (4096 * k + tag) = t → t.out = true → t.cooled = false →
      s.cfgGet (1024 * k) .ctoDisable = 0 → t.at_ + t.limit < s.now →
      let hdr := reqHdr t.fn (t.req.addr + t.off) t.len tag t.req
      let u := aerUncor t.fn 14 "Completion Timeout" hdr false s
      let v := ((u.fset F.hpiCtoLastTime k (s.now % 2 ^ 48)).fset F.hpiCtoLastTag k tag).fset F.hpiCtoLastLate k 0
      Sys2Proof.Machine.exec (.hostCompletionTimeout k tag) s
        = .next (hostGather k (onGather t.req (fun g => g.failed (t.len - t.got) 2 3))
          ((viol {
            ni := k
            code := 0x0202
            fn := t.fn
            port := k
            object := tag
            kind := 3
            hdr := hdrBytesOf hdr } v).setTag (4096 * k + tag) { t with cooled := true, coolAt := s.now })))
    ∧ (∀ (g : Fin 10) (tag : Fin 4096), (s.tag (4096 * g + tag)).cooled = true →
      (s.tag (4096 * g + tag)).coolAt + 4 * (s.tag (4096 * g + tag)).limit ≤ s.now →
      Sys2Proof.Machine.exec (.tagCoolExpire g tag) s = .next (s.setTag (4096 * g + tag) {}))
    ∧ (∀ (fn : Fin 2048) (d : BitVec 32) (m : List (BitVec 8)), s.hostLive k = true → s.under k fn = false →
      let p := d.toNat / 64 % 8
      let c := d.toNat % 64
      let i := s.leadOf p * 64 + c
      d.toNat / 512 % 128 = 0 → s.fget F.lbTunEn i = 1 → s.fget F.lbTunKind i = 0 → s.fget F.lbTunFn i = fn →
      fn.val / 1024 = k →
      Sys2Proof.Machine.exec (.hostVdmArrive k fn 0x1F6B d m) s = .next (hostPush k {
        fn := fn
        pkt := some { s.mkPkt 1 0x15 k (s.portNi p) fn with
          asp := 6
          addr := c
          len := m.length
          data := m } } s))
    ∧ (s.hostLive k = true → s.cfgGet (1024 * k) .ltrEnable = 1 → s.ltrValue k ≠ h.ltr →
      Sys2Proof.Machine.exec (.ltrSend k) s = .next ((s.setHpi k { h with ltr := s.ltrValue k }).emit (.ltr k (s.ltrValue k))))
    ∧ (∀ e : Egress, s.hostLive k = true → s.slotAt k h.slot < 8 →
      (s.heads k).find? (fun e => e.pkt.qc == s.slotAt k h.slot) = some e → e.pkt.cls = 0 → e.pkt.ty = 0 → e.pkt.len ≠ 0 →
      10 ≤ e.pkt.src →
      let u := egressDrop k e.order s
      Sys2Proof.Machine.exec (.hostEgressSend k) s
        = .next (slotNext k (u.setHpi k { u.hpi k with np := (u.hpi k).np ++ [e] })))
    ∧ (∀ w, writerOk w .slotCtl k = true → (s.heads k).isEmpty = false →
      ∃ t, Sys2Proof.Machine.exec (.slotCommit w k) s = .next t ∧ t.hpi k = { h with pendTable := true } ∧ t.reg = s.reg
        ∧ ∀ j < 32, t.slotWord (32 * k + j) = some (s.sget .slot (32 * k + j)))

/-- R312, R320 to R326, R329, R331, R353, R354, R445, R500 for the port that leads its group: LNK_CTL enables, disables,
tests, retrains and, when no port concerned is enabled, regroups it; HELLO, RATE, EQ_DONE, LOCKED, RETRAIN,
LINK_DOWN, SLEEP, LOOP_REQ and their timers move it, each from its state alone; an EQ_REQ moves one tap and is
acknowledged; EQ_ACK and LOOP_ACK are only noted; a departure and the end of its hold reach the link layer; a wake
pattern ends SLEEP. -/
def Obligations.LinksTrain : Prop :=
  ∀ (s : State) (p : Fin 8), up s → s.leads p = true →
    let l := s.lpi p
    (∀ w, writerOk w .lnkCtl p = true →
      (l.st = 0 → (s.dom (16 + p)).st ≠ 2 →
        Sys2Proof.Machine.exec (.lnkEnable w p) s = .next (restartPort p (s.fset F.lnkCtlEn p 1)))
      ∧ (l.st ≠ 0 → trainsTo s (.lnkDisable w p) p 0)
      ∧ (l.st ≠ 0 → l.st ≠ 7 → trainsTo s (.lnkModeWrite w p true) p 7)
      ∧ (l.st = 7 → trainsTo s (.lnkModeWrite w p false) p 1)
      ∧ (l.st = 5 → trainsTo s (.lnkCtlRetrain w p) p 4)
      ∧ (l.st ≠ 5 → Sys2Proof.Machine.exec (.lnkCtlRetrain w p) s = .next s)
      ∧ (∀ v : BitVec 2, v ≠ 3 → v.toNat ≠ s.fget F.lnkCtlWidth p →
        let c := Instr.widthChange w p v
        (s.widthBusy p v.toNat = false → Sys2Proof.Machine.exec c s = .next (changeWidth p v.toNat s))
        ∧ (s.widthBusy p v.toNat = true → Sys2Proof.Machine.exec c s
          = .next (busyWrite w (s.writePkt w .lnkCtl p (BitVec.ofNat 64 (v.toNat * 256))) s))))
    ∧ (l.st = 1 → l.helloAt = none → s.ldOn p = true →
      Sys2Proof.Machine.exec (.helloSend p) s
        = .next (sendMl p 1 (s.helloBytes p) (s.setLpi p { l with helloAt := some s.now })))
    ∧ (∀ (rate width : BitVec 2) (ok : Bool) (ident : BitVec 64), l.st = 1 → rate ≠ 0 →
      trainsTo s (.hello p rate ok width ident) p (if width.toNat = s.fget F.lnkCtlWidth p then 2 else 8))
    ∧ (∀ rate : BitVec 2, l.st = 2 → rate ≠ 0 → rate.toNat = s.targetRate p → trainsTo s (.rate p rate) p 3)
    ∧ (∀ (lane : Fin 16) (tap : Fin 3) (high : Bool), l.st = 3 → lane.val < 4 * s.groupLen p →
      let u := heard s p 3
      let i := 4 * p.val + lane.val
      let r := eqStep tap (if high then 1 else -1) (u.fget F.laneEqPre i) (u.fget F.laneEqMain i) (u.fget F.laneEqPost i)
      Sys2Proof.Machine.exec (.eqReq p lane tap high) s = .next
        (sendMl p 4 [lane, r.1.toNat, r.2.1.toNat, r.2.2.1.toNat, b2n r.2.2.2] (putTaps i r.1 r.2.1 r.2.2.1 u)))
    ∧ (∀ lane a b c k, Sys2Proof.Machine.exec (.eqAck p lane a b c k) s = .next (heard s p 4))
    ∧ (∀ d, Sys2Proof.Machine.exec (.loopAck p d) s = .next (heard s p 11))
    ∧ (l.st = 3 → (l.eqSent = true → trainsTo s (.eqDone p) p 4)
      ∧ (l.eqSent = false → l.stAt + 100000 ≤ s.now →
        (l.eqRecv = true → trainsTo s (.eqCheckPass p) p 4)
        ∧ (l.eqRecv = false → Sys2Proof.Machine.exec (.eqCheckPass p) s
          = .next (sendMl p 5 [] (s.setLpi p { l with eqSent := true }))))
      ∧ (l.eqSent = false → Sys2Proof.Machine.exec (.eqDone p) s = .next ((heard s p 5).setLpi p { l with eqRecv := true })))
    ∧ (l.st = 4 →
      let u := (heard s p 6).setLpi p { l with lockRecv := true }
      (l.lockSent = true → Sys2Proof.Machine.exec (.locked p) s = .next (enterActive p u))
      ∧ (l.lockSent = false → Sys2Proof.Machine.exec (.locked p) s = .next u)
      ∧ (l.retr = true → l.stAt + 2000000 ≤ s.now → trainsTo s (.trainingTimeout p) p 3))
    ∧ (l.st = 5 → trainsTo s (.retrain p) p 4 ∧ trainsTo s (.linkDown p) p 1
      ∧ (l.sleepSent = true → Sys2Proof.Machine.exec (.sleep p) s = .next (beginEntry (16 + p) false
        (setTrain p 6 (leaveActive p true ((heard s p 9).setLpi p { l with sleepRecv := true }))))))
    ∧ (∀ mask : BitVec 16, l.st = 7 →
      (s.fget F.lnkCtlFarLoopOk p = 1 → trainsTo s (.loopReq p mask false) p 1)
      ∧ (s.fget F.lnkCtlFarLoopOk p = 0 →
        Sys2Proof.Machine.exec (.loopReq p mask true) s = .next (sendMl p 11 [0] (heard s p 10))))
    ∧ (∀ t, l.gone = some (t, true) → Sys2Proof.Machine.exec (.linkDeparture p) s
      = .next (setLst p 2 (pfClean p (s.setLpi p { l with
        gone := none
        pf := l.pf.map (fun b => { b with dropped := true })
        holdEnd := none }))))
    ∧ (∀ e, l.lst = 2 → l.holdEnd = some e → e ≤ s.now → Sys2Proof.Machine.exec (.graceExpire p) s = .next (lpiFlush p 0 s))
    ∧ (l.st = 6 → Sys2Proof.Machine.exec (.wakePatternDetect p) s
      = .next (startWake (16 + p) (toDetect p (s.fset F.mlStsWakeSeen p 1))))

/-- R317 to R321, R323, R325, R330 to R332, R334, R351, R352, R489 to R491: an invalid message is recorded and a CRC
error counted; corrections and uncorrectable codewords are counted while codewords run; lock on the last lane sends
LOCKED and its loss retrains; injections act while the lane runs; an enabled checker starts from zero, locks, and
counts wrong bits; a starved microsecond counts, up to its threshold, and each epoch starts from zero; a leak is
shown; sensors set TEMP and HOT, and THERMTRIP_N asserts from 123 °C on and never below 117 °C. -/
def Obligations.LanesAndPortsAreWatched : Prop :=
  ∀ (s : State) (p : Fin 8), up s →
    let l := s.lpi p
    let q := s.leadOf p
    (s.leads p = true → ∀ ty : BitVec 8,
      Sys2Proof.Machine.exec (.mlInvalidMessage p ty) s = .next (violPort p 0x010F 0 ty.toNat s)
      ∧ Sys2Proof.Machine.exec (.mgmtMessageCrcError p) s = .next (s.fsat F.mlStsCrcErrs p 1))
    ∧ (∀ lane : Fin 4,
      let i := 4 * p.val + lane.val
      let m := s.lpi q
      (m.st = 5 → ∀ n,
        Sys2Proof.Machine.exec (.codewordReceive p lane n false) s = .next (s.fsat F.fecCorrSymbols q (min n 15))
        ∧ Sys2Proof.Machine.exec (.codewordReceive p lane n true) s = .next (s.fsat F.fecUncCodewords q 1)
        ∧ trainsTo s (.codewordLockLoss p lane) q 4)
      ∧ (m.st = 4 → m.lockSent = false → m.lockRecv = false → ∀ inv : Bool,
        let locks := i :: m.locks.filter (fun x => x != i)
        (s.lanesOf q).all locks.contains = true →
        Sys2Proof.Machine.exec (.codewordLockGain p lane inv) s = .next (sendMl q 6 []
          ((s.fset F.laneTstPolInv i (if inv then 1 else 0)).setLpi q { m with locks := locks, lockSent := true })))
      ∧ (∀ w, writerOk w .laneInj i = true → s.laneRuns p = true →
        let u := fun kind => s.fset F.laneInjKind i kind
        let rest := l.inj.filter (fun x => x != lane.val)
        Sys2Proof.Machine.exec (.laneInjSingle w p lane) s = .next ((u 0).emit (.laneFlip p lane 1))
        ∧ Sys2Proof.Machine.exec (.laneInjBurst w p lane) s
          = .next ((u 1).emit (.laneFlip p lane (s.fget F.laneInjBurst i + 1)))
        ∧ Sys2Proof.Machine.exec (.laneInjRate w p lane) s = .next ((u 2).setLpi p { l with inj := lane.val :: rest })
        ∧ Sys2Proof.Machine.exec (.laneInjStop w p lane) s = .next ((u 3).setLpi p { l with inj := rest }))
      ∧ (∀ w, writerOk w .laneTst i = true → s.fget F.laneTstChkEn i = 0 →
        ∃ t, Sys2Proof.Machine.exec (.laneCheckerEnable w p lane) s = .next t ∧ t.fget F.laneTstChkEn i = 1
          ∧ t.fget F.laneErrErrors i = 0 ∧ t.fget F.laneTstChkLock i = 0)
      ∧ (s.checking p i = true →
        Sys2Proof.Machine.exec (.checkerLock p lane) s = .next (s.fset F.laneTstChkLock i 1)
        ∧ (s.fget F.laneTstChkLock i = 1 → ∀ wrong,
          (wrong < 64 → Sys2Proof.Machine.exec (.checkerLoss p lane wrong) s = .next (s.fsat F.laneErrErrors i wrong))
          ∧ (64 ≤ wrong → Sys2Proof.Machine.exec (.checkerLoss p lane wrong) s
            = .next ((s.fsat F.laneErrErrors i (min wrong 256)).fset F.laneTstChkLock i 0)))))
    ∧ (s.portUp p = true → 1000 ≤ s.now → l.stallAt ≠ s.now / 1000 → l.up ≤ 1000 * (s.now / 1000 - 1) →
      l.starved 1 (1000 * (s.now / 1000 - 1)) = true →
      let u := (s.setLpi p { l with stallAt := s.now / 1000 }).fsat F.llDrDrCnt p 1
      (u.fget F.llDrDrCnt p ≠ u.fget F.llDrDrTh p → Sys2Proof.Machine.exec (.stallMicrosecond p) s = .next u)
      ∧ (u.fget F.llDrDrCnt p = u.fget F.llDrDrTh p → u.fget F.llCtlDrRetrain p = 0 →
        Sys2Proof.Machine.exec (.stallMicrosecond p) s
          = .next (violPort p 0x0110 0 (u.fget F.llDrDrCnt p) (u.fsat F.llDrDrEvents p 1))))
    ∧ (l.epoch ≠ s.now / 1000000 → Sys2Proof.Machine.exec (.droughtEpochEnd p) s
      = .next ((s.setLpi p { l with epoch := s.now / 1000000 }).fset F.llDrDrCnt p 0))
    ∧ (s.portUp p = true → l.replay = [] → l.egress = [] → l.emptyAt + 10000 ≤ s.now →
      Sys2Proof.Machine.exec (.leakSnapshot p) s
        = .next ((s.fset F.llLeakHdrShort p (min 0xFFFF (l.np.hShort + l.po.hShort))).fset F.llLeakDataShort p
          (min 0xFFFF l.po.dShort)))
    ∧ (∀ t0 t1 t2 t3 : BitVec 16,
      let u := putTemp 3 t3 (putTemp 2 t2 (putTemp 1 t1 (putTemp 0 t0 s)))
      Sys2Proof.Machine.exec (.thermUpdate t0 t1 t2 t3) s = .next (if u.hot then u.fset F.thermCtlHot 0 1 else u))
    ∧ (∀ (i : Fin 4) (t : BitVec 16),
      let u : State := { s with free := s.free + 1 }
      (4 * 123 ≤ s.junction i t → s.fget F.thermCtlTrip 0 = 0 →
        Sys2Proof.Machine.exec (.thermtripAssert i t) s = .next ((u.fset F.thermCtlTrip 0 1).emit .thermtrip))
      ∧ (s.junction i t < 4 * 117 → Sys2Proof.Machine.exec (.thermtripAssert i t) s = .next u))
    ∧ Sys2Proof.Machine.exec .lrefclkLoss s = .next (forN 8 (fun p s =>
      if s.leads p then startRetrain p (s.setLpi p { s.lpi p with locks := [] }) else s) s)

/-- R336, R343 to R348, R353, R356, R361, R371, R372, R376: a control slot carries an INIT, a NAK that is due, or an
LCB; an LCB moves its counters, a NAK and a replay timeout start a replay, an INIT gives the credits, a RESUME is
noted; an errored frame asks for a NAK; a write leaves as a frame with the next SEQ, a host AtomicOp opens its far
lock; a timeout cools its tag and fails its request; an expired block is dropped; an answer joins the egress. -/
def Obligations.FramesAreKeptInOrder : Prop :=
  ∀ (s : State) (p : Fin 8), up s →
    let l := s.lpi p
    (s.portUp p = true →
      (l.initSent = 0 → Sys2Proof.Machine.exec (.controlSlotSend p) s
        = .next ((s.setLpi p { l with initSent := 1, gaveP := {} }).emit
          (.ctlBlock p (ctlWord 0x66 0 0 (s.giveP p) (s.giveD p)))))
      ∧ (l.initSent = 2 → s.nakNow p = true → Sys2Proof.Machine.exec (.controlSlotSend p) s
        = .next (((s.setLpi p { l with nakDue := false, nakLock := true, nakAt := s.now }).fsat F.llCntNakTx p 1).emit
          (.ctlBlock p (ctlWord 0x55 l.rxAck 0 0 0))))
      ∧ (l.initSent = 2 → s.nakNow p = false → l.lcbNp = true → Sys2Proof.Machine.exec (.controlSlotSend p) s
        = .next ((s.setLpi p { l with
          gaveN := { l.gaveN with hAnn := l.gaveN.hTaken, dAnn := l.gaveN.dTaken }
          lcbNp := false }).emit (.ctlBlock p (ctlWord 0x4B l.rxAck 1 l.gaveN.hTaken l.gaveN.dTaken))))
      ∧ (∀ (a : BitVec 12) (h : BitVec 16) (d : BitVec 24),
        let u := applyAck p a.toNat s
        let m := u.lpi p
        let c := m.po.count h.toNat d.toNat u.now
        m.po.init = true → c.2 = false →
        Sys2Proof.Machine.exec (.lcb p a false h d) s = .next (u.setLpi p { m with po := c.1 }))
      ∧ (∀ a : BitVec 12,
        let u := applyAck p a.toNat (s.fsat F.llCntNakRx p 1)
        (u.lpi p).replay.any (·.again) = false → Sys2Proof.Machine.exec (.nak p a) s = .next (startReplay p u))
      ∧ (∀ (h : BitVec 16) (d : BitVec 24), h.toNat ≤ 32767 → d.toNat ≤ 8388607 →
        Sys2Proof.Machine.exec (.init p true h d) s = .next ((s.rput .llLeak p 0).setLpi p { l with np := {
          init := true
          hInit := h.toNat
          dInit := d.toNat
          at_ := s.now } }))
      ∧ (∀ f : Frame, f.errored = true → Sys2Proof.Machine.exec (.erroredFrame p f) s
        = .next (((touch (16 + p) s).setLpi p { l with nakDue := true }).fsat F.llCntCrcErr p 1))
      ∧ (∀ t rest, l.replay = t :: rest → max t.at_ l.purgeAt + s.replayTo p ≤ s.now →
        Sys2Proof.Machine.exec (.replayTimeout p) s = .next (startReplay p (s.fsat F.llCntReplayTmo p 1)))
      ∧ (∀ e : Egress, l.replay.find? (·.again) = none → l.replay.length < 2047 → s.nextEntry p = some e →
        let x := e.pkt
        let q := partnerRange x
        (x.cls = 1 → x.ty = 0x10 → Sys2Proof.Machine.exec (.frameSend p) s = .next (answerZeros p (putFrame p e
          (frameFor x 0x10 0 q.addr q (swapData x.swap x.range q x.data)) (lpiDrop p e.order s))))
        ∧ (∀ t, x.cls = 0 → 1 ≤ x.ty → x.ty ≤ 3 → s.lpiTag p = some t →
          let u := putFrame p e (frameFor x 0x04 t q.addr q []) (lpiTagOut p t x 0 x.len true none (lpiDrop p e.order s))
          Sys2Proof.Machine.exec (.farLockOpen p) s = .next (u.setLpi p { u.lpi p with far := (u.lpi p).far ++ [{
            tag := t
            addr := q.addr
            len := q.len
            req := x
            host := true }] }))))
    ∧ (∀ a : BitVec 12, l.st = 5 → l.lst = 3 → l.resumeRecv = false → l.keep = false →
      Sys2Proof.Machine.exec (.resume p a false) s = .next (resumeDone p (s.setLpi p { l with resumeRecv := true })))
    ∧ (∀ (tag : Fin 4096) (t : Tag), s.tag (4096 * (2 + p) + tag) = t → t.out = true → t.cooled = false →
      t.at_ + t.limit ≤ s.now →
      let f := frameFor t.req (if isOpening t.req then 0x04 else 0x00) tag (tagRange t).addr (tagRange t) []
      Sys2Proof.Machine.exec (.llCompletionTimeout p tag) s = .next (tagFailed p tag t 2 3
        ((violFrame p 0x0202 tag 0 f s).setTag (4096 * (2 + p) + tag) { t with cooled := true, coolAt := s.now })))
    ∧ (∀ (i : Nat) (b : PfBlock), l.pf[i]? = some b → b.arrived = true → b.at_ + 1000 * s.fget F.lbPfLife p ≤ s.now →
      Sys2Proof.Machine.exec (.prefetchExpire p i) s
        = .next (pfClean p (s.setLpi p { l with pf := l.pf.set i { b with dropped := true } })))
    ∧ (∀ (i : Nat) (x : Packet), whole s (2 + p) i x → x.cls = 2 → passesGate (2 + p) x = false → s.leads p = true →
      Sys2Proof.Machine.exec (.portResponseArrive p i) s = .next (lpiPush p x (taken_ s (2 + p) i)))

/-- R343, R349, R355, R358, R359, R374, R375, R377, R380, R382, R417: with the credits of the frame used and its SEQ
accepted, a partner's write, read and interrupt of an allowed function become packets toward the host port or the
IRT; a doorbell goes to QM for the function of its QID; a unit message goes to its unit; a tunnelled message to its
peer port; a completion that continues lands; a lock transaction is answered UR or discarded, with a record; an
undefined frame likewise. -/
def Obligations.PartnersFramesAreBridged : Prop :=
  ∀ (s : State) (p : Fin 8) (f : Frame), up s → getsFrame s p f →
    let u := tookFrame s p f
    (frameOk f = true →
      (f.tt = 0x10 → s.fnAllowed p f.fn = true → f.addr < 2 ^ 62 → Sys2Proof.Machine.exec (.partnerWrite p f) s
        = .next (offer (u.partnerPkt p f (f.fn / 1024) (f.fn / 1024) f.addr 0) u))
      ∧ (f.tt = 0x00 → s.fnAllowed p f.fn = true → f.addr < 2 ^ 62 → (u.lpi p).parts.length < 1024 * s.groupLen p →
        (u.lpi p).parts.any (fun r => !r.dead && r.frame.tag == f.tag) = false → (u.lpi p).crossing p = false →
        ∀ v, makeRoom p u = some v → Sys2Proof.Machine.exec (.partnerRead p f) s
          = .next (partnerAsk p f (f.fn / 1024) (f.fn / 1024) f.addr true v))
      ∧ (f.tt = 0x13 → Sys2Proof.Machine.exec (.partnerDoorbellMessage p f) s
        = .next (offer (u.doorbellPkt (2 + p) (f.addr / 2 ^ 16 % 8192 / 4) (f.addr / 2 ^ 29 % 2) (f.addr / 2 ^ 16 % 8192)
          (f.addr % 65536)) u))
      ∧ (f.tt = 0x14 → s.fnAllowed p f.fn = true → Sys2Proof.Machine.exec (.partnerInterruptMessage p f) s
        = .next (offer { u.mkPkt 1 0x12 (2 + p) 39 f.fn with addr := f.addr % 2048 } u))
      ∧ (f.tt = 0x15 → f.addr % 4096 ≤ 0x48 → ∀ ni, u.unitNi (f.addr % 4096) = some ni →
        Sys2Proof.Machine.exec (.partnerUnitMessage p f) s = .next (offer { u.mkPkt 1 0x14 (2 + p) ni f.fn with
          addr := f.addr % 4096
          asp := 6
          len := 56
          data := f.data
          fbe := 0xFF
          lbe := 0xFF
          eng := 0xFE
          ep := f.ep } u))
      ∧ (f.tt = 0x16 → s.fnAllowed p f.fn = true → f.addr % 65536 < 64 →
        let i := 64 * p.val + f.addr % 65536
        s.fget F.lbTunEn i = 1 → s.fget F.lbTunKind i = 1 → Sys2Proof.Machine.exec (.partnerTunnelledMessage p f) s
          = .next (offer (u.tunnelPkt p (u.portNi (u.fget F.lbTunPeerPort i)) f.fn (u.fget F.lbTunPeerCh i) f) u))
      ∧ (f.cls = 2 → f.sts = 0 → f.last = false → ∀ t, s.tag (4096 * (2 + p) + f.tag % 4096) = t → f.tag < 4096 →
        t.out = true → t.cooled = false → continues (tagRange t) t.got f = true →
        Sys2Proof.Machine.exec (.partnerCompletion p f) s
          = .next ((stgWrite (landing (2 + p) f.tag + t.got) f.data (List.replicate f.data.length true) f.ep u).setTag
            (4096 * (2 + p) + f.tag) { t with
              got := t.got + f.len
              raw := t.raw ++ f.data
              ep := t.ep || f.ep }))
      ∧ (f.tt ∈ [0x04, 0x11, 0x12] →
        let v := violFrame p 0x010C f.tag f.tt f u
        Sys2Proof.Machine.exec (.partnerLockTransaction p f) s = .next (if f.cls = 0 then answerFrame p 1 f v else v)))
    ∧ (frameOk f = false →
      let v := violFrame p 0x0101 f.tt f.seq f u
      Sys2Proof.Machine.exec (.undefinedTtFrame p f) s = .next (if f.cls = 0 then answerFrame p 1 f v else v))

/-- R227, R388 to R393, R402, R403: a request for a bound vector goes out at once without moderation, is held inside its
interval, or sets the pending bit where it cannot be delivered; one without a vector is recorded; an interval that
ends and a pending vector that becomes deliverable send; a waiting write leaves with its address and data 5 ns past
its request; a 4-byte table write replaces its word; F_VEC_n binds a range that fits and is refused past the pool;
F_SVC_n and SVC_LV are written. -/
def Obligations.InterruptsAreDelivered : Prop :=
  ∀ s : State, up s →
    (∀ i q, sound s 39 i q → q.cls = 1 → q.ty = 0x12 → s.under 39 q.fn = false →
      let n := q.addr % 2048
      let p := (s.fget F.fVecBase q.fn + n) % 32768
      let x := s.vec p
      let u := taken_ s 39 i
      (s.fget F.fVecEn q.fn = 0 → Sys2Proof.Machine.exec (.interruptRequest i) s
        = .next (violPkt 39 0x0305 q n 0 (u.fsat F.irtCntBadVec 0 1)))
      ∧ (s.fget F.fVecEn q.fn = 1 → n < s.vectorsOf q.fn → x.held = 0 → x.pending = false →
        let y := { x with reqTime := q.stamp.time }
        (s.deliverable q.fn p = true → x.modInt = 0 → tellsHost (.interruptRequest i) s q.fn p y)
        ∧ (s.deliverable q.fn p = true → x.modInt ≠ 0 → x.modCnt = 0 →
          (∃ m, x.last = some m ∧ s.now < m + 256 * x.modInt) →
          ∃ t, Sys2Proof.Machine.exec (.interruptRequest i) s = .next t ∧ t.fn.msix = s.fn.msix
            ∧ t.vec p = { y with held := 1 })
        ∧ (s.deliverable q.fn p = false → ∃ t, Sys2Proof.Machine.exec (.interruptRequest i) s = .next t
          ∧ t.fn.msix = s.fn.msix ∧ t.vec p = { y with pending := true })))
    ∧ (∀ i fn addr data m, s.fn.msix[i]? = some (fn, addr, data, m) → (s.fn.msix.take i).any (fun x => x.1 == fn) = false →
      timeBefore (m + 5) (s.niTime 39) = true →
      let u := { s with fn := { s.fn with msix := s.fn.msix.eraseIdx i } }
      Sys2Proof.Machine.exec (.msixWriteStamp i) s = .next (offer { u.mkPkt 1 0x12 39 (fn / 1024) fn with
        asp := fn / 1024
        addr := addr
        len := 4
        data := leBytes 4 data
        fbe := fbeFor addr 4
        lbe := lbeFor addr 4 } (u.fsat F.irtCntSent 0 1)))
    ∧ (∀ (p : Fin 32768) fn v m, s.entryOwner p.val = some (fn, v) → 0 < (s.vec p).held → (s.vec p).last = some m →
      m + 256 * (s.vec p).modInt ≤ s.now → tellsHost (.modIntervalExpire p) s fn p (s.vec p))
    ∧ (∀ (fn : Fin 2048) (v : Fin 1024), s.fget F.fVecEn fn = 1 → v.val < s.vectorsOf fn →
      let p := (s.fget F.fVecBase fn + v) % 32768
      (s.vec p).pending = true → s.deliverable fn p = true → (s.vec p).modInt = 0 →
      tellsHost (.pendingVectorDeliver fn v) s fn p { s.vec p with pending := false })
    ∧ (∀ (fn : Fin 2048) (off : Nat) (x : BitVec 64), off % 4 = 0 → 0x8000 ≤ off → off < 0xC000 → s.fget F.fVecEn fn = 1 →
      let v := (off - 0x8000) / 16
      v < s.vectorsOf fn →
      let p := (s.fget F.fVecBase fn + v) % 32768
      let y := s.vec p
      let k := off / 4 % 4
      let w := x.toNat % 2 ^ 32
      ∃ t, Sys2Proof.Machine.exec (.msixTableWrite fn off 4 x) s = .next t
        ∧ (t.vec p).addr = (if k = 0 then y.addr / 2 ^ 32 * 2 ^ 32 + w else if k = 1 then w * 2 ^ 32 + y.addr % 2 ^ 32 else y.addr)
        ∧ (t.vec p).data = (if k = 2 then w else y.data) ∧ (t.vec p).mask = (if k = 3 then decide (w % 2 = 1) else y.mask)
        ∧ onlyVectors s t)
    ∧ (∀ (w : Writer) (fn : Fin 2048) (x : BitVec 32), writerOk w .fVec fn.val = true → s.cfgGet fn .msixEnable = 0 →
      let en := x.toNat / 2 ^ 31
      let base := x.toNat % 2 ^ 15
      ((en = 0 ∨ (base + s.vectorsOf fn ≤ 32768 ∧ s.overlaps fn base = false)) →
        ∃ t, Sys2Proof.Machine.exec (.fVecWrite w fn x) s = .next t ∧ t.fget F.fVecEn fn = en ∧ t.fget F.fVecBase fn = base)
      ∧ (en = 1 → 32768 < base + s.vectorsOf fn → ¬(s.fget F.fVecEn fn = en ∧ s.fget F.fVecBase fn = base) →
        Sys2Proof.Machine.exec (.fVecWrite w fn x) s
          = .next (violSource (s.writePkt w .fVec fn.val (x.setWidth 64)) s)))
    ∧ (∀ (w : Writer) (fn : Fin 2048) (x : BitVec 32), writerOk w .fSvc fn.val = true →
      ∃ t, Sys2Proof.Machine.exec (.fSvcWrite w fn x) s = .next t ∧ t.fget F.fSvcTagCap fn = x.toNat / 2 ^ 16 % 256
        ∧ t.fget F.fSvcQc fn = x.toNat % 8)
    ∧ (∀ w : Writer, writerOk w .svcCtl 0 = true → ∃ t, Sys2Proof.Machine.exec (.svcLvCommit w) s = .next t
      ∧ t.rget .svcLv 0 = s.sget .svcLv 0)

/-- R410, R411, R416, R418, R419, R422, R424, Tables 17-4, 17-5, 17-7: a count query is answered, an answer that has
been reached confirms its count, a damaged request completes with CA at its source; while SG3 is not FAILED, a
violation record lands in slot NEXT mod 4,096 with its number, a posted-fault record in its ring with TOTAL, a trace
record at WP where its class is recorded; every other byte of staging memory stays. A mark carries value and
function; clearing FULL restarts the buffer. -/
def Obligations.LogsAreWritten : Prop :=
  ∀ s : State, up s →
    (∀ (ni : Fin 46) (i : Nat) (p : Packet),
      let u := taken_ s ni i
      let k := 46 * ni.val + p.src
      let c := p.addr / 16 % 4096
      (tellsOf s ni i p 3 → Sys2Proof.Machine.exec (.countQuery ni i) s
        = .next (offer (notice ni p.src 4 (s.injCnt k) ni p.fn []) u))
      ∧ (tellsOf s ni i p 4 → s.seenCnt k = [] → reached (s.recvCnt k) c = true →
        let n := (c + 4096 - s.confirmed k % 4096) % 4096
        0 < n → n < 2048 → n ≤ ((s.damagedAt ni).filter (fun x => x.src == p.src)).length →
        ∃ t, Sys2Proof.Machine.exec (.countAnswer ni i) s = .next t ∧ t.confirmed k = c
          ∧ t.damagedAt ni = (s.damagedAt ni).filter (fun x => x.src != p.src)
            ++ ((s.damagedAt ni).filter (fun x => x.src == p.src)).drop n)
      ∧ (tellsOf s ni i p 1 → Sys2Proof.Machine.exec (.damagedRequestNotice ni i) s
        = .next (u.setArrived ni (u.arrived ni ++ [{
          cls := 2
          ty := 0x21
          src := p.src
          dst := ni
          fn := p.fn
          tag := p.tag
          qc := p.qc
          csts := 2
          xv := 7 }])))
      ∧ (tellsOf s ni i p 2 → Sys2Proof.Machine.exec (.damagedPostedNotice ni i) s = .next u))
    ∧ (∀ (i : Nat) (p : Packet), (s.dom 5).st ≠ 3 →
      (tellsOf s 41 i p 5 → p.data.length = 64 →
        let r := s.fget F.vlogStsNext 0
        ∃ t, Sys2Proof.Machine.exec (.violationRecord i) s = .next t ∧ t.fget F.vlogStsNext 0 = (r + 1) % 2 ^ 32
          ∧ t.unread (r % 4096) = true
          ∧ putsBytes s t (0x3900000 + 64 * (r % 4096)) (p.data.take 24 ++ leBytes 4 r ++ p.data.drop 28))
      ∧ (tellsOf s 41 i p 6 → p.data.length = 32 → p.fn < 2048 →
        let n := (s.fget F.pfrStsTotal p.fn + 1) % 2 ^ 32
        ∃ t, Sys2Proof.Machine.exec (.postedFaultRecord i) s = .next t ∧ t.fget F.pfrStsTotal p.fn = n
          ∧ putsBytes s t (0x3800000 + 512 * p.fn + 32 * ((n + 15) % 16)) (p.data.take 8 ++ leBytes 4 n ++ p.data.drop 12)
          ∧ (s.inReset p.fn = false → s.fget F.pfrCtlEn p.fn = 1 → ∃ q, q.cls = 1 ∧ q.ty = 0x12 ∧ q.dst = 39 ∧ q.fn = p.fn
            ∧ q.addr = s.fget F.pfrCtlVec p.fn ∧ q ∈ t.inq (25 * 41 + (8 + s.fget F.fSvcQc p.fn))))
      ∧ (tellsOf s 41 i p 7 →
        (s.traced (leNat ((p.data.drop 8).take 1)) = false → Sys2Proof.Machine.exec (.traceRecord i) s
          = .next (taken_ s 41 i))
        ∧ (s.traced (leNat ((p.data.drop 8).take 1)) = true → ¬(s.fget F.trcStsFull 0 = 1 ∧ s.fget F.trcCtlStop 0 = 1) →
          ∃ t, Sys2Proof.Machine.exec (.traceRecord i) s = .next t ∧ traceTakes s t p.data)))
    ∧ (∀ (w : Writer) (x : BitVec 64), writerOk w .trcMark 0 = true → s.traced 6 = true → (s.dom 5).st ≠ 3 →
      ¬(s.fget F.trcStsFull 0 = 1 ∧ s.fget F.trcCtlStop 0 = 1) →
      ∃ t, Sys2Proof.Machine.exec (.trcMark w x) s = .next t
        ∧ traceTakes s t (leBytes 8 (s.stampAt 41).bits ++ [6, 1, 41, 0] ++ leBytes 2 (s.writerFn w) ++ [0, 0]
          ++ leBytes 8 x.toNat ++ leBytes 8 (s.writerFn w)))
    ∧ (∀ w : Writer, writerOk w .trcSts 0 = true → ∃ t, Sys2Proof.Machine.exec (.trcFullClear w) s = .next t
      ∧ t.fget F.trcStsFull 0 = 0 ∧ (s.fget F.trcStsFull 0 = 1 → t.fget F.trcStsWp 0 = 0))

/-- R414, R415, R425, R427, R434, R435: a granted bank scrubber reads its line and moves on, an enabled one asks when
GAP has passed; a program-store scrubber moves on past a good word; LOG_DATA returns the selected word; each KIND of
ERR_INJ has its effect (what an uncorrectable error changes is free); a claim of free semaphores holds all of them
for the MGC, and one that finds any held answers BUSY and leaves every one as it was. -/
def Obligations.ErrorsAreScrubbedAndInjected : Prop :=
  ∀ s : State, up s →
    (∀ b : Fin 16,
      let x := s.arbiter b
      let line := s.scrubAt b
      (∀ g, x.grant = some g → g.idx = 46 → g.serving = true → Sys2Proof.Machine.exec (.scrubRead b) s
        = .next (((scrubLine (2 ^ 22 * b + 64 * line) s).setScrubAt b ((line + 1) % 65536)).setArbiter b { x with
          grant := some { g with serving := false } }))
      ∧ (x.grant = none → natBit (s.fget F.scrubCtlGrpEn 0) (b / 4) = true → s.domOn (2 + b / 4) = true →
        s.scrubAt (16 + b) ≤ s.now → mget none x.slots 46 = none → x.waiting.any (fun w => w.1 == 46) = false →
        Sys2Proof.Machine.exec (.scrubRead b) s = .next ((s.setScrubAt (16 + b) (s.now + 1000 * s.fget F.scrubCtlGap 0)).setArbiter b
          { x with waiting := x.waiting ++ [(46, {
            src := 46
            dst := 18 + b
            asp := 3
            len := 64
            addr := 2 ^ 22 * b + 64 * line })] })))
    ∧ (∀ c : Fin 8,
      let w := s.psScrubAt c
      natBit (s.fget F.scrubCtlPsEn 0) c = true → s.domOn (6 + c) = true → s.psScrubAt (8 + c) ≤ s.now →
      s.psEccAt (131072 * c + w) = 0 → Sys2Proof.Machine.exec (.psScrubRead c) s
        = .next ((s.setPsScrubAt c ((w + 1) % 131072)).setPsScrubAt (8 + c) (s.now + 1000 * s.fget F.scrubCtlGap 0)))
    ∧ (∀ w : Writer,
      let k := match w with
        | .host k => k.val
        | _ => 2
      let n := s.fget F.logSelWord k
      let r := s.fget F.logSelIndex k
      ((∀ k, w ≠ .host k) → w ≠ .mgc → Sys2Proof.Machine.exec (.logDataRead w) s = .next (s.emit (.readValue w 0 true)))
      ∧ (((∃ k, w = .host k) ∨ w = .mgc) → s.fget F.logSelLog k = 0 → r < 4096 → n < 7 →
        let a := 0x3900000 + 64 * r + 8 * n
        let v := stgCheckRange a 8 s
        Sys2Proof.Machine.exec (.logDataRead w) s = .next (((v.setUnread r false).fset F.logSelWord k (n + 1)).emit
          (.readValue w (BitVec.ofNat 64 (v.stgNat a 8)) false)))
      ∧ (((∃ k, w = .host k) ∨ w = .mgc) → s.fget F.logSelLog k = 1 → n = 3 →
        let a := 0x3C00000 + 32 * r + 24
        let v := stgCheckRange a 8 s
        Sys2Proof.Machine.exec (.logDataRead w) s = .next (((v.fset F.logSelWord k 0).fset F.logSelIndex k (r + 1)).emit
          (.readValue w (BitVec.ofNat 64 (v.stgNat a 8)) false))))
    ∧ (∀ (w : Writer) (ni : BitVec 6) (addr : BitVec 26), writerOk w .errInj 0 = true →
      let n := ni.toNat
      let a := addr.toNat
      (n < 46 →
        Sys2Proof.Machine.exec (.errInjPayloadParity w ni) s = .next ((injects s 1 n 0).setPktInj n (some 1))
        ∧ Sys2Proof.Machine.exec (.errInjHeaderParity w ni) s = .next ((injects s 2 n 0).setPktInj n (some 2))
        ∧ Sys2Proof.Machine.exec (.errInjStampParity w ni) s = .next ((injects s 3 n 0).setPktInj n (some 3)))
      ∧ (s.eccAt (a / 8) = 0 →
        Sys2Proof.Machine.exec (.errInjStagingSingle w addr) s = .next ((injects s 4 0 a).setEccAt (a / 8) 5)
        ∧ ∃ t, Sys2Proof.Machine.exec (.errInjStagingDouble w addr) s = .next t ∧ t.eccAt (a / 8) = 6 ∧ t.free = s.free + 1
          ∧ ∀ k, k / 8 ≠ a / 8 → t.byte k = s.byte k)
      ∧ (10 ≤ n → n < 18 → a < 131072 → s.psEccAt (131072 * (n - 10) + a) = 0 →
        Sys2Proof.Machine.exec (.errInjPsSingle w ni addr) s
          = .next ((injects s 6 n a).setPsEccAt (131072 * (n - 10) + a) 5)
        ∧ ∃ t, Sys2Proof.Machine.exec (.errInjPsDouble w ni addr) s = .next t ∧ t.psEccAt (131072 * (n - 10) + a) = 6
          ∧ t.psWord (131072 * (n - 10) + a) = s.psWord (131072 * (n - 10) + a) ^^^ (Config.errBits s.free).setWidth 32)
      ∧ (a < 352 → Sys2Proof.Machine.exec (.errInjControlCode w addr) s = .next (linkRepeat a 1 true (injects s 8 0 a)))
      ∧ (n < 2 → Sys2Proof.Machine.exec (.errInjEcrc w ni) s
        = .next ((injects s 9 n 0).setHpi n { s.hpi n with inj := true })))
    ∧ (∀ (act : Activity) (w : Writer), ((∃ k, w = .host k) ∨ w = .mgc) →
      ((∀ m ∈ claimSet act, (s.sem (1024 + m)).held = false) →
        ∃ t, Sys2Proof.Machine.exec (.maintenanceClaim act w) s = .next t ∧ t.out = .claim true :: s.out
          ∧ (∀ m ∈ claimSet act, t.sem (1024 + m) = {
            held := true
            okind := 3
            gen := ((s.sem (1024 + m)).gen + 1) % 4096 })
          ∧ ∀ k, (∀ m ∈ claimSet act, k ≠ 1024 + m) → t.sem k = s.sem k)
      ∧ ((∃ m ∈ claimSet act, (s.sem (1024 + m)).held = true) →
        ∃ t, Sys2Proof.Machine.exec (.maintenanceClaim act w) s = .next t ∧ t.out = .claim false :: s.out
          ∧ ∀ k, (t.sem k).held = (s.sem k).held))

/-- R440 to R452, R454, R455: an idle timer that ends begins the entry, or is refused by the first condition that holds,
or asks the partner; isolation makes the domain RET or OFF, and a PD in OFF loses its engines, scratch and store; a
wake runs its attempts, each with power-good and PLL lock, and after the fourth the domain is FAILED with ARM set;
each wake source, FORCE_ON and RETRY begins one; the MGC clock, and deep idle. The end of a wake leaves the domain
ON with its NIs awaiting the time. -/
def Obligations.PowerDomainsSleepAndWake : Prop :=
  ∀ s : State, up s →
    (∀ d : Fin 24,
      let x := s.dom d
      (s.idleOver d = true →
        (∀ r, s.refuser d = some r → Sys2Proof.Machine.exec (.idleTimerExpire d) s
          = .next (pwrRefuse d r.cause r.kind r.who s))
        ∧ (s.refuser d = none → ¬(16 ≤ d.val ∧ s.portQuiet (d - 16) = false) →
          Sys2Proof.Machine.exec (.idleTimerExpire d) s = .next (forL (nisOf d) parkNi (s.setDom d { x with
            trans := 1
            toOff := s.mayOff d })))
        ∧ (s.refuser d = none → 16 ≤ d.val → s.portQuiet (d - 16) = false → (s.lpi (d - 16)).sleepSent = false →
          Sys2Proof.Machine.exec (.idleTimerExpire d) s = .next (sleepExit (d - 16) (sendMl (d - 16) 0x09 [] (s.setLpi (d - 16)
            { s.lpi (d - 16) with
              sleepSent := true
              sleepAt := s.now })))))
      ∧ (16 ≤ d.val → (s.lpi (d - 16)).st = 5 → (s.lpi (d - 16)).sleepSent = true → (s.lpi (d - 16)).sleepRecv = false →
        (s.lpi (d - 16)).sleepAt + 100000 ≤ s.now → Sys2Proof.Machine.exec (.partnerSleepTimeout d) s
          = .next (pwrRefuse d 0x08 1 (d - 14) (s.setLpi (d - 16) { s.lpi (d - 16) with sleepSent := false })))
      ∧ (∀ src : Fin 46, x.trans = 1 → d.val < 16 → Sys2Proof.Machine.exec (.domainEntryAbort d src) s
        = .next (pwrRefuse d 0x0B 1 src (cancelEntry d s)))
      ∧ (x.st = 0 → x.trans = 1 → s.mayIsolate d = true →
        (x.toOff = false → Sys2Proof.Machine.exec (.domainIsolation d) s = .next (pwrTrace 1 d 0 (s.setDom d { x with
          st := 1
          trans := 0
          since := s.now })))
        ∧ (x.toOff = true → 6 ≤ d.val → d.val < 14 → ∃ t, Sys2Proof.Machine.exec (.domainIsolation d) s = .next t
          ∧ (t.dom d).st = 2 ∧ (∀ e, t.eng e = if e / 8 + 6 = d.val then {} else s.eng e)
          ∧ (∀ k, t.psWord k = if k / 131072 + 6 = d.val then 0 else s.psWord k)
          ∧ (∀ k, t.scrByte k = if k / 524288 + 6 = d.val then 0 else s.scrByte k)))
      ∧ (x.trans = 2 → x.stage = 0 →
        (14 ≤ d.val → Sys2Proof.Machine.exec (.powerGood d) s = .next (s.setDom d { x with
          stage := 1
          at_ := s.now }))
        ∧ (d.val < 14 → Sys2Proof.Machine.exec (.powerGood d) s = .next (backOn s d))
        ∧ (x.at_ + 2000000 ≤ s.now → attemptEnds (.wakePowerTimeout d) s d))
      ∧ (x.trans = 2 → x.stage = 1 →
        Sys2Proof.Machine.exec (.wakePllLock d) s = .next (afterWake d (backOn s d))
        ∧ (x.at_ + 200000 ≤ s.now → attemptEnds (.wakePllTimeout d) s d))
      ∧ (∀ ni ∈ nisOf d, (backOn s d).untimed ni = true)
      ∧ (x.trans = 2 → x.stage = 2 → x.at_ + 10000 ≤ s.now → Sys2Proof.Machine.exec (.wakeRetryDelayExpire d) s
        = .next (s.setDom d { x with
          attempts := x.attempts + 1
          stage := 0
          at_ := s.now }))
      ∧ (∀ src, s.wakeAsked d src = true → (x.st = 1 ∨ x.st = 2) → x.trans = 0 →
        (d.val < 14 → Sys2Proof.Machine.exec (.domainWakeRequest d src) s = .next (wakesNow s d))
        ∧ ((d.val = 14 ∨ d.val = 15) → src ≠ .packet → src ≠ .packetToSend →
          Sys2Proof.Machine.exec (.domainWakeRequest d src) s = .next (wakesNow s d))
        ∧ ((d.val = 14 ∨ d.val = 15) → (src = .packet ∨ src = .packetToSend) → x.st = 1 →
          Sys2Proof.Machine.exec (.domainWakeRequest d src) s = .next ((wakesNow s d).emit (.clkreq (d - 14))))
        ∧ (16 ≤ d.val → Sys2Proof.Machine.exec (.domainWakeRequest d src) s
          = .next (forL (span (s.leadOf (d - 16)) (s.groupLen (d - 16))) (fun q => wakeOne (16 + q)) s)))
      ∧ (∀ w, writerOk w .pwrDom d = true →
        (x.st = 3 → x.trans = 0 → Sys2Proof.Machine.exec (.domainRetry w d) s = .next (wakesNow s d))
        ∧ (2 ≤ d.val → d.val < 16 → (x.st = 1 ∨ x.st = 2) → x.trans = 0 → Sys2Proof.Machine.exec (.domainForceOn w d) s
          = .next (wakesNow (s.fset F.pwrDomForceOn d 1) d))
        ∧ (2 ≤ d.val → d.val < 16 → x.st = 0 → x.trans = 0 → Sys2Proof.Machine.exec (.domainForceOn w d) s
          = .next (s.fset F.pwrDomForceOn d 1))
        ∧ (d.val < 2 → Sys2Proof.Machine.exec (.domainForceOn w d) s = .next s)))
    ∧ (∀ c : Fin 8, (s.dom (6 + c)).st = 1 → (s.dom (6 + c)).trans = 0 → s.timerDue c = true →
      Sys2Proof.Machine.exec (.pdTimerLead c) s = .next (wakesNow s (6 + c)))
    ∧ (∀ k : Fin 2, (s.dom (14 + k)).st = 1 → (s.dom (14 + k)).trans = 0 →
      Sys2Proof.Machine.exec (.clkreqAssert k) s = .next (wakesNow s (14 + k)))
    ∧ (let u : State := { s with pwr := { s.pwr with wsLevel := true } }
      (s.fget F.wsCtlArm 0 = 0 → Sys2Proof.Machine.exec .wakeSenseTrigger s = .next u)
      ∧ (s.fget F.wsCtlArm 0 = 1 → Sys2Proof.Machine.exec .wakeSenseTrigger s = .next (forL (span 2 22) (fun d s =>
        wakeFailed d (when (natBit (s.fget F.wsMaskMask 0) d) (startWake d) s)) (u.fset F.wsCtlTrig 0 1))))
    ∧ (∀ w, writerOk w .pwcClk 0 = true →
      Sys2Proof.Machine.exec (.mgcSrcWrite w false) s = .next (s.fset F.pwcClkMgcSrc 0 0)
      ∧ Sys2Proof.Machine.exec (.mgcSrcWrite w true) s
        = .next (if s.fget F.pwcClkMgcPllLock 0 = 1 then s.fset F.pwcClkMgcSrc 0 1 else s))
    ∧ (s.pwr.deep = false →
      (s.fget F.pwcClkMgcPllEn 0 = 1 → ∃ t, Sys2Proof.Machine.exec .mgcPllLock s = .next t
        ∧ t.fget F.pwcClkMgcPllLock 0 = 1 ∧ t.tb.mgcLockSince = some s.now)
      ∧ (s.fget F.pwrCtlDeepEn 0 = 1 → s.allDown = true → ∃ t, Sys2Proof.Machine.exec .deepIdleEnter s = .next t
        ∧ t.pwr.deep = true ∧ t.fget F.pwrStsDeep 0 = 1 ∧ t.fget F.pwcClkMgcSrc 0 = 0 ∧ t.fget F.pwcClkMgcPllLock 0 = 0
        ∧ t.tb.mgcLockSince = none))

/-- R254, R458, R460 to R464, R466, R470, R471: each command of bring-up acts in its stage: fuses show in KEY_STS and
BOOT_SVN; ROM zeroes staging memory; an erased or failing slot is noted with its cause and the next one is tried; a
slot that passes is loaded; the PLLs start; the clock step ends when both locks have held 1 ms or one does not come;
an INIT that takes 100 ms is stopped; then READY, or recovery after both slots failed. What a load does is the
model's loadAll. -/
def Obligations.BringUpRunsItsStages : Prop :=
  ∀ s : State, up s →
    let stage := s.fget F.bootStsStage 0
    let c := s.boot.container
    (stage = 0 → ∃ t, Sys2Proof.Machine.exec .bootFuseStage s = .next t ∧ t.fget F.bootStsStage 0 = 1
      ∧ t.fget F.bootSvnOsvnFuse 0 = s.boot.ownerCount % 256 ∧ t.fget F.bootSvnVsvnFuse 0 = s.boot.vendorCount % 256
      ∧ t.fget F.keyStsDebugLock 0 = if s.boot.debugLock then 1 else 0)
    ∧ (stage = 1 → ∃ t, Sys2Proof.Machine.exec .bootRomStage s = .next t ∧ t.fget F.bootStsStage 0 = 2
      ∧ ∀ a, t.byte a = 0 ∧ t.poisonAt a = false ∧ t.eccAt a = 0)
    ∧ (∀ b : Bool, stage = 2 → s.boot.trySlot = (if b then 1 else 0) →
      let d := s.readSlot (if b then 1 else 0)
      (((d.take 4).all (· == 0xFF)) = true →
        ∃ t, Sys2Proof.Machine.exec (.bootReadSlot b) s = .next t ∧ slotFailed s 6 t)
      ∧ (((d.take 4).all (· == 0xFF)) = false →
        ∃ t, Sys2Proof.Machine.exec (.bootReadSlot b) s = .next t ∧ t.fget F.bootStsStage 0 = 3 ∧ t.boot.container = d))
    ∧ (stage = 3 →
      (s.slotCause c = 0 → s.tornSlot s.boot.trySlot = false → Sys2Proof.Machine.exec .bootVerifySlot s
        = .next (s.fset F.bootStsStage 0 4))
      ∧ (s.slotCause c ≠ 0 → s.slotCause c ≤ 3 → ∃ t, Sys2Proof.Machine.exec .bootVerifySlot s = .next t
        ∧ slotFailed s (s.slotCause c) t)
      ∧ (s.slotCause c = 0 → s.tornSlot s.boot.trySlot = true → ∃ t, Sys2Proof.Machine.exec .bootVerifySlot s = .next t
        ∧ slotFailed s 3 t))
    ∧ (stage = 4 → Sys2Proof.Machine.exec .bootKeyRecords s = .next ((showKeys (forL ((sectionsOf c 9).flatMap
      (fun x => recordsOf (x.bytes c))) (keyRecord (cOkey c)) s)).fset F.bootStsStage 0 5))
    ∧ (stage = 5 → Sys2Proof.Machine.exec .bootLoad s = .next ((loadAll s).fset F.bootStsStage 0 6))
    ∧ (stage = 6 → c ≠ [] → ∃ t, Sys2Proof.Machine.exec .bootStart s = .next t ∧ t.fget F.tbCtlPllEn 0 = 1
      ∧ t.fget F.pwcClkMgcPllEn 0 = 1 ∧ t.boot = { s.boot with
        container := []
        startAt := s.now })
    ∧ (∀ m n, s.clockStep = true → s.tb.lockSince = some m → s.tb.mgcLockSince = some n → m + 1000000 ≤ s.now →
      n + 1000000 ≤ s.now → Sys2Proof.Machine.exec .clockLockHoldExpire s = .next (settleClocks (mgcSrc true (srcWrite true s))))
    ∧ (s.clockStep = true → (s.tb.lockSince = none ∨ s.tb.mgcLockSince = none) → s.boot.startAt + 1000000 ≤ s.now →
      Sys2Proof.Machine.exec .clockLockHoldExpire s = .next (settleClocks (s.fset F.bootStsNoTbclk 0 1)))
    ∧ (s.clockStep = false →
      (s.fget F.tbCtlPllLock 0 = 1 → s.fget F.tbCtlCoarse 0 = 1 → Sys2Proof.Machine.exec (.pllLockDrop true) s
        = .next (({ s with tb := { s.tb with lockSince := none } } : State).fset F.tbCtlPllLock 0 0))
      ∧ (s.fget F.pwcClkMgcPllLock 0 = 1 → s.fget F.pwcClkMgcSrc 0 = 0 → Sys2Proof.Machine.exec (.pllLockDrop false) s
        = .next (({ s with tb := { s.tb with mgcLockSince := none } } : State).fset F.pwcClkMgcPllLock 0 0)))
    ∧ (stage = 6 → s.boot.clocked = true →
      (∀ k : Fin 8, s.boot.named.contains k.val = true → s.initOver k = false → s.boot.startAt + 100000000 ≤ s.now →
        Sys2Proof.Machine.exec (.initTimeout k) s
          = .next ((s.fset F.pclCtlRun k 0).fset F.bootStsInitTmo 0 (s.fget F.bootStsInitTmo 0 + 2 ^ k.val)))
      ∧ (s.boot.named.all s.initOver = true → (s.fget F.tbCtlSrc 0 = 0 ∨ s.fget F.tbCtlCoarse 0 = 0) →
        Sys2Proof.Machine.exec .bootReady s = .next (becomeReady 7 s)))
    ∧ (stage = 2 → s.boot.trySlot = 2 → Sys2Proof.Machine.exec .bootRecovery s
      = .next (becomeReady 8 { s with boot := { s.boot with image := [] } }))

/-- R465, R471, R472: COMMIT_OWNER and COMMIT_VENDOR raise the count to the running image's, never lower it, and answer
RESULT 0; an erase or a write starts with BUSY unless its range is not permitted (RESULT 2) or lies in the booted
slot (3); while one runs every command only answers 1; at its end erased bytes are ones, written bytes are staging
memory's, every other byte stays, and on a flash error (4) what the range holds is free. -/
def Obligations.FuseCountsAndFlash : Prop :=
  ∀ s : State, up s →
    (∀ w : Writer, writerOk w .bootCmd 0 = true →
      (s.boot.cmd = none →
        (∃ t, Sys2Proof.Machine.exec (.commitOwnerCount w) s = .next t ∧ t.fget F.bootResResult 0 = 0
          ∧ t.boot = { s.boot with ownerCount := max s.boot.ownerCount (s.fget F.bootSvnOsvnImg 0) }
          ∧ t.fget F.bootSvnOsvnFuse 0 = max s.boot.ownerCount (s.fget F.bootSvnOsvnImg 0) % 256)
        ∧ (∃ t, Sys2Proof.Machine.exec (.commitVendorCount w) s = .next t ∧ t.fget F.bootResResult 0 = 0
          ∧ t.boot = { s.boot with vendorCount := max s.boot.vendorCount (s.fget F.bootSvnVsvnImg 0) }
          ∧ t.fget F.bootSvnVsvnFuse 0 = max s.boot.vendorCount (s.fget F.bootSvnVsvnImg 0) % 256)
        ∧ (∀ wr : Bool,
          let c : FlashCmd := {
            write := wr
            dst := s.fget F.bootDstOffset 0
            src := s.fget F.bootSrcAddr 0
            len := s.fget F.bootLenLen 0 }
          let row := if wr then Instr.flashWr w else Instr.flashErase w
          (s.flashRangeOk c = false → Sys2Proof.Machine.exec row s = .next (s.fset F.bootResResult 0 2))
          ∧ (s.flashRangeOk c = true → s.fget F.bootStsSlot 0 = c.dst / 2 ^ 24 + 1 →
            Sys2Proof.Machine.exec row s = .next (s.fset F.bootResResult 0 3))
          ∧ (s.flashRangeOk c = true → s.fget F.bootStsSlot 0 ≠ c.dst / 2 ^ 24 + 1 → Sys2Proof.Machine.exec row s
            = .next (({ s with boot := { s.boot with cmd := some c } } : State).fset F.bootResBusy 0 1))))
      ∧ (s.boot.cmd ≠ none →
        Sys2Proof.Machine.exec (.commitOwnerCount w) s = .next (s.fset F.bootResResult 0 1)
        ∧ Sys2Proof.Machine.exec (.commitVendorCount w) s = .next (s.fset F.bootResResult 0 1)
        ∧ Sys2Proof.Machine.exec (.flashErase w) s = .next (s.fset F.bootResResult 0 1)
        ∧ Sys2Proof.Machine.exec (.flashWr w) s = .next (s.fset F.bootResResult 0 1)))
    ∧ (∀ c, s.boot.cmd = some c →
      (∃ t, Sys2Proof.Machine.exec (.flashOpComplete true) s = .next t ∧ t.fget F.bootResResult 0 = 0
        ∧ t.fget F.bootResBusy 0 = 0 ∧ t.boot.cmd = none
        ∧ ∀ a, t.flashByte a = if c.dst ≤ a ∧ a < c.dst + c.len then
          (if c.write then s.byte (c.src + (a - c.dst)) else 0xFF) else s.flashByte a)
      ∧ (∃ t, Sys2Proof.Machine.exec (.flashOpComplete false) s = .next t ∧ t.fget F.bootResResult 0 = 4
        ∧ t.fget F.bootResBusy 0 = 0 ∧ t.boot.cmd = none
        ∧ ∀ a, ¬(c.dst ≤ a ∧ a < c.dst + c.len) → t.flashByte a = s.flashByte a))

/-- R468, R469, R471: a mailbox that takes requests answers Discovery, starts anew at GET_VERSION, and takes
GET_CAPABILITIES, NEGOTIATE_ALGORITHMS and the rest in their order, else UnexpectedRequest (the order and error
names: model, log 28); digests, certificate portions, measurements; a signed response waits for SEC behind earlier
ones and then carries a fresh nonce and the signature over its transcript; an abort drops that mailbox's state. -/
def Obligations.MailboxesAttest : Prop :=
  ∀ (s : State) (k : Fin 2), up s →
    let at_ := s.spdmAt k
    let tr := s.transcript k
    (s.mailbox k = true →
      (∀ i : BitVec 8, Sys2Proof.Machine.exec (.doeDiscovery k i) s = .next (s.emit (.doe k.val "DISCOVERY"
        (if i.toNat = 0 then [1, 0, 1] else if i.toNat = 1 then [1, 1, 0] else [0xFFFF, 0, 0]))))
      ∧ answersDoe (.getVersion k) s k "VERSION" [0x11, 0x12] 1 [0x84, 0x11, 0x12]
      ∧ (at_ = 1 → answersDoe (.getCapabilities k) s k "CAPABILITIES" [0x16] 2 (tr ++ [0xE1, 0x16]))
      ∧ (at_ ≠ 1 → errsDoe (.getCapabilities k) s k "UnexpectedRequest" 0xE1)
      ∧ (at_ = 2 → answersDoe (.negotiateAlgorithms k) s k "ALGORITHMS" [0x60, 0x4, 0x8] 3 (tr ++ [0xE3, 0x60, 0x4, 0x8]))
      ∧ (at_ ≠ 2 → errsDoe (.negotiateAlgorithms k) s k "UnexpectedRequest" 0xE3)
      ∧ (at_ = 3 →
        let ds := if s.boot.chain = [] then [1, Config.sha512 Config.certArea]
          else [3, Config.sha512 Config.certArea, Config.sha512 s.boot.chain]
        answersDoe (.getDigests k) s k "DIGESTS" ds 3 (tr ++ 0x81 :: ds)
        ∧ (∀ (slot : BitVec 8) (off len : BitVec 16), (∀ c, s.certChain slot.toNat = some c → c.length ≤ off.toNat) →
          errsDoe (.getCertificate k slot off len) s k "InvalidRequest" 0x82)
        ∧ (∀ (slot : BitVec 8) (off len : BitVec 16) chain, s.certChain slot.toNat = some chain → off.toNat < chain.length →
          let p := (chain.drop off.toNat).take (min len.toNat 8176)
          let d := [p.length, chain.length - off.toNat - p.length] ++ p.map (·.toNat)
          answersDoe (.getCertificate k slot off len) s k "CERTIFICATE" d 3
            (tr ++ [0x82, slot.toNat, off.toNat, len.toNat] ++ d))
        ∧ (∀ (slot : BitVec 8) (n : BitVec 256) chain, s.certChain slot.toNat = some chain →
          waitsForSec (.challenge k slot n) s k (.challenge slot.toNat) [0x83, slot.toNat, n.toNat])
        ∧ (∀ (slot : BitVec 8) (n : BitVec 256), s.certChain slot.toNat = none →
          errsDoe (.challenge k slot n) s k "InvalidRequest" 0x83)
        ∧ (∀ (i : BitVec 8) (n : BitVec 256), (i = 0 ∨ s.blocks i.toNat ≠ []) →
          waitsForSec (.getMeasurements k i true n) s k (.measurements i.toNat) [0xE0, i.toNat, n.toNat]
          ∧ answersDoe (.getMeasurements k i false n) s k "MEASUREMENTS" (s.measFields i.toNat) 3
            (tr ++ [0xE0, i.toNat, n.toNat] ++ s.measFields i.toNat)))
      ∧ (∀ code : BitVec 8, errsDoe (.spdmUnsupportedRequest k code) s k "UnsupportedRequest" code.toNat))
    ∧ (∀ slot rest, s.boot.signQ = (k.val, .challenge slot) :: rest →
      let fields := [slot, Config.sha512 ((s.certChain slot).getD []), Config.random s.free]
      ∃ t, Sys2Proof.Machine.exec .spdmSignComplete s = .next t ∧ t.boot.signQ = rest ∧ t.free = s.free + 1
        ∧ t.transcript k = []
        ∧ t.out = .doe k "CHALLENGE_AUTH" (fields ++ [Config.deviceSign (tr ++ fields)]) :: s.out)
    ∧ (∀ i rest, s.boot.signQ = (k.val, .measurements i) :: rest →
      let fields := s.measFields i ++ [Config.random s.free]
      ∃ t, Sys2Proof.Machine.exec .spdmSignComplete s = .next t ∧ t.boot.signQ = rest ∧ t.free = s.free + 1
        ∧ t.transcript k = []
        ∧ t.out = .doe k "MEASUREMENTS" (fields ++ [Config.deviceSign (tr ++ fields)]) :: s.out)
    ∧ (s.hostLive k = true → s.booted = true → ∃ t, Sys2Proof.Machine.exec (.doeAbort k) s = .next t
      ∧ t.spdmAt k = 0 ∧ t.transcript k = [] ∧ (∀ x ∈ t.boot.signQ, x.1 ≠ k.val)
      ∧ ∀ j, j ≠ k.val → t.spdmAt j = s.spdmAt j ∧ t.transcript j = s.transcript j)

/-- R7, R11 to R13, R492, R493: of H0, H1 and the MGC below 0x1FF_0000 a write of the whole register by a permitted
writer writes each field by its access code (RO and WO keep, RW takes unless the encoding is reserved, RWC clears on
ones, RWS takes into the shadow), nothing else; a wrong width or alignment is recorded 0x0201 and discarded; an
offset no register occupies ignores writes; a writer the register does not permit is recorded 0x0401; a port that
does not lead its group takes none; a host's offsets from 0x1FF_0000 are its PF's function area (judged as its
driver's); offsets a program cannot reach and beyond 32 MiB: no effect. -/
def Obligations.RegisterWritesTakeTheirFields : Prop :=
  ∀ (s : State) (w : Writer) (off width : Nat) (v : BitVec 64), up s →
    let run := Sys2Proof.Machine.exec (.registerWrite w off width v) s
    let p := s.regPkt w off width v
    ((w = .mgc ∨ ∃ k, w = .host k) → off < 0x1FF0000 →
      (∀ r i, hitsReg false off width r i →
        let j := instOf w false 0 r i
        (s.deadReg r j = true → run = .next s)
        ∧ (s.deadReg r j = false → writerOk w r j = false → r ≠ .qmQhead → r ≠ .qmQerr →
          run = .next (violPkt p.dst 0x0401 p off 0 s))
        ∧ (s.deadReg r j = false → writerOk w r j = true → r ∈ plainRegs → ∃ t, run = .next t
          ∧ (∀ f ∈ r.fields, tookField r j v f s t)
          ∧ (∀ r' i', regKey r' i' ≠ regKey r j → t.rget r' i' = s.rget r' i' ∧ t.sget r' i' = s.sget r' i')
          ∧ { t with reg := s.reg } = s))
      ∧ (regAt regRows false off width = .misaligned → run = .next (violPkt p.src 0x0201 p off width s))
      ∧ (regAt regRows false off width = .none →
        run = .next (if (width = 4 ∨ width = 8) ∧ off % width = 0 then s else violPkt p.src 0x0201 p off width s)))
    ∧ (∀ k : Fin 2, w = .host k → 0x1FF0000 ≤ off → off < 0x2000000 →
      let fn : Fin 2048 := Fin.ofNat 2048 (1024 * k.val)
      let q := s.areaPkt w fn.val (off - 0x1FF0000) width v
      run = .next (ctlWrite (.drv fn) q true fn.val (off - 0x1FF0000) width v s))
    ∧ ((w = .mgc ∨ ∃ k, w = .host k) → 0x2000000 ≤ off → run = .next s)
    ∧ (∀ e, w = .prog e → progReach true off = false → run = .next s)

/-- R13, R94, R125, R250, R280, R310, R402, R428 and the register tables: each of the commands that write one register
(time base, gates, fabric, arbiters, clusters, windows, ports, lanes, vectors, slots, trace, error injection, power,
boot), sent by a writer whom the register does not take writes from, has no effect but the record 0x0401 of the
packet that carried it. Which NI owns a register (the packet's destination) is the model's choice, log 11. -/
def Obligations.WrongWritersAreRecorded : Prop :=
  ∀ (s : State) (c : Instr) (w : Writer) (r : RegId) (i : Nat) (v : Word), up s →
    registerOf c = some (w, r, i, v) → writerOk w r i = false →
    let p := s.writePkt w r i v
    Sys2Proof.Machine.exec c s = .next (violPkt p.dst 0x0401 p p.addr 0 s)

/-- Tables 7-1 to 7-7, R159, R165, R166, R174: for each of the 76 Soref instructions with every operand its encoding
admits (.Q an even register other than g0), the first word has 32 bits and decodes, with the second word, to that
instruction; MAJ marks format L exactly for LI, ADDL, ORH and CMPL, whose second word has 32 bits; in the other
formats the second word does not matter. -/
def Obligations.SorefWordsDecodeBack : Prop :=
  ∀ i : Soref, i.wf = true →
    (encodeSoref i).1 < 2 ^ 32 ∧ (encodeSoref i).2 < 2 ^ 32
    ∧ decodeSoref (encodeSoref i).1 (encodeSoref i).2 = some i
    ∧ (isLong (encodeSoref i).1 = false → ∀ w2, decodeSoref (encodeSoref i).1 w2 = some i)
    ∧ (isLong (encodeSoref i).1 = true ↔ (∃ d v, i = .li d v) ∨ (∃ d a v, i = .addl d a v) ∨ (∃ d a v, i = .orh d a v)
      ∨ ∃ a v, i = .cmpl a v)

/-- Tables 7-1 to 7-7, R165, R166, R170, R174: if a first word and a second word of 32 bits decode to an instruction,
the instruction is well-formed and encodes to just these words (of the second only in format L): a field that must
be zero is zero, and no reserved code is taken for a neighbour. -/
def Obligations.SorefReservedWordsDoNotDecode : Prop :=
  ∀ (w w2 : Nat) (i : Soref), w < 2 ^ 32 → w2 < 2 ^ 32 → decodeSoref w w2 = some i →
    i.wf = true ∧ (encodeSoref i).1 = w ∧ (isLong w = true → (encodeSoref i).2 = w2)

/-- The words of ADD, CLZ, ADDI -1, SLLI, LI -2, CMPL, LDG.W, LDC.SW, STX.D, CAS.D, B.NE -1, CALL.GTU, JR, RET, SRD
s.flags, SBIC, NOP, TCMP, MOVE, XLT, FENCE.P, LOCK.Q loc, UNLOCK.W stg, ACQ, RELR, UMSG, RAISE and RAISER, written
out field by field, decode to them; four words whose zero fields or codes are reserved do not decode. -/
def Obligations.SorefWordsWrittenOut : Prop :=
  decodeSoref 0b00001000110000100010000000000000 0 = some (.add 3 1 2)
  ∧ decodeSoref 0b00001001000010100000000011010000 0 = some (.clz 4 5)
  ∧ decodeSoref 0b00010001100011100000111111111111 0 = some (.addi 6 7 (-1))
  ∧ decodeSoref 0b00010010000100100110000000111111 0 = some (.slli 8 9 63)
  ∧ decodeSoref 0b00011010100000000000111111111111 0xFFFFFFFE = some (.li 10 (-2))
  ∧ decodeSoref 0b00011000000101101011000000000000 5 = some (.cmpl 11 5)
  ∧ decodeSoref 0b00100011000110101010000000001000 0 = some (.ldg .w 12 13 8)
  ∧ decodeSoref 0b00100011100111110110000000000100 0 = some (.ldc .sw 14 15 4)
  ∧ decodeSoref 0b00101100000000100011111111111000 0 = some (.stx .d 16 1 (-8))
  ∧ decodeSoref 0b00110100010001000011000001010000 0 = some (.cas true 17 2 3)
  ∧ decodeSoref 0b00111001000011111111111111111111 0 = some (.bCc .ne (-1))
  ∧ decodeSoref 0b00111100100100000000000000010000 0 = some (.callCc .gtu 16)
  ∧ decodeSoref 0b01000000001111100000000000000000 0 = some (.jr 31)
  ∧ decodeSoref 0b01000000000000000000000000100000 0 = some .ret
  ∧ decodeSoref 0b01001000010000000000000010000000 0 = some (.srd 1 8)
  ∧ decodeSoref 0b01001000000001000011000000110000 0 = some (.sbic 2 3)
  ∧ decodeSoref 0b01010000000000000000000000000000 0 = some .nop
  ∧ decodeSoref 0b01010000000001000011000001000000 0 = some (.tcmp 2 3)
  ∧ decodeSoref 0b10000001010000000000000000000000 0 = some (.move 5)
  ∧ decodeSoref 0b10001001010011000000000000000011 0 = some (.xlt 5 6 3)
  ∧ decodeSoref 0b10010001110000000001000000000000 0 = some (.fenceP 7)
  ∧ decodeSoref 0b10011010000100100000011000000000 0 = some (.lock .q .loc 8 9)
  ∧ decodeSoref 0b10011010010100100001000000000000 0 = some (.unlock .w .stg 9 9)
  ∧ decodeSoref 0b10100010100000000000011111111111 0 = some (.acq 10 2047)
  ∧ decodeSoref 0b10100010110110000011000000000000 0 = some (.relr 11 12)
  ∧ decodeSoref 0b10101000000000000000100000000000 0 = some (.umsg 2048)
  ∧ decodeSoref 0b10110000000000000000010000000000 0 = some (.raise 1024)
  ∧ decodeSoref 0b10110000000110100001000000000000 0 = some (.raiser 13)
  ∧ decodeSoref 0 0 = none
  ∧ decodeSoref 0b00001000110000100010000000000001 0 = none
  ∧ decodeSoref 0b00111111100000000000000000000000 0 = none
  ∧ decodeSoref 0b10011010010100100000011000000000 0 = none
end

