-- ==== Sys2Proof/Laws/SMap.lean ====
section
/-!
SUPPORT. The laws of sparse maps: a written entry reads back, every other entry reads as before, and writing keeps
the canonical form.
-/
namespace Sys2Proof.Machine

theorem mget_filter_same {α : Type} (d : α) (m : SMap α) (k : Nat) :
    mget d (m.filter (fun p => p.1 != k)) k = d := by
  induction m with
  | nil => rfl
  | cons p t ih =>
    obtain ⟨k', v⟩ := p
    by_cases h : k' = k
    · subst h; rw [List.filter_cons_of_neg (by simp)]; exact ih
    · rw [List.filter_cons_of_pos (by simpa using h)]
      simp only [mget, if_neg (fun e : k = k' => h e.symm)]; exact ih

theorem mget_filter_ne {α : Type} (d : α) (m : SMap α) (k j : Nat) (hj : j ≠ k) :
    mget d (m.filter (fun p => p.1 != k)) j = mget d m j := by
  induction m with
  | nil => rfl
  | cons p t ih =>
    obtain ⟨k', v⟩ := p
    by_cases h : k' = k
    · subst h; rw [List.filter_cons_of_neg (by simp)]; simp only [mget, if_neg hj]; exact ih
    · rw [List.filter_cons_of_pos (by simpa using h)]
      simp only [mget, ih]

theorem mget_mins_same {α : Type} (d : α) (m : SMap α) (k : Nat) (v : α)
    (h : ∀ p ∈ m, p.1 ≠ k) : mget d (mins m k v) k = v := by
  induction m with
  | nil => simp [mins, mget]
  | cons p t ih =>
    have hp : ¬ k = p.1 := fun e => h p (by simp) e.symm
    unfold mins
    split
    · simp [mget]
    · simp [mget, hp]
      exact ih (fun q hq => h q (by simp [hq]))

theorem mget_mins_ne {α : Type} (d : α) (m : SMap α) (k j : Nat) (v : α) (hj : j ≠ k) :
    mget d (mins m k v) j = mget d m j := by
  induction m with
  | nil => simp [mins, mget, hj]
  | cons p t ih =>
    unfold mins
    split
    · simp [mget, hj]
    · by_cases hjp : j = p.1 <;> simp [mget, hjp]
      rw [← ih]

/-- A written entry reads back. -/
theorem mget_mput_same {α : Type} [DecidableEq α] (d : α) (m : SMap α) (k : Nat) (v : α) :
    mget d (mput d m k v) k = v := by
  unfold mput
  split
  · next h => rw [mget_filter_same, h]
  · exact mget_mins_same d _ k v (fun p hp => by simpa using (List.mem_filter.mp hp).2)

/-- Every other entry reads as before. -/
theorem mget_mput_ne {α : Type} [DecidableEq α] (d : α) (m : SMap α) (k j : Nat) (v : α) (h : j ≠ k) :
    mget d (mput d m k v) j = mget d m j := by
  unfold mput
  split
  · exact mget_filter_ne d m k j h
  · rw [mget_mins_ne d _ k j v h, mget_filter_ne d m k j h]

theorem mwfFrom_mono {α : Type} [DecidableEq α] (d : α) (m : SMap α) (a b : Nat) (h : a ≤ b)
    (hw : mwfFrom d b m = true) : mwfFrom d a m = true := by
  cases m with
  | nil => rfl
  | cons p t =>
    obtain ⟨k, v⟩ := p
    simp only [mwfFrom, Bool.and_eq_true, decide_eq_true_eq] at *
    exact ⟨⟨by omega, hw.1.2⟩, hw.2⟩

theorem mwfFrom_filter {α : Type} [DecidableEq α] (d : α) (q : Nat × α → Bool) (m : SMap α) (a : Nat)
    (hw : mwfFrom d a m = true) : mwfFrom d a (m.filter q) = true := by
  induction m generalizing a with
  | nil => rfl
  | cons p t ih =>
    obtain ⟨k, v⟩ := p
    simp only [mwfFrom, Bool.and_eq_true, decide_eq_true_eq] at hw
    simp only [List.filter]
    split
    · simp only [mwfFrom, Bool.and_eq_true, decide_eq_true_eq]
      exact ⟨hw.1, ih _ hw.2⟩
    · exact mwfFrom_mono d _ a (k + 1) (by omega) (ih _ hw.2)

theorem mwfFrom_mins {α : Type} [DecidableEq α] (d : α) (m : SMap α) (a k : Nat) (v : α) (ha : a ≤ k)
    (hv : v ≠ d) (hk : ∀ p ∈ m, p.1 ≠ k) (hw : mwfFrom d a m = true) : mwfFrom d a (mins m k v) = true := by
  induction m generalizing a with
  | nil => simp [mins, mwfFrom, ha, hv]
  | cons p t ih =>
    obtain ⟨k', v'⟩ := p
    have hne : k' ≠ k := hk (k', v') (by simp)
    simp only [mwfFrom, Bool.and_eq_true, decide_eq_true_eq] at hw
    unfold mins
    split
    · simp only [mwfFrom, Bool.and_eq_true, decide_eq_true_eq]
      exact ⟨⟨ha, hv⟩, ⟨by omega, hw.1.2⟩, hw.2⟩
    · simp only [mwfFrom, Bool.and_eq_true, decide_eq_true_eq]
      exact ⟨hw.1, ih _ (by omega) (fun q hq => hk q (by simp [hq])) hw.2⟩

/-- Writing keeps the canonical form. -/
theorem mwf_mput {α : Type} [DecidableEq α] (d : α) (m : SMap α) (k : Nat) (v : α) (h : mwf d m = true) :
    mwf d (mput d m k v) = true := by
  unfold mwf mput at *
  split
  · exact mwfFrom_filter d _ m 0 h
  · next hv =>
    exact mwfFrom_mins d _ 0 k v (by omega) hv (fun p hp => by simpa using (List.mem_filter.mp hp).2)
      (mwfFrom_filter d _ m 0 h)

/-- Clearing entries keeps the canonical form. -/
theorem mwf_mclear {α : Type} [DecidableEq α] (d : α) (p : Nat → Bool) (m : SMap α) (h : mwf d m = true) :
    mwf d (mclear p m) = true := mwfFrom_filter d _ m 0 h

/-- The canonical form of any list of pairs is canonical. -/
theorem mwf_mcanon {α : Type} [DecidableEq α] (d : α) (m : SMap α) : mwf d (mcanon d m) = true := by
  have key : ∀ (l a : SMap α), mwf d a = true →
      mwf d (l.foldl (fun a p => mput d a p.1 p.2) a) = true := by
    intro l
    induction l with
    | nil => intro a h; exact h
    | cons p t ih => intro a h; exact ih _ (mwf_mput d a p.1 p.2 h)
  exact key m [] rfl

end Sys2Proof.Machine
end

