-- ==== Sys2Proof/Laws/State.lean ====
section
/-!
SUPPORT. What each write of Machine/Access.lean changes and what it leaves: the entry written reads back, every
other entry reads as before, and every other group of the state is untouched.
-/
namespace Sys2Proof.Machine

@[simp] theorem State.byte_setByte (s : State) (k : Nat) (v : Byte) :
    (s.setByte k v).byte k = v := mget_mput_same _ _ k v
theorem State.byte_setByte_of_ne (s : State) (k j : Nat) (v : Byte) (h : j ≠ k) :
    (s.setByte k v).byte j = s.byte j := mget_mput_ne _ _ k j v h
@[simp] theorem State.por_setByte (s : State) (k : Nat) (v : Byte) : (s.setByte k v).por = s.por := rfl
@[simp] theorem State.tb_setByte (s : State) (k : Nat) (v : Byte) : (s.setByte k v).tb = s.tb := rfl
@[simp] theorem State.reg_setByte (s : State) (k : Nat) (v : Byte) : (s.setByte k v).reg = s.reg := rfl
@[simp] theorem State.fab_setByte (s : State) (k : Nat) (v : Byte) : (s.setByte k v).fab = s.fab := rfl
@[simp] theorem State.ord_setByte (s : State) (k : Nat) (v : Byte) : (s.setByte k v).ord = s.ord := rfl
@[simp] theorem State.arb_setByte (s : State) (k : Nat) (v : Byte) : (s.setByte k v).arb = s.arb := rfl
@[simp] theorem State.pcl_setByte (s : State) (k : Nat) (v : Byte) : (s.setByte k v).pcl = s.pcl := rfl
@[simp] theorem State.qm_setByte (s : State) (k : Nat) (v : Byte) : (s.setByte k v).qm = s.qm := rfl
@[simp] theorem State.xlt_setByte (s : State) (k : Nat) (v : Byte) : (s.setByte k v).xlt = s.xlt := rfl
@[simp] theorem State.port_setByte (s : State) (k : Nat) (v : Byte) : (s.setByte k v).port = s.port := rfl
@[simp] theorem State.fn_setByte (s : State) (k : Nat) (v : Byte) : (s.setByte k v).fn = s.fn := rfl
@[simp] theorem State.err_setByte (s : State) (k : Nat) (v : Byte) : (s.setByte k v).err = s.err := rfl
@[simp] theorem State.pwr_setByte (s : State) (k : Nat) (v : Byte) : (s.setByte k v).pwr = s.pwr := rfl
@[simp] theorem State.boot_setByte (s : State) (k : Nat) (v : Byte) : (s.setByte k v).boot = s.boot := rfl
@[simp] theorem State.pending_setByte (s : State) (k : Nat) (v : Byte) : (s.setByte k v).pending = s.pending := rfl
@[simp] theorem State.free_setByte (s : State) (k : Nat) (v : Byte) : (s.setByte k v).free = s.free := rfl
@[simp] theorem State.out_setByte (s : State) (k : Nat) (v : Byte) : (s.setByte k v).out = s.out := rfl
@[simp] theorem State.mem_poison_setByte (s : State) (k : Nat) (v : Byte) : (s.setByte k v).mem.poison = s.mem.poison := rfl
@[simp] theorem State.mem_ecc_setByte (s : State) (k : Nat) (v : Byte) : (s.setByte k v).mem.ecc = s.mem.ecc := rfl
@[simp] theorem State.mem_scratch_setByte (s : State) (k : Nat) (v : Byte) : (s.setByte k v).mem.scratch = s.mem.scratch := rfl
@[simp] theorem State.mem_scrPoison_setByte (s : State) (k : Nat) (v : Byte) : (s.setByte k v).mem.scrPoison = s.mem.scrPoison := rfl
@[simp] theorem State.mem_ps_setByte (s : State) (k : Nat) (v : Byte) : (s.setByte k v).mem.ps = s.mem.ps := rfl
@[simp] theorem State.mem_psEcc_setByte (s : State) (k : Nat) (v : Byte) : (s.setByte k v).mem.psEcc = s.mem.psEcc := rfl
@[simp] theorem State.poisonAt_setPoisonAt (s : State) (k : Nat) (v : Bool) :
    (s.setPoisonAt k v).poisonAt k = v := mget_mput_same _ _ k v
theorem State.poisonAt_setPoisonAt_of_ne (s : State) (k j : Nat) (v : Bool) (h : j ≠ k) :
    (s.setPoisonAt k v).poisonAt j = s.poisonAt j := mget_mput_ne _ _ k j v h
@[simp] theorem State.por_setPoisonAt (s : State) (k : Nat) (v : Bool) : (s.setPoisonAt k v).por = s.por := rfl
@[simp] theorem State.tb_setPoisonAt (s : State) (k : Nat) (v : Bool) : (s.setPoisonAt k v).tb = s.tb := rfl
@[simp] theorem State.reg_setPoisonAt (s : State) (k : Nat) (v : Bool) : (s.setPoisonAt k v).reg = s.reg := rfl
@[simp] theorem State.fab_setPoisonAt (s : State) (k : Nat) (v : Bool) : (s.setPoisonAt k v).fab = s.fab := rfl
@[simp] theorem State.ord_setPoisonAt (s : State) (k : Nat) (v : Bool) : (s.setPoisonAt k v).ord = s.ord := rfl
@[simp] theorem State.arb_setPoisonAt (s : State) (k : Nat) (v : Bool) : (s.setPoisonAt k v).arb = s.arb := rfl
@[simp] theorem State.pcl_setPoisonAt (s : State) (k : Nat) (v : Bool) : (s.setPoisonAt k v).pcl = s.pcl := rfl
@[simp] theorem State.qm_setPoisonAt (s : State) (k : Nat) (v : Bool) : (s.setPoisonAt k v).qm = s.qm := rfl
@[simp] theorem State.xlt_setPoisonAt (s : State) (k : Nat) (v : Bool) : (s.setPoisonAt k v).xlt = s.xlt := rfl
@[simp] theorem State.port_setPoisonAt (s : State) (k : Nat) (v : Bool) : (s.setPoisonAt k v).port = s.port := rfl
@[simp] theorem State.fn_setPoisonAt (s : State) (k : Nat) (v : Bool) : (s.setPoisonAt k v).fn = s.fn := rfl
@[simp] theorem State.err_setPoisonAt (s : State) (k : Nat) (v : Bool) : (s.setPoisonAt k v).err = s.err := rfl
@[simp] theorem State.pwr_setPoisonAt (s : State) (k : Nat) (v : Bool) : (s.setPoisonAt k v).pwr = s.pwr := rfl
@[simp] theorem State.boot_setPoisonAt (s : State) (k : Nat) (v : Bool) : (s.setPoisonAt k v).boot = s.boot := rfl
@[simp] theorem State.pending_setPoisonAt (s : State) (k : Nat) (v : Bool) : (s.setPoisonAt k v).pending = s.pending := rfl
@[simp] theorem State.free_setPoisonAt (s : State) (k : Nat) (v : Bool) : (s.setPoisonAt k v).free = s.free := rfl
@[simp] theorem State.out_setPoisonAt (s : State) (k : Nat) (v : Bool) : (s.setPoisonAt k v).out = s.out := rfl
@[simp] theorem State.mem_cells_setPoisonAt (s : State) (k : Nat) (v : Bool) : (s.setPoisonAt k v).mem.cells = s.mem.cells := rfl
@[simp] theorem State.mem_ecc_setPoisonAt (s : State) (k : Nat) (v : Bool) : (s.setPoisonAt k v).mem.ecc = s.mem.ecc := rfl
@[simp] theorem State.mem_scratch_setPoisonAt (s : State) (k : Nat) (v : Bool) : (s.setPoisonAt k v).mem.scratch = s.mem.scratch := rfl
@[simp] theorem State.mem_scrPoison_setPoisonAt (s : State) (k : Nat) (v : Bool) : (s.setPoisonAt k v).mem.scrPoison = s.mem.scrPoison := rfl
@[simp] theorem State.mem_ps_setPoisonAt (s : State) (k : Nat) (v : Bool) : (s.setPoisonAt k v).mem.ps = s.mem.ps := rfl
@[simp] theorem State.mem_psEcc_setPoisonAt (s : State) (k : Nat) (v : Bool) : (s.setPoisonAt k v).mem.psEcc = s.mem.psEcc := rfl
@[simp] theorem State.eccAt_setEccAt (s : State) (k : Nat) (v : Nat) :
    (s.setEccAt k v).eccAt k = v := mget_mput_same _ _ k v
theorem State.eccAt_setEccAt_of_ne (s : State) (k j : Nat) (v : Nat) (h : j ≠ k) :
    (s.setEccAt k v).eccAt j = s.eccAt j := mget_mput_ne _ _ k j v h
@[simp] theorem State.por_setEccAt (s : State) (k : Nat) (v : Nat) : (s.setEccAt k v).por = s.por := rfl
@[simp] theorem State.tb_setEccAt (s : State) (k : Nat) (v : Nat) : (s.setEccAt k v).tb = s.tb := rfl
@[simp] theorem State.reg_setEccAt (s : State) (k : Nat) (v : Nat) : (s.setEccAt k v).reg = s.reg := rfl
@[simp] theorem State.fab_setEccAt (s : State) (k : Nat) (v : Nat) : (s.setEccAt k v).fab = s.fab := rfl
@[simp] theorem State.ord_setEccAt (s : State) (k : Nat) (v : Nat) : (s.setEccAt k v).ord = s.ord := rfl
@[simp] theorem State.arb_setEccAt (s : State) (k : Nat) (v : Nat) : (s.setEccAt k v).arb = s.arb := rfl
@[simp] theorem State.pcl_setEccAt (s : State) (k : Nat) (v : Nat) : (s.setEccAt k v).pcl = s.pcl := rfl
@[simp] theorem State.qm_setEccAt (s : State) (k : Nat) (v : Nat) : (s.setEccAt k v).qm = s.qm := rfl
@[simp] theorem State.xlt_setEccAt (s : State) (k : Nat) (v : Nat) : (s.setEccAt k v).xlt = s.xlt := rfl
@[simp] theorem State.port_setEccAt (s : State) (k : Nat) (v : Nat) : (s.setEccAt k v).port = s.port := rfl
@[simp] theorem State.fn_setEccAt (s : State) (k : Nat) (v : Nat) : (s.setEccAt k v).fn = s.fn := rfl
@[simp] theorem State.err_setEccAt (s : State) (k : Nat) (v : Nat) : (s.setEccAt k v).err = s.err := rfl
@[simp] theorem State.pwr_setEccAt (s : State) (k : Nat) (v : Nat) : (s.setEccAt k v).pwr = s.pwr := rfl
@[simp] theorem State.boot_setEccAt (s : State) (k : Nat) (v : Nat) : (s.setEccAt k v).boot = s.boot := rfl
@[simp] theorem State.pending_setEccAt (s : State) (k : Nat) (v : Nat) : (s.setEccAt k v).pending = s.pending := rfl
@[simp] theorem State.free_setEccAt (s : State) (k : Nat) (v : Nat) : (s.setEccAt k v).free = s.free := rfl
@[simp] theorem State.out_setEccAt (s : State) (k : Nat) (v : Nat) : (s.setEccAt k v).out = s.out := rfl
@[simp] theorem State.mem_cells_setEccAt (s : State) (k : Nat) (v : Nat) : (s.setEccAt k v).mem.cells = s.mem.cells := rfl
@[simp] theorem State.mem_poison_setEccAt (s : State) (k : Nat) (v : Nat) : (s.setEccAt k v).mem.poison = s.mem.poison := rfl
@[simp] theorem State.mem_scratch_setEccAt (s : State) (k : Nat) (v : Nat) : (s.setEccAt k v).mem.scratch = s.mem.scratch := rfl
@[simp] theorem State.mem_scrPoison_setEccAt (s : State) (k : Nat) (v : Nat) : (s.setEccAt k v).mem.scrPoison = s.mem.scrPoison := rfl
@[simp] theorem State.mem_ps_setEccAt (s : State) (k : Nat) (v : Nat) : (s.setEccAt k v).mem.ps = s.mem.ps := rfl
@[simp] theorem State.mem_psEcc_setEccAt (s : State) (k : Nat) (v : Nat) : (s.setEccAt k v).mem.psEcc = s.mem.psEcc := rfl
@[simp] theorem State.scrByte_setScrByte (s : State) (k : Nat) (v : Byte) :
    (s.setScrByte k v).scrByte k = v := mget_mput_same _ _ k v
theorem State.scrByte_setScrByte_of_ne (s : State) (k j : Nat) (v : Byte) (h : j ≠ k) :
    (s.setScrByte k v).scrByte j = s.scrByte j := mget_mput_ne _ _ k j v h
@[simp] theorem State.por_setScrByte (s : State) (k : Nat) (v : Byte) : (s.setScrByte k v).por = s.por := rfl
@[simp] theorem State.tb_setScrByte (s : State) (k : Nat) (v : Byte) : (s.setScrByte k v).tb = s.tb := rfl
@[simp] theorem State.reg_setScrByte (s : State) (k : Nat) (v : Byte) : (s.setScrByte k v).reg = s.reg := rfl
@[simp] theorem State.fab_setScrByte (s : State) (k : Nat) (v : Byte) : (s.setScrByte k v).fab = s.fab := rfl
@[simp] theorem State.ord_setScrByte (s : State) (k : Nat) (v : Byte) : (s.setScrByte k v).ord = s.ord := rfl
@[simp] theorem State.arb_setScrByte (s : State) (k : Nat) (v : Byte) : (s.setScrByte k v).arb = s.arb := rfl
@[simp] theorem State.pcl_setScrByte (s : State) (k : Nat) (v : Byte) : (s.setScrByte k v).pcl = s.pcl := rfl
@[simp] theorem State.qm_setScrByte (s : State) (k : Nat) (v : Byte) : (s.setScrByte k v).qm = s.qm := rfl
@[simp] theorem State.xlt_setScrByte (s : State) (k : Nat) (v : Byte) : (s.setScrByte k v).xlt = s.xlt := rfl
@[simp] theorem State.port_setScrByte (s : State) (k : Nat) (v : Byte) : (s.setScrByte k v).port = s.port := rfl
@[simp] theorem State.fn_setScrByte (s : State) (k : Nat) (v : Byte) : (s.setScrByte k v).fn = s.fn := rfl
@[simp] theorem State.err_setScrByte (s : State) (k : Nat) (v : Byte) : (s.setScrByte k v).err = s.err := rfl
@[simp] theorem State.pwr_setScrByte (s : State) (k : Nat) (v : Byte) : (s.setScrByte k v).pwr = s.pwr := rfl
@[simp] theorem State.boot_setScrByte (s : State) (k : Nat) (v : Byte) : (s.setScrByte k v).boot = s.boot := rfl
@[simp] theorem State.pending_setScrByte (s : State) (k : Nat) (v : Byte) : (s.setScrByte k v).pending = s.pending := rfl
@[simp] theorem State.free_setScrByte (s : State) (k : Nat) (v : Byte) : (s.setScrByte k v).free = s.free := rfl
@[simp] theorem State.out_setScrByte (s : State) (k : Nat) (v : Byte) : (s.setScrByte k v).out = s.out := rfl
@[simp] theorem State.mem_cells_setScrByte (s : State) (k : Nat) (v : Byte) : (s.setScrByte k v).mem.cells = s.mem.cells := rfl
@[simp] theorem State.mem_poison_setScrByte (s : State) (k : Nat) (v : Byte) : (s.setScrByte k v).mem.poison = s.mem.poison := rfl
@[simp] theorem State.mem_ecc_setScrByte (s : State) (k : Nat) (v : Byte) : (s.setScrByte k v).mem.ecc = s.mem.ecc := rfl
@[simp] theorem State.mem_scrPoison_setScrByte (s : State) (k : Nat) (v : Byte) : (s.setScrByte k v).mem.scrPoison = s.mem.scrPoison := rfl
@[simp] theorem State.mem_ps_setScrByte (s : State) (k : Nat) (v : Byte) : (s.setScrByte k v).mem.ps = s.mem.ps := rfl
@[simp] theorem State.mem_psEcc_setScrByte (s : State) (k : Nat) (v : Byte) : (s.setScrByte k v).mem.psEcc = s.mem.psEcc := rfl
@[simp] theorem State.scrPoisonAt_setScrPoisonAt (s : State) (k : Nat) (v : Bool) :
    (s.setScrPoisonAt k v).scrPoisonAt k = v := mget_mput_same _ _ k v
theorem State.scrPoisonAt_setScrPoisonAt_of_ne (s : State) (k j : Nat) (v : Bool) (h : j ≠ k) :
    (s.setScrPoisonAt k v).scrPoisonAt j = s.scrPoisonAt j := mget_mput_ne _ _ k j v h
@[simp] theorem State.por_setScrPoisonAt (s : State) (k : Nat) (v : Bool) : (s.setScrPoisonAt k v).por = s.por := rfl
@[simp] theorem State.tb_setScrPoisonAt (s : State) (k : Nat) (v : Bool) : (s.setScrPoisonAt k v).tb = s.tb := rfl
@[simp] theorem State.reg_setScrPoisonAt (s : State) (k : Nat) (v : Bool) : (s.setScrPoisonAt k v).reg = s.reg := rfl
@[simp] theorem State.fab_setScrPoisonAt (s : State) (k : Nat) (v : Bool) : (s.setScrPoisonAt k v).fab = s.fab := rfl
@[simp] theorem State.ord_setScrPoisonAt (s : State) (k : Nat) (v : Bool) : (s.setScrPoisonAt k v).ord = s.ord := rfl
@[simp] theorem State.arb_setScrPoisonAt (s : State) (k : Nat) (v : Bool) : (s.setScrPoisonAt k v).arb = s.arb := rfl
@[simp] theorem State.pcl_setScrPoisonAt (s : State) (k : Nat) (v : Bool) : (s.setScrPoisonAt k v).pcl = s.pcl := rfl
@[simp] theorem State.qm_setScrPoisonAt (s : State) (k : Nat) (v : Bool) : (s.setScrPoisonAt k v).qm = s.qm := rfl
@[simp] theorem State.xlt_setScrPoisonAt (s : State) (k : Nat) (v : Bool) : (s.setScrPoisonAt k v).xlt = s.xlt := rfl
@[simp] theorem State.port_setScrPoisonAt (s : State) (k : Nat) (v : Bool) : (s.setScrPoisonAt k v).port = s.port := rfl
@[simp] theorem State.fn_setScrPoisonAt (s : State) (k : Nat) (v : Bool) : (s.setScrPoisonAt k v).fn = s.fn := rfl
@[simp] theorem State.err_setScrPoisonAt (s : State) (k : Nat) (v : Bool) : (s.setScrPoisonAt k v).err = s.err := rfl
@[simp] theorem State.pwr_setScrPoisonAt (s : State) (k : Nat) (v : Bool) : (s.setScrPoisonAt k v).pwr = s.pwr := rfl
@[simp] theorem State.boot_setScrPoisonAt (s : State) (k : Nat) (v : Bool) : (s.setScrPoisonAt k v).boot = s.boot := rfl
@[simp] theorem State.pending_setScrPoisonAt (s : State) (k : Nat) (v : Bool) : (s.setScrPoisonAt k v).pending = s.pending := rfl
@[simp] theorem State.free_setScrPoisonAt (s : State) (k : Nat) (v : Bool) : (s.setScrPoisonAt k v).free = s.free := rfl
@[simp] theorem State.out_setScrPoisonAt (s : State) (k : Nat) (v : Bool) : (s.setScrPoisonAt k v).out = s.out := rfl
@[simp] theorem State.mem_cells_setScrPoisonAt (s : State) (k : Nat) (v : Bool) : (s.setScrPoisonAt k v).mem.cells = s.mem.cells := rfl
@[simp] theorem State.mem_poison_setScrPoisonAt (s : State) (k : Nat) (v : Bool) : (s.setScrPoisonAt k v).mem.poison = s.mem.poison := rfl
@[simp] theorem State.mem_ecc_setScrPoisonAt (s : State) (k : Nat) (v : Bool) : (s.setScrPoisonAt k v).mem.ecc = s.mem.ecc := rfl
@[simp] theorem State.mem_scratch_setScrPoisonAt (s : State) (k : Nat) (v : Bool) : (s.setScrPoisonAt k v).mem.scratch = s.mem.scratch := rfl
@[simp] theorem State.mem_ps_setScrPoisonAt (s : State) (k : Nat) (v : Bool) : (s.setScrPoisonAt k v).mem.ps = s.mem.ps := rfl
@[simp] theorem State.mem_psEcc_setScrPoisonAt (s : State) (k : Nat) (v : Bool) : (s.setScrPoisonAt k v).mem.psEcc = s.mem.psEcc := rfl
@[simp] theorem State.psWord_setPsWord (s : State) (k : Nat) (v : BitVec 32) :
    (s.setPsWord k v).psWord k = v := mget_mput_same _ _ k v
theorem State.psWord_setPsWord_of_ne (s : State) (k j : Nat) (v : BitVec 32) (h : j ≠ k) :
    (s.setPsWord k v).psWord j = s.psWord j := mget_mput_ne _ _ k j v h
@[simp] theorem State.por_setPsWord (s : State) (k : Nat) (v : BitVec 32) : (s.setPsWord k v).por = s.por := rfl
@[simp] theorem State.tb_setPsWord (s : State) (k : Nat) (v : BitVec 32) : (s.setPsWord k v).tb = s.tb := rfl
@[simp] theorem State.reg_setPsWord (s : State) (k : Nat) (v : BitVec 32) : (s.setPsWord k v).reg = s.reg := rfl
@[simp] theorem State.fab_setPsWord (s : State) (k : Nat) (v : BitVec 32) : (s.setPsWord k v).fab = s.fab := rfl
@[simp] theorem State.ord_setPsWord (s : State) (k : Nat) (v : BitVec 32) : (s.setPsWord k v).ord = s.ord := rfl
@[simp] theorem State.arb_setPsWord (s : State) (k : Nat) (v : BitVec 32) : (s.setPsWord k v).arb = s.arb := rfl
@[simp] theorem State.pcl_setPsWord (s : State) (k : Nat) (v : BitVec 32) : (s.setPsWord k v).pcl = s.pcl := rfl
@[simp] theorem State.qm_setPsWord (s : State) (k : Nat) (v : BitVec 32) : (s.setPsWord k v).qm = s.qm := rfl
@[simp] theorem State.xlt_setPsWord (s : State) (k : Nat) (v : BitVec 32) : (s.setPsWord k v).xlt = s.xlt := rfl
@[simp] theorem State.port_setPsWord (s : State) (k : Nat) (v : BitVec 32) : (s.setPsWord k v).port = s.port := rfl
@[simp] theorem State.fn_setPsWord (s : State) (k : Nat) (v : BitVec 32) : (s.setPsWord k v).fn = s.fn := rfl
@[simp] theorem State.err_setPsWord (s : State) (k : Nat) (v : BitVec 32) : (s.setPsWord k v).err = s.err := rfl
@[simp] theorem State.pwr_setPsWord (s : State) (k : Nat) (v : BitVec 32) : (s.setPsWord k v).pwr = s.pwr := rfl
@[simp] theorem State.boot_setPsWord (s : State) (k : Nat) (v : BitVec 32) : (s.setPsWord k v).boot = s.boot := rfl
@[simp] theorem State.pending_setPsWord (s : State) (k : Nat) (v : BitVec 32) : (s.setPsWord k v).pending = s.pending := rfl
@[simp] theorem State.free_setPsWord (s : State) (k : Nat) (v : BitVec 32) : (s.setPsWord k v).free = s.free := rfl
@[simp] theorem State.out_setPsWord (s : State) (k : Nat) (v : BitVec 32) : (s.setPsWord k v).out = s.out := rfl
@[simp] theorem State.mem_cells_setPsWord (s : State) (k : Nat) (v : BitVec 32) : (s.setPsWord k v).mem.cells = s.mem.cells := rfl
@[simp] theorem State.mem_poison_setPsWord (s : State) (k : Nat) (v : BitVec 32) : (s.setPsWord k v).mem.poison = s.mem.poison := rfl
@[simp] theorem State.mem_ecc_setPsWord (s : State) (k : Nat) (v : BitVec 32) : (s.setPsWord k v).mem.ecc = s.mem.ecc := rfl
@[simp] theorem State.mem_scratch_setPsWord (s : State) (k : Nat) (v : BitVec 32) : (s.setPsWord k v).mem.scratch = s.mem.scratch := rfl
@[simp] theorem State.mem_scrPoison_setPsWord (s : State) (k : Nat) (v : BitVec 32) : (s.setPsWord k v).mem.scrPoison = s.mem.scrPoison := rfl
@[simp] theorem State.mem_psEcc_setPsWord (s : State) (k : Nat) (v : BitVec 32) : (s.setPsWord k v).mem.psEcc = s.mem.psEcc := rfl
@[simp] theorem State.psEccAt_setPsEccAt (s : State) (k : Nat) (v : Nat) :
    (s.setPsEccAt k v).psEccAt k = v := mget_mput_same _ _ k v
theorem State.psEccAt_setPsEccAt_of_ne (s : State) (k j : Nat) (v : Nat) (h : j ≠ k) :
    (s.setPsEccAt k v).psEccAt j = s.psEccAt j := mget_mput_ne _ _ k j v h
@[simp] theorem State.por_setPsEccAt (s : State) (k : Nat) (v : Nat) : (s.setPsEccAt k v).por = s.por := rfl
@[simp] theorem State.tb_setPsEccAt (s : State) (k : Nat) (v : Nat) : (s.setPsEccAt k v).tb = s.tb := rfl
@[simp] theorem State.reg_setPsEccAt (s : State) (k : Nat) (v : Nat) : (s.setPsEccAt k v).reg = s.reg := rfl
@[simp] theorem State.fab_setPsEccAt (s : State) (k : Nat) (v : Nat) : (s.setPsEccAt k v).fab = s.fab := rfl
@[simp] theorem State.ord_setPsEccAt (s : State) (k : Nat) (v : Nat) : (s.setPsEccAt k v).ord = s.ord := rfl
@[simp] theorem State.arb_setPsEccAt (s : State) (k : Nat) (v : Nat) : (s.setPsEccAt k v).arb = s.arb := rfl
@[simp] theorem State.pcl_setPsEccAt (s : State) (k : Nat) (v : Nat) : (s.setPsEccAt k v).pcl = s.pcl := rfl
@[simp] theorem State.qm_setPsEccAt (s : State) (k : Nat) (v : Nat) : (s.setPsEccAt k v).qm = s.qm := rfl
@[simp] theorem State.xlt_setPsEccAt (s : State) (k : Nat) (v : Nat) : (s.setPsEccAt k v).xlt = s.xlt := rfl
@[simp] theorem State.port_setPsEccAt (s : State) (k : Nat) (v : Nat) : (s.setPsEccAt k v).port = s.port := rfl
@[simp] theorem State.fn_setPsEccAt (s : State) (k : Nat) (v : Nat) : (s.setPsEccAt k v).fn = s.fn := rfl
@[simp] theorem State.err_setPsEccAt (s : State) (k : Nat) (v : Nat) : (s.setPsEccAt k v).err = s.err := rfl
@[simp] theorem State.pwr_setPsEccAt (s : State) (k : Nat) (v : Nat) : (s.setPsEccAt k v).pwr = s.pwr := rfl
@[simp] theorem State.boot_setPsEccAt (s : State) (k : Nat) (v : Nat) : (s.setPsEccAt k v).boot = s.boot := rfl
@[simp] theorem State.pending_setPsEccAt (s : State) (k : Nat) (v : Nat) : (s.setPsEccAt k v).pending = s.pending := rfl
@[simp] theorem State.free_setPsEccAt (s : State) (k : Nat) (v : Nat) : (s.setPsEccAt k v).free = s.free := rfl
@[simp] theorem State.out_setPsEccAt (s : State) (k : Nat) (v : Nat) : (s.setPsEccAt k v).out = s.out := rfl
@[simp] theorem State.mem_cells_setPsEccAt (s : State) (k : Nat) (v : Nat) : (s.setPsEccAt k v).mem.cells = s.mem.cells := rfl
@[simp] theorem State.mem_poison_setPsEccAt (s : State) (k : Nat) (v : Nat) : (s.setPsEccAt k v).mem.poison = s.mem.poison := rfl
@[simp] theorem State.mem_ecc_setPsEccAt (s : State) (k : Nat) (v : Nat) : (s.setPsEccAt k v).mem.ecc = s.mem.ecc := rfl
@[simp] theorem State.mem_scratch_setPsEccAt (s : State) (k : Nat) (v : Nat) : (s.setPsEccAt k v).mem.scratch = s.mem.scratch := rfl
@[simp] theorem State.mem_scrPoison_setPsEccAt (s : State) (k : Nat) (v : Nat) : (s.setPsEccAt k v).mem.scrPoison = s.mem.scrPoison := rfl
@[simp] theorem State.mem_ps_setPsEccAt (s : State) (k : Nat) (v : Nat) : (s.setPsEccAt k v).mem.ps = s.mem.ps := rfl
@[simp] theorem State.flight_setFlight (s : State) (k : Nat) (v : Option Flight) :
    (s.setFlight k v).flight k = v := mget_mput_same _ _ k v
theorem State.flight_setFlight_of_ne (s : State) (k j : Nat) (v : Option Flight) (h : j ≠ k) :
    (s.setFlight k v).flight j = s.flight j := mget_mput_ne _ _ k j v h
@[simp] theorem State.por_setFlight (s : State) (k : Nat) (v : Option Flight) : (s.setFlight k v).por = s.por := rfl
@[simp] theorem State.tb_setFlight (s : State) (k : Nat) (v : Option Flight) : (s.setFlight k v).tb = s.tb := rfl
@[simp] theorem State.reg_setFlight (s : State) (k : Nat) (v : Option Flight) : (s.setFlight k v).reg = s.reg := rfl
@[simp] theorem State.mem_setFlight (s : State) (k : Nat) (v : Option Flight) : (s.setFlight k v).mem = s.mem := rfl
@[simp] theorem State.ord_setFlight (s : State) (k : Nat) (v : Option Flight) : (s.setFlight k v).ord = s.ord := rfl
@[simp] theorem State.arb_setFlight (s : State) (k : Nat) (v : Option Flight) : (s.setFlight k v).arb = s.arb := rfl
@[simp] theorem State.pcl_setFlight (s : State) (k : Nat) (v : Option Flight) : (s.setFlight k v).pcl = s.pcl := rfl
@[simp] theorem State.qm_setFlight (s : State) (k : Nat) (v : Option Flight) : (s.setFlight k v).qm = s.qm := rfl
@[simp] theorem State.xlt_setFlight (s : State) (k : Nat) (v : Option Flight) : (s.setFlight k v).xlt = s.xlt := rfl
@[simp] theorem State.port_setFlight (s : State) (k : Nat) (v : Option Flight) : (s.setFlight k v).port = s.port := rfl
@[simp] theorem State.fn_setFlight (s : State) (k : Nat) (v : Option Flight) : (s.setFlight k v).fn = s.fn := rfl
@[simp] theorem State.err_setFlight (s : State) (k : Nat) (v : Option Flight) : (s.setFlight k v).err = s.err := rfl
@[simp] theorem State.pwr_setFlight (s : State) (k : Nat) (v : Option Flight) : (s.setFlight k v).pwr = s.pwr := rfl
@[simp] theorem State.boot_setFlight (s : State) (k : Nat) (v : Option Flight) : (s.setFlight k v).boot = s.boot := rfl
@[simp] theorem State.pending_setFlight (s : State) (k : Nat) (v : Option Flight) : (s.setFlight k v).pending = s.pending := rfl
@[simp] theorem State.free_setFlight (s : State) (k : Nat) (v : Option Flight) : (s.setFlight k v).free = s.free := rfl
@[simp] theorem State.out_setFlight (s : State) (k : Nat) (v : Option Flight) : (s.setFlight k v).out = s.out := rfl
@[simp] theorem State.fab_chans_setFlight (s : State) (k : Nat) (v : Option Flight) : (s.setFlight k v).fab.chans = s.fab.chans := rfl
@[simp] theorem State.fab_dirs_setFlight (s : State) (k : Nat) (v : Option Flight) : (s.setFlight k v).fab.dirs = s.fab.dirs := rfl
@[simp] theorem State.fab_links_setFlight (s : State) (k : Nat) (v : Option Flight) : (s.setFlight k v).fab.links = s.fab.links := rfl
@[simp] theorem State.fab_routes_setFlight (s : State) (k : Nat) (v : Option Flight) : (s.setFlight k v).fab.routes = s.fab.routes := rfl
@[simp] theorem State.fab_inq_setFlight (s : State) (k : Nat) (v : Option Flight) : (s.setFlight k v).fab.inq = s.fab.inq := rfl
@[simp] theorem State.fab_arrived_setFlight (s : State) (k : Nat) (v : Option Flight) : (s.setFlight k v).fab.arrived = s.fab.arrived := rfl
@[simp] theorem State.fab_tokens_setFlight (s : State) (k : Nat) (v : Option Flight) : (s.setFlight k v).fab.tokens = s.fab.tokens := rfl
@[simp] theorem State.fab_tokenAt_setFlight (s : State) (k : Nat) (v : Option Flight) : (s.setFlight k v).fab.tokenAt = s.fab.tokenAt := rfl
@[simp] theorem State.chan_setChan (s : State) (k : Nat) (v : Chan) :
    (s.setChan k v).chan k = v := mget_mput_same _ _ k v
theorem State.chan_setChan_of_ne (s : State) (k j : Nat) (v : Chan) (h : j ≠ k) :
    (s.setChan k v).chan j = s.chan j := mget_mput_ne _ _ k j v h
@[simp] theorem State.por_setChan (s : State) (k : Nat) (v : Chan) : (s.setChan k v).por = s.por := rfl
@[simp] theorem State.tb_setChan (s : State) (k : Nat) (v : Chan) : (s.setChan k v).tb = s.tb := rfl
@[simp] theorem State.reg_setChan (s : State) (k : Nat) (v : Chan) : (s.setChan k v).reg = s.reg := rfl
@[simp] theorem State.mem_setChan (s : State) (k : Nat) (v : Chan) : (s.setChan k v).mem = s.mem := rfl
@[simp] theorem State.ord_setChan (s : State) (k : Nat) (v : Chan) : (s.setChan k v).ord = s.ord := rfl
@[simp] theorem State.arb_setChan (s : State) (k : Nat) (v : Chan) : (s.setChan k v).arb = s.arb := rfl
@[simp] theorem State.pcl_setChan (s : State) (k : Nat) (v : Chan) : (s.setChan k v).pcl = s.pcl := rfl
@[simp] theorem State.qm_setChan (s : State) (k : Nat) (v : Chan) : (s.setChan k v).qm = s.qm := rfl
@[simp] theorem State.xlt_setChan (s : State) (k : Nat) (v : Chan) : (s.setChan k v).xlt = s.xlt := rfl
@[simp] theorem State.port_setChan (s : State) (k : Nat) (v : Chan) : (s.setChan k v).port = s.port := rfl
@[simp] theorem State.fn_setChan (s : State) (k : Nat) (v : Chan) : (s.setChan k v).fn = s.fn := rfl
@[simp] theorem State.err_setChan (s : State) (k : Nat) (v : Chan) : (s.setChan k v).err = s.err := rfl
@[simp] theorem State.pwr_setChan (s : State) (k : Nat) (v : Chan) : (s.setChan k v).pwr = s.pwr := rfl
@[simp] theorem State.boot_setChan (s : State) (k : Nat) (v : Chan) : (s.setChan k v).boot = s.boot := rfl
@[simp] theorem State.pending_setChan (s : State) (k : Nat) (v : Chan) : (s.setChan k v).pending = s.pending := rfl
@[simp] theorem State.free_setChan (s : State) (k : Nat) (v : Chan) : (s.setChan k v).free = s.free := rfl
@[simp] theorem State.out_setChan (s : State) (k : Nat) (v : Chan) : (s.setChan k v).out = s.out := rfl
@[simp] theorem State.fab_flights_setChan (s : State) (k : Nat) (v : Chan) : (s.setChan k v).fab.flights = s.fab.flights := rfl
@[simp] theorem State.fab_dirs_setChan (s : State) (k : Nat) (v : Chan) : (s.setChan k v).fab.dirs = s.fab.dirs := rfl
@[simp] theorem State.fab_links_setChan (s : State) (k : Nat) (v : Chan) : (s.setChan k v).fab.links = s.fab.links := rfl
@[simp] theorem State.fab_routes_setChan (s : State) (k : Nat) (v : Chan) : (s.setChan k v).fab.routes = s.fab.routes := rfl
@[simp] theorem State.fab_inq_setChan (s : State) (k : Nat) (v : Chan) : (s.setChan k v).fab.inq = s.fab.inq := rfl
@[simp] theorem State.fab_arrived_setChan (s : State) (k : Nat) (v : Chan) : (s.setChan k v).fab.arrived = s.fab.arrived := rfl
@[simp] theorem State.fab_tokens_setChan (s : State) (k : Nat) (v : Chan) : (s.setChan k v).fab.tokens = s.fab.tokens := rfl
@[simp] theorem State.fab_tokenAt_setChan (s : State) (k : Nat) (v : Chan) : (s.setChan k v).fab.tokenAt = s.fab.tokenAt := rfl
@[simp] theorem State.dir_setDir (s : State) (k : Nat) (v : LinkDir) :
    (s.setDir k v).dir k = v := mget_mput_same _ _ k v
theorem State.dir_setDir_of_ne (s : State) (k j : Nat) (v : LinkDir) (h : j ≠ k) :
    (s.setDir k v).dir j = s.dir j := mget_mput_ne _ _ k j v h
@[simp] theorem State.por_setDir (s : State) (k : Nat) (v : LinkDir) : (s.setDir k v).por = s.por := rfl
@[simp] theorem State.tb_setDir (s : State) (k : Nat) (v : LinkDir) : (s.setDir k v).tb = s.tb := rfl
@[simp] theorem State.reg_setDir (s : State) (k : Nat) (v : LinkDir) : (s.setDir k v).reg = s.reg := rfl
@[simp] theorem State.mem_setDir (s : State) (k : Nat) (v : LinkDir) : (s.setDir k v).mem = s.mem := rfl
@[simp] theorem State.ord_setDir (s : State) (k : Nat) (v : LinkDir) : (s.setDir k v).ord = s.ord := rfl
@[simp] theorem State.arb_setDir (s : State) (k : Nat) (v : LinkDir) : (s.setDir k v).arb = s.arb := rfl
@[simp] theorem State.pcl_setDir (s : State) (k : Nat) (v : LinkDir) : (s.setDir k v).pcl = s.pcl := rfl
@[simp] theorem State.qm_setDir (s : State) (k : Nat) (v : LinkDir) : (s.setDir k v).qm = s.qm := rfl
@[simp] theorem State.xlt_setDir (s : State) (k : Nat) (v : LinkDir) : (s.setDir k v).xlt = s.xlt := rfl
@[simp] theorem State.port_setDir (s : State) (k : Nat) (v : LinkDir) : (s.setDir k v).port = s.port := rfl
@[simp] theorem State.fn_setDir (s : State) (k : Nat) (v : LinkDir) : (s.setDir k v).fn = s.fn := rfl
@[simp] theorem State.err_setDir (s : State) (k : Nat) (v : LinkDir) : (s.setDir k v).err = s.err := rfl
@[simp] theorem State.pwr_setDir (s : State) (k : Nat) (v : LinkDir) : (s.setDir k v).pwr = s.pwr := rfl
@[simp] theorem State.boot_setDir (s : State) (k : Nat) (v : LinkDir) : (s.setDir k v).boot = s.boot := rfl
@[simp] theorem State.pending_setDir (s : State) (k : Nat) (v : LinkDir) : (s.setDir k v).pending = s.pending := rfl
@[simp] theorem State.free_setDir (s : State) (k : Nat) (v : LinkDir) : (s.setDir k v).free = s.free := rfl
@[simp] theorem State.out_setDir (s : State) (k : Nat) (v : LinkDir) : (s.setDir k v).out = s.out := rfl
@[simp] theorem State.fab_flights_setDir (s : State) (k : Nat) (v : LinkDir) : (s.setDir k v).fab.flights = s.fab.flights := rfl
@[simp] theorem State.fab_chans_setDir (s : State) (k : Nat) (v : LinkDir) : (s.setDir k v).fab.chans = s.fab.chans := rfl
@[simp] theorem State.fab_links_setDir (s : State) (k : Nat) (v : LinkDir) : (s.setDir k v).fab.links = s.fab.links := rfl
@[simp] theorem State.fab_routes_setDir (s : State) (k : Nat) (v : LinkDir) : (s.setDir k v).fab.routes = s.fab.routes := rfl
@[simp] theorem State.fab_inq_setDir (s : State) (k : Nat) (v : LinkDir) : (s.setDir k v).fab.inq = s.fab.inq := rfl
@[simp] theorem State.fab_arrived_setDir (s : State) (k : Nat) (v : LinkDir) : (s.setDir k v).fab.arrived = s.fab.arrived := rfl
@[simp] theorem State.fab_tokens_setDir (s : State) (k : Nat) (v : LinkDir) : (s.setDir k v).fab.tokens = s.fab.tokens := rfl
@[simp] theorem State.fab_tokenAt_setDir (s : State) (k : Nat) (v : LinkDir) : (s.setDir k v).fab.tokenAt = s.fab.tokenAt := rfl
@[simp] theorem State.link_setLink (s : State) (k : Nat) (v : Link) :
    (s.setLink k v).link k = v := mget_mput_same _ _ k v
theorem State.link_setLink_of_ne (s : State) (k j : Nat) (v : Link) (h : j ≠ k) :
    (s.setLink k v).link j = s.link j := mget_mput_ne _ _ k j v h
@[simp] theorem State.por_setLink (s : State) (k : Nat) (v : Link) : (s.setLink k v).por = s.por := rfl
@[simp] theorem State.tb_setLink (s : State) (k : Nat) (v : Link) : (s.setLink k v).tb = s.tb := rfl
@[simp] theorem State.reg_setLink (s : State) (k : Nat) (v : Link) : (s.setLink k v).reg = s.reg := rfl
@[simp] theorem State.mem_setLink (s : State) (k : Nat) (v : Link) : (s.setLink k v).mem = s.mem := rfl
@[simp] theorem State.ord_setLink (s : State) (k : Nat) (v : Link) : (s.setLink k v).ord = s.ord := rfl
@[simp] theorem State.arb_setLink (s : State) (k : Nat) (v : Link) : (s.setLink k v).arb = s.arb := rfl
@[simp] theorem State.pcl_setLink (s : State) (k : Nat) (v : Link) : (s.setLink k v).pcl = s.pcl := rfl
@[simp] theorem State.qm_setLink (s : State) (k : Nat) (v : Link) : (s.setLink k v).qm = s.qm := rfl
@[simp] theorem State.xlt_setLink (s : State) (k : Nat) (v : Link) : (s.setLink k v).xlt = s.xlt := rfl
@[simp] theorem State.port_setLink (s : State) (k : Nat) (v : Link) : (s.setLink k v).port = s.port := rfl
@[simp] theorem State.fn_setLink (s : State) (k : Nat) (v : Link) : (s.setLink k v).fn = s.fn := rfl
@[simp] theorem State.err_setLink (s : State) (k : Nat) (v : Link) : (s.setLink k v).err = s.err := rfl
@[simp] theorem State.pwr_setLink (s : State) (k : Nat) (v : Link) : (s.setLink k v).pwr = s.pwr := rfl
@[simp] theorem State.boot_setLink (s : State) (k : Nat) (v : Link) : (s.setLink k v).boot = s.boot := rfl
@[simp] theorem State.pending_setLink (s : State) (k : Nat) (v : Link) : (s.setLink k v).pending = s.pending := rfl
@[simp] theorem State.free_setLink (s : State) (k : Nat) (v : Link) : (s.setLink k v).free = s.free := rfl
@[simp] theorem State.out_setLink (s : State) (k : Nat) (v : Link) : (s.setLink k v).out = s.out := rfl
@[simp] theorem State.fab_flights_setLink (s : State) (k : Nat) (v : Link) : (s.setLink k v).fab.flights = s.fab.flights := rfl
@[simp] theorem State.fab_chans_setLink (s : State) (k : Nat) (v : Link) : (s.setLink k v).fab.chans = s.fab.chans := rfl
@[simp] theorem State.fab_dirs_setLink (s : State) (k : Nat) (v : Link) : (s.setLink k v).fab.dirs = s.fab.dirs := rfl
@[simp] theorem State.fab_routes_setLink (s : State) (k : Nat) (v : Link) : (s.setLink k v).fab.routes = s.fab.routes := rfl
@[simp] theorem State.fab_inq_setLink (s : State) (k : Nat) (v : Link) : (s.setLink k v).fab.inq = s.fab.inq := rfl
@[simp] theorem State.fab_arrived_setLink (s : State) (k : Nat) (v : Link) : (s.setLink k v).fab.arrived = s.fab.arrived := rfl
@[simp] theorem State.fab_tokens_setLink (s : State) (k : Nat) (v : Link) : (s.setLink k v).fab.tokens = s.fab.tokens := rfl
@[simp] theorem State.fab_tokenAt_setLink (s : State) (k : Nat) (v : Link) : (s.setLink k v).fab.tokenAt = s.fab.tokenAt := rfl
@[simp] theorem State.routeCopy_setRouteCopy (s : State) (k : Nat) (v : Option Nat) :
    (s.setRouteCopy k v).routeCopy k = v := mget_mput_same _ _ k v
theorem State.routeCopy_setRouteCopy_of_ne (s : State) (k j : Nat) (v : Option Nat) (h : j ≠ k) :
    (s.setRouteCopy k v).routeCopy j = s.routeCopy j := mget_mput_ne _ _ k j v h
@[simp] theorem State.por_setRouteCopy (s : State) (k : Nat) (v : Option Nat) : (s.setRouteCopy k v).por = s.por := rfl
@[simp] theorem State.tb_setRouteCopy (s : State) (k : Nat) (v : Option Nat) : (s.setRouteCopy k v).tb = s.tb := rfl
@[simp] theorem State.reg_setRouteCopy (s : State) (k : Nat) (v : Option Nat) : (s.setRouteCopy k v).reg = s.reg := rfl
@[simp] theorem State.mem_setRouteCopy (s : State) (k : Nat) (v : Option Nat) : (s.setRouteCopy k v).mem = s.mem := rfl
@[simp] theorem State.ord_setRouteCopy (s : State) (k : Nat) (v : Option Nat) : (s.setRouteCopy k v).ord = s.ord := rfl
@[simp] theorem State.arb_setRouteCopy (s : State) (k : Nat) (v : Option Nat) : (s.setRouteCopy k v).arb = s.arb := rfl
@[simp] theorem State.pcl_setRouteCopy (s : State) (k : Nat) (v : Option Nat) : (s.setRouteCopy k v).pcl = s.pcl := rfl
@[simp] theorem State.qm_setRouteCopy (s : State) (k : Nat) (v : Option Nat) : (s.setRouteCopy k v).qm = s.qm := rfl
@[simp] theorem State.xlt_setRouteCopy (s : State) (k : Nat) (v : Option Nat) : (s.setRouteCopy k v).xlt = s.xlt := rfl
@[simp] theorem State.port_setRouteCopy (s : State) (k : Nat) (v : Option Nat) : (s.setRouteCopy k v).port = s.port := rfl
@[simp] theorem State.fn_setRouteCopy (s : State) (k : Nat) (v : Option Nat) : (s.setRouteCopy k v).fn = s.fn := rfl
@[simp] theorem State.err_setRouteCopy (s : State) (k : Nat) (v : Option Nat) : (s.setRouteCopy k v).err = s.err := rfl
@[simp] theorem State.pwr_setRouteCopy (s : State) (k : Nat) (v : Option Nat) : (s.setRouteCopy k v).pwr = s.pwr := rfl
@[simp] theorem State.boot_setRouteCopy (s : State) (k : Nat) (v : Option Nat) : (s.setRouteCopy k v).boot = s.boot := rfl
@[simp] theorem State.pending_setRouteCopy (s : State) (k : Nat) (v : Option Nat) : (s.setRouteCopy k v).pending = s.pending := rfl
@[simp] theorem State.free_setRouteCopy (s : State) (k : Nat) (v : Option Nat) : (s.setRouteCopy k v).free = s.free := rfl
@[simp] theorem State.out_setRouteCopy (s : State) (k : Nat) (v : Option Nat) : (s.setRouteCopy k v).out = s.out := rfl
@[simp] theorem State.fab_flights_setRouteCopy (s : State) (k : Nat) (v : Option Nat) : (s.setRouteCopy k v).fab.flights = s.fab.flights := rfl
@[simp] theorem State.fab_chans_setRouteCopy (s : State) (k : Nat) (v : Option Nat) : (s.setRouteCopy k v).fab.chans = s.fab.chans := rfl
@[simp] theorem State.fab_dirs_setRouteCopy (s : State) (k : Nat) (v : Option Nat) : (s.setRouteCopy k v).fab.dirs = s.fab.dirs := rfl
@[simp] theorem State.fab_links_setRouteCopy (s : State) (k : Nat) (v : Option Nat) : (s.setRouteCopy k v).fab.links = s.fab.links := rfl
@[simp] theorem State.fab_inq_setRouteCopy (s : State) (k : Nat) (v : Option Nat) : (s.setRouteCopy k v).fab.inq = s.fab.inq := rfl
@[simp] theorem State.fab_arrived_setRouteCopy (s : State) (k : Nat) (v : Option Nat) : (s.setRouteCopy k v).fab.arrived = s.fab.arrived := rfl
@[simp] theorem State.fab_tokens_setRouteCopy (s : State) (k : Nat) (v : Option Nat) : (s.setRouteCopy k v).fab.tokens = s.fab.tokens := rfl
@[simp] theorem State.fab_tokenAt_setRouteCopy (s : State) (k : Nat) (v : Option Nat) : (s.setRouteCopy k v).fab.tokenAt = s.fab.tokenAt := rfl
@[simp] theorem State.inq_setInq (s : State) (k : Nat) (v : List Packet) :
    (s.setInq k v).inq k = v := mget_mput_same _ _ k v
theorem State.inq_setInq_of_ne (s : State) (k j : Nat) (v : List Packet) (h : j ≠ k) :
    (s.setInq k v).inq j = s.inq j := mget_mput_ne _ _ k j v h
@[simp] theorem State.por_setInq (s : State) (k : Nat) (v : List Packet) : (s.setInq k v).por = s.por := rfl
@[simp] theorem State.tb_setInq (s : State) (k : Nat) (v : List Packet) : (s.setInq k v).tb = s.tb := rfl
@[simp] theorem State.reg_setInq (s : State) (k : Nat) (v : List Packet) : (s.setInq k v).reg = s.reg := rfl
@[simp] theorem State.mem_setInq (s : State) (k : Nat) (v : List Packet) : (s.setInq k v).mem = s.mem := rfl
@[simp] theorem State.ord_setInq (s : State) (k : Nat) (v : List Packet) : (s.setInq k v).ord = s.ord := rfl
@[simp] theorem State.arb_setInq (s : State) (k : Nat) (v : List Packet) : (s.setInq k v).arb = s.arb := rfl
@[simp] theorem State.pcl_setInq (s : State) (k : Nat) (v : List Packet) : (s.setInq k v).pcl = s.pcl := rfl
@[simp] theorem State.qm_setInq (s : State) (k : Nat) (v : List Packet) : (s.setInq k v).qm = s.qm := rfl
@[simp] theorem State.xlt_setInq (s : State) (k : Nat) (v : List Packet) : (s.setInq k v).xlt = s.xlt := rfl
@[simp] theorem State.port_setInq (s : State) (k : Nat) (v : List Packet) : (s.setInq k v).port = s.port := rfl
@[simp] theorem State.fn_setInq (s : State) (k : Nat) (v : List Packet) : (s.setInq k v).fn = s.fn := rfl
@[simp] theorem State.err_setInq (s : State) (k : Nat) (v : List Packet) : (s.setInq k v).err = s.err := rfl
@[simp] theorem State.pwr_setInq (s : State) (k : Nat) (v : List Packet) : (s.setInq k v).pwr = s.pwr := rfl
@[simp] theorem State.boot_setInq (s : State) (k : Nat) (v : List Packet) : (s.setInq k v).boot = s.boot := rfl
@[simp] theorem State.pending_setInq (s : State) (k : Nat) (v : List Packet) : (s.setInq k v).pending = s.pending := rfl
@[simp] theorem State.free_setInq (s : State) (k : Nat) (v : List Packet) : (s.setInq k v).free = s.free := rfl
@[simp] theorem State.out_setInq (s : State) (k : Nat) (v : List Packet) : (s.setInq k v).out = s.out := rfl
@[simp] theorem State.fab_flights_setInq (s : State) (k : Nat) (v : List Packet) : (s.setInq k v).fab.flights = s.fab.flights := rfl
@[simp] theorem State.fab_chans_setInq (s : State) (k : Nat) (v : List Packet) : (s.setInq k v).fab.chans = s.fab.chans := rfl
@[simp] theorem State.fab_dirs_setInq (s : State) (k : Nat) (v : List Packet) : (s.setInq k v).fab.dirs = s.fab.dirs := rfl
@[simp] theorem State.fab_links_setInq (s : State) (k : Nat) (v : List Packet) : (s.setInq k v).fab.links = s.fab.links := rfl
@[simp] theorem State.fab_routes_setInq (s : State) (k : Nat) (v : List Packet) : (s.setInq k v).fab.routes = s.fab.routes := rfl
@[simp] theorem State.fab_arrived_setInq (s : State) (k : Nat) (v : List Packet) : (s.setInq k v).fab.arrived = s.fab.arrived := rfl
@[simp] theorem State.fab_tokens_setInq (s : State) (k : Nat) (v : List Packet) : (s.setInq k v).fab.tokens = s.fab.tokens := rfl
@[simp] theorem State.fab_tokenAt_setInq (s : State) (k : Nat) (v : List Packet) : (s.setInq k v).fab.tokenAt = s.fab.tokenAt := rfl
@[simp] theorem State.arrived_setArrived (s : State) (k : Nat) (v : List Packet) :
    (s.setArrived k v).arrived k = v := mget_mput_same _ _ k v
theorem State.arrived_setArrived_of_ne (s : State) (k j : Nat) (v : List Packet) (h : j ≠ k) :
    (s.setArrived k v).arrived j = s.arrived j := mget_mput_ne _ _ k j v h
@[simp] theorem State.por_setArrived (s : State) (k : Nat) (v : List Packet) : (s.setArrived k v).por = s.por := rfl
@[simp] theorem State.tb_setArrived (s : State) (k : Nat) (v : List Packet) : (s.setArrived k v).tb = s.tb := rfl
@[simp] theorem State.reg_setArrived (s : State) (k : Nat) (v : List Packet) : (s.setArrived k v).reg = s.reg := rfl
@[simp] theorem State.mem_setArrived (s : State) (k : Nat) (v : List Packet) : (s.setArrived k v).mem = s.mem := rfl
@[simp] theorem State.ord_setArrived (s : State) (k : Nat) (v : List Packet) : (s.setArrived k v).ord = s.ord := rfl
@[simp] theorem State.arb_setArrived (s : State) (k : Nat) (v : List Packet) : (s.setArrived k v).arb = s.arb := rfl
@[simp] theorem State.pcl_setArrived (s : State) (k : Nat) (v : List Packet) : (s.setArrived k v).pcl = s.pcl := rfl
@[simp] theorem State.qm_setArrived (s : State) (k : Nat) (v : List Packet) : (s.setArrived k v).qm = s.qm := rfl
@[simp] theorem State.xlt_setArrived (s : State) (k : Nat) (v : List Packet) : (s.setArrived k v).xlt = s.xlt := rfl
@[simp] theorem State.port_setArrived (s : State) (k : Nat) (v : List Packet) : (s.setArrived k v).port = s.port := rfl
@[simp] theorem State.fn_setArrived (s : State) (k : Nat) (v : List Packet) : (s.setArrived k v).fn = s.fn := rfl
@[simp] theorem State.err_setArrived (s : State) (k : Nat) (v : List Packet) : (s.setArrived k v).err = s.err := rfl
@[simp] theorem State.pwr_setArrived (s : State) (k : Nat) (v : List Packet) : (s.setArrived k v).pwr = s.pwr := rfl
@[simp] theorem State.boot_setArrived (s : State) (k : Nat) (v : List Packet) : (s.setArrived k v).boot = s.boot := rfl
@[simp] theorem State.pending_setArrived (s : State) (k : Nat) (v : List Packet) : (s.setArrived k v).pending = s.pending := rfl
@[simp] theorem State.free_setArrived (s : State) (k : Nat) (v : List Packet) : (s.setArrived k v).free = s.free := rfl
@[simp] theorem State.out_setArrived (s : State) (k : Nat) (v : List Packet) : (s.setArrived k v).out = s.out := rfl
@[simp] theorem State.fab_flights_setArrived (s : State) (k : Nat) (v : List Packet) : (s.setArrived k v).fab.flights = s.fab.flights := rfl
@[simp] theorem State.fab_chans_setArrived (s : State) (k : Nat) (v : List Packet) : (s.setArrived k v).fab.chans = s.fab.chans := rfl
@[simp] theorem State.fab_dirs_setArrived (s : State) (k : Nat) (v : List Packet) : (s.setArrived k v).fab.dirs = s.fab.dirs := rfl
@[simp] theorem State.fab_links_setArrived (s : State) (k : Nat) (v : List Packet) : (s.setArrived k v).fab.links = s.fab.links := rfl
@[simp] theorem State.fab_routes_setArrived (s : State) (k : Nat) (v : List Packet) : (s.setArrived k v).fab.routes = s.fab.routes := rfl
@[simp] theorem State.fab_inq_setArrived (s : State) (k : Nat) (v : List Packet) : (s.setArrived k v).fab.inq = s.fab.inq := rfl
@[simp] theorem State.fab_tokens_setArrived (s : State) (k : Nat) (v : List Packet) : (s.setArrived k v).fab.tokens = s.fab.tokens := rfl
@[simp] theorem State.fab_tokenAt_setArrived (s : State) (k : Nat) (v : List Packet) : (s.setArrived k v).fab.tokenAt = s.fab.tokenAt := rfl
@[simp] theorem State.token_setToken (s : State) (k : Nat) (v : Option Int) :
    (s.setToken k v).token k = v := mget_mput_same _ _ k v
theorem State.token_setToken_of_ne (s : State) (k j : Nat) (v : Option Int) (h : j ≠ k) :
    (s.setToken k v).token j = s.token j := mget_mput_ne _ _ k j v h
@[simp] theorem State.por_setToken (s : State) (k : Nat) (v : Option Int) : (s.setToken k v).por = s.por := rfl
@[simp] theorem State.tb_setToken (s : State) (k : Nat) (v : Option Int) : (s.setToken k v).tb = s.tb := rfl
@[simp] theorem State.reg_setToken (s : State) (k : Nat) (v : Option Int) : (s.setToken k v).reg = s.reg := rfl
@[simp] theorem State.mem_setToken (s : State) (k : Nat) (v : Option Int) : (s.setToken k v).mem = s.mem := rfl
@[simp] theorem State.ord_setToken (s : State) (k : Nat) (v : Option Int) : (s.setToken k v).ord = s.ord := rfl
@[simp] theorem State.arb_setToken (s : State) (k : Nat) (v : Option Int) : (s.setToken k v).arb = s.arb := rfl
@[simp] theorem State.pcl_setToken (s : State) (k : Nat) (v : Option Int) : (s.setToken k v).pcl = s.pcl := rfl
@[simp] theorem State.qm_setToken (s : State) (k : Nat) (v : Option Int) : (s.setToken k v).qm = s.qm := rfl
@[simp] theorem State.xlt_setToken (s : State) (k : Nat) (v : Option Int) : (s.setToken k v).xlt = s.xlt := rfl
@[simp] theorem State.port_setToken (s : State) (k : Nat) (v : Option Int) : (s.setToken k v).port = s.port := rfl
@[simp] theorem State.fn_setToken (s : State) (k : Nat) (v : Option Int) : (s.setToken k v).fn = s.fn := rfl
@[simp] theorem State.err_setToken (s : State) (k : Nat) (v : Option Int) : (s.setToken k v).err = s.err := rfl
@[simp] theorem State.pwr_setToken (s : State) (k : Nat) (v : Option Int) : (s.setToken k v).pwr = s.pwr := rfl
@[simp] theorem State.boot_setToken (s : State) (k : Nat) (v : Option Int) : (s.setToken k v).boot = s.boot := rfl
@[simp] theorem State.pending_setToken (s : State) (k : Nat) (v : Option Int) : (s.setToken k v).pending = s.pending := rfl
@[simp] theorem State.free_setToken (s : State) (k : Nat) (v : Option Int) : (s.setToken k v).free = s.free := rfl
@[simp] theorem State.out_setToken (s : State) (k : Nat) (v : Option Int) : (s.setToken k v).out = s.out := rfl
@[simp] theorem State.fab_flights_setToken (s : State) (k : Nat) (v : Option Int) : (s.setToken k v).fab.flights = s.fab.flights := rfl
@[simp] theorem State.fab_chans_setToken (s : State) (k : Nat) (v : Option Int) : (s.setToken k v).fab.chans = s.fab.chans := rfl
@[simp] theorem State.fab_dirs_setToken (s : State) (k : Nat) (v : Option Int) : (s.setToken k v).fab.dirs = s.fab.dirs := rfl
@[simp] theorem State.fab_links_setToken (s : State) (k : Nat) (v : Option Int) : (s.setToken k v).fab.links = s.fab.links := rfl
@[simp] theorem State.fab_routes_setToken (s : State) (k : Nat) (v : Option Int) : (s.setToken k v).fab.routes = s.fab.routes := rfl
@[simp] theorem State.fab_inq_setToken (s : State) (k : Nat) (v : Option Int) : (s.setToken k v).fab.inq = s.fab.inq := rfl
@[simp] theorem State.fab_arrived_setToken (s : State) (k : Nat) (v : Option Int) : (s.setToken k v).fab.arrived = s.fab.arrived := rfl
@[simp] theorem State.fab_tokenAt_setToken (s : State) (k : Nat) (v : Option Int) : (s.setToken k v).fab.tokenAt = s.fab.tokenAt := rfl
@[simp] theorem State.tokenTime_setTokenTime (s : State) (k : Nat) (v : Nat) :
    (s.setTokenTime k v).tokenTime k = v := mget_mput_same _ _ k v
theorem State.tokenTime_setTokenTime_of_ne (s : State) (k j : Nat) (v : Nat) (h : j ≠ k) :
    (s.setTokenTime k v).tokenTime j = s.tokenTime j := mget_mput_ne _ _ k j v h
@[simp] theorem State.por_setTokenTime (s : State) (k : Nat) (v : Nat) : (s.setTokenTime k v).por = s.por := rfl
@[simp] theorem State.tb_setTokenTime (s : State) (k : Nat) (v : Nat) : (s.setTokenTime k v).tb = s.tb := rfl
@[simp] theorem State.reg_setTokenTime (s : State) (k : Nat) (v : Nat) : (s.setTokenTime k v).reg = s.reg := rfl
@[simp] theorem State.mem_setTokenTime (s : State) (k : Nat) (v : Nat) : (s.setTokenTime k v).mem = s.mem := rfl
@[simp] theorem State.ord_setTokenTime (s : State) (k : Nat) (v : Nat) : (s.setTokenTime k v).ord = s.ord := rfl
@[simp] theorem State.arb_setTokenTime (s : State) (k : Nat) (v : Nat) : (s.setTokenTime k v).arb = s.arb := rfl
@[simp] theorem State.pcl_setTokenTime (s : State) (k : Nat) (v : Nat) : (s.setTokenTime k v).pcl = s.pcl := rfl
@[simp] theorem State.qm_setTokenTime (s : State) (k : Nat) (v : Nat) : (s.setTokenTime k v).qm = s.qm := rfl
@[simp] theorem State.xlt_setTokenTime (s : State) (k : Nat) (v : Nat) : (s.setTokenTime k v).xlt = s.xlt := rfl
@[simp] theorem State.port_setTokenTime (s : State) (k : Nat) (v : Nat) : (s.setTokenTime k v).port = s.port := rfl
@[simp] theorem State.fn_setTokenTime (s : State) (k : Nat) (v : Nat) : (s.setTokenTime k v).fn = s.fn := rfl
@[simp] theorem State.err_setTokenTime (s : State) (k : Nat) (v : Nat) : (s.setTokenTime k v).err = s.err := rfl
@[simp] theorem State.pwr_setTokenTime (s : State) (k : Nat) (v : Nat) : (s.setTokenTime k v).pwr = s.pwr := rfl
@[simp] theorem State.boot_setTokenTime (s : State) (k : Nat) (v : Nat) : (s.setTokenTime k v).boot = s.boot := rfl
@[simp] theorem State.pending_setTokenTime (s : State) (k : Nat) (v : Nat) : (s.setTokenTime k v).pending = s.pending := rfl
@[simp] theorem State.free_setTokenTime (s : State) (k : Nat) (v : Nat) : (s.setTokenTime k v).free = s.free := rfl
@[simp] theorem State.out_setTokenTime (s : State) (k : Nat) (v : Nat) : (s.setTokenTime k v).out = s.out := rfl
@[simp] theorem State.fab_flights_setTokenTime (s : State) (k : Nat) (v : Nat) : (s.setTokenTime k v).fab.flights = s.fab.flights := rfl
@[simp] theorem State.fab_chans_setTokenTime (s : State) (k : Nat) (v : Nat) : (s.setTokenTime k v).fab.chans = s.fab.chans := rfl
@[simp] theorem State.fab_dirs_setTokenTime (s : State) (k : Nat) (v : Nat) : (s.setTokenTime k v).fab.dirs = s.fab.dirs := rfl
@[simp] theorem State.fab_links_setTokenTime (s : State) (k : Nat) (v : Nat) : (s.setTokenTime k v).fab.links = s.fab.links := rfl
@[simp] theorem State.fab_routes_setTokenTime (s : State) (k : Nat) (v : Nat) : (s.setTokenTime k v).fab.routes = s.fab.routes := rfl
@[simp] theorem State.fab_inq_setTokenTime (s : State) (k : Nat) (v : Nat) : (s.setTokenTime k v).fab.inq = s.fab.inq := rfl
@[simp] theorem State.fab_arrived_setTokenTime (s : State) (k : Nat) (v : Nat) : (s.setTokenTime k v).fab.arrived = s.fab.arrived := rfl
@[simp] theorem State.fab_tokens_setTokenTime (s : State) (k : Nat) (v : Nat) : (s.setTokenTime k v).fab.tokens = s.fab.tokens := rfl
@[simp] theorem State.untimed_setUntimed (s : State) (k : Nat) (v : Bool) :
    (s.setUntimed k v).untimed k = v := mget_mput_same _ _ k v
theorem State.untimed_setUntimed_of_ne (s : State) (k j : Nat) (v : Bool) (h : j ≠ k) :
    (s.setUntimed k v).untimed j = s.untimed j := mget_mput_ne _ _ k j v h
@[simp] theorem State.por_setUntimed (s : State) (k : Nat) (v : Bool) : (s.setUntimed k v).por = s.por := rfl
@[simp] theorem State.tb_setUntimed (s : State) (k : Nat) (v : Bool) : (s.setUntimed k v).tb = s.tb := rfl
@[simp] theorem State.reg_setUntimed (s : State) (k : Nat) (v : Bool) : (s.setUntimed k v).reg = s.reg := rfl
@[simp] theorem State.mem_setUntimed (s : State) (k : Nat) (v : Bool) : (s.setUntimed k v).mem = s.mem := rfl
@[simp] theorem State.fab_setUntimed (s : State) (k : Nat) (v : Bool) : (s.setUntimed k v).fab = s.fab := rfl
@[simp] theorem State.arb_setUntimed (s : State) (k : Nat) (v : Bool) : (s.setUntimed k v).arb = s.arb := rfl
@[simp] theorem State.pcl_setUntimed (s : State) (k : Nat) (v : Bool) : (s.setUntimed k v).pcl = s.pcl := rfl
@[simp] theorem State.qm_setUntimed (s : State) (k : Nat) (v : Bool) : (s.setUntimed k v).qm = s.qm := rfl
@[simp] theorem State.xlt_setUntimed (s : State) (k : Nat) (v : Bool) : (s.setUntimed k v).xlt = s.xlt := rfl
@[simp] theorem State.port_setUntimed (s : State) (k : Nat) (v : Bool) : (s.setUntimed k v).port = s.port := rfl
@[simp] theorem State.fn_setUntimed (s : State) (k : Nat) (v : Bool) : (s.setUntimed k v).fn = s.fn := rfl
@[simp] theorem State.err_setUntimed (s : State) (k : Nat) (v : Bool) : (s.setUntimed k v).err = s.err := rfl
@[simp] theorem State.pwr_setUntimed (s : State) (k : Nat) (v : Bool) : (s.setUntimed k v).pwr = s.pwr := rfl
@[simp] theorem State.boot_setUntimed (s : State) (k : Nat) (v : Bool) : (s.setUntimed k v).boot = s.boot := rfl
@[simp] theorem State.pending_setUntimed (s : State) (k : Nat) (v : Bool) : (s.setUntimed k v).pending = s.pending := rfl
@[simp] theorem State.free_setUntimed (s : State) (k : Nat) (v : Bool) : (s.setUntimed k v).free = s.free := rfl
@[simp] theorem State.out_setUntimed (s : State) (k : Nat) (v : Bool) : (s.setUntimed k v).out = s.out := rfl
@[simp] theorem State.ord_parked_setUntimed (s : State) (k : Nat) (v : Bool) : (s.setUntimed k v).ord.parked = s.ord.parked := rfl
@[simp] theorem State.ord_holdTill_setUntimed (s : State) (k : Nat) (v : Bool) : (s.setUntimed k v).ord.holdTill = s.ord.holdTill := rfl
@[simp] theorem State.ord_lastTime_setUntimed (s : State) (k : Nat) (v : Bool) : (s.setUntimed k v).ord.lastTime = s.ord.lastTime := rfl
@[simp] theorem State.ord_lastSeq_setUntimed (s : State) (k : Nat) (v : Bool) : (s.setUntimed k v).ord.lastSeq = s.ord.lastSeq := rfl
@[simp] theorem State.ord_lastSent_setUntimed (s : State) (k : Nat) (v : Bool) : (s.setUntimed k v).ord.lastSent = s.ord.lastSent := rfl
@[simp] theorem State.ord_inj_setUntimed (s : State) (k : Nat) (v : Bool) : (s.setUntimed k v).ord.inj = s.ord.inj := rfl
@[simp] theorem State.ord_recv_setUntimed (s : State) (k : Nat) (v : Bool) : (s.setUntimed k v).ord.recv = s.ord.recv := rfl
@[simp] theorem State.ord_usedUnits_setUntimed (s : State) (k : Nat) (v : Bool) : (s.setUntimed k v).ord.usedUnits = s.ord.usedUnits := rfl
@[simp] theorem State.ord_gates_setUntimed (s : State) (k : Nat) (v : Bool) : (s.setUntimed k v).ord.gates = s.ord.gates := rfl
@[simp] theorem State.ord_feeders_setUntimed (s : State) (k : Nat) (v : Bool) : (s.setUntimed k v).ord.feeders = s.ord.feeders := rfl
@[simp] theorem State.ord_damaged_setUntimed (s : State) (k : Nat) (v : Bool) : (s.setUntimed k v).ord.damaged = s.ord.damaged := rfl
@[simp] theorem State.ord_damTime_setUntimed (s : State) (k : Nat) (v : Bool) : (s.setUntimed k v).ord.damTime = s.ord.damTime := rfl
@[simp] theorem State.ord_confirmed_setUntimed (s : State) (k : Nat) (v : Bool) : (s.setUntimed k v).ord.confirmed = s.ord.confirmed := rfl
@[simp] theorem State.ord_seen_setUntimed (s : State) (k : Nat) (v : Bool) : (s.setUntimed k v).ord.seen = s.ord.seen := rfl
@[simp] theorem State.niParked_setNiParked (s : State) (k : Nat) (v : Bool) :
    (s.setNiParked k v).niParked k = v := mget_mput_same _ _ k v
theorem State.niParked_setNiParked_of_ne (s : State) (k j : Nat) (v : Bool) (h : j ≠ k) :
    (s.setNiParked k v).niParked j = s.niParked j := mget_mput_ne _ _ k j v h
@[simp] theorem State.por_setNiParked (s : State) (k : Nat) (v : Bool) : (s.setNiParked k v).por = s.por := rfl
@[simp] theorem State.tb_setNiParked (s : State) (k : Nat) (v : Bool) : (s.setNiParked k v).tb = s.tb := rfl
@[simp] theorem State.reg_setNiParked (s : State) (k : Nat) (v : Bool) : (s.setNiParked k v).reg = s.reg := rfl
@[simp] theorem State.mem_setNiParked (s : State) (k : Nat) (v : Bool) : (s.setNiParked k v).mem = s.mem := rfl
@[simp] theorem State.fab_setNiParked (s : State) (k : Nat) (v : Bool) : (s.setNiParked k v).fab = s.fab := rfl
@[simp] theorem State.arb_setNiParked (s : State) (k : Nat) (v : Bool) : (s.setNiParked k v).arb = s.arb := rfl
@[simp] theorem State.pcl_setNiParked (s : State) (k : Nat) (v : Bool) : (s.setNiParked k v).pcl = s.pcl := rfl
@[simp] theorem State.qm_setNiParked (s : State) (k : Nat) (v : Bool) : (s.setNiParked k v).qm = s.qm := rfl
@[simp] theorem State.xlt_setNiParked (s : State) (k : Nat) (v : Bool) : (s.setNiParked k v).xlt = s.xlt := rfl
@[simp] theorem State.port_setNiParked (s : State) (k : Nat) (v : Bool) : (s.setNiParked k v).port = s.port := rfl
@[simp] theorem State.fn_setNiParked (s : State) (k : Nat) (v : Bool) : (s.setNiParked k v).fn = s.fn := rfl
@[simp] theorem State.err_setNiParked (s : State) (k : Nat) (v : Bool) : (s.setNiParked k v).err = s.err := rfl
@[simp] theorem State.pwr_setNiParked (s : State) (k : Nat) (v : Bool) : (s.setNiParked k v).pwr = s.pwr := rfl
@[simp] theorem State.boot_setNiParked (s : State) (k : Nat) (v : Bool) : (s.setNiParked k v).boot = s.boot := rfl
@[simp] theorem State.pending_setNiParked (s : State) (k : Nat) (v : Bool) : (s.setNiParked k v).pending = s.pending := rfl
@[simp] theorem State.free_setNiParked (s : State) (k : Nat) (v : Bool) : (s.setNiParked k v).free = s.free := rfl
@[simp] theorem State.out_setNiParked (s : State) (k : Nat) (v : Bool) : (s.setNiParked k v).out = s.out := rfl
@[simp] theorem State.ord_untimed_setNiParked (s : State) (k : Nat) (v : Bool) : (s.setNiParked k v).ord.untimed = s.ord.untimed := rfl
@[simp] theorem State.ord_holdTill_setNiParked (s : State) (k : Nat) (v : Bool) : (s.setNiParked k v).ord.holdTill = s.ord.holdTill := rfl
@[simp] theorem State.ord_lastTime_setNiParked (s : State) (k : Nat) (v : Bool) : (s.setNiParked k v).ord.lastTime = s.ord.lastTime := rfl
@[simp] theorem State.ord_lastSeq_setNiParked (s : State) (k : Nat) (v : Bool) : (s.setNiParked k v).ord.lastSeq = s.ord.lastSeq := rfl
@[simp] theorem State.ord_lastSent_setNiParked (s : State) (k : Nat) (v : Bool) : (s.setNiParked k v).ord.lastSent = s.ord.lastSent := rfl
@[simp] theorem State.ord_inj_setNiParked (s : State) (k : Nat) (v : Bool) : (s.setNiParked k v).ord.inj = s.ord.inj := rfl
@[simp] theorem State.ord_recv_setNiParked (s : State) (k : Nat) (v : Bool) : (s.setNiParked k v).ord.recv = s.ord.recv := rfl
@[simp] theorem State.ord_usedUnits_setNiParked (s : State) (k : Nat) (v : Bool) : (s.setNiParked k v).ord.usedUnits = s.ord.usedUnits := rfl
@[simp] theorem State.ord_gates_setNiParked (s : State) (k : Nat) (v : Bool) : (s.setNiParked k v).ord.gates = s.ord.gates := rfl
@[simp] theorem State.ord_feeders_setNiParked (s : State) (k : Nat) (v : Bool) : (s.setNiParked k v).ord.feeders = s.ord.feeders := rfl
@[simp] theorem State.ord_damaged_setNiParked (s : State) (k : Nat) (v : Bool) : (s.setNiParked k v).ord.damaged = s.ord.damaged := rfl
@[simp] theorem State.ord_damTime_setNiParked (s : State) (k : Nat) (v : Bool) : (s.setNiParked k v).ord.damTime = s.ord.damTime := rfl
@[simp] theorem State.ord_confirmed_setNiParked (s : State) (k : Nat) (v : Bool) : (s.setNiParked k v).ord.confirmed = s.ord.confirmed := rfl
@[simp] theorem State.ord_seen_setNiParked (s : State) (k : Nat) (v : Bool) : (s.setNiParked k v).ord.seen = s.ord.seen := rfl
@[simp] theorem State.holdTill_setHoldTill (s : State) (k : Nat) (v : Nat) :
    (s.setHoldTill k v).holdTill k = v := mget_mput_same _ _ k v
theorem State.holdTill_setHoldTill_of_ne (s : State) (k j : Nat) (v : Nat) (h : j ≠ k) :
    (s.setHoldTill k v).holdTill j = s.holdTill j := mget_mput_ne _ _ k j v h
@[simp] theorem State.por_setHoldTill (s : State) (k : Nat) (v : Nat) : (s.setHoldTill k v).por = s.por := rfl
@[simp] theorem State.tb_setHoldTill (s : State) (k : Nat) (v : Nat) : (s.setHoldTill k v).tb = s.tb := rfl
@[simp] theorem State.reg_setHoldTill (s : State) (k : Nat) (v : Nat) : (s.setHoldTill k v).reg = s.reg := rfl
@[simp] theorem State.mem_setHoldTill (s : State) (k : Nat) (v : Nat) : (s.setHoldTill k v).mem = s.mem := rfl
@[simp] theorem State.fab_setHoldTill (s : State) (k : Nat) (v : Nat) : (s.setHoldTill k v).fab = s.fab := rfl
@[simp] theorem State.arb_setHoldTill (s : State) (k : Nat) (v : Nat) : (s.setHoldTill k v).arb = s.arb := rfl
@[simp] theorem State.pcl_setHoldTill (s : State) (k : Nat) (v : Nat) : (s.setHoldTill k v).pcl = s.pcl := rfl
@[simp] theorem State.qm_setHoldTill (s : State) (k : Nat) (v : Nat) : (s.setHoldTill k v).qm = s.qm := rfl
@[simp] theorem State.xlt_setHoldTill (s : State) (k : Nat) (v : Nat) : (s.setHoldTill k v).xlt = s.xlt := rfl
@[simp] theorem State.port_setHoldTill (s : State) (k : Nat) (v : Nat) : (s.setHoldTill k v).port = s.port := rfl
@[simp] theorem State.fn_setHoldTill (s : State) (k : Nat) (v : Nat) : (s.setHoldTill k v).fn = s.fn := rfl
@[simp] theorem State.err_setHoldTill (s : State) (k : Nat) (v : Nat) : (s.setHoldTill k v).err = s.err := rfl
@[simp] theorem State.pwr_setHoldTill (s : State) (k : Nat) (v : Nat) : (s.setHoldTill k v).pwr = s.pwr := rfl
@[simp] theorem State.boot_setHoldTill (s : State) (k : Nat) (v : Nat) : (s.setHoldTill k v).boot = s.boot := rfl
@[simp] theorem State.pending_setHoldTill (s : State) (k : Nat) (v : Nat) : (s.setHoldTill k v).pending = s.pending := rfl
@[simp] theorem State.free_setHoldTill (s : State) (k : Nat) (v : Nat) : (s.setHoldTill k v).free = s.free := rfl
@[simp] theorem State.out_setHoldTill (s : State) (k : Nat) (v : Nat) : (s.setHoldTill k v).out = s.out := rfl
@[simp] theorem State.ord_untimed_setHoldTill (s : State) (k : Nat) (v : Nat) : (s.setHoldTill k v).ord.untimed = s.ord.untimed := rfl
@[simp] theorem State.ord_parked_setHoldTill (s : State) (k : Nat) (v : Nat) : (s.setHoldTill k v).ord.parked = s.ord.parked := rfl
@[simp] theorem State.ord_lastTime_setHoldTill (s : State) (k : Nat) (v : Nat) : (s.setHoldTill k v).ord.lastTime = s.ord.lastTime := rfl
@[simp] theorem State.ord_lastSeq_setHoldTill (s : State) (k : Nat) (v : Nat) : (s.setHoldTill k v).ord.lastSeq = s.ord.lastSeq := rfl
@[simp] theorem State.ord_lastSent_setHoldTill (s : State) (k : Nat) (v : Nat) : (s.setHoldTill k v).ord.lastSent = s.ord.lastSent := rfl
@[simp] theorem State.ord_inj_setHoldTill (s : State) (k : Nat) (v : Nat) : (s.setHoldTill k v).ord.inj = s.ord.inj := rfl
@[simp] theorem State.ord_recv_setHoldTill (s : State) (k : Nat) (v : Nat) : (s.setHoldTill k v).ord.recv = s.ord.recv := rfl
@[simp] theorem State.ord_usedUnits_setHoldTill (s : State) (k : Nat) (v : Nat) : (s.setHoldTill k v).ord.usedUnits = s.ord.usedUnits := rfl
@[simp] theorem State.ord_gates_setHoldTill (s : State) (k : Nat) (v : Nat) : (s.setHoldTill k v).ord.gates = s.ord.gates := rfl
@[simp] theorem State.ord_feeders_setHoldTill (s : State) (k : Nat) (v : Nat) : (s.setHoldTill k v).ord.feeders = s.ord.feeders := rfl
@[simp] theorem State.ord_damaged_setHoldTill (s : State) (k : Nat) (v : Nat) : (s.setHoldTill k v).ord.damaged = s.ord.damaged := rfl
@[simp] theorem State.ord_damTime_setHoldTill (s : State) (k : Nat) (v : Nat) : (s.setHoldTill k v).ord.damTime = s.ord.damTime := rfl
@[simp] theorem State.ord_confirmed_setHoldTill (s : State) (k : Nat) (v : Nat) : (s.setHoldTill k v).ord.confirmed = s.ord.confirmed := rfl
@[simp] theorem State.ord_seen_setHoldTill (s : State) (k : Nat) (v : Nat) : (s.setHoldTill k v).ord.seen = s.ord.seen := rfl
@[simp] theorem State.lastTime_setLastTime (s : State) (k : Nat) (v : Nat) :
    (s.setLastTime k v).lastTime k = v := mget_mput_same _ _ k v
theorem State.lastTime_setLastTime_of_ne (s : State) (k j : Nat) (v : Nat) (h : j ≠ k) :
    (s.setLastTime k v).lastTime j = s.lastTime j := mget_mput_ne _ _ k j v h
@[simp] theorem State.por_setLastTime (s : State) (k : Nat) (v : Nat) : (s.setLastTime k v).por = s.por := rfl
@[simp] theorem State.tb_setLastTime (s : State) (k : Nat) (v : Nat) : (s.setLastTime k v).tb = s.tb := rfl
@[simp] theorem State.reg_setLastTime (s : State) (k : Nat) (v : Nat) : (s.setLastTime k v).reg = s.reg := rfl
@[simp] theorem State.mem_setLastTime (s : State) (k : Nat) (v : Nat) : (s.setLastTime k v).mem = s.mem := rfl
@[simp] theorem State.fab_setLastTime (s : State) (k : Nat) (v : Nat) : (s.setLastTime k v).fab = s.fab := rfl
@[simp] theorem State.arb_setLastTime (s : State) (k : Nat) (v : Nat) : (s.setLastTime k v).arb = s.arb := rfl
@[simp] theorem State.pcl_setLastTime (s : State) (k : Nat) (v : Nat) : (s.setLastTime k v).pcl = s.pcl := rfl
@[simp] theorem State.qm_setLastTime (s : State) (k : Nat) (v : Nat) : (s.setLastTime k v).qm = s.qm := rfl
@[simp] theorem State.xlt_setLastTime (s : State) (k : Nat) (v : Nat) : (s.setLastTime k v).xlt = s.xlt := rfl
@[simp] theorem State.port_setLastTime (s : State) (k : Nat) (v : Nat) : (s.setLastTime k v).port = s.port := rfl
@[simp] theorem State.fn_setLastTime (s : State) (k : Nat) (v : Nat) : (s.setLastTime k v).fn = s.fn := rfl
@[simp] theorem State.err_setLastTime (s : State) (k : Nat) (v : Nat) : (s.setLastTime k v).err = s.err := rfl
@[simp] theorem State.pwr_setLastTime (s : State) (k : Nat) (v : Nat) : (s.setLastTime k v).pwr = s.pwr := rfl
@[simp] theorem State.boot_setLastTime (s : State) (k : Nat) (v : Nat) : (s.setLastTime k v).boot = s.boot := rfl
@[simp] theorem State.pending_setLastTime (s : State) (k : Nat) (v : Nat) : (s.setLastTime k v).pending = s.pending := rfl
@[simp] theorem State.free_setLastTime (s : State) (k : Nat) (v : Nat) : (s.setLastTime k v).free = s.free := rfl
@[simp] theorem State.out_setLastTime (s : State) (k : Nat) (v : Nat) : (s.setLastTime k v).out = s.out := rfl
@[simp] theorem State.ord_untimed_setLastTime (s : State) (k : Nat) (v : Nat) : (s.setLastTime k v).ord.untimed = s.ord.untimed := rfl
@[simp] theorem State.ord_parked_setLastTime (s : State) (k : Nat) (v : Nat) : (s.setLastTime k v).ord.parked = s.ord.parked := rfl
@[simp] theorem State.ord_holdTill_setLastTime (s : State) (k : Nat) (v : Nat) : (s.setLastTime k v).ord.holdTill = s.ord.holdTill := rfl
@[simp] theorem State.ord_lastSeq_setLastTime (s : State) (k : Nat) (v : Nat) : (s.setLastTime k v).ord.lastSeq = s.ord.lastSeq := rfl
@[simp] theorem State.ord_lastSent_setLastTime (s : State) (k : Nat) (v : Nat) : (s.setLastTime k v).ord.lastSent = s.ord.lastSent := rfl
@[simp] theorem State.ord_inj_setLastTime (s : State) (k : Nat) (v : Nat) : (s.setLastTime k v).ord.inj = s.ord.inj := rfl
@[simp] theorem State.ord_recv_setLastTime (s : State) (k : Nat) (v : Nat) : (s.setLastTime k v).ord.recv = s.ord.recv := rfl
@[simp] theorem State.ord_usedUnits_setLastTime (s : State) (k : Nat) (v : Nat) : (s.setLastTime k v).ord.usedUnits = s.ord.usedUnits := rfl
@[simp] theorem State.ord_gates_setLastTime (s : State) (k : Nat) (v : Nat) : (s.setLastTime k v).ord.gates = s.ord.gates := rfl
@[simp] theorem State.ord_feeders_setLastTime (s : State) (k : Nat) (v : Nat) : (s.setLastTime k v).ord.feeders = s.ord.feeders := rfl
@[simp] theorem State.ord_damaged_setLastTime (s : State) (k : Nat) (v : Nat) : (s.setLastTime k v).ord.damaged = s.ord.damaged := rfl
@[simp] theorem State.ord_damTime_setLastTime (s : State) (k : Nat) (v : Nat) : (s.setLastTime k v).ord.damTime = s.ord.damTime := rfl
@[simp] theorem State.ord_confirmed_setLastTime (s : State) (k : Nat) (v : Nat) : (s.setLastTime k v).ord.confirmed = s.ord.confirmed := rfl
@[simp] theorem State.ord_seen_setLastTime (s : State) (k : Nat) (v : Nat) : (s.setLastTime k v).ord.seen = s.ord.seen := rfl
@[simp] theorem State.lastSeq_setLastSeq (s : State) (k : Nat) (v : Nat) :
    (s.setLastSeq k v).lastSeq k = v := mget_mput_same _ _ k v
theorem State.lastSeq_setLastSeq_of_ne (s : State) (k j : Nat) (v : Nat) (h : j ≠ k) :
    (s.setLastSeq k v).lastSeq j = s.lastSeq j := mget_mput_ne _ _ k j v h
@[simp] theorem State.por_setLastSeq (s : State) (k : Nat) (v : Nat) : (s.setLastSeq k v).por = s.por := rfl
@[simp] theorem State.tb_setLastSeq (s : State) (k : Nat) (v : Nat) : (s.setLastSeq k v).tb = s.tb := rfl
@[simp] theorem State.reg_setLastSeq (s : State) (k : Nat) (v : Nat) : (s.setLastSeq k v).reg = s.reg := rfl
@[simp] theorem State.mem_setLastSeq (s : State) (k : Nat) (v : Nat) : (s.setLastSeq k v).mem = s.mem := rfl
@[simp] theorem State.fab_setLastSeq (s : State) (k : Nat) (v : Nat) : (s.setLastSeq k v).fab = s.fab := rfl
@[simp] theorem State.arb_setLastSeq (s : State) (k : Nat) (v : Nat) : (s.setLastSeq k v).arb = s.arb := rfl
@[simp] theorem State.pcl_setLastSeq (s : State) (k : Nat) (v : Nat) : (s.setLastSeq k v).pcl = s.pcl := rfl
@[simp] theorem State.qm_setLastSeq (s : State) (k : Nat) (v : Nat) : (s.setLastSeq k v).qm = s.qm := rfl
@[simp] theorem State.xlt_setLastSeq (s : State) (k : Nat) (v : Nat) : (s.setLastSeq k v).xlt = s.xlt := rfl
@[simp] theorem State.port_setLastSeq (s : State) (k : Nat) (v : Nat) : (s.setLastSeq k v).port = s.port := rfl
@[simp] theorem State.fn_setLastSeq (s : State) (k : Nat) (v : Nat) : (s.setLastSeq k v).fn = s.fn := rfl
@[simp] theorem State.err_setLastSeq (s : State) (k : Nat) (v : Nat) : (s.setLastSeq k v).err = s.err := rfl
@[simp] theorem State.pwr_setLastSeq (s : State) (k : Nat) (v : Nat) : (s.setLastSeq k v).pwr = s.pwr := rfl
@[simp] theorem State.boot_setLastSeq (s : State) (k : Nat) (v : Nat) : (s.setLastSeq k v).boot = s.boot := rfl
@[simp] theorem State.pending_setLastSeq (s : State) (k : Nat) (v : Nat) : (s.setLastSeq k v).pending = s.pending := rfl
@[simp] theorem State.free_setLastSeq (s : State) (k : Nat) (v : Nat) : (s.setLastSeq k v).free = s.free := rfl
@[simp] theorem State.out_setLastSeq (s : State) (k : Nat) (v : Nat) : (s.setLastSeq k v).out = s.out := rfl
@[simp] theorem State.ord_untimed_setLastSeq (s : State) (k : Nat) (v : Nat) : (s.setLastSeq k v).ord.untimed = s.ord.untimed := rfl
@[simp] theorem State.ord_parked_setLastSeq (s : State) (k : Nat) (v : Nat) : (s.setLastSeq k v).ord.parked = s.ord.parked := rfl
@[simp] theorem State.ord_holdTill_setLastSeq (s : State) (k : Nat) (v : Nat) : (s.setLastSeq k v).ord.holdTill = s.ord.holdTill := rfl
@[simp] theorem State.ord_lastTime_setLastSeq (s : State) (k : Nat) (v : Nat) : (s.setLastSeq k v).ord.lastTime = s.ord.lastTime := rfl
@[simp] theorem State.ord_lastSent_setLastSeq (s : State) (k : Nat) (v : Nat) : (s.setLastSeq k v).ord.lastSent = s.ord.lastSent := rfl
@[simp] theorem State.ord_inj_setLastSeq (s : State) (k : Nat) (v : Nat) : (s.setLastSeq k v).ord.inj = s.ord.inj := rfl
@[simp] theorem State.ord_recv_setLastSeq (s : State) (k : Nat) (v : Nat) : (s.setLastSeq k v).ord.recv = s.ord.recv := rfl
@[simp] theorem State.ord_usedUnits_setLastSeq (s : State) (k : Nat) (v : Nat) : (s.setLastSeq k v).ord.usedUnits = s.ord.usedUnits := rfl
@[simp] theorem State.ord_gates_setLastSeq (s : State) (k : Nat) (v : Nat) : (s.setLastSeq k v).ord.gates = s.ord.gates := rfl
@[simp] theorem State.ord_feeders_setLastSeq (s : State) (k : Nat) (v : Nat) : (s.setLastSeq k v).ord.feeders = s.ord.feeders := rfl
@[simp] theorem State.ord_damaged_setLastSeq (s : State) (k : Nat) (v : Nat) : (s.setLastSeq k v).ord.damaged = s.ord.damaged := rfl
@[simp] theorem State.ord_damTime_setLastSeq (s : State) (k : Nat) (v : Nat) : (s.setLastSeq k v).ord.damTime = s.ord.damTime := rfl
@[simp] theorem State.ord_confirmed_setLastSeq (s : State) (k : Nat) (v : Nat) : (s.setLastSeq k v).ord.confirmed = s.ord.confirmed := rfl
@[simp] theorem State.ord_seen_setLastSeq (s : State) (k : Nat) (v : Nat) : (s.setLastSeq k v).ord.seen = s.ord.seen := rfl
@[simp] theorem State.lastSent_setLastSent (s : State) (k : Nat) (v : Nat) :
    (s.setLastSent k v).lastSent k = v := mget_mput_same _ _ k v
theorem State.lastSent_setLastSent_of_ne (s : State) (k j : Nat) (v : Nat) (h : j ≠ k) :
    (s.setLastSent k v).lastSent j = s.lastSent j := mget_mput_ne _ _ k j v h
@[simp] theorem State.por_setLastSent (s : State) (k : Nat) (v : Nat) : (s.setLastSent k v).por = s.por := rfl
@[simp] theorem State.tb_setLastSent (s : State) (k : Nat) (v : Nat) : (s.setLastSent k v).tb = s.tb := rfl
@[simp] theorem State.reg_setLastSent (s : State) (k : Nat) (v : Nat) : (s.setLastSent k v).reg = s.reg := rfl
@[simp] theorem State.mem_setLastSent (s : State) (k : Nat) (v : Nat) : (s.setLastSent k v).mem = s.mem := rfl
@[simp] theorem State.fab_setLastSent (s : State) (k : Nat) (v : Nat) : (s.setLastSent k v).fab = s.fab := rfl
@[simp] theorem State.arb_setLastSent (s : State) (k : Nat) (v : Nat) : (s.setLastSent k v).arb = s.arb := rfl
@[simp] theorem State.pcl_setLastSent (s : State) (k : Nat) (v : Nat) : (s.setLastSent k v).pcl = s.pcl := rfl
@[simp] theorem State.qm_setLastSent (s : State) (k : Nat) (v : Nat) : (s.setLastSent k v).qm = s.qm := rfl
@[simp] theorem State.xlt_setLastSent (s : State) (k : Nat) (v : Nat) : (s.setLastSent k v).xlt = s.xlt := rfl
@[simp] theorem State.port_setLastSent (s : State) (k : Nat) (v : Nat) : (s.setLastSent k v).port = s.port := rfl
@[simp] theorem State.fn_setLastSent (s : State) (k : Nat) (v : Nat) : (s.setLastSent k v).fn = s.fn := rfl
@[simp] theorem State.err_setLastSent (s : State) (k : Nat) (v : Nat) : (s.setLastSent k v).err = s.err := rfl
@[simp] theorem State.pwr_setLastSent (s : State) (k : Nat) (v : Nat) : (s.setLastSent k v).pwr = s.pwr := rfl
@[simp] theorem State.boot_setLastSent (s : State) (k : Nat) (v : Nat) : (s.setLastSent k v).boot = s.boot := rfl
@[simp] theorem State.pending_setLastSent (s : State) (k : Nat) (v : Nat) : (s.setLastSent k v).pending = s.pending := rfl
@[simp] theorem State.free_setLastSent (s : State) (k : Nat) (v : Nat) : (s.setLastSent k v).free = s.free := rfl
@[simp] theorem State.out_setLastSent (s : State) (k : Nat) (v : Nat) : (s.setLastSent k v).out = s.out := rfl
@[simp] theorem State.ord_untimed_setLastSent (s : State) (k : Nat) (v : Nat) : (s.setLastSent k v).ord.untimed = s.ord.untimed := rfl
@[simp] theorem State.ord_parked_setLastSent (s : State) (k : Nat) (v : Nat) : (s.setLastSent k v).ord.parked = s.ord.parked := rfl
@[simp] theorem State.ord_holdTill_setLastSent (s : State) (k : Nat) (v : Nat) : (s.setLastSent k v).ord.holdTill = s.ord.holdTill := rfl
@[simp] theorem State.ord_lastTime_setLastSent (s : State) (k : Nat) (v : Nat) : (s.setLastSent k v).ord.lastTime = s.ord.lastTime := rfl
@[simp] theorem State.ord_lastSeq_setLastSent (s : State) (k : Nat) (v : Nat) : (s.setLastSent k v).ord.lastSeq = s.ord.lastSeq := rfl
@[simp] theorem State.ord_inj_setLastSent (s : State) (k : Nat) (v : Nat) : (s.setLastSent k v).ord.inj = s.ord.inj := rfl
@[simp] theorem State.ord_recv_setLastSent (s : State) (k : Nat) (v : Nat) : (s.setLastSent k v).ord.recv = s.ord.recv := rfl
@[simp] theorem State.ord_usedUnits_setLastSent (s : State) (k : Nat) (v : Nat) : (s.setLastSent k v).ord.usedUnits = s.ord.usedUnits := rfl
@[simp] theorem State.ord_gates_setLastSent (s : State) (k : Nat) (v : Nat) : (s.setLastSent k v).ord.gates = s.ord.gates := rfl
@[simp] theorem State.ord_feeders_setLastSent (s : State) (k : Nat) (v : Nat) : (s.setLastSent k v).ord.feeders = s.ord.feeders := rfl
@[simp] theorem State.ord_damaged_setLastSent (s : State) (k : Nat) (v : Nat) : (s.setLastSent k v).ord.damaged = s.ord.damaged := rfl
@[simp] theorem State.ord_damTime_setLastSent (s : State) (k : Nat) (v : Nat) : (s.setLastSent k v).ord.damTime = s.ord.damTime := rfl
@[simp] theorem State.ord_confirmed_setLastSent (s : State) (k : Nat) (v : Nat) : (s.setLastSent k v).ord.confirmed = s.ord.confirmed := rfl
@[simp] theorem State.ord_seen_setLastSent (s : State) (k : Nat) (v : Nat) : (s.setLastSent k v).ord.seen = s.ord.seen := rfl
@[simp] theorem State.injCnt_setInjCnt (s : State) (k : Nat) (v : Nat) :
    (s.setInjCnt k v).injCnt k = v := mget_mput_same _ _ k v
theorem State.injCnt_setInjCnt_of_ne (s : State) (k j : Nat) (v : Nat) (h : j ≠ k) :
    (s.setInjCnt k v).injCnt j = s.injCnt j := mget_mput_ne _ _ k j v h
@[simp] theorem State.por_setInjCnt (s : State) (k : Nat) (v : Nat) : (s.setInjCnt k v).por = s.por := rfl
@[simp] theorem State.tb_setInjCnt (s : State) (k : Nat) (v : Nat) : (s.setInjCnt k v).tb = s.tb := rfl
@[simp] theorem State.reg_setInjCnt (s : State) (k : Nat) (v : Nat) : (s.setInjCnt k v).reg = s.reg := rfl
@[simp] theorem State.mem_setInjCnt (s : State) (k : Nat) (v : Nat) : (s.setInjCnt k v).mem = s.mem := rfl
@[simp] theorem State.fab_setInjCnt (s : State) (k : Nat) (v : Nat) : (s.setInjCnt k v).fab = s.fab := rfl
@[simp] theorem State.arb_setInjCnt (s : State) (k : Nat) (v : Nat) : (s.setInjCnt k v).arb = s.arb := rfl
@[simp] theorem State.pcl_setInjCnt (s : State) (k : Nat) (v : Nat) : (s.setInjCnt k v).pcl = s.pcl := rfl
@[simp] theorem State.qm_setInjCnt (s : State) (k : Nat) (v : Nat) : (s.setInjCnt k v).qm = s.qm := rfl
@[simp] theorem State.xlt_setInjCnt (s : State) (k : Nat) (v : Nat) : (s.setInjCnt k v).xlt = s.xlt := rfl
@[simp] theorem State.port_setInjCnt (s : State) (k : Nat) (v : Nat) : (s.setInjCnt k v).port = s.port := rfl
@[simp] theorem State.fn_setInjCnt (s : State) (k : Nat) (v : Nat) : (s.setInjCnt k v).fn = s.fn := rfl
@[simp] theorem State.err_setInjCnt (s : State) (k : Nat) (v : Nat) : (s.setInjCnt k v).err = s.err := rfl
@[simp] theorem State.pwr_setInjCnt (s : State) (k : Nat) (v : Nat) : (s.setInjCnt k v).pwr = s.pwr := rfl
@[simp] theorem State.boot_setInjCnt (s : State) (k : Nat) (v : Nat) : (s.setInjCnt k v).boot = s.boot := rfl
@[simp] theorem State.pending_setInjCnt (s : State) (k : Nat) (v : Nat) : (s.setInjCnt k v).pending = s.pending := rfl
@[simp] theorem State.free_setInjCnt (s : State) (k : Nat) (v : Nat) : (s.setInjCnt k v).free = s.free := rfl
@[simp] theorem State.out_setInjCnt (s : State) (k : Nat) (v : Nat) : (s.setInjCnt k v).out = s.out := rfl
@[simp] theorem State.ord_untimed_setInjCnt (s : State) (k : Nat) (v : Nat) : (s.setInjCnt k v).ord.untimed = s.ord.untimed := rfl
@[simp] theorem State.ord_parked_setInjCnt (s : State) (k : Nat) (v : Nat) : (s.setInjCnt k v).ord.parked = s.ord.parked := rfl
@[simp] theorem State.ord_holdTill_setInjCnt (s : State) (k : Nat) (v : Nat) : (s.setInjCnt k v).ord.holdTill = s.ord.holdTill := rfl
@[simp] theorem State.ord_lastTime_setInjCnt (s : State) (k : Nat) (v : Nat) : (s.setInjCnt k v).ord.lastTime = s.ord.lastTime := rfl
@[simp] theorem State.ord_lastSeq_setInjCnt (s : State) (k : Nat) (v : Nat) : (s.setInjCnt k v).ord.lastSeq = s.ord.lastSeq := rfl
@[simp] theorem State.ord_lastSent_setInjCnt (s : State) (k : Nat) (v : Nat) : (s.setInjCnt k v).ord.lastSent = s.ord.lastSent := rfl
@[simp] theorem State.ord_recv_setInjCnt (s : State) (k : Nat) (v : Nat) : (s.setInjCnt k v).ord.recv = s.ord.recv := rfl
@[simp] theorem State.ord_usedUnits_setInjCnt (s : State) (k : Nat) (v : Nat) : (s.setInjCnt k v).ord.usedUnits = s.ord.usedUnits := rfl
@[simp] theorem State.ord_gates_setInjCnt (s : State) (k : Nat) (v : Nat) : (s.setInjCnt k v).ord.gates = s.ord.gates := rfl
@[simp] theorem State.ord_feeders_setInjCnt (s : State) (k : Nat) (v : Nat) : (s.setInjCnt k v).ord.feeders = s.ord.feeders := rfl
@[simp] theorem State.ord_damaged_setInjCnt (s : State) (k : Nat) (v : Nat) : (s.setInjCnt k v).ord.damaged = s.ord.damaged := rfl
@[simp] theorem State.ord_damTime_setInjCnt (s : State) (k : Nat) (v : Nat) : (s.setInjCnt k v).ord.damTime = s.ord.damTime := rfl
@[simp] theorem State.ord_confirmed_setInjCnt (s : State) (k : Nat) (v : Nat) : (s.setInjCnt k v).ord.confirmed = s.ord.confirmed := rfl
@[simp] theorem State.ord_seen_setInjCnt (s : State) (k : Nat) (v : Nat) : (s.setInjCnt k v).ord.seen = s.ord.seen := rfl
@[simp] theorem State.recvCnt_setRecvCnt (s : State) (k : Nat) (v : Nat) :
    (s.setRecvCnt k v).recvCnt k = v := mget_mput_same _ _ k v
theorem State.recvCnt_setRecvCnt_of_ne (s : State) (k j : Nat) (v : Nat) (h : j ≠ k) :
    (s.setRecvCnt k v).recvCnt j = s.recvCnt j := mget_mput_ne _ _ k j v h
@[simp] theorem State.por_setRecvCnt (s : State) (k : Nat) (v : Nat) : (s.setRecvCnt k v).por = s.por := rfl
@[simp] theorem State.tb_setRecvCnt (s : State) (k : Nat) (v : Nat) : (s.setRecvCnt k v).tb = s.tb := rfl
@[simp] theorem State.reg_setRecvCnt (s : State) (k : Nat) (v : Nat) : (s.setRecvCnt k v).reg = s.reg := rfl
@[simp] theorem State.mem_setRecvCnt (s : State) (k : Nat) (v : Nat) : (s.setRecvCnt k v).mem = s.mem := rfl
@[simp] theorem State.fab_setRecvCnt (s : State) (k : Nat) (v : Nat) : (s.setRecvCnt k v).fab = s.fab := rfl
@[simp] theorem State.arb_setRecvCnt (s : State) (k : Nat) (v : Nat) : (s.setRecvCnt k v).arb = s.arb := rfl
@[simp] theorem State.pcl_setRecvCnt (s : State) (k : Nat) (v : Nat) : (s.setRecvCnt k v).pcl = s.pcl := rfl
@[simp] theorem State.qm_setRecvCnt (s : State) (k : Nat) (v : Nat) : (s.setRecvCnt k v).qm = s.qm := rfl
@[simp] theorem State.xlt_setRecvCnt (s : State) (k : Nat) (v : Nat) : (s.setRecvCnt k v).xlt = s.xlt := rfl
@[simp] theorem State.port_setRecvCnt (s : State) (k : Nat) (v : Nat) : (s.setRecvCnt k v).port = s.port := rfl
@[simp] theorem State.fn_setRecvCnt (s : State) (k : Nat) (v : Nat) : (s.setRecvCnt k v).fn = s.fn := rfl
@[simp] theorem State.err_setRecvCnt (s : State) (k : Nat) (v : Nat) : (s.setRecvCnt k v).err = s.err := rfl
@[simp] theorem State.pwr_setRecvCnt (s : State) (k : Nat) (v : Nat) : (s.setRecvCnt k v).pwr = s.pwr := rfl
@[simp] theorem State.boot_setRecvCnt (s : State) (k : Nat) (v : Nat) : (s.setRecvCnt k v).boot = s.boot := rfl
@[simp] theorem State.pending_setRecvCnt (s : State) (k : Nat) (v : Nat) : (s.setRecvCnt k v).pending = s.pending := rfl
@[simp] theorem State.free_setRecvCnt (s : State) (k : Nat) (v : Nat) : (s.setRecvCnt k v).free = s.free := rfl
@[simp] theorem State.out_setRecvCnt (s : State) (k : Nat) (v : Nat) : (s.setRecvCnt k v).out = s.out := rfl
@[simp] theorem State.ord_untimed_setRecvCnt (s : State) (k : Nat) (v : Nat) : (s.setRecvCnt k v).ord.untimed = s.ord.untimed := rfl
@[simp] theorem State.ord_parked_setRecvCnt (s : State) (k : Nat) (v : Nat) : (s.setRecvCnt k v).ord.parked = s.ord.parked := rfl
@[simp] theorem State.ord_holdTill_setRecvCnt (s : State) (k : Nat) (v : Nat) : (s.setRecvCnt k v).ord.holdTill = s.ord.holdTill := rfl
@[simp] theorem State.ord_lastTime_setRecvCnt (s : State) (k : Nat) (v : Nat) : (s.setRecvCnt k v).ord.lastTime = s.ord.lastTime := rfl
@[simp] theorem State.ord_lastSeq_setRecvCnt (s : State) (k : Nat) (v : Nat) : (s.setRecvCnt k v).ord.lastSeq = s.ord.lastSeq := rfl
@[simp] theorem State.ord_lastSent_setRecvCnt (s : State) (k : Nat) (v : Nat) : (s.setRecvCnt k v).ord.lastSent = s.ord.lastSent := rfl
@[simp] theorem State.ord_inj_setRecvCnt (s : State) (k : Nat) (v : Nat) : (s.setRecvCnt k v).ord.inj = s.ord.inj := rfl
@[simp] theorem State.ord_usedUnits_setRecvCnt (s : State) (k : Nat) (v : Nat) : (s.setRecvCnt k v).ord.usedUnits = s.ord.usedUnits := rfl
@[simp] theorem State.ord_gates_setRecvCnt (s : State) (k : Nat) (v : Nat) : (s.setRecvCnt k v).ord.gates = s.ord.gates := rfl
@[simp] theorem State.ord_feeders_setRecvCnt (s : State) (k : Nat) (v : Nat) : (s.setRecvCnt k v).ord.feeders = s.ord.feeders := rfl
@[simp] theorem State.ord_damaged_setRecvCnt (s : State) (k : Nat) (v : Nat) : (s.setRecvCnt k v).ord.damaged = s.ord.damaged := rfl
@[simp] theorem State.ord_damTime_setRecvCnt (s : State) (k : Nat) (v : Nat) : (s.setRecvCnt k v).ord.damTime = s.ord.damTime := rfl
@[simp] theorem State.ord_confirmed_setRecvCnt (s : State) (k : Nat) (v : Nat) : (s.setRecvCnt k v).ord.confirmed = s.ord.confirmed := rfl
@[simp] theorem State.ord_seen_setRecvCnt (s : State) (k : Nat) (v : Nat) : (s.setRecvCnt k v).ord.seen = s.ord.seen := rfl
@[simp] theorem State.usedUnits_setUsedUnits (s : State) (k : Nat) (v : Nat) :
    (s.setUsedUnits k v).usedUnits k = v := mget_mput_same _ _ k v
theorem State.usedUnits_setUsedUnits_of_ne (s : State) (k j : Nat) (v : Nat) (h : j ≠ k) :
    (s.setUsedUnits k v).usedUnits j = s.usedUnits j := mget_mput_ne _ _ k j v h
@[simp] theorem State.por_setUsedUnits (s : State) (k : Nat) (v : Nat) : (s.setUsedUnits k v).por = s.por := rfl
@[simp] theorem State.tb_setUsedUnits (s : State) (k : Nat) (v : Nat) : (s.setUsedUnits k v).tb = s.tb := rfl
@[simp] theorem State.reg_setUsedUnits (s : State) (k : Nat) (v : Nat) : (s.setUsedUnits k v).reg = s.reg := rfl
@[simp] theorem State.mem_setUsedUnits (s : State) (k : Nat) (v : Nat) : (s.setUsedUnits k v).mem = s.mem := rfl
@[simp] theorem State.fab_setUsedUnits (s : State) (k : Nat) (v : Nat) : (s.setUsedUnits k v).fab = s.fab := rfl
@[simp] theorem State.arb_setUsedUnits (s : State) (k : Nat) (v : Nat) : (s.setUsedUnits k v).arb = s.arb := rfl
@[simp] theorem State.pcl_setUsedUnits (s : State) (k : Nat) (v : Nat) : (s.setUsedUnits k v).pcl = s.pcl := rfl
@[simp] theorem State.qm_setUsedUnits (s : State) (k : Nat) (v : Nat) : (s.setUsedUnits k v).qm = s.qm := rfl
@[simp] theorem State.xlt_setUsedUnits (s : State) (k : Nat) (v : Nat) : (s.setUsedUnits k v).xlt = s.xlt := rfl
@[simp] theorem State.port_setUsedUnits (s : State) (k : Nat) (v : Nat) : (s.setUsedUnits k v).port = s.port := rfl
@[simp] theorem State.fn_setUsedUnits (s : State) (k : Nat) (v : Nat) : (s.setUsedUnits k v).fn = s.fn := rfl
@[simp] theorem State.err_setUsedUnits (s : State) (k : Nat) (v : Nat) : (s.setUsedUnits k v).err = s.err := rfl
@[simp] theorem State.pwr_setUsedUnits (s : State) (k : Nat) (v : Nat) : (s.setUsedUnits k v).pwr = s.pwr := rfl
@[simp] theorem State.boot_setUsedUnits (s : State) (k : Nat) (v : Nat) : (s.setUsedUnits k v).boot = s.boot := rfl
@[simp] theorem State.pending_setUsedUnits (s : State) (k : Nat) (v : Nat) : (s.setUsedUnits k v).pending = s.pending := rfl
@[simp] theorem State.free_setUsedUnits (s : State) (k : Nat) (v : Nat) : (s.setUsedUnits k v).free = s.free := rfl
@[simp] theorem State.out_setUsedUnits (s : State) (k : Nat) (v : Nat) : (s.setUsedUnits k v).out = s.out := rfl
@[simp] theorem State.ord_untimed_setUsedUnits (s : State) (k : Nat) (v : Nat) : (s.setUsedUnits k v).ord.untimed = s.ord.untimed := rfl
@[simp] theorem State.ord_parked_setUsedUnits (s : State) (k : Nat) (v : Nat) : (s.setUsedUnits k v).ord.parked = s.ord.parked := rfl
@[simp] theorem State.ord_holdTill_setUsedUnits (s : State) (k : Nat) (v : Nat) : (s.setUsedUnits k v).ord.holdTill = s.ord.holdTill := rfl
@[simp] theorem State.ord_lastTime_setUsedUnits (s : State) (k : Nat) (v : Nat) : (s.setUsedUnits k v).ord.lastTime = s.ord.lastTime := rfl
@[simp] theorem State.ord_lastSeq_setUsedUnits (s : State) (k : Nat) (v : Nat) : (s.setUsedUnits k v).ord.lastSeq = s.ord.lastSeq := rfl
@[simp] theorem State.ord_lastSent_setUsedUnits (s : State) (k : Nat) (v : Nat) : (s.setUsedUnits k v).ord.lastSent = s.ord.lastSent := rfl
@[simp] theorem State.ord_inj_setUsedUnits (s : State) (k : Nat) (v : Nat) : (s.setUsedUnits k v).ord.inj = s.ord.inj := rfl
@[simp] theorem State.ord_recv_setUsedUnits (s : State) (k : Nat) (v : Nat) : (s.setUsedUnits k v).ord.recv = s.ord.recv := rfl
@[simp] theorem State.ord_gates_setUsedUnits (s : State) (k : Nat) (v : Nat) : (s.setUsedUnits k v).ord.gates = s.ord.gates := rfl
@[simp] theorem State.ord_feeders_setUsedUnits (s : State) (k : Nat) (v : Nat) : (s.setUsedUnits k v).ord.feeders = s.ord.feeders := rfl
@[simp] theorem State.ord_damaged_setUsedUnits (s : State) (k : Nat) (v : Nat) : (s.setUsedUnits k v).ord.damaged = s.ord.damaged := rfl
@[simp] theorem State.ord_damTime_setUsedUnits (s : State) (k : Nat) (v : Nat) : (s.setUsedUnits k v).ord.damTime = s.ord.damTime := rfl
@[simp] theorem State.ord_confirmed_setUsedUnits (s : State) (k : Nat) (v : Nat) : (s.setUsedUnits k v).ord.confirmed = s.ord.confirmed := rfl
@[simp] theorem State.ord_seen_setUsedUnits (s : State) (k : Nat) (v : Nat) : (s.setUsedUnits k v).ord.seen = s.ord.seen := rfl
@[simp] theorem State.gate_setGate (s : State) (k : Nat) (v : Gate) :
    (s.setGate k v).gate k = v := mget_mput_same _ _ k v
theorem State.gate_setGate_of_ne (s : State) (k j : Nat) (v : Gate) (h : j ≠ k) :
    (s.setGate k v).gate j = s.gate j := mget_mput_ne _ _ k j v h
@[simp] theorem State.por_setGate (s : State) (k : Nat) (v : Gate) : (s.setGate k v).por = s.por := rfl
@[simp] theorem State.tb_setGate (s : State) (k : Nat) (v : Gate) : (s.setGate k v).tb = s.tb := rfl
@[simp] theorem State.reg_setGate (s : State) (k : Nat) (v : Gate) : (s.setGate k v).reg = s.reg := rfl
@[simp] theorem State.mem_setGate (s : State) (k : Nat) (v : Gate) : (s.setGate k v).mem = s.mem := rfl
@[simp] theorem State.fab_setGate (s : State) (k : Nat) (v : Gate) : (s.setGate k v).fab = s.fab := rfl
@[simp] theorem State.arb_setGate (s : State) (k : Nat) (v : Gate) : (s.setGate k v).arb = s.arb := rfl
@[simp] theorem State.pcl_setGate (s : State) (k : Nat) (v : Gate) : (s.setGate k v).pcl = s.pcl := rfl
@[simp] theorem State.qm_setGate (s : State) (k : Nat) (v : Gate) : (s.setGate k v).qm = s.qm := rfl
@[simp] theorem State.xlt_setGate (s : State) (k : Nat) (v : Gate) : (s.setGate k v).xlt = s.xlt := rfl
@[simp] theorem State.port_setGate (s : State) (k : Nat) (v : Gate) : (s.setGate k v).port = s.port := rfl
@[simp] theorem State.fn_setGate (s : State) (k : Nat) (v : Gate) : (s.setGate k v).fn = s.fn := rfl
@[simp] theorem State.err_setGate (s : State) (k : Nat) (v : Gate) : (s.setGate k v).err = s.err := rfl
@[simp] theorem State.pwr_setGate (s : State) (k : Nat) (v : Gate) : (s.setGate k v).pwr = s.pwr := rfl
@[simp] theorem State.boot_setGate (s : State) (k : Nat) (v : Gate) : (s.setGate k v).boot = s.boot := rfl
@[simp] theorem State.pending_setGate (s : State) (k : Nat) (v : Gate) : (s.setGate k v).pending = s.pending := rfl
@[simp] theorem State.free_setGate (s : State) (k : Nat) (v : Gate) : (s.setGate k v).free = s.free := rfl
@[simp] theorem State.out_setGate (s : State) (k : Nat) (v : Gate) : (s.setGate k v).out = s.out := rfl
@[simp] theorem State.ord_untimed_setGate (s : State) (k : Nat) (v : Gate) : (s.setGate k v).ord.untimed = s.ord.untimed := rfl
@[simp] theorem State.ord_parked_setGate (s : State) (k : Nat) (v : Gate) : (s.setGate k v).ord.parked = s.ord.parked := rfl
@[simp] theorem State.ord_holdTill_setGate (s : State) (k : Nat) (v : Gate) : (s.setGate k v).ord.holdTill = s.ord.holdTill := rfl
@[simp] theorem State.ord_lastTime_setGate (s : State) (k : Nat) (v : Gate) : (s.setGate k v).ord.lastTime = s.ord.lastTime := rfl
@[simp] theorem State.ord_lastSeq_setGate (s : State) (k : Nat) (v : Gate) : (s.setGate k v).ord.lastSeq = s.ord.lastSeq := rfl
@[simp] theorem State.ord_lastSent_setGate (s : State) (k : Nat) (v : Gate) : (s.setGate k v).ord.lastSent = s.ord.lastSent := rfl
@[simp] theorem State.ord_inj_setGate (s : State) (k : Nat) (v : Gate) : (s.setGate k v).ord.inj = s.ord.inj := rfl
@[simp] theorem State.ord_recv_setGate (s : State) (k : Nat) (v : Gate) : (s.setGate k v).ord.recv = s.ord.recv := rfl
@[simp] theorem State.ord_usedUnits_setGate (s : State) (k : Nat) (v : Gate) : (s.setGate k v).ord.usedUnits = s.ord.usedUnits := rfl
@[simp] theorem State.ord_feeders_setGate (s : State) (k : Nat) (v : Gate) : (s.setGate k v).ord.feeders = s.ord.feeders := rfl
@[simp] theorem State.ord_damaged_setGate (s : State) (k : Nat) (v : Gate) : (s.setGate k v).ord.damaged = s.ord.damaged := rfl
@[simp] theorem State.ord_damTime_setGate (s : State) (k : Nat) (v : Gate) : (s.setGate k v).ord.damTime = s.ord.damTime := rfl
@[simp] theorem State.ord_confirmed_setGate (s : State) (k : Nat) (v : Gate) : (s.setGate k v).ord.confirmed = s.ord.confirmed := rfl
@[simp] theorem State.ord_seen_setGate (s : State) (k : Nat) (v : Gate) : (s.setGate k v).ord.seen = s.ord.seen := rfl
@[simp] theorem State.feeder_setFeeder (s : State) (k : Nat) (v : Feeder) :
    (s.setFeeder k v).feeder k = v := mget_mput_same _ _ k v
theorem State.feeder_setFeeder_of_ne (s : State) (k j : Nat) (v : Feeder) (h : j ≠ k) :
    (s.setFeeder k v).feeder j = s.feeder j := mget_mput_ne _ _ k j v h
@[simp] theorem State.por_setFeeder (s : State) (k : Nat) (v : Feeder) : (s.setFeeder k v).por = s.por := rfl
@[simp] theorem State.tb_setFeeder (s : State) (k : Nat) (v : Feeder) : (s.setFeeder k v).tb = s.tb := rfl
@[simp] theorem State.reg_setFeeder (s : State) (k : Nat) (v : Feeder) : (s.setFeeder k v).reg = s.reg := rfl
@[simp] theorem State.mem_setFeeder (s : State) (k : Nat) (v : Feeder) : (s.setFeeder k v).mem = s.mem := rfl
@[simp] theorem State.fab_setFeeder (s : State) (k : Nat) (v : Feeder) : (s.setFeeder k v).fab = s.fab := rfl
@[simp] theorem State.arb_setFeeder (s : State) (k : Nat) (v : Feeder) : (s.setFeeder k v).arb = s.arb := rfl
@[simp] theorem State.pcl_setFeeder (s : State) (k : Nat) (v : Feeder) : (s.setFeeder k v).pcl = s.pcl := rfl
@[simp] theorem State.qm_setFeeder (s : State) (k : Nat) (v : Feeder) : (s.setFeeder k v).qm = s.qm := rfl
@[simp] theorem State.xlt_setFeeder (s : State) (k : Nat) (v : Feeder) : (s.setFeeder k v).xlt = s.xlt := rfl
@[simp] theorem State.port_setFeeder (s : State) (k : Nat) (v : Feeder) : (s.setFeeder k v).port = s.port := rfl
@[simp] theorem State.fn_setFeeder (s : State) (k : Nat) (v : Feeder) : (s.setFeeder k v).fn = s.fn := rfl
@[simp] theorem State.err_setFeeder (s : State) (k : Nat) (v : Feeder) : (s.setFeeder k v).err = s.err := rfl
@[simp] theorem State.pwr_setFeeder (s : State) (k : Nat) (v : Feeder) : (s.setFeeder k v).pwr = s.pwr := rfl
@[simp] theorem State.boot_setFeeder (s : State) (k : Nat) (v : Feeder) : (s.setFeeder k v).boot = s.boot := rfl
@[simp] theorem State.pending_setFeeder (s : State) (k : Nat) (v : Feeder) : (s.setFeeder k v).pending = s.pending := rfl
@[simp] theorem State.free_setFeeder (s : State) (k : Nat) (v : Feeder) : (s.setFeeder k v).free = s.free := rfl
@[simp] theorem State.out_setFeeder (s : State) (k : Nat) (v : Feeder) : (s.setFeeder k v).out = s.out := rfl
@[simp] theorem State.ord_untimed_setFeeder (s : State) (k : Nat) (v : Feeder) : (s.setFeeder k v).ord.untimed = s.ord.untimed := rfl
@[simp] theorem State.ord_parked_setFeeder (s : State) (k : Nat) (v : Feeder) : (s.setFeeder k v).ord.parked = s.ord.parked := rfl
@[simp] theorem State.ord_holdTill_setFeeder (s : State) (k : Nat) (v : Feeder) : (s.setFeeder k v).ord.holdTill = s.ord.holdTill := rfl
@[simp] theorem State.ord_lastTime_setFeeder (s : State) (k : Nat) (v : Feeder) : (s.setFeeder k v).ord.lastTime = s.ord.lastTime := rfl
@[simp] theorem State.ord_lastSeq_setFeeder (s : State) (k : Nat) (v : Feeder) : (s.setFeeder k v).ord.lastSeq = s.ord.lastSeq := rfl
@[simp] theorem State.ord_lastSent_setFeeder (s : State) (k : Nat) (v : Feeder) : (s.setFeeder k v).ord.lastSent = s.ord.lastSent := rfl
@[simp] theorem State.ord_inj_setFeeder (s : State) (k : Nat) (v : Feeder) : (s.setFeeder k v).ord.inj = s.ord.inj := rfl
@[simp] theorem State.ord_recv_setFeeder (s : State) (k : Nat) (v : Feeder) : (s.setFeeder k v).ord.recv = s.ord.recv := rfl
@[simp] theorem State.ord_usedUnits_setFeeder (s : State) (k : Nat) (v : Feeder) : (s.setFeeder k v).ord.usedUnits = s.ord.usedUnits := rfl
@[simp] theorem State.ord_gates_setFeeder (s : State) (k : Nat) (v : Feeder) : (s.setFeeder k v).ord.gates = s.ord.gates := rfl
@[simp] theorem State.ord_damaged_setFeeder (s : State) (k : Nat) (v : Feeder) : (s.setFeeder k v).ord.damaged = s.ord.damaged := rfl
@[simp] theorem State.ord_damTime_setFeeder (s : State) (k : Nat) (v : Feeder) : (s.setFeeder k v).ord.damTime = s.ord.damTime := rfl
@[simp] theorem State.ord_confirmed_setFeeder (s : State) (k : Nat) (v : Feeder) : (s.setFeeder k v).ord.confirmed = s.ord.confirmed := rfl
@[simp] theorem State.ord_seen_setFeeder (s : State) (k : Nat) (v : Feeder) : (s.setFeeder k v).ord.seen = s.ord.seen := rfl
@[simp] theorem State.damagedAt_setDamagedAt (s : State) (k : Nat) (v : List Packet) :
    (s.setDamagedAt k v).damagedAt k = v := mget_mput_same _ _ k v
theorem State.damagedAt_setDamagedAt_of_ne (s : State) (k j : Nat) (v : List Packet) (h : j ≠ k) :
    (s.setDamagedAt k v).damagedAt j = s.damagedAt j := mget_mput_ne _ _ k j v h
@[simp] theorem State.por_setDamagedAt (s : State) (k : Nat) (v : List Packet) : (s.setDamagedAt k v).por = s.por := rfl
@[simp] theorem State.tb_setDamagedAt (s : State) (k : Nat) (v : List Packet) : (s.setDamagedAt k v).tb = s.tb := rfl
@[simp] theorem State.reg_setDamagedAt (s : State) (k : Nat) (v : List Packet) : (s.setDamagedAt k v).reg = s.reg := rfl
@[simp] theorem State.mem_setDamagedAt (s : State) (k : Nat) (v : List Packet) : (s.setDamagedAt k v).mem = s.mem := rfl
@[simp] theorem State.fab_setDamagedAt (s : State) (k : Nat) (v : List Packet) : (s.setDamagedAt k v).fab = s.fab := rfl
@[simp] theorem State.arb_setDamagedAt (s : State) (k : Nat) (v : List Packet) : (s.setDamagedAt k v).arb = s.arb := rfl
@[simp] theorem State.pcl_setDamagedAt (s : State) (k : Nat) (v : List Packet) : (s.setDamagedAt k v).pcl = s.pcl := rfl
@[simp] theorem State.qm_setDamagedAt (s : State) (k : Nat) (v : List Packet) : (s.setDamagedAt k v).qm = s.qm := rfl
@[simp] theorem State.xlt_setDamagedAt (s : State) (k : Nat) (v : List Packet) : (s.setDamagedAt k v).xlt = s.xlt := rfl
@[simp] theorem State.port_setDamagedAt (s : State) (k : Nat) (v : List Packet) : (s.setDamagedAt k v).port = s.port := rfl
@[simp] theorem State.fn_setDamagedAt (s : State) (k : Nat) (v : List Packet) : (s.setDamagedAt k v).fn = s.fn := rfl
@[simp] theorem State.err_setDamagedAt (s : State) (k : Nat) (v : List Packet) : (s.setDamagedAt k v).err = s.err := rfl
@[simp] theorem State.pwr_setDamagedAt (s : State) (k : Nat) (v : List Packet) : (s.setDamagedAt k v).pwr = s.pwr := rfl
@[simp] theorem State.boot_setDamagedAt (s : State) (k : Nat) (v : List Packet) : (s.setDamagedAt k v).boot = s.boot := rfl
@[simp] theorem State.pending_setDamagedAt (s : State) (k : Nat) (v : List Packet) : (s.setDamagedAt k v).pending = s.pending := rfl
@[simp] theorem State.free_setDamagedAt (s : State) (k : Nat) (v : List Packet) : (s.setDamagedAt k v).free = s.free := rfl
@[simp] theorem State.out_setDamagedAt (s : State) (k : Nat) (v : List Packet) : (s.setDamagedAt k v).out = s.out := rfl
@[simp] theorem State.ord_untimed_setDamagedAt (s : State) (k : Nat) (v : List Packet) : (s.setDamagedAt k v).ord.untimed = s.ord.untimed := rfl
@[simp] theorem State.ord_parked_setDamagedAt (s : State) (k : Nat) (v : List Packet) : (s.setDamagedAt k v).ord.parked = s.ord.parked := rfl
@[simp] theorem State.ord_holdTill_setDamagedAt (s : State) (k : Nat) (v : List Packet) : (s.setDamagedAt k v).ord.holdTill = s.ord.holdTill := rfl
@[simp] theorem State.ord_lastTime_setDamagedAt (s : State) (k : Nat) (v : List Packet) : (s.setDamagedAt k v).ord.lastTime = s.ord.lastTime := rfl
@[simp] theorem State.ord_lastSeq_setDamagedAt (s : State) (k : Nat) (v : List Packet) : (s.setDamagedAt k v).ord.lastSeq = s.ord.lastSeq := rfl
@[simp] theorem State.ord_lastSent_setDamagedAt (s : State) (k : Nat) (v : List Packet) : (s.setDamagedAt k v).ord.lastSent = s.ord.lastSent := rfl
@[simp] theorem State.ord_inj_setDamagedAt (s : State) (k : Nat) (v : List Packet) : (s.setDamagedAt k v).ord.inj = s.ord.inj := rfl
@[simp] theorem State.ord_recv_setDamagedAt (s : State) (k : Nat) (v : List Packet) : (s.setDamagedAt k v).ord.recv = s.ord.recv := rfl
@[simp] theorem State.ord_usedUnits_setDamagedAt (s : State) (k : Nat) (v : List Packet) : (s.setDamagedAt k v).ord.usedUnits = s.ord.usedUnits := rfl
@[simp] theorem State.ord_gates_setDamagedAt (s : State) (k : Nat) (v : List Packet) : (s.setDamagedAt k v).ord.gates = s.ord.gates := rfl
@[simp] theorem State.ord_feeders_setDamagedAt (s : State) (k : Nat) (v : List Packet) : (s.setDamagedAt k v).ord.feeders = s.ord.feeders := rfl
@[simp] theorem State.ord_damTime_setDamagedAt (s : State) (k : Nat) (v : List Packet) : (s.setDamagedAt k v).ord.damTime = s.ord.damTime := rfl
@[simp] theorem State.ord_confirmed_setDamagedAt (s : State) (k : Nat) (v : List Packet) : (s.setDamagedAt k v).ord.confirmed = s.ord.confirmed := rfl
@[simp] theorem State.ord_seen_setDamagedAt (s : State) (k : Nat) (v : List Packet) : (s.setDamagedAt k v).ord.seen = s.ord.seen := rfl
@[simp] theorem State.damTime_setDamTime (s : State) (k : Nat) (v : Option Nat) :
    (s.setDamTime k v).damTime k = v := mget_mput_same _ _ k v
theorem State.damTime_setDamTime_of_ne (s : State) (k j : Nat) (v : Option Nat) (h : j ≠ k) :
    (s.setDamTime k v).damTime j = s.damTime j := mget_mput_ne _ _ k j v h
@[simp] theorem State.por_setDamTime (s : State) (k : Nat) (v : Option Nat) : (s.setDamTime k v).por = s.por := rfl
@[simp] theorem State.tb_setDamTime (s : State) (k : Nat) (v : Option Nat) : (s.setDamTime k v).tb = s.tb := rfl
@[simp] theorem State.reg_setDamTime (s : State) (k : Nat) (v : Option Nat) : (s.setDamTime k v).reg = s.reg := rfl
@[simp] theorem State.mem_setDamTime (s : State) (k : Nat) (v : Option Nat) : (s.setDamTime k v).mem = s.mem := rfl
@[simp] theorem State.fab_setDamTime (s : State) (k : Nat) (v : Option Nat) : (s.setDamTime k v).fab = s.fab := rfl
@[simp] theorem State.arb_setDamTime (s : State) (k : Nat) (v : Option Nat) : (s.setDamTime k v).arb = s.arb := rfl
@[simp] theorem State.pcl_setDamTime (s : State) (k : Nat) (v : Option Nat) : (s.setDamTime k v).pcl = s.pcl := rfl
@[simp] theorem State.qm_setDamTime (s : State) (k : Nat) (v : Option Nat) : (s.setDamTime k v).qm = s.qm := rfl
@[simp] theorem State.xlt_setDamTime (s : State) (k : Nat) (v : Option Nat) : (s.setDamTime k v).xlt = s.xlt := rfl
@[simp] theorem State.port_setDamTime (s : State) (k : Nat) (v : Option Nat) : (s.setDamTime k v).port = s.port := rfl
@[simp] theorem State.fn_setDamTime (s : State) (k : Nat) (v : Option Nat) : (s.setDamTime k v).fn = s.fn := rfl
@[simp] theorem State.err_setDamTime (s : State) (k : Nat) (v : Option Nat) : (s.setDamTime k v).err = s.err := rfl
@[simp] theorem State.pwr_setDamTime (s : State) (k : Nat) (v : Option Nat) : (s.setDamTime k v).pwr = s.pwr := rfl
@[simp] theorem State.boot_setDamTime (s : State) (k : Nat) (v : Option Nat) : (s.setDamTime k v).boot = s.boot := rfl
@[simp] theorem State.pending_setDamTime (s : State) (k : Nat) (v : Option Nat) : (s.setDamTime k v).pending = s.pending := rfl
@[simp] theorem State.free_setDamTime (s : State) (k : Nat) (v : Option Nat) : (s.setDamTime k v).free = s.free := rfl
@[simp] theorem State.out_setDamTime (s : State) (k : Nat) (v : Option Nat) : (s.setDamTime k v).out = s.out := rfl
@[simp] theorem State.ord_untimed_setDamTime (s : State) (k : Nat) (v : Option Nat) : (s.setDamTime k v).ord.untimed = s.ord.untimed := rfl
@[simp] theorem State.ord_parked_setDamTime (s : State) (k : Nat) (v : Option Nat) : (s.setDamTime k v).ord.parked = s.ord.parked := rfl
@[simp] theorem State.ord_holdTill_setDamTime (s : State) (k : Nat) (v : Option Nat) : (s.setDamTime k v).ord.holdTill = s.ord.holdTill := rfl
@[simp] theorem State.ord_lastTime_setDamTime (s : State) (k : Nat) (v : Option Nat) : (s.setDamTime k v).ord.lastTime = s.ord.lastTime := rfl
@[simp] theorem State.ord_lastSeq_setDamTime (s : State) (k : Nat) (v : Option Nat) : (s.setDamTime k v).ord.lastSeq = s.ord.lastSeq := rfl
@[simp] theorem State.ord_lastSent_setDamTime (s : State) (k : Nat) (v : Option Nat) : (s.setDamTime k v).ord.lastSent = s.ord.lastSent := rfl
@[simp] theorem State.ord_inj_setDamTime (s : State) (k : Nat) (v : Option Nat) : (s.setDamTime k v).ord.inj = s.ord.inj := rfl
@[simp] theorem State.ord_recv_setDamTime (s : State) (k : Nat) (v : Option Nat) : (s.setDamTime k v).ord.recv = s.ord.recv := rfl
@[simp] theorem State.ord_usedUnits_setDamTime (s : State) (k : Nat) (v : Option Nat) : (s.setDamTime k v).ord.usedUnits = s.ord.usedUnits := rfl
@[simp] theorem State.ord_gates_setDamTime (s : State) (k : Nat) (v : Option Nat) : (s.setDamTime k v).ord.gates = s.ord.gates := rfl
@[simp] theorem State.ord_feeders_setDamTime (s : State) (k : Nat) (v : Option Nat) : (s.setDamTime k v).ord.feeders = s.ord.feeders := rfl
@[simp] theorem State.ord_damaged_setDamTime (s : State) (k : Nat) (v : Option Nat) : (s.setDamTime k v).ord.damaged = s.ord.damaged := rfl
@[simp] theorem State.ord_confirmed_setDamTime (s : State) (k : Nat) (v : Option Nat) : (s.setDamTime k v).ord.confirmed = s.ord.confirmed := rfl
@[simp] theorem State.ord_seen_setDamTime (s : State) (k : Nat) (v : Option Nat) : (s.setDamTime k v).ord.seen = s.ord.seen := rfl
@[simp] theorem State.confirmed_setConfirmed (s : State) (k : Nat) (v : Nat) :
    (s.setConfirmed k v).confirmed k = v := mget_mput_same _ _ k v
theorem State.confirmed_setConfirmed_of_ne (s : State) (k j : Nat) (v : Nat) (h : j ≠ k) :
    (s.setConfirmed k v).confirmed j = s.confirmed j := mget_mput_ne _ _ k j v h
@[simp] theorem State.por_setConfirmed (s : State) (k : Nat) (v : Nat) : (s.setConfirmed k v).por = s.por := rfl
@[simp] theorem State.tb_setConfirmed (s : State) (k : Nat) (v : Nat) : (s.setConfirmed k v).tb = s.tb := rfl
@[simp] theorem State.reg_setConfirmed (s : State) (k : Nat) (v : Nat) : (s.setConfirmed k v).reg = s.reg := rfl
@[simp] theorem State.mem_setConfirmed (s : State) (k : Nat) (v : Nat) : (s.setConfirmed k v).mem = s.mem := rfl
@[simp] theorem State.fab_setConfirmed (s : State) (k : Nat) (v : Nat) : (s.setConfirmed k v).fab = s.fab := rfl
@[simp] theorem State.arb_setConfirmed (s : State) (k : Nat) (v : Nat) : (s.setConfirmed k v).arb = s.arb := rfl
@[simp] theorem State.pcl_setConfirmed (s : State) (k : Nat) (v : Nat) : (s.setConfirmed k v).pcl = s.pcl := rfl
@[simp] theorem State.qm_setConfirmed (s : State) (k : Nat) (v : Nat) : (s.setConfirmed k v).qm = s.qm := rfl
@[simp] theorem State.xlt_setConfirmed (s : State) (k : Nat) (v : Nat) : (s.setConfirmed k v).xlt = s.xlt := rfl
@[simp] theorem State.port_setConfirmed (s : State) (k : Nat) (v : Nat) : (s.setConfirmed k v).port = s.port := rfl
@[simp] theorem State.fn_setConfirmed (s : State) (k : Nat) (v : Nat) : (s.setConfirmed k v).fn = s.fn := rfl
@[simp] theorem State.err_setConfirmed (s : State) (k : Nat) (v : Nat) : (s.setConfirmed k v).err = s.err := rfl
@[simp] theorem State.pwr_setConfirmed (s : State) (k : Nat) (v : Nat) : (s.setConfirmed k v).pwr = s.pwr := rfl
@[simp] theorem State.boot_setConfirmed (s : State) (k : Nat) (v : Nat) : (s.setConfirmed k v).boot = s.boot := rfl
@[simp] theorem State.pending_setConfirmed (s : State) (k : Nat) (v : Nat) : (s.setConfirmed k v).pending = s.pending := rfl
@[simp] theorem State.free_setConfirmed (s : State) (k : Nat) (v : Nat) : (s.setConfirmed k v).free = s.free := rfl
@[simp] theorem State.out_setConfirmed (s : State) (k : Nat) (v : Nat) : (s.setConfirmed k v).out = s.out := rfl
@[simp] theorem State.ord_untimed_setConfirmed (s : State) (k : Nat) (v : Nat) : (s.setConfirmed k v).ord.untimed = s.ord.untimed := rfl
@[simp] theorem State.ord_parked_setConfirmed (s : State) (k : Nat) (v : Nat) : (s.setConfirmed k v).ord.parked = s.ord.parked := rfl
@[simp] theorem State.ord_holdTill_setConfirmed (s : State) (k : Nat) (v : Nat) : (s.setConfirmed k v).ord.holdTill = s.ord.holdTill := rfl
@[simp] theorem State.ord_lastTime_setConfirmed (s : State) (k : Nat) (v : Nat) : (s.setConfirmed k v).ord.lastTime = s.ord.lastTime := rfl
@[simp] theorem State.ord_lastSeq_setConfirmed (s : State) (k : Nat) (v : Nat) : (s.setConfirmed k v).ord.lastSeq = s.ord.lastSeq := rfl
@[simp] theorem State.ord_lastSent_setConfirmed (s : State) (k : Nat) (v : Nat) : (s.setConfirmed k v).ord.lastSent = s.ord.lastSent := rfl
@[simp] theorem State.ord_inj_setConfirmed (s : State) (k : Nat) (v : Nat) : (s.setConfirmed k v).ord.inj = s.ord.inj := rfl
@[simp] theorem State.ord_recv_setConfirmed (s : State) (k : Nat) (v : Nat) : (s.setConfirmed k v).ord.recv = s.ord.recv := rfl
@[simp] theorem State.ord_usedUnits_setConfirmed (s : State) (k : Nat) (v : Nat) : (s.setConfirmed k v).ord.usedUnits = s.ord.usedUnits := rfl
@[simp] theorem State.ord_gates_setConfirmed (s : State) (k : Nat) (v : Nat) : (s.setConfirmed k v).ord.gates = s.ord.gates := rfl
@[simp] theorem State.ord_feeders_setConfirmed (s : State) (k : Nat) (v : Nat) : (s.setConfirmed k v).ord.feeders = s.ord.feeders := rfl
@[simp] theorem State.ord_damaged_setConfirmed (s : State) (k : Nat) (v : Nat) : (s.setConfirmed k v).ord.damaged = s.ord.damaged := rfl
@[simp] theorem State.ord_damTime_setConfirmed (s : State) (k : Nat) (v : Nat) : (s.setConfirmed k v).ord.damTime = s.ord.damTime := rfl
@[simp] theorem State.ord_seen_setConfirmed (s : State) (k : Nat) (v : Nat) : (s.setConfirmed k v).ord.seen = s.ord.seen := rfl
@[simp] theorem State.seenCnt_setSeenCnt (s : State) (k : Nat) (v : List Nat) :
    (s.setSeenCnt k v).seenCnt k = v := mget_mput_same _ _ k v
theorem State.seenCnt_setSeenCnt_of_ne (s : State) (k j : Nat) (v : List Nat) (h : j ≠ k) :
    (s.setSeenCnt k v).seenCnt j = s.seenCnt j := mget_mput_ne _ _ k j v h
@[simp] theorem State.por_setSeenCnt (s : State) (k : Nat) (v : List Nat) : (s.setSeenCnt k v).por = s.por := rfl
@[simp] theorem State.tb_setSeenCnt (s : State) (k : Nat) (v : List Nat) : (s.setSeenCnt k v).tb = s.tb := rfl
@[simp] theorem State.reg_setSeenCnt (s : State) (k : Nat) (v : List Nat) : (s.setSeenCnt k v).reg = s.reg := rfl
@[simp] theorem State.mem_setSeenCnt (s : State) (k : Nat) (v : List Nat) : (s.setSeenCnt k v).mem = s.mem := rfl
@[simp] theorem State.fab_setSeenCnt (s : State) (k : Nat) (v : List Nat) : (s.setSeenCnt k v).fab = s.fab := rfl
@[simp] theorem State.arb_setSeenCnt (s : State) (k : Nat) (v : List Nat) : (s.setSeenCnt k v).arb = s.arb := rfl
@[simp] theorem State.pcl_setSeenCnt (s : State) (k : Nat) (v : List Nat) : (s.setSeenCnt k v).pcl = s.pcl := rfl
@[simp] theorem State.qm_setSeenCnt (s : State) (k : Nat) (v : List Nat) : (s.setSeenCnt k v).qm = s.qm := rfl
@[simp] theorem State.xlt_setSeenCnt (s : State) (k : Nat) (v : List Nat) : (s.setSeenCnt k v).xlt = s.xlt := rfl
@[simp] theorem State.port_setSeenCnt (s : State) (k : Nat) (v : List Nat) : (s.setSeenCnt k v).port = s.port := rfl
@[simp] theorem State.fn_setSeenCnt (s : State) (k : Nat) (v : List Nat) : (s.setSeenCnt k v).fn = s.fn := rfl
@[simp] theorem State.err_setSeenCnt (s : State) (k : Nat) (v : List Nat) : (s.setSeenCnt k v).err = s.err := rfl
@[simp] theorem State.pwr_setSeenCnt (s : State) (k : Nat) (v : List Nat) : (s.setSeenCnt k v).pwr = s.pwr := rfl
@[simp] theorem State.boot_setSeenCnt (s : State) (k : Nat) (v : List Nat) : (s.setSeenCnt k v).boot = s.boot := rfl
@[simp] theorem State.pending_setSeenCnt (s : State) (k : Nat) (v : List Nat) : (s.setSeenCnt k v).pending = s.pending := rfl
@[simp] theorem State.free_setSeenCnt (s : State) (k : Nat) (v : List Nat) : (s.setSeenCnt k v).free = s.free := rfl
@[simp] theorem State.out_setSeenCnt (s : State) (k : Nat) (v : List Nat) : (s.setSeenCnt k v).out = s.out := rfl
@[simp] theorem State.ord_untimed_setSeenCnt (s : State) (k : Nat) (v : List Nat) : (s.setSeenCnt k v).ord.untimed = s.ord.untimed := rfl
@[simp] theorem State.ord_parked_setSeenCnt (s : State) (k : Nat) (v : List Nat) : (s.setSeenCnt k v).ord.parked = s.ord.parked := rfl
@[simp] theorem State.ord_holdTill_setSeenCnt (s : State) (k : Nat) (v : List Nat) : (s.setSeenCnt k v).ord.holdTill = s.ord.holdTill := rfl
@[simp] theorem State.ord_lastTime_setSeenCnt (s : State) (k : Nat) (v : List Nat) : (s.setSeenCnt k v).ord.lastTime = s.ord.lastTime := rfl
@[simp] theorem State.ord_lastSeq_setSeenCnt (s : State) (k : Nat) (v : List Nat) : (s.setSeenCnt k v).ord.lastSeq = s.ord.lastSeq := rfl
@[simp] theorem State.ord_lastSent_setSeenCnt (s : State) (k : Nat) (v : List Nat) : (s.setSeenCnt k v).ord.lastSent = s.ord.lastSent := rfl
@[simp] theorem State.ord_inj_setSeenCnt (s : State) (k : Nat) (v : List Nat) : (s.setSeenCnt k v).ord.inj = s.ord.inj := rfl
@[simp] theorem State.ord_recv_setSeenCnt (s : State) (k : Nat) (v : List Nat) : (s.setSeenCnt k v).ord.recv = s.ord.recv := rfl
@[simp] theorem State.ord_usedUnits_setSeenCnt (s : State) (k : Nat) (v : List Nat) : (s.setSeenCnt k v).ord.usedUnits = s.ord.usedUnits := rfl
@[simp] theorem State.ord_gates_setSeenCnt (s : State) (k : Nat) (v : List Nat) : (s.setSeenCnt k v).ord.gates = s.ord.gates := rfl
@[simp] theorem State.ord_feeders_setSeenCnt (s : State) (k : Nat) (v : List Nat) : (s.setSeenCnt k v).ord.feeders = s.ord.feeders := rfl
@[simp] theorem State.ord_damaged_setSeenCnt (s : State) (k : Nat) (v : List Nat) : (s.setSeenCnt k v).ord.damaged = s.ord.damaged := rfl
@[simp] theorem State.ord_damTime_setSeenCnt (s : State) (k : Nat) (v : List Nat) : (s.setSeenCnt k v).ord.damTime = s.ord.damTime := rfl
@[simp] theorem State.ord_confirmed_setSeenCnt (s : State) (k : Nat) (v : List Nat) : (s.setSeenCnt k v).ord.confirmed = s.ord.confirmed := rfl
@[simp] theorem State.arbiter_setArbiter (s : State) (k : Nat) (v : Arb) :
    (s.setArbiter k v).arbiter k = v := mget_mput_same _ _ k v
theorem State.arbiter_setArbiter_of_ne (s : State) (k j : Nat) (v : Arb) (h : j ≠ k) :
    (s.setArbiter k v).arbiter j = s.arbiter j := mget_mput_ne _ _ k j v h
@[simp] theorem State.por_setArbiter (s : State) (k : Nat) (v : Arb) : (s.setArbiter k v).por = s.por := rfl
@[simp] theorem State.tb_setArbiter (s : State) (k : Nat) (v : Arb) : (s.setArbiter k v).tb = s.tb := rfl
@[simp] theorem State.reg_setArbiter (s : State) (k : Nat) (v : Arb) : (s.setArbiter k v).reg = s.reg := rfl
@[simp] theorem State.mem_setArbiter (s : State) (k : Nat) (v : Arb) : (s.setArbiter k v).mem = s.mem := rfl
@[simp] theorem State.fab_setArbiter (s : State) (k : Nat) (v : Arb) : (s.setArbiter k v).fab = s.fab := rfl
@[simp] theorem State.ord_setArbiter (s : State) (k : Nat) (v : Arb) : (s.setArbiter k v).ord = s.ord := rfl
@[simp] theorem State.pcl_setArbiter (s : State) (k : Nat) (v : Arb) : (s.setArbiter k v).pcl = s.pcl := rfl
@[simp] theorem State.qm_setArbiter (s : State) (k : Nat) (v : Arb) : (s.setArbiter k v).qm = s.qm := rfl
@[simp] theorem State.xlt_setArbiter (s : State) (k : Nat) (v : Arb) : (s.setArbiter k v).xlt = s.xlt := rfl
@[simp] theorem State.port_setArbiter (s : State) (k : Nat) (v : Arb) : (s.setArbiter k v).port = s.port := rfl
@[simp] theorem State.fn_setArbiter (s : State) (k : Nat) (v : Arb) : (s.setArbiter k v).fn = s.fn := rfl
@[simp] theorem State.err_setArbiter (s : State) (k : Nat) (v : Arb) : (s.setArbiter k v).err = s.err := rfl
@[simp] theorem State.pwr_setArbiter (s : State) (k : Nat) (v : Arb) : (s.setArbiter k v).pwr = s.pwr := rfl
@[simp] theorem State.boot_setArbiter (s : State) (k : Nat) (v : Arb) : (s.setArbiter k v).boot = s.boot := rfl
@[simp] theorem State.pending_setArbiter (s : State) (k : Nat) (v : Arb) : (s.setArbiter k v).pending = s.pending := rfl
@[simp] theorem State.free_setArbiter (s : State) (k : Nat) (v : Arb) : (s.setArbiter k v).free = s.free := rfl
@[simp] theorem State.out_setArbiter (s : State) (k : Nat) (v : Arb) : (s.setArbiter k v).out = s.out := rfl
@[simp] theorem State.arb_c52_setArbiter (s : State) (k : Nat) (v : Arb) : (s.setArbiter k v).arb.c52 = s.arb.c52 := rfl
@[simp] theorem State.arb_sems_setArbiter (s : State) (k : Nat) (v : Arb) : (s.setArbiter k v).arb.sems = s.arb.sems := rfl
@[simp] theorem State.arb_semFence_setArbiter (s : State) (k : Nat) (v : Arb) : (s.setArbiter k v).arb.semFence = s.arb.semFence := rfl
@[simp] theorem State.c52Force_setC52Force (s : State) (k : Nat) (v : Option Word) :
    (s.setC52Force k v).c52Force k = v := mget_mput_same _ _ k v
theorem State.c52Force_setC52Force_of_ne (s : State) (k j : Nat) (v : Option Word) (h : j ≠ k) :
    (s.setC52Force k v).c52Force j = s.c52Force j := mget_mput_ne _ _ k j v h
@[simp] theorem State.por_setC52Force (s : State) (k : Nat) (v : Option Word) : (s.setC52Force k v).por = s.por := rfl
@[simp] theorem State.tb_setC52Force (s : State) (k : Nat) (v : Option Word) : (s.setC52Force k v).tb = s.tb := rfl
@[simp] theorem State.reg_setC52Force (s : State) (k : Nat) (v : Option Word) : (s.setC52Force k v).reg = s.reg := rfl
@[simp] theorem State.mem_setC52Force (s : State) (k : Nat) (v : Option Word) : (s.setC52Force k v).mem = s.mem := rfl
@[simp] theorem State.fab_setC52Force (s : State) (k : Nat) (v : Option Word) : (s.setC52Force k v).fab = s.fab := rfl
@[simp] theorem State.ord_setC52Force (s : State) (k : Nat) (v : Option Word) : (s.setC52Force k v).ord = s.ord := rfl
@[simp] theorem State.pcl_setC52Force (s : State) (k : Nat) (v : Option Word) : (s.setC52Force k v).pcl = s.pcl := rfl
@[simp] theorem State.qm_setC52Force (s : State) (k : Nat) (v : Option Word) : (s.setC52Force k v).qm = s.qm := rfl
@[simp] theorem State.xlt_setC52Force (s : State) (k : Nat) (v : Option Word) : (s.setC52Force k v).xlt = s.xlt := rfl
@[simp] theorem State.port_setC52Force (s : State) (k : Nat) (v : Option Word) : (s.setC52Force k v).port = s.port := rfl
@[simp] theorem State.fn_setC52Force (s : State) (k : Nat) (v : Option Word) : (s.setC52Force k v).fn = s.fn := rfl
@[simp] theorem State.err_setC52Force (s : State) (k : Nat) (v : Option Word) : (s.setC52Force k v).err = s.err := rfl
@[simp] theorem State.pwr_setC52Force (s : State) (k : Nat) (v : Option Word) : (s.setC52Force k v).pwr = s.pwr := rfl
@[simp] theorem State.boot_setC52Force (s : State) (k : Nat) (v : Option Word) : (s.setC52Force k v).boot = s.boot := rfl
@[simp] theorem State.pending_setC52Force (s : State) (k : Nat) (v : Option Word) : (s.setC52Force k v).pending = s.pending := rfl
@[simp] theorem State.free_setC52Force (s : State) (k : Nat) (v : Option Word) : (s.setC52Force k v).free = s.free := rfl
@[simp] theorem State.out_setC52Force (s : State) (k : Nat) (v : Option Word) : (s.setC52Force k v).out = s.out := rfl
@[simp] theorem State.arb_arbs_setC52Force (s : State) (k : Nat) (v : Option Word) : (s.setC52Force k v).arb.arbs = s.arb.arbs := rfl
@[simp] theorem State.arb_sems_setC52Force (s : State) (k : Nat) (v : Option Word) : (s.setC52Force k v).arb.sems = s.arb.sems := rfl
@[simp] theorem State.arb_semFence_setC52Force (s : State) (k : Nat) (v : Option Word) : (s.setC52Force k v).arb.semFence = s.arb.semFence := rfl
@[simp] theorem State.sem_setSem (s : State) (k : Nat) (v : Sem) :
    (s.setSem k v).sem k = v := mget_mput_same _ _ k v
theorem State.sem_setSem_of_ne (s : State) (k j : Nat) (v : Sem) (h : j ≠ k) :
    (s.setSem k v).sem j = s.sem j := mget_mput_ne _ _ k j v h
@[simp] theorem State.por_setSem (s : State) (k : Nat) (v : Sem) : (s.setSem k v).por = s.por := rfl
@[simp] theorem State.tb_setSem (s : State) (k : Nat) (v : Sem) : (s.setSem k v).tb = s.tb := rfl
@[simp] theorem State.reg_setSem (s : State) (k : Nat) (v : Sem) : (s.setSem k v).reg = s.reg := rfl
@[simp] theorem State.mem_setSem (s : State) (k : Nat) (v : Sem) : (s.setSem k v).mem = s.mem := rfl
@[simp] theorem State.fab_setSem (s : State) (k : Nat) (v : Sem) : (s.setSem k v).fab = s.fab := rfl
@[simp] theorem State.ord_setSem (s : State) (k : Nat) (v : Sem) : (s.setSem k v).ord = s.ord := rfl
@[simp] theorem State.pcl_setSem (s : State) (k : Nat) (v : Sem) : (s.setSem k v).pcl = s.pcl := rfl
@[simp] theorem State.qm_setSem (s : State) (k : Nat) (v : Sem) : (s.setSem k v).qm = s.qm := rfl
@[simp] theorem State.xlt_setSem (s : State) (k : Nat) (v : Sem) : (s.setSem k v).xlt = s.xlt := rfl
@[simp] theorem State.port_setSem (s : State) (k : Nat) (v : Sem) : (s.setSem k v).port = s.port := rfl
@[simp] theorem State.fn_setSem (s : State) (k : Nat) (v : Sem) : (s.setSem k v).fn = s.fn := rfl
@[simp] theorem State.err_setSem (s : State) (k : Nat) (v : Sem) : (s.setSem k v).err = s.err := rfl
@[simp] theorem State.pwr_setSem (s : State) (k : Nat) (v : Sem) : (s.setSem k v).pwr = s.pwr := rfl
@[simp] theorem State.boot_setSem (s : State) (k : Nat) (v : Sem) : (s.setSem k v).boot = s.boot := rfl
@[simp] theorem State.pending_setSem (s : State) (k : Nat) (v : Sem) : (s.setSem k v).pending = s.pending := rfl
@[simp] theorem State.free_setSem (s : State) (k : Nat) (v : Sem) : (s.setSem k v).free = s.free := rfl
@[simp] theorem State.out_setSem (s : State) (k : Nat) (v : Sem) : (s.setSem k v).out = s.out := rfl
@[simp] theorem State.arb_arbs_setSem (s : State) (k : Nat) (v : Sem) : (s.setSem k v).arb.arbs = s.arb.arbs := rfl
@[simp] theorem State.arb_c52_setSem (s : State) (k : Nat) (v : Sem) : (s.setSem k v).arb.c52 = s.arb.c52 := rfl
@[simp] theorem State.arb_semFence_setSem (s : State) (k : Nat) (v : Sem) : (s.setSem k v).arb.semFence = s.arb.semFence := rfl
@[simp] theorem State.semFence_setSemFence (s : State) (k : Nat) (v : Bool) :
    (s.setSemFence k v).semFence k = v := mget_mput_same _ _ k v
theorem State.semFence_setSemFence_of_ne (s : State) (k j : Nat) (v : Bool) (h : j ≠ k) :
    (s.setSemFence k v).semFence j = s.semFence j := mget_mput_ne _ _ k j v h
@[simp] theorem State.por_setSemFence (s : State) (k : Nat) (v : Bool) : (s.setSemFence k v).por = s.por := rfl
@[simp] theorem State.tb_setSemFence (s : State) (k : Nat) (v : Bool) : (s.setSemFence k v).tb = s.tb := rfl
@[simp] theorem State.reg_setSemFence (s : State) (k : Nat) (v : Bool) : (s.setSemFence k v).reg = s.reg := rfl
@[simp] theorem State.mem_setSemFence (s : State) (k : Nat) (v : Bool) : (s.setSemFence k v).mem = s.mem := rfl
@[simp] theorem State.fab_setSemFence (s : State) (k : Nat) (v : Bool) : (s.setSemFence k v).fab = s.fab := rfl
@[simp] theorem State.ord_setSemFence (s : State) (k : Nat) (v : Bool) : (s.setSemFence k v).ord = s.ord := rfl
@[simp] theorem State.pcl_setSemFence (s : State) (k : Nat) (v : Bool) : (s.setSemFence k v).pcl = s.pcl := rfl
@[simp] theorem State.qm_setSemFence (s : State) (k : Nat) (v : Bool) : (s.setSemFence k v).qm = s.qm := rfl
@[simp] theorem State.xlt_setSemFence (s : State) (k : Nat) (v : Bool) : (s.setSemFence k v).xlt = s.xlt := rfl
@[simp] theorem State.port_setSemFence (s : State) (k : Nat) (v : Bool) : (s.setSemFence k v).port = s.port := rfl
@[simp] theorem State.fn_setSemFence (s : State) (k : Nat) (v : Bool) : (s.setSemFence k v).fn = s.fn := rfl
@[simp] theorem State.err_setSemFence (s : State) (k : Nat) (v : Bool) : (s.setSemFence k v).err = s.err := rfl
@[simp] theorem State.pwr_setSemFence (s : State) (k : Nat) (v : Bool) : (s.setSemFence k v).pwr = s.pwr := rfl
@[simp] theorem State.boot_setSemFence (s : State) (k : Nat) (v : Bool) : (s.setSemFence k v).boot = s.boot := rfl
@[simp] theorem State.pending_setSemFence (s : State) (k : Nat) (v : Bool) : (s.setSemFence k v).pending = s.pending := rfl
@[simp] theorem State.free_setSemFence (s : State) (k : Nat) (v : Bool) : (s.setSemFence k v).free = s.free := rfl
@[simp] theorem State.out_setSemFence (s : State) (k : Nat) (v : Bool) : (s.setSemFence k v).out = s.out := rfl
@[simp] theorem State.arb_arbs_setSemFence (s : State) (k : Nat) (v : Bool) : (s.setSemFence k v).arb.arbs = s.arb.arbs := rfl
@[simp] theorem State.arb_c52_setSemFence (s : State) (k : Nat) (v : Bool) : (s.setSemFence k v).arb.c52 = s.arb.c52 := rfl
@[simp] theorem State.arb_sems_setSemFence (s : State) (k : Nat) (v : Bool) : (s.setSemFence k v).arb.sems = s.arb.sems := rfl
@[simp] theorem State.eng_setEng (s : State) (k : Nat) (v : Eng) :
    (s.setEng k v).eng k = v := mget_mput_same _ _ k v
theorem State.eng_setEng_of_ne (s : State) (k j : Nat) (v : Eng) (h : j ≠ k) :
    (s.setEng k v).eng j = s.eng j := mget_mput_ne _ _ k j v h
@[simp] theorem State.por_setEng (s : State) (k : Nat) (v : Eng) : (s.setEng k v).por = s.por := rfl
@[simp] theorem State.tb_setEng (s : State) (k : Nat) (v : Eng) : (s.setEng k v).tb = s.tb := rfl
@[simp] theorem State.reg_setEng (s : State) (k : Nat) (v : Eng) : (s.setEng k v).reg = s.reg := rfl
@[simp] theorem State.mem_setEng (s : State) (k : Nat) (v : Eng) : (s.setEng k v).mem = s.mem := rfl
@[simp] theorem State.fab_setEng (s : State) (k : Nat) (v : Eng) : (s.setEng k v).fab = s.fab := rfl
@[simp] theorem State.ord_setEng (s : State) (k : Nat) (v : Eng) : (s.setEng k v).ord = s.ord := rfl
@[simp] theorem State.arb_setEng (s : State) (k : Nat) (v : Eng) : (s.setEng k v).arb = s.arb := rfl
@[simp] theorem State.qm_setEng (s : State) (k : Nat) (v : Eng) : (s.setEng k v).qm = s.qm := rfl
@[simp] theorem State.xlt_setEng (s : State) (k : Nat) (v : Eng) : (s.setEng k v).xlt = s.xlt := rfl
@[simp] theorem State.port_setEng (s : State) (k : Nat) (v : Eng) : (s.setEng k v).port = s.port := rfl
@[simp] theorem State.fn_setEng (s : State) (k : Nat) (v : Eng) : (s.setEng k v).fn = s.fn := rfl
@[simp] theorem State.err_setEng (s : State) (k : Nat) (v : Eng) : (s.setEng k v).err = s.err := rfl
@[simp] theorem State.pwr_setEng (s : State) (k : Nat) (v : Eng) : (s.setEng k v).pwr = s.pwr := rfl
@[simp] theorem State.boot_setEng (s : State) (k : Nat) (v : Eng) : (s.setEng k v).boot = s.boot := rfl
@[simp] theorem State.pending_setEng (s : State) (k : Nat) (v : Eng) : (s.setEng k v).pending = s.pending := rfl
@[simp] theorem State.free_setEng (s : State) (k : Nat) (v : Eng) : (s.setEng k v).free = s.free := rfl
@[simp] theorem State.out_setEng (s : State) (k : Nat) (v : Eng) : (s.setEng k v).out = s.out := rfl
@[simp] theorem State.pcl_gregs_setEng (s : State) (k : Nat) (v : Eng) : (s.setEng k v).pcl.gregs = s.pcl.gregs := rfl
@[simp] theorem State.pcl_clus_setEng (s : State) (k : Nat) (v : Eng) : (s.setEng k v).pcl.clus = s.pcl.clus := rfl
@[simp] theorem State.pcl_ctxs_setEng (s : State) (k : Nat) (v : Eng) : (s.setEng k v).pcl.ctxs = s.pcl.ctxs := rfl
@[simp] theorem State.greg_setGreg (s : State) (k : Nat) (v : Word) :
    (s.setGreg k v).greg k = v := mget_mput_same _ _ k v
theorem State.greg_setGreg_of_ne (s : State) (k j : Nat) (v : Word) (h : j ≠ k) :
    (s.setGreg k v).greg j = s.greg j := mget_mput_ne _ _ k j v h
@[simp] theorem State.por_setGreg (s : State) (k : Nat) (v : Word) : (s.setGreg k v).por = s.por := rfl
@[simp] theorem State.tb_setGreg (s : State) (k : Nat) (v : Word) : (s.setGreg k v).tb = s.tb := rfl
@[simp] theorem State.reg_setGreg (s : State) (k : Nat) (v : Word) : (s.setGreg k v).reg = s.reg := rfl
@[simp] theorem State.mem_setGreg (s : State) (k : Nat) (v : Word) : (s.setGreg k v).mem = s.mem := rfl
@[simp] theorem State.fab_setGreg (s : State) (k : Nat) (v : Word) : (s.setGreg k v).fab = s.fab := rfl
@[simp] theorem State.ord_setGreg (s : State) (k : Nat) (v : Word) : (s.setGreg k v).ord = s.ord := rfl
@[simp] theorem State.arb_setGreg (s : State) (k : Nat) (v : Word) : (s.setGreg k v).arb = s.arb := rfl
@[simp] theorem State.qm_setGreg (s : State) (k : Nat) (v : Word) : (s.setGreg k v).qm = s.qm := rfl
@[simp] theorem State.xlt_setGreg (s : State) (k : Nat) (v : Word) : (s.setGreg k v).xlt = s.xlt := rfl
@[simp] theorem State.port_setGreg (s : State) (k : Nat) (v : Word) : (s.setGreg k v).port = s.port := rfl
@[simp] theorem State.fn_setGreg (s : State) (k : Nat) (v : Word) : (s.setGreg k v).fn = s.fn := rfl
@[simp] theorem State.err_setGreg (s : State) (k : Nat) (v : Word) : (s.setGreg k v).err = s.err := rfl
@[simp] theorem State.pwr_setGreg (s : State) (k : Nat) (v : Word) : (s.setGreg k v).pwr = s.pwr := rfl
@[simp] theorem State.boot_setGreg (s : State) (k : Nat) (v : Word) : (s.setGreg k v).boot = s.boot := rfl
@[simp] theorem State.pending_setGreg (s : State) (k : Nat) (v : Word) : (s.setGreg k v).pending = s.pending := rfl
@[simp] theorem State.free_setGreg (s : State) (k : Nat) (v : Word) : (s.setGreg k v).free = s.free := rfl
@[simp] theorem State.out_setGreg (s : State) (k : Nat) (v : Word) : (s.setGreg k v).out = s.out := rfl
@[simp] theorem State.pcl_engs_setGreg (s : State) (k : Nat) (v : Word) : (s.setGreg k v).pcl.engs = s.pcl.engs := rfl
@[simp] theorem State.pcl_clus_setGreg (s : State) (k : Nat) (v : Word) : (s.setGreg k v).pcl.clus = s.pcl.clus := rfl
@[simp] theorem State.pcl_ctxs_setGreg (s : State) (k : Nat) (v : Word) : (s.setGreg k v).pcl.ctxs = s.pcl.ctxs := rfl
@[simp] theorem State.clu_setClu (s : State) (k : Nat) (v : Cluster) :
    (s.setClu k v).clu k = v := mget_mput_same _ _ k v
theorem State.clu_setClu_of_ne (s : State) (k j : Nat) (v : Cluster) (h : j ≠ k) :
    (s.setClu k v).clu j = s.clu j := mget_mput_ne _ _ k j v h
@[simp] theorem State.por_setClu (s : State) (k : Nat) (v : Cluster) : (s.setClu k v).por = s.por := rfl
@[simp] theorem State.tb_setClu (s : State) (k : Nat) (v : Cluster) : (s.setClu k v).tb = s.tb := rfl
@[simp] theorem State.reg_setClu (s : State) (k : Nat) (v : Cluster) : (s.setClu k v).reg = s.reg := rfl
@[simp] theorem State.mem_setClu (s : State) (k : Nat) (v : Cluster) : (s.setClu k v).mem = s.mem := rfl
@[simp] theorem State.fab_setClu (s : State) (k : Nat) (v : Cluster) : (s.setClu k v).fab = s.fab := rfl
@[simp] theorem State.ord_setClu (s : State) (k : Nat) (v : Cluster) : (s.setClu k v).ord = s.ord := rfl
@[simp] theorem State.arb_setClu (s : State) (k : Nat) (v : Cluster) : (s.setClu k v).arb = s.arb := rfl
@[simp] theorem State.qm_setClu (s : State) (k : Nat) (v : Cluster) : (s.setClu k v).qm = s.qm := rfl
@[simp] theorem State.xlt_setClu (s : State) (k : Nat) (v : Cluster) : (s.setClu k v).xlt = s.xlt := rfl
@[simp] theorem State.port_setClu (s : State) (k : Nat) (v : Cluster) : (s.setClu k v).port = s.port := rfl
@[simp] theorem State.fn_setClu (s : State) (k : Nat) (v : Cluster) : (s.setClu k v).fn = s.fn := rfl
@[simp] theorem State.err_setClu (s : State) (k : Nat) (v : Cluster) : (s.setClu k v).err = s.err := rfl
@[simp] theorem State.pwr_setClu (s : State) (k : Nat) (v : Cluster) : (s.setClu k v).pwr = s.pwr := rfl
@[simp] theorem State.boot_setClu (s : State) (k : Nat) (v : Cluster) : (s.setClu k v).boot = s.boot := rfl
@[simp] theorem State.pending_setClu (s : State) (k : Nat) (v : Cluster) : (s.setClu k v).pending = s.pending := rfl
@[simp] theorem State.free_setClu (s : State) (k : Nat) (v : Cluster) : (s.setClu k v).free = s.free := rfl
@[simp] theorem State.out_setClu (s : State) (k : Nat) (v : Cluster) : (s.setClu k v).out = s.out := rfl
@[simp] theorem State.pcl_engs_setClu (s : State) (k : Nat) (v : Cluster) : (s.setClu k v).pcl.engs = s.pcl.engs := rfl
@[simp] theorem State.pcl_gregs_setClu (s : State) (k : Nat) (v : Cluster) : (s.setClu k v).pcl.gregs = s.pcl.gregs := rfl
@[simp] theorem State.pcl_ctxs_setClu (s : State) (k : Nat) (v : Cluster) : (s.setClu k v).pcl.ctxs = s.pcl.ctxs := rfl
@[simp] theorem State.ctx_setCtx (s : State) (k : Nat) (v : Ctx) :
    (s.setCtx k v).ctx k = v := mget_mput_same _ _ k v
theorem State.ctx_setCtx_of_ne (s : State) (k j : Nat) (v : Ctx) (h : j ≠ k) :
    (s.setCtx k v).ctx j = s.ctx j := mget_mput_ne _ _ k j v h
@[simp] theorem State.por_setCtx (s : State) (k : Nat) (v : Ctx) : (s.setCtx k v).por = s.por := rfl
@[simp] theorem State.tb_setCtx (s : State) (k : Nat) (v : Ctx) : (s.setCtx k v).tb = s.tb := rfl
@[simp] theorem State.reg_setCtx (s : State) (k : Nat) (v : Ctx) : (s.setCtx k v).reg = s.reg := rfl
@[simp] theorem State.mem_setCtx (s : State) (k : Nat) (v : Ctx) : (s.setCtx k v).mem = s.mem := rfl
@[simp] theorem State.fab_setCtx (s : State) (k : Nat) (v : Ctx) : (s.setCtx k v).fab = s.fab := rfl
@[simp] theorem State.ord_setCtx (s : State) (k : Nat) (v : Ctx) : (s.setCtx k v).ord = s.ord := rfl
@[simp] theorem State.arb_setCtx (s : State) (k : Nat) (v : Ctx) : (s.setCtx k v).arb = s.arb := rfl
@[simp] theorem State.qm_setCtx (s : State) (k : Nat) (v : Ctx) : (s.setCtx k v).qm = s.qm := rfl
@[simp] theorem State.xlt_setCtx (s : State) (k : Nat) (v : Ctx) : (s.setCtx k v).xlt = s.xlt := rfl
@[simp] theorem State.port_setCtx (s : State) (k : Nat) (v : Ctx) : (s.setCtx k v).port = s.port := rfl
@[simp] theorem State.fn_setCtx (s : State) (k : Nat) (v : Ctx) : (s.setCtx k v).fn = s.fn := rfl
@[simp] theorem State.err_setCtx (s : State) (k : Nat) (v : Ctx) : (s.setCtx k v).err = s.err := rfl
@[simp] theorem State.pwr_setCtx (s : State) (k : Nat) (v : Ctx) : (s.setCtx k v).pwr = s.pwr := rfl
@[simp] theorem State.boot_setCtx (s : State) (k : Nat) (v : Ctx) : (s.setCtx k v).boot = s.boot := rfl
@[simp] theorem State.pending_setCtx (s : State) (k : Nat) (v : Ctx) : (s.setCtx k v).pending = s.pending := rfl
@[simp] theorem State.free_setCtx (s : State) (k : Nat) (v : Ctx) : (s.setCtx k v).free = s.free := rfl
@[simp] theorem State.out_setCtx (s : State) (k : Nat) (v : Ctx) : (s.setCtx k v).out = s.out := rfl
@[simp] theorem State.pcl_engs_setCtx (s : State) (k : Nat) (v : Ctx) : (s.setCtx k v).pcl.engs = s.pcl.engs := rfl
@[simp] theorem State.pcl_gregs_setCtx (s : State) (k : Nat) (v : Ctx) : (s.setCtx k v).pcl.gregs = s.pcl.gregs := rfl
@[simp] theorem State.pcl_clus_setCtx (s : State) (k : Nat) (v : Ctx) : (s.setCtx k v).pcl.clus = s.pcl.clus := rfl
@[simp] theorem State.queue_setQueue (s : State) (k : Nat) (v : Queue) :
    (s.setQueue k v).queue k = v := mget_mput_same _ _ k v
theorem State.queue_setQueue_of_ne (s : State) (k j : Nat) (v : Queue) (h : j ≠ k) :
    (s.setQueue k v).queue j = s.queue j := mget_mput_ne _ _ k j v h
@[simp] theorem State.por_setQueue (s : State) (k : Nat) (v : Queue) : (s.setQueue k v).por = s.por := rfl
@[simp] theorem State.tb_setQueue (s : State) (k : Nat) (v : Queue) : (s.setQueue k v).tb = s.tb := rfl
@[simp] theorem State.reg_setQueue (s : State) (k : Nat) (v : Queue) : (s.setQueue k v).reg = s.reg := rfl
@[simp] theorem State.mem_setQueue (s : State) (k : Nat) (v : Queue) : (s.setQueue k v).mem = s.mem := rfl
@[simp] theorem State.fab_setQueue (s : State) (k : Nat) (v : Queue) : (s.setQueue k v).fab = s.fab := rfl
@[simp] theorem State.ord_setQueue (s : State) (k : Nat) (v : Queue) : (s.setQueue k v).ord = s.ord := rfl
@[simp] theorem State.arb_setQueue (s : State) (k : Nat) (v : Queue) : (s.setQueue k v).arb = s.arb := rfl
@[simp] theorem State.pcl_setQueue (s : State) (k : Nat) (v : Queue) : (s.setQueue k v).pcl = s.pcl := rfl
@[simp] theorem State.xlt_setQueue (s : State) (k : Nat) (v : Queue) : (s.setQueue k v).xlt = s.xlt := rfl
@[simp] theorem State.port_setQueue (s : State) (k : Nat) (v : Queue) : (s.setQueue k v).port = s.port := rfl
@[simp] theorem State.fn_setQueue (s : State) (k : Nat) (v : Queue) : (s.setQueue k v).fn = s.fn := rfl
@[simp] theorem State.err_setQueue (s : State) (k : Nat) (v : Queue) : (s.setQueue k v).err = s.err := rfl
@[simp] theorem State.pwr_setQueue (s : State) (k : Nat) (v : Queue) : (s.setQueue k v).pwr = s.pwr := rfl
@[simp] theorem State.boot_setQueue (s : State) (k : Nat) (v : Queue) : (s.setQueue k v).boot = s.boot := rfl
@[simp] theorem State.pending_setQueue (s : State) (k : Nat) (v : Queue) : (s.setQueue k v).pending = s.pending := rfl
@[simp] theorem State.free_setQueue (s : State) (k : Nat) (v : Queue) : (s.setQueue k v).free = s.free := rfl
@[simp] theorem State.out_setQueue (s : State) (k : Nat) (v : Queue) : (s.setQueue k v).out = s.out := rfl
@[simp] theorem State.qm_spent_setQueue (s : State) (k : Nat) (v : Queue) : (s.setQueue k v).qm.spent = s.qm.spent := rfl
@[simp] theorem State.spent_setSpent (s : State) (k : Nat) (v : Nat) :
    (s.setSpent k v).spent k = v := mget_mput_same _ _ k v
theorem State.spent_setSpent_of_ne (s : State) (k j : Nat) (v : Nat) (h : j ≠ k) :
    (s.setSpent k v).spent j = s.spent j := mget_mput_ne _ _ k j v h
@[simp] theorem State.por_setSpent (s : State) (k : Nat) (v : Nat) : (s.setSpent k v).por = s.por := rfl
@[simp] theorem State.tb_setSpent (s : State) (k : Nat) (v : Nat) : (s.setSpent k v).tb = s.tb := rfl
@[simp] theorem State.reg_setSpent (s : State) (k : Nat) (v : Nat) : (s.setSpent k v).reg = s.reg := rfl
@[simp] theorem State.mem_setSpent (s : State) (k : Nat) (v : Nat) : (s.setSpent k v).mem = s.mem := rfl
@[simp] theorem State.fab_setSpent (s : State) (k : Nat) (v : Nat) : (s.setSpent k v).fab = s.fab := rfl
@[simp] theorem State.ord_setSpent (s : State) (k : Nat) (v : Nat) : (s.setSpent k v).ord = s.ord := rfl
@[simp] theorem State.arb_setSpent (s : State) (k : Nat) (v : Nat) : (s.setSpent k v).arb = s.arb := rfl
@[simp] theorem State.pcl_setSpent (s : State) (k : Nat) (v : Nat) : (s.setSpent k v).pcl = s.pcl := rfl
@[simp] theorem State.xlt_setSpent (s : State) (k : Nat) (v : Nat) : (s.setSpent k v).xlt = s.xlt := rfl
@[simp] theorem State.port_setSpent (s : State) (k : Nat) (v : Nat) : (s.setSpent k v).port = s.port := rfl
@[simp] theorem State.fn_setSpent (s : State) (k : Nat) (v : Nat) : (s.setSpent k v).fn = s.fn := rfl
@[simp] theorem State.err_setSpent (s : State) (k : Nat) (v : Nat) : (s.setSpent k v).err = s.err := rfl
@[simp] theorem State.pwr_setSpent (s : State) (k : Nat) (v : Nat) : (s.setSpent k v).pwr = s.pwr := rfl
@[simp] theorem State.boot_setSpent (s : State) (k : Nat) (v : Nat) : (s.setSpent k v).boot = s.boot := rfl
@[simp] theorem State.pending_setSpent (s : State) (k : Nat) (v : Nat) : (s.setSpent k v).pending = s.pending := rfl
@[simp] theorem State.free_setSpent (s : State) (k : Nat) (v : Nat) : (s.setSpent k v).free = s.free := rfl
@[simp] theorem State.out_setSpent (s : State) (k : Nat) (v : Nat) : (s.setSpent k v).out = s.out := rfl
@[simp] theorem State.qm_queues_setSpent (s : State) (k : Nat) (v : Nat) : (s.setSpent k v).qm.queues = s.qm.queues := rfl
@[simp] theorem State.xcache_setXcache (s : State) (k : Nat) (v : List Line) :
    (s.setXcache k v).xcache k = v := mget_mput_same _ _ k v
theorem State.xcache_setXcache_of_ne (s : State) (k j : Nat) (v : List Line) (h : j ≠ k) :
    (s.setXcache k v).xcache j = s.xcache j := mget_mput_ne _ _ k j v h
@[simp] theorem State.por_setXcache (s : State) (k : Nat) (v : List Line) : (s.setXcache k v).por = s.por := rfl
@[simp] theorem State.tb_setXcache (s : State) (k : Nat) (v : List Line) : (s.setXcache k v).tb = s.tb := rfl
@[simp] theorem State.reg_setXcache (s : State) (k : Nat) (v : List Line) : (s.setXcache k v).reg = s.reg := rfl
@[simp] theorem State.mem_setXcache (s : State) (k : Nat) (v : List Line) : (s.setXcache k v).mem = s.mem := rfl
@[simp] theorem State.fab_setXcache (s : State) (k : Nat) (v : List Line) : (s.setXcache k v).fab = s.fab := rfl
@[simp] theorem State.ord_setXcache (s : State) (k : Nat) (v : List Line) : (s.setXcache k v).ord = s.ord := rfl
@[simp] theorem State.arb_setXcache (s : State) (k : Nat) (v : List Line) : (s.setXcache k v).arb = s.arb := rfl
@[simp] theorem State.pcl_setXcache (s : State) (k : Nat) (v : List Line) : (s.setXcache k v).pcl = s.pcl := rfl
@[simp] theorem State.qm_setXcache (s : State) (k : Nat) (v : List Line) : (s.setXcache k v).qm = s.qm := rfl
@[simp] theorem State.port_setXcache (s : State) (k : Nat) (v : List Line) : (s.setXcache k v).port = s.port := rfl
@[simp] theorem State.fn_setXcache (s : State) (k : Nat) (v : List Line) : (s.setXcache k v).fn = s.fn := rfl
@[simp] theorem State.err_setXcache (s : State) (k : Nat) (v : List Line) : (s.setXcache k v).err = s.err := rfl
@[simp] theorem State.pwr_setXcache (s : State) (k : Nat) (v : List Line) : (s.setXcache k v).pwr = s.pwr := rfl
@[simp] theorem State.boot_setXcache (s : State) (k : Nat) (v : List Line) : (s.setXcache k v).boot = s.boot := rfl
@[simp] theorem State.pending_setXcache (s : State) (k : Nat) (v : List Line) : (s.setXcache k v).pending = s.pending := rfl
@[simp] theorem State.free_setXcache (s : State) (k : Nat) (v : List Line) : (s.setXcache k v).free = s.free := rfl
@[simp] theorem State.out_setXcache (s : State) (k : Nat) (v : List Line) : (s.setXcache k v).out = s.out := rfl
@[simp] theorem State.xlt_misses_setXcache (s : State) (k : Nat) (v : List Line) : (s.setXcache k v).xlt.misses = s.xlt.misses := rfl
@[simp] theorem State.xlt_quar_setXcache (s : State) (k : Nat) (v : List Line) : (s.setXcache k v).xlt.quar = s.xlt.quar := rfl
@[simp] theorem State.xlt_probes_setXcache (s : State) (k : Nat) (v : List Line) : (s.setXcache k v).xlt.probes = s.xlt.probes := rfl
@[simp] theorem State.xlt_epoch_setXcache (s : State) (k : Nat) (v : List Line) : (s.setXcache k v).xlt.epoch = s.xlt.epoch := rfl
@[simp] theorem State.missList_setMissList (s : State) (k : Nat) (v : List Miss) :
    (s.setMissList k v).missList k = v := mget_mput_same _ _ k v
theorem State.missList_setMissList_of_ne (s : State) (k j : Nat) (v : List Miss) (h : j ≠ k) :
    (s.setMissList k v).missList j = s.missList j := mget_mput_ne _ _ k j v h
@[simp] theorem State.por_setMissList (s : State) (k : Nat) (v : List Miss) : (s.setMissList k v).por = s.por := rfl
@[simp] theorem State.tb_setMissList (s : State) (k : Nat) (v : List Miss) : (s.setMissList k v).tb = s.tb := rfl
@[simp] theorem State.reg_setMissList (s : State) (k : Nat) (v : List Miss) : (s.setMissList k v).reg = s.reg := rfl
@[simp] theorem State.mem_setMissList (s : State) (k : Nat) (v : List Miss) : (s.setMissList k v).mem = s.mem := rfl
@[simp] theorem State.fab_setMissList (s : State) (k : Nat) (v : List Miss) : (s.setMissList k v).fab = s.fab := rfl
@[simp] theorem State.ord_setMissList (s : State) (k : Nat) (v : List Miss) : (s.setMissList k v).ord = s.ord := rfl
@[simp] theorem State.arb_setMissList (s : State) (k : Nat) (v : List Miss) : (s.setMissList k v).arb = s.arb := rfl
@[simp] theorem State.pcl_setMissList (s : State) (k : Nat) (v : List Miss) : (s.setMissList k v).pcl = s.pcl := rfl
@[simp] theorem State.qm_setMissList (s : State) (k : Nat) (v : List Miss) : (s.setMissList k v).qm = s.qm := rfl
@[simp] theorem State.port_setMissList (s : State) (k : Nat) (v : List Miss) : (s.setMissList k v).port = s.port := rfl
@[simp] theorem State.fn_setMissList (s : State) (k : Nat) (v : List Miss) : (s.setMissList k v).fn = s.fn := rfl
@[simp] theorem State.err_setMissList (s : State) (k : Nat) (v : List Miss) : (s.setMissList k v).err = s.err := rfl
@[simp] theorem State.pwr_setMissList (s : State) (k : Nat) (v : List Miss) : (s.setMissList k v).pwr = s.pwr := rfl
@[simp] theorem State.boot_setMissList (s : State) (k : Nat) (v : List Miss) : (s.setMissList k v).boot = s.boot := rfl
@[simp] theorem State.pending_setMissList (s : State) (k : Nat) (v : List Miss) : (s.setMissList k v).pending = s.pending := rfl
@[simp] theorem State.free_setMissList (s : State) (k : Nat) (v : List Miss) : (s.setMissList k v).free = s.free := rfl
@[simp] theorem State.out_setMissList (s : State) (k : Nat) (v : List Miss) : (s.setMissList k v).out = s.out := rfl
@[simp] theorem State.xlt_cache_setMissList (s : State) (k : Nat) (v : List Miss) : (s.setMissList k v).xlt.cache = s.xlt.cache := rfl
@[simp] theorem State.xlt_quar_setMissList (s : State) (k : Nat) (v : List Miss) : (s.setMissList k v).xlt.quar = s.xlt.quar := rfl
@[simp] theorem State.xlt_probes_setMissList (s : State) (k : Nat) (v : List Miss) : (s.setMissList k v).xlt.probes = s.xlt.probes := rfl
@[simp] theorem State.xlt_epoch_setMissList (s : State) (k : Nat) (v : List Miss) : (s.setMissList k v).xlt.epoch = s.xlt.epoch := rfl
@[simp] theorem State.quarAt_setQuarAt (s : State) (k : Nat) (v : Bool) :
    (s.setQuarAt k v).quarAt k = v := mget_mput_same _ _ k v
theorem State.quarAt_setQuarAt_of_ne (s : State) (k j : Nat) (v : Bool) (h : j ≠ k) :
    (s.setQuarAt k v).quarAt j = s.quarAt j := mget_mput_ne _ _ k j v h
@[simp] theorem State.por_setQuarAt (s : State) (k : Nat) (v : Bool) : (s.setQuarAt k v).por = s.por := rfl
@[simp] theorem State.tb_setQuarAt (s : State) (k : Nat) (v : Bool) : (s.setQuarAt k v).tb = s.tb := rfl
@[simp] theorem State.reg_setQuarAt (s : State) (k : Nat) (v : Bool) : (s.setQuarAt k v).reg = s.reg := rfl
@[simp] theorem State.mem_setQuarAt (s : State) (k : Nat) (v : Bool) : (s.setQuarAt k v).mem = s.mem := rfl
@[simp] theorem State.fab_setQuarAt (s : State) (k : Nat) (v : Bool) : (s.setQuarAt k v).fab = s.fab := rfl
@[simp] theorem State.ord_setQuarAt (s : State) (k : Nat) (v : Bool) : (s.setQuarAt k v).ord = s.ord := rfl
@[simp] theorem State.arb_setQuarAt (s : State) (k : Nat) (v : Bool) : (s.setQuarAt k v).arb = s.arb := rfl
@[simp] theorem State.pcl_setQuarAt (s : State) (k : Nat) (v : Bool) : (s.setQuarAt k v).pcl = s.pcl := rfl
@[simp] theorem State.qm_setQuarAt (s : State) (k : Nat) (v : Bool) : (s.setQuarAt k v).qm = s.qm := rfl
@[simp] theorem State.port_setQuarAt (s : State) (k : Nat) (v : Bool) : (s.setQuarAt k v).port = s.port := rfl
@[simp] theorem State.fn_setQuarAt (s : State) (k : Nat) (v : Bool) : (s.setQuarAt k v).fn = s.fn := rfl
@[simp] theorem State.err_setQuarAt (s : State) (k : Nat) (v : Bool) : (s.setQuarAt k v).err = s.err := rfl
@[simp] theorem State.pwr_setQuarAt (s : State) (k : Nat) (v : Bool) : (s.setQuarAt k v).pwr = s.pwr := rfl
@[simp] theorem State.boot_setQuarAt (s : State) (k : Nat) (v : Bool) : (s.setQuarAt k v).boot = s.boot := rfl
@[simp] theorem State.pending_setQuarAt (s : State) (k : Nat) (v : Bool) : (s.setQuarAt k v).pending = s.pending := rfl
@[simp] theorem State.free_setQuarAt (s : State) (k : Nat) (v : Bool) : (s.setQuarAt k v).free = s.free := rfl
@[simp] theorem State.out_setQuarAt (s : State) (k : Nat) (v : Bool) : (s.setQuarAt k v).out = s.out := rfl
@[simp] theorem State.xlt_cache_setQuarAt (s : State) (k : Nat) (v : Bool) : (s.setQuarAt k v).xlt.cache = s.xlt.cache := rfl
@[simp] theorem State.xlt_misses_setQuarAt (s : State) (k : Nat) (v : Bool) : (s.setQuarAt k v).xlt.misses = s.xlt.misses := rfl
@[simp] theorem State.xlt_probes_setQuarAt (s : State) (k : Nat) (v : Bool) : (s.setQuarAt k v).xlt.probes = s.xlt.probes := rfl
@[simp] theorem State.xlt_epoch_setQuarAt (s : State) (k : Nat) (v : Bool) : (s.setQuarAt k v).xlt.epoch = s.xlt.epoch := rfl
@[simp] theorem State.probesAt_setProbesAt (s : State) (k : Nat) (v : List Probe) :
    (s.setProbesAt k v).probesAt k = v := mget_mput_same _ _ k v
theorem State.probesAt_setProbesAt_of_ne (s : State) (k j : Nat) (v : List Probe) (h : j ≠ k) :
    (s.setProbesAt k v).probesAt j = s.probesAt j := mget_mput_ne _ _ k j v h
@[simp] theorem State.por_setProbesAt (s : State) (k : Nat) (v : List Probe) : (s.setProbesAt k v).por = s.por := rfl
@[simp] theorem State.tb_setProbesAt (s : State) (k : Nat) (v : List Probe) : (s.setProbesAt k v).tb = s.tb := rfl
@[simp] theorem State.reg_setProbesAt (s : State) (k : Nat) (v : List Probe) : (s.setProbesAt k v).reg = s.reg := rfl
@[simp] theorem State.mem_setProbesAt (s : State) (k : Nat) (v : List Probe) : (s.setProbesAt k v).mem = s.mem := rfl
@[simp] theorem State.fab_setProbesAt (s : State) (k : Nat) (v : List Probe) : (s.setProbesAt k v).fab = s.fab := rfl
@[simp] theorem State.ord_setProbesAt (s : State) (k : Nat) (v : List Probe) : (s.setProbesAt k v).ord = s.ord := rfl
@[simp] theorem State.arb_setProbesAt (s : State) (k : Nat) (v : List Probe) : (s.setProbesAt k v).arb = s.arb := rfl
@[simp] theorem State.pcl_setProbesAt (s : State) (k : Nat) (v : List Probe) : (s.setProbesAt k v).pcl = s.pcl := rfl
@[simp] theorem State.qm_setProbesAt (s : State) (k : Nat) (v : List Probe) : (s.setProbesAt k v).qm = s.qm := rfl
@[simp] theorem State.port_setProbesAt (s : State) (k : Nat) (v : List Probe) : (s.setProbesAt k v).port = s.port := rfl
@[simp] theorem State.fn_setProbesAt (s : State) (k : Nat) (v : List Probe) : (s.setProbesAt k v).fn = s.fn := rfl
@[simp] theorem State.err_setProbesAt (s : State) (k : Nat) (v : List Probe) : (s.setProbesAt k v).err = s.err := rfl
@[simp] theorem State.pwr_setProbesAt (s : State) (k : Nat) (v : List Probe) : (s.setProbesAt k v).pwr = s.pwr := rfl
@[simp] theorem State.boot_setProbesAt (s : State) (k : Nat) (v : List Probe) : (s.setProbesAt k v).boot = s.boot := rfl
@[simp] theorem State.pending_setProbesAt (s : State) (k : Nat) (v : List Probe) : (s.setProbesAt k v).pending = s.pending := rfl
@[simp] theorem State.free_setProbesAt (s : State) (k : Nat) (v : List Probe) : (s.setProbesAt k v).free = s.free := rfl
@[simp] theorem State.out_setProbesAt (s : State) (k : Nat) (v : List Probe) : (s.setProbesAt k v).out = s.out := rfl
@[simp] theorem State.xlt_cache_setProbesAt (s : State) (k : Nat) (v : List Probe) : (s.setProbesAt k v).xlt.cache = s.xlt.cache := rfl
@[simp] theorem State.xlt_misses_setProbesAt (s : State) (k : Nat) (v : List Probe) : (s.setProbesAt k v).xlt.misses = s.xlt.misses := rfl
@[simp] theorem State.xlt_quar_setProbesAt (s : State) (k : Nat) (v : List Probe) : (s.setProbesAt k v).xlt.quar = s.xlt.quar := rfl
@[simp] theorem State.xlt_epoch_setProbesAt (s : State) (k : Nat) (v : List Probe) : (s.setProbesAt k v).xlt.epoch = s.xlt.epoch := rfl
@[simp] theorem State.epochAt_setEpochAt (s : State) (k : Nat) (v : Nat) :
    (s.setEpochAt k v).epochAt k = v := mget_mput_same _ _ k v
theorem State.epochAt_setEpochAt_of_ne (s : State) (k j : Nat) (v : Nat) (h : j ≠ k) :
    (s.setEpochAt k v).epochAt j = s.epochAt j := mget_mput_ne _ _ k j v h
@[simp] theorem State.por_setEpochAt (s : State) (k : Nat) (v : Nat) : (s.setEpochAt k v).por = s.por := rfl
@[simp] theorem State.tb_setEpochAt (s : State) (k : Nat) (v : Nat) : (s.setEpochAt k v).tb = s.tb := rfl
@[simp] theorem State.reg_setEpochAt (s : State) (k : Nat) (v : Nat) : (s.setEpochAt k v).reg = s.reg := rfl
@[simp] theorem State.mem_setEpochAt (s : State) (k : Nat) (v : Nat) : (s.setEpochAt k v).mem = s.mem := rfl
@[simp] theorem State.fab_setEpochAt (s : State) (k : Nat) (v : Nat) : (s.setEpochAt k v).fab = s.fab := rfl
@[simp] theorem State.ord_setEpochAt (s : State) (k : Nat) (v : Nat) : (s.setEpochAt k v).ord = s.ord := rfl
@[simp] theorem State.arb_setEpochAt (s : State) (k : Nat) (v : Nat) : (s.setEpochAt k v).arb = s.arb := rfl
@[simp] theorem State.pcl_setEpochAt (s : State) (k : Nat) (v : Nat) : (s.setEpochAt k v).pcl = s.pcl := rfl
@[simp] theorem State.qm_setEpochAt (s : State) (k : Nat) (v : Nat) : (s.setEpochAt k v).qm = s.qm := rfl
@[simp] theorem State.port_setEpochAt (s : State) (k : Nat) (v : Nat) : (s.setEpochAt k v).port = s.port := rfl
@[simp] theorem State.fn_setEpochAt (s : State) (k : Nat) (v : Nat) : (s.setEpochAt k v).fn = s.fn := rfl
@[simp] theorem State.err_setEpochAt (s : State) (k : Nat) (v : Nat) : (s.setEpochAt k v).err = s.err := rfl
@[simp] theorem State.pwr_setEpochAt (s : State) (k : Nat) (v : Nat) : (s.setEpochAt k v).pwr = s.pwr := rfl
@[simp] theorem State.boot_setEpochAt (s : State) (k : Nat) (v : Nat) : (s.setEpochAt k v).boot = s.boot := rfl
@[simp] theorem State.pending_setEpochAt (s : State) (k : Nat) (v : Nat) : (s.setEpochAt k v).pending = s.pending := rfl
@[simp] theorem State.free_setEpochAt (s : State) (k : Nat) (v : Nat) : (s.setEpochAt k v).free = s.free := rfl
@[simp] theorem State.out_setEpochAt (s : State) (k : Nat) (v : Nat) : (s.setEpochAt k v).out = s.out := rfl
@[simp] theorem State.xlt_cache_setEpochAt (s : State) (k : Nat) (v : Nat) : (s.setEpochAt k v).xlt.cache = s.xlt.cache := rfl
@[simp] theorem State.xlt_misses_setEpochAt (s : State) (k : Nat) (v : Nat) : (s.setEpochAt k v).xlt.misses = s.xlt.misses := rfl
@[simp] theorem State.xlt_quar_setEpochAt (s : State) (k : Nat) (v : Nat) : (s.setEpochAt k v).xlt.quar = s.xlt.quar := rfl
@[simp] theorem State.xlt_probes_setEpochAt (s : State) (k : Nat) (v : Nat) : (s.setEpochAt k v).xlt.probes = s.xlt.probes := rfl
@[simp] theorem State.hpi_setHpi (s : State) (k : Nat) (v : Hpi) :
    (s.setHpi k v).hpi k = v := mget_mput_same _ _ k v
theorem State.hpi_setHpi_of_ne (s : State) (k j : Nat) (v : Hpi) (h : j ≠ k) :
    (s.setHpi k v).hpi j = s.hpi j := mget_mput_ne _ _ k j v h
@[simp] theorem State.por_setHpi (s : State) (k : Nat) (v : Hpi) : (s.setHpi k v).por = s.por := rfl
@[simp] theorem State.tb_setHpi (s : State) (k : Nat) (v : Hpi) : (s.setHpi k v).tb = s.tb := rfl
@[simp] theorem State.reg_setHpi (s : State) (k : Nat) (v : Hpi) : (s.setHpi k v).reg = s.reg := rfl
@[simp] theorem State.mem_setHpi (s : State) (k : Nat) (v : Hpi) : (s.setHpi k v).mem = s.mem := rfl
@[simp] theorem State.fab_setHpi (s : State) (k : Nat) (v : Hpi) : (s.setHpi k v).fab = s.fab := rfl
@[simp] theorem State.ord_setHpi (s : State) (k : Nat) (v : Hpi) : (s.setHpi k v).ord = s.ord := rfl
@[simp] theorem State.arb_setHpi (s : State) (k : Nat) (v : Hpi) : (s.setHpi k v).arb = s.arb := rfl
@[simp] theorem State.pcl_setHpi (s : State) (k : Nat) (v : Hpi) : (s.setHpi k v).pcl = s.pcl := rfl
@[simp] theorem State.qm_setHpi (s : State) (k : Nat) (v : Hpi) : (s.setHpi k v).qm = s.qm := rfl
@[simp] theorem State.xlt_setHpi (s : State) (k : Nat) (v : Hpi) : (s.setHpi k v).xlt = s.xlt := rfl
@[simp] theorem State.fn_setHpi (s : State) (k : Nat) (v : Hpi) : (s.setHpi k v).fn = s.fn := rfl
@[simp] theorem State.err_setHpi (s : State) (k : Nat) (v : Hpi) : (s.setHpi k v).err = s.err := rfl
@[simp] theorem State.pwr_setHpi (s : State) (k : Nat) (v : Hpi) : (s.setHpi k v).pwr = s.pwr := rfl
@[simp] theorem State.boot_setHpi (s : State) (k : Nat) (v : Hpi) : (s.setHpi k v).boot = s.boot := rfl
@[simp] theorem State.pending_setHpi (s : State) (k : Nat) (v : Hpi) : (s.setHpi k v).pending = s.pending := rfl
@[simp] theorem State.free_setHpi (s : State) (k : Nat) (v : Hpi) : (s.setHpi k v).free = s.free := rfl
@[simp] theorem State.out_setHpi (s : State) (k : Nat) (v : Hpi) : (s.setHpi k v).out = s.out := rfl
@[simp] theorem State.port_cfg_setHpi (s : State) (k : Nat) (v : Hpi) : (s.setHpi k v).port.cfg = s.port.cfg := rfl
@[simp] theorem State.port_tags_setHpi (s : State) (k : Nat) (v : Hpi) : (s.setHpi k v).port.tags = s.port.tags := rfl
@[simp] theorem State.port_lpis_setHpi (s : State) (k : Nat) (v : Hpi) : (s.setHpi k v).port.lpis = s.port.lpis := rfl
@[simp] theorem State.port_slots_setHpi (s : State) (k : Nat) (v : Hpi) : (s.setHpi k v).port.slots = s.port.slots := rfl
@[simp] theorem State.cfgAt_setCfgAt (s : State) (k : Nat) (v : Option Nat) :
    (s.setCfgAt k v).cfgAt k = v := mget_mput_same _ _ k v
theorem State.cfgAt_setCfgAt_of_ne (s : State) (k j : Nat) (v : Option Nat) (h : j ≠ k) :
    (s.setCfgAt k v).cfgAt j = s.cfgAt j := mget_mput_ne _ _ k j v h
@[simp] theorem State.por_setCfgAt (s : State) (k : Nat) (v : Option Nat) : (s.setCfgAt k v).por = s.por := rfl
@[simp] theorem State.tb_setCfgAt (s : State) (k : Nat) (v : Option Nat) : (s.setCfgAt k v).tb = s.tb := rfl
@[simp] theorem State.reg_setCfgAt (s : State) (k : Nat) (v : Option Nat) : (s.setCfgAt k v).reg = s.reg := rfl
@[simp] theorem State.mem_setCfgAt (s : State) (k : Nat) (v : Option Nat) : (s.setCfgAt k v).mem = s.mem := rfl
@[simp] theorem State.fab_setCfgAt (s : State) (k : Nat) (v : Option Nat) : (s.setCfgAt k v).fab = s.fab := rfl
@[simp] theorem State.ord_setCfgAt (s : State) (k : Nat) (v : Option Nat) : (s.setCfgAt k v).ord = s.ord := rfl
@[simp] theorem State.arb_setCfgAt (s : State) (k : Nat) (v : Option Nat) : (s.setCfgAt k v).arb = s.arb := rfl
@[simp] theorem State.pcl_setCfgAt (s : State) (k : Nat) (v : Option Nat) : (s.setCfgAt k v).pcl = s.pcl := rfl
@[simp] theorem State.qm_setCfgAt (s : State) (k : Nat) (v : Option Nat) : (s.setCfgAt k v).qm = s.qm := rfl
@[simp] theorem State.xlt_setCfgAt (s : State) (k : Nat) (v : Option Nat) : (s.setCfgAt k v).xlt = s.xlt := rfl
@[simp] theorem State.fn_setCfgAt (s : State) (k : Nat) (v : Option Nat) : (s.setCfgAt k v).fn = s.fn := rfl
@[simp] theorem State.err_setCfgAt (s : State) (k : Nat) (v : Option Nat) : (s.setCfgAt k v).err = s.err := rfl
@[simp] theorem State.pwr_setCfgAt (s : State) (k : Nat) (v : Option Nat) : (s.setCfgAt k v).pwr = s.pwr := rfl
@[simp] theorem State.boot_setCfgAt (s : State) (k : Nat) (v : Option Nat) : (s.setCfgAt k v).boot = s.boot := rfl
@[simp] theorem State.pending_setCfgAt (s : State) (k : Nat) (v : Option Nat) : (s.setCfgAt k v).pending = s.pending := rfl
@[simp] theorem State.free_setCfgAt (s : State) (k : Nat) (v : Option Nat) : (s.setCfgAt k v).free = s.free := rfl
@[simp] theorem State.out_setCfgAt (s : State) (k : Nat) (v : Option Nat) : (s.setCfgAt k v).out = s.out := rfl
@[simp] theorem State.port_hpis_setCfgAt (s : State) (k : Nat) (v : Option Nat) : (s.setCfgAt k v).port.hpis = s.port.hpis := rfl
@[simp] theorem State.port_tags_setCfgAt (s : State) (k : Nat) (v : Option Nat) : (s.setCfgAt k v).port.tags = s.port.tags := rfl
@[simp] theorem State.port_lpis_setCfgAt (s : State) (k : Nat) (v : Option Nat) : (s.setCfgAt k v).port.lpis = s.port.lpis := rfl
@[simp] theorem State.port_slots_setCfgAt (s : State) (k : Nat) (v : Option Nat) : (s.setCfgAt k v).port.slots = s.port.slots := rfl
@[simp] theorem State.tag_setTag (s : State) (k : Nat) (v : Tag) :
    (s.setTag k v).tag k = v := mget_mput_same _ _ k v
theorem State.tag_setTag_of_ne (s : State) (k j : Nat) (v : Tag) (h : j ≠ k) :
    (s.setTag k v).tag j = s.tag j := mget_mput_ne _ _ k j v h
@[simp] theorem State.por_setTag (s : State) (k : Nat) (v : Tag) : (s.setTag k v).por = s.por := rfl
@[simp] theorem State.tb_setTag (s : State) (k : Nat) (v : Tag) : (s.setTag k v).tb = s.tb := rfl
@[simp] theorem State.reg_setTag (s : State) (k : Nat) (v : Tag) : (s.setTag k v).reg = s.reg := rfl
@[simp] theorem State.mem_setTag (s : State) (k : Nat) (v : Tag) : (s.setTag k v).mem = s.mem := rfl
@[simp] theorem State.fab_setTag (s : State) (k : Nat) (v : Tag) : (s.setTag k v).fab = s.fab := rfl
@[simp] theorem State.ord_setTag (s : State) (k : Nat) (v : Tag) : (s.setTag k v).ord = s.ord := rfl
@[simp] theorem State.arb_setTag (s : State) (k : Nat) (v : Tag) : (s.setTag k v).arb = s.arb := rfl
@[simp] theorem State.pcl_setTag (s : State) (k : Nat) (v : Tag) : (s.setTag k v).pcl = s.pcl := rfl
@[simp] theorem State.qm_setTag (s : State) (k : Nat) (v : Tag) : (s.setTag k v).qm = s.qm := rfl
@[simp] theorem State.xlt_setTag (s : State) (k : Nat) (v : Tag) : (s.setTag k v).xlt = s.xlt := rfl
@[simp] theorem State.fn_setTag (s : State) (k : Nat) (v : Tag) : (s.setTag k v).fn = s.fn := rfl
@[simp] theorem State.err_setTag (s : State) (k : Nat) (v : Tag) : (s.setTag k v).err = s.err := rfl
@[simp] theorem State.pwr_setTag (s : State) (k : Nat) (v : Tag) : (s.setTag k v).pwr = s.pwr := rfl
@[simp] theorem State.boot_setTag (s : State) (k : Nat) (v : Tag) : (s.setTag k v).boot = s.boot := rfl
@[simp] theorem State.pending_setTag (s : State) (k : Nat) (v : Tag) : (s.setTag k v).pending = s.pending := rfl
@[simp] theorem State.free_setTag (s : State) (k : Nat) (v : Tag) : (s.setTag k v).free = s.free := rfl
@[simp] theorem State.out_setTag (s : State) (k : Nat) (v : Tag) : (s.setTag k v).out = s.out := rfl
@[simp] theorem State.port_hpis_setTag (s : State) (k : Nat) (v : Tag) : (s.setTag k v).port.hpis = s.port.hpis := rfl
@[simp] theorem State.port_cfg_setTag (s : State) (k : Nat) (v : Tag) : (s.setTag k v).port.cfg = s.port.cfg := rfl
@[simp] theorem State.port_lpis_setTag (s : State) (k : Nat) (v : Tag) : (s.setTag k v).port.lpis = s.port.lpis := rfl
@[simp] theorem State.port_slots_setTag (s : State) (k : Nat) (v : Tag) : (s.setTag k v).port.slots = s.port.slots := rfl
@[simp] theorem State.lpi_setLpi (s : State) (k : Nat) (v : Lpi) :
    (s.setLpi k v).lpi k = v := mget_mput_same _ _ k v
theorem State.lpi_setLpi_of_ne (s : State) (k j : Nat) (v : Lpi) (h : j ≠ k) :
    (s.setLpi k v).lpi j = s.lpi j := mget_mput_ne _ _ k j v h
@[simp] theorem State.por_setLpi (s : State) (k : Nat) (v : Lpi) : (s.setLpi k v).por = s.por := rfl
@[simp] theorem State.tb_setLpi (s : State) (k : Nat) (v : Lpi) : (s.setLpi k v).tb = s.tb := rfl
@[simp] theorem State.reg_setLpi (s : State) (k : Nat) (v : Lpi) : (s.setLpi k v).reg = s.reg := rfl
@[simp] theorem State.mem_setLpi (s : State) (k : Nat) (v : Lpi) : (s.setLpi k v).mem = s.mem := rfl
@[simp] theorem State.fab_setLpi (s : State) (k : Nat) (v : Lpi) : (s.setLpi k v).fab = s.fab := rfl
@[simp] theorem State.ord_setLpi (s : State) (k : Nat) (v : Lpi) : (s.setLpi k v).ord = s.ord := rfl
@[simp] theorem State.arb_setLpi (s : State) (k : Nat) (v : Lpi) : (s.setLpi k v).arb = s.arb := rfl
@[simp] theorem State.pcl_setLpi (s : State) (k : Nat) (v : Lpi) : (s.setLpi k v).pcl = s.pcl := rfl
@[simp] theorem State.qm_setLpi (s : State) (k : Nat) (v : Lpi) : (s.setLpi k v).qm = s.qm := rfl
@[simp] theorem State.xlt_setLpi (s : State) (k : Nat) (v : Lpi) : (s.setLpi k v).xlt = s.xlt := rfl
@[simp] theorem State.fn_setLpi (s : State) (k : Nat) (v : Lpi) : (s.setLpi k v).fn = s.fn := rfl
@[simp] theorem State.err_setLpi (s : State) (k : Nat) (v : Lpi) : (s.setLpi k v).err = s.err := rfl
@[simp] theorem State.pwr_setLpi (s : State) (k : Nat) (v : Lpi) : (s.setLpi k v).pwr = s.pwr := rfl
@[simp] theorem State.boot_setLpi (s : State) (k : Nat) (v : Lpi) : (s.setLpi k v).boot = s.boot := rfl
@[simp] theorem State.pending_setLpi (s : State) (k : Nat) (v : Lpi) : (s.setLpi k v).pending = s.pending := rfl
@[simp] theorem State.free_setLpi (s : State) (k : Nat) (v : Lpi) : (s.setLpi k v).free = s.free := rfl
@[simp] theorem State.out_setLpi (s : State) (k : Nat) (v : Lpi) : (s.setLpi k v).out = s.out := rfl
@[simp] theorem State.port_hpis_setLpi (s : State) (k : Nat) (v : Lpi) : (s.setLpi k v).port.hpis = s.port.hpis := rfl
@[simp] theorem State.port_cfg_setLpi (s : State) (k : Nat) (v : Lpi) : (s.setLpi k v).port.cfg = s.port.cfg := rfl
@[simp] theorem State.port_tags_setLpi (s : State) (k : Nat) (v : Lpi) : (s.setLpi k v).port.tags = s.port.tags := rfl
@[simp] theorem State.port_slots_setLpi (s : State) (k : Nat) (v : Lpi) : (s.setLpi k v).port.slots = s.port.slots := rfl
@[simp] theorem State.slotWord_setSlotWord (s : State) (k : Nat) (v : Option Word) :
    (s.setSlotWord k v).slotWord k = v := mget_mput_same _ _ k v
theorem State.slotWord_setSlotWord_of_ne (s : State) (k j : Nat) (v : Option Word) (h : j ≠ k) :
    (s.setSlotWord k v).slotWord j = s.slotWord j := mget_mput_ne _ _ k j v h
@[simp] theorem State.por_setSlotWord (s : State) (k : Nat) (v : Option Word) : (s.setSlotWord k v).por = s.por := rfl
@[simp] theorem State.tb_setSlotWord (s : State) (k : Nat) (v : Option Word) : (s.setSlotWord k v).tb = s.tb := rfl
@[simp] theorem State.reg_setSlotWord (s : State) (k : Nat) (v : Option Word) : (s.setSlotWord k v).reg = s.reg := rfl
@[simp] theorem State.mem_setSlotWord (s : State) (k : Nat) (v : Option Word) : (s.setSlotWord k v).mem = s.mem := rfl
@[simp] theorem State.fab_setSlotWord (s : State) (k : Nat) (v : Option Word) : (s.setSlotWord k v).fab = s.fab := rfl
@[simp] theorem State.ord_setSlotWord (s : State) (k : Nat) (v : Option Word) : (s.setSlotWord k v).ord = s.ord := rfl
@[simp] theorem State.arb_setSlotWord (s : State) (k : Nat) (v : Option Word) : (s.setSlotWord k v).arb = s.arb := rfl
@[simp] theorem State.pcl_setSlotWord (s : State) (k : Nat) (v : Option Word) : (s.setSlotWord k v).pcl = s.pcl := rfl
@[simp] theorem State.qm_setSlotWord (s : State) (k : Nat) (v : Option Word) : (s.setSlotWord k v).qm = s.qm := rfl
@[simp] theorem State.xlt_setSlotWord (s : State) (k : Nat) (v : Option Word) : (s.setSlotWord k v).xlt = s.xlt := rfl
@[simp] theorem State.fn_setSlotWord (s : State) (k : Nat) (v : Option Word) : (s.setSlotWord k v).fn = s.fn := rfl
@[simp] theorem State.err_setSlotWord (s : State) (k : Nat) (v : Option Word) : (s.setSlotWord k v).err = s.err := rfl
@[simp] theorem State.pwr_setSlotWord (s : State) (k : Nat) (v : Option Word) : (s.setSlotWord k v).pwr = s.pwr := rfl
@[simp] theorem State.boot_setSlotWord (s : State) (k : Nat) (v : Option Word) : (s.setSlotWord k v).boot = s.boot := rfl
@[simp] theorem State.pending_setSlotWord (s : State) (k : Nat) (v : Option Word) : (s.setSlotWord k v).pending = s.pending := rfl
@[simp] theorem State.free_setSlotWord (s : State) (k : Nat) (v : Option Word) : (s.setSlotWord k v).free = s.free := rfl
@[simp] theorem State.out_setSlotWord (s : State) (k : Nat) (v : Option Word) : (s.setSlotWord k v).out = s.out := rfl
@[simp] theorem State.port_hpis_setSlotWord (s : State) (k : Nat) (v : Option Word) : (s.setSlotWord k v).port.hpis = s.port.hpis := rfl
@[simp] theorem State.port_cfg_setSlotWord (s : State) (k : Nat) (v : Option Word) : (s.setSlotWord k v).port.cfg = s.port.cfg := rfl
@[simp] theorem State.port_tags_setSlotWord (s : State) (k : Nat) (v : Option Word) : (s.setSlotWord k v).port.tags = s.port.tags := rfl
@[simp] theorem State.port_lpis_setSlotWord (s : State) (k : Nat) (v : Option Word) : (s.setSlotWord k v).port.lpis = s.port.lpis := rfl
@[simp] theorem State.vec_setVec (s : State) (k : Nat) (v : Vec) :
    (s.setVec k v).vec k = v := mget_mput_same _ _ k v
theorem State.vec_setVec_of_ne (s : State) (k j : Nat) (v : Vec) (h : j ≠ k) :
    (s.setVec k v).vec j = s.vec j := mget_mput_ne _ _ k j v h
@[simp] theorem State.por_setVec (s : State) (k : Nat) (v : Vec) : (s.setVec k v).por = s.por := rfl
@[simp] theorem State.tb_setVec (s : State) (k : Nat) (v : Vec) : (s.setVec k v).tb = s.tb := rfl
@[simp] theorem State.reg_setVec (s : State) (k : Nat) (v : Vec) : (s.setVec k v).reg = s.reg := rfl
@[simp] theorem State.mem_setVec (s : State) (k : Nat) (v : Vec) : (s.setVec k v).mem = s.mem := rfl
@[simp] theorem State.fab_setVec (s : State) (k : Nat) (v : Vec) : (s.setVec k v).fab = s.fab := rfl
@[simp] theorem State.ord_setVec (s : State) (k : Nat) (v : Vec) : (s.setVec k v).ord = s.ord := rfl
@[simp] theorem State.arb_setVec (s : State) (k : Nat) (v : Vec) : (s.setVec k v).arb = s.arb := rfl
@[simp] theorem State.pcl_setVec (s : State) (k : Nat) (v : Vec) : (s.setVec k v).pcl = s.pcl := rfl
@[simp] theorem State.qm_setVec (s : State) (k : Nat) (v : Vec) : (s.setVec k v).qm = s.qm := rfl
@[simp] theorem State.xlt_setVec (s : State) (k : Nat) (v : Vec) : (s.setVec k v).xlt = s.xlt := rfl
@[simp] theorem State.port_setVec (s : State) (k : Nat) (v : Vec) : (s.setVec k v).port = s.port := rfl
@[simp] theorem State.err_setVec (s : State) (k : Nat) (v : Vec) : (s.setVec k v).err = s.err := rfl
@[simp] theorem State.pwr_setVec (s : State) (k : Nat) (v : Vec) : (s.setVec k v).pwr = s.pwr := rfl
@[simp] theorem State.boot_setVec (s : State) (k : Nat) (v : Vec) : (s.setVec k v).boot = s.boot := rfl
@[simp] theorem State.pending_setVec (s : State) (k : Nat) (v : Vec) : (s.setVec k v).pending = s.pending := rfl
@[simp] theorem State.free_setVec (s : State) (k : Nat) (v : Vec) : (s.setVec k v).free = s.free := rfl
@[simp] theorem State.out_setVec (s : State) (k : Nat) (v : Vec) : (s.setVec k v).out = s.out := rfl
@[simp] theorem State.fn_resets_setVec (s : State) (k : Nat) (v : Vec) : (s.setVec k v).fn.resets = s.fn.resets := rfl
@[simp] theorem State.fn_fenced_setVec (s : State) (k : Nat) (v : Vec) : (s.setVec k v).fn.fenced = s.fn.fenced := rfl
@[simp] theorem State.fn_notices_setVec (s : State) (k : Nat) (v : Vec) : (s.setVec k v).fn.notices = s.fn.notices := rfl
@[simp] theorem State.fnReset_setFnReset (s : State) (k : Nat) (v : Option FnReset) :
    (s.setFnReset k v).fnReset k = v := mget_mput_same _ _ k v
theorem State.fnReset_setFnReset_of_ne (s : State) (k j : Nat) (v : Option FnReset) (h : j ≠ k) :
    (s.setFnReset k v).fnReset j = s.fnReset j := mget_mput_ne _ _ k j v h
@[simp] theorem State.por_setFnReset (s : State) (k : Nat) (v : Option FnReset) : (s.setFnReset k v).por = s.por := rfl
@[simp] theorem State.tb_setFnReset (s : State) (k : Nat) (v : Option FnReset) : (s.setFnReset k v).tb = s.tb := rfl
@[simp] theorem State.reg_setFnReset (s : State) (k : Nat) (v : Option FnReset) : (s.setFnReset k v).reg = s.reg := rfl
@[simp] theorem State.mem_setFnReset (s : State) (k : Nat) (v : Option FnReset) : (s.setFnReset k v).mem = s.mem := rfl
@[simp] theorem State.fab_setFnReset (s : State) (k : Nat) (v : Option FnReset) : (s.setFnReset k v).fab = s.fab := rfl
@[simp] theorem State.ord_setFnReset (s : State) (k : Nat) (v : Option FnReset) : (s.setFnReset k v).ord = s.ord := rfl
@[simp] theorem State.arb_setFnReset (s : State) (k : Nat) (v : Option FnReset) : (s.setFnReset k v).arb = s.arb := rfl
@[simp] theorem State.pcl_setFnReset (s : State) (k : Nat) (v : Option FnReset) : (s.setFnReset k v).pcl = s.pcl := rfl
@[simp] theorem State.qm_setFnReset (s : State) (k : Nat) (v : Option FnReset) : (s.setFnReset k v).qm = s.qm := rfl
@[simp] theorem State.xlt_setFnReset (s : State) (k : Nat) (v : Option FnReset) : (s.setFnReset k v).xlt = s.xlt := rfl
@[simp] theorem State.port_setFnReset (s : State) (k : Nat) (v : Option FnReset) : (s.setFnReset k v).port = s.port := rfl
@[simp] theorem State.err_setFnReset (s : State) (k : Nat) (v : Option FnReset) : (s.setFnReset k v).err = s.err := rfl
@[simp] theorem State.pwr_setFnReset (s : State) (k : Nat) (v : Option FnReset) : (s.setFnReset k v).pwr = s.pwr := rfl
@[simp] theorem State.boot_setFnReset (s : State) (k : Nat) (v : Option FnReset) : (s.setFnReset k v).boot = s.boot := rfl
@[simp] theorem State.pending_setFnReset (s : State) (k : Nat) (v : Option FnReset) : (s.setFnReset k v).pending = s.pending := rfl
@[simp] theorem State.free_setFnReset (s : State) (k : Nat) (v : Option FnReset) : (s.setFnReset k v).free = s.free := rfl
@[simp] theorem State.out_setFnReset (s : State) (k : Nat) (v : Option FnReset) : (s.setFnReset k v).out = s.out := rfl
@[simp] theorem State.fn_vecs_setFnReset (s : State) (k : Nat) (v : Option FnReset) : (s.setFnReset k v).fn.vecs = s.fn.vecs := rfl
@[simp] theorem State.fn_fenced_setFnReset (s : State) (k : Nat) (v : Option FnReset) : (s.setFnReset k v).fn.fenced = s.fn.fenced := rfl
@[simp] theorem State.fn_notices_setFnReset (s : State) (k : Nat) (v : Option FnReset) : (s.setFnReset k v).fn.notices = s.fn.notices := rfl
@[simp] theorem State.fenced_setFenced (s : State) (k : Nat) (v : Bool) :
    (s.setFenced k v).fenced k = v := mget_mput_same _ _ k v
theorem State.fenced_setFenced_of_ne (s : State) (k j : Nat) (v : Bool) (h : j ≠ k) :
    (s.setFenced k v).fenced j = s.fenced j := mget_mput_ne _ _ k j v h
@[simp] theorem State.por_setFenced (s : State) (k : Nat) (v : Bool) : (s.setFenced k v).por = s.por := rfl
@[simp] theorem State.tb_setFenced (s : State) (k : Nat) (v : Bool) : (s.setFenced k v).tb = s.tb := rfl
@[simp] theorem State.reg_setFenced (s : State) (k : Nat) (v : Bool) : (s.setFenced k v).reg = s.reg := rfl
@[simp] theorem State.mem_setFenced (s : State) (k : Nat) (v : Bool) : (s.setFenced k v).mem = s.mem := rfl
@[simp] theorem State.fab_setFenced (s : State) (k : Nat) (v : Bool) : (s.setFenced k v).fab = s.fab := rfl
@[simp] theorem State.ord_setFenced (s : State) (k : Nat) (v : Bool) : (s.setFenced k v).ord = s.ord := rfl
@[simp] theorem State.arb_setFenced (s : State) (k : Nat) (v : Bool) : (s.setFenced k v).arb = s.arb := rfl
@[simp] theorem State.pcl_setFenced (s : State) (k : Nat) (v : Bool) : (s.setFenced k v).pcl = s.pcl := rfl
@[simp] theorem State.qm_setFenced (s : State) (k : Nat) (v : Bool) : (s.setFenced k v).qm = s.qm := rfl
@[simp] theorem State.xlt_setFenced (s : State) (k : Nat) (v : Bool) : (s.setFenced k v).xlt = s.xlt := rfl
@[simp] theorem State.port_setFenced (s : State) (k : Nat) (v : Bool) : (s.setFenced k v).port = s.port := rfl
@[simp] theorem State.err_setFenced (s : State) (k : Nat) (v : Bool) : (s.setFenced k v).err = s.err := rfl
@[simp] theorem State.pwr_setFenced (s : State) (k : Nat) (v : Bool) : (s.setFenced k v).pwr = s.pwr := rfl
@[simp] theorem State.boot_setFenced (s : State) (k : Nat) (v : Bool) : (s.setFenced k v).boot = s.boot := rfl
@[simp] theorem State.pending_setFenced (s : State) (k : Nat) (v : Bool) : (s.setFenced k v).pending = s.pending := rfl
@[simp] theorem State.free_setFenced (s : State) (k : Nat) (v : Bool) : (s.setFenced k v).free = s.free := rfl
@[simp] theorem State.out_setFenced (s : State) (k : Nat) (v : Bool) : (s.setFenced k v).out = s.out := rfl
@[simp] theorem State.fn_vecs_setFenced (s : State) (k : Nat) (v : Bool) : (s.setFenced k v).fn.vecs = s.fn.vecs := rfl
@[simp] theorem State.fn_resets_setFenced (s : State) (k : Nat) (v : Bool) : (s.setFenced k v).fn.resets = s.fn.resets := rfl
@[simp] theorem State.fn_notices_setFenced (s : State) (k : Nat) (v : Bool) : (s.setFenced k v).fn.notices = s.fn.notices := rfl
@[simp] theorem State.notices_setNotices (s : State) (k : Nat) (v : List Nat) :
    (s.setNotices k v).notices k = v := mget_mput_same _ _ k v
theorem State.notices_setNotices_of_ne (s : State) (k j : Nat) (v : List Nat) (h : j ≠ k) :
    (s.setNotices k v).notices j = s.notices j := mget_mput_ne _ _ k j v h
@[simp] theorem State.por_setNotices (s : State) (k : Nat) (v : List Nat) : (s.setNotices k v).por = s.por := rfl
@[simp] theorem State.tb_setNotices (s : State) (k : Nat) (v : List Nat) : (s.setNotices k v).tb = s.tb := rfl
@[simp] theorem State.reg_setNotices (s : State) (k : Nat) (v : List Nat) : (s.setNotices k v).reg = s.reg := rfl
@[simp] theorem State.mem_setNotices (s : State) (k : Nat) (v : List Nat) : (s.setNotices k v).mem = s.mem := rfl
@[simp] theorem State.fab_setNotices (s : State) (k : Nat) (v : List Nat) : (s.setNotices k v).fab = s.fab := rfl
@[simp] theorem State.ord_setNotices (s : State) (k : Nat) (v : List Nat) : (s.setNotices k v).ord = s.ord := rfl
@[simp] theorem State.arb_setNotices (s : State) (k : Nat) (v : List Nat) : (s.setNotices k v).arb = s.arb := rfl
@[simp] theorem State.pcl_setNotices (s : State) (k : Nat) (v : List Nat) : (s.setNotices k v).pcl = s.pcl := rfl
@[simp] theorem State.qm_setNotices (s : State) (k : Nat) (v : List Nat) : (s.setNotices k v).qm = s.qm := rfl
@[simp] theorem State.xlt_setNotices (s : State) (k : Nat) (v : List Nat) : (s.setNotices k v).xlt = s.xlt := rfl
@[simp] theorem State.port_setNotices (s : State) (k : Nat) (v : List Nat) : (s.setNotices k v).port = s.port := rfl
@[simp] theorem State.err_setNotices (s : State) (k : Nat) (v : List Nat) : (s.setNotices k v).err = s.err := rfl
@[simp] theorem State.pwr_setNotices (s : State) (k : Nat) (v : List Nat) : (s.setNotices k v).pwr = s.pwr := rfl
@[simp] theorem State.boot_setNotices (s : State) (k : Nat) (v : List Nat) : (s.setNotices k v).boot = s.boot := rfl
@[simp] theorem State.pending_setNotices (s : State) (k : Nat) (v : List Nat) : (s.setNotices k v).pending = s.pending := rfl
@[simp] theorem State.free_setNotices (s : State) (k : Nat) (v : List Nat) : (s.setNotices k v).free = s.free := rfl
@[simp] theorem State.out_setNotices (s : State) (k : Nat) (v : List Nat) : (s.setNotices k v).out = s.out := rfl
@[simp] theorem State.fn_vecs_setNotices (s : State) (k : Nat) (v : List Nat) : (s.setNotices k v).fn.vecs = s.fn.vecs := rfl
@[simp] theorem State.fn_resets_setNotices (s : State) (k : Nat) (v : List Nat) : (s.setNotices k v).fn.resets = s.fn.resets := rfl
@[simp] theorem State.fn_fenced_setNotices (s : State) (k : Nat) (v : List Nat) : (s.setNotices k v).fn.fenced = s.fn.fenced := rfl
@[simp] theorem State.unread_setUnread (s : State) (k : Nat) (v : Bool) :
    (s.setUnread k v).unread k = v := mget_mput_same _ _ k v
theorem State.unread_setUnread_of_ne (s : State) (k j : Nat) (v : Bool) (h : j ≠ k) :
    (s.setUnread k v).unread j = s.unread j := mget_mput_ne _ _ k j v h
@[simp] theorem State.por_setUnread (s : State) (k : Nat) (v : Bool) : (s.setUnread k v).por = s.por := rfl
@[simp] theorem State.tb_setUnread (s : State) (k : Nat) (v : Bool) : (s.setUnread k v).tb = s.tb := rfl
@[simp] theorem State.reg_setUnread (s : State) (k : Nat) (v : Bool) : (s.setUnread k v).reg = s.reg := rfl
@[simp] theorem State.mem_setUnread (s : State) (k : Nat) (v : Bool) : (s.setUnread k v).mem = s.mem := rfl
@[simp] theorem State.fab_setUnread (s : State) (k : Nat) (v : Bool) : (s.setUnread k v).fab = s.fab := rfl
@[simp] theorem State.ord_setUnread (s : State) (k : Nat) (v : Bool) : (s.setUnread k v).ord = s.ord := rfl
@[simp] theorem State.arb_setUnread (s : State) (k : Nat) (v : Bool) : (s.setUnread k v).arb = s.arb := rfl
@[simp] theorem State.pcl_setUnread (s : State) (k : Nat) (v : Bool) : (s.setUnread k v).pcl = s.pcl := rfl
@[simp] theorem State.qm_setUnread (s : State) (k : Nat) (v : Bool) : (s.setUnread k v).qm = s.qm := rfl
@[simp] theorem State.xlt_setUnread (s : State) (k : Nat) (v : Bool) : (s.setUnread k v).xlt = s.xlt := rfl
@[simp] theorem State.port_setUnread (s : State) (k : Nat) (v : Bool) : (s.setUnread k v).port = s.port := rfl
@[simp] theorem State.fn_setUnread (s : State) (k : Nat) (v : Bool) : (s.setUnread k v).fn = s.fn := rfl
@[simp] theorem State.pwr_setUnread (s : State) (k : Nat) (v : Bool) : (s.setUnread k v).pwr = s.pwr := rfl
@[simp] theorem State.boot_setUnread (s : State) (k : Nat) (v : Bool) : (s.setUnread k v).boot = s.boot := rfl
@[simp] theorem State.pending_setUnread (s : State) (k : Nat) (v : Bool) : (s.setUnread k v).pending = s.pending := rfl
@[simp] theorem State.free_setUnread (s : State) (k : Nat) (v : Bool) : (s.setUnread k v).free = s.free := rfl
@[simp] theorem State.out_setUnread (s : State) (k : Nat) (v : Bool) : (s.setUnread k v).out = s.out := rfl
@[simp] theorem State.err_scrubAt_setUnread (s : State) (k : Nat) (v : Bool) : (s.setUnread k v).err.scrubAt = s.err.scrubAt := rfl
@[simp] theorem State.err_psScrubAt_setUnread (s : State) (k : Nat) (v : Bool) : (s.setUnread k v).err.psScrubAt = s.err.psScrubAt := rfl
@[simp] theorem State.err_pktInj_setUnread (s : State) (k : Nat) (v : Bool) : (s.setUnread k v).err.pktInj = s.err.pktInj := rfl
@[simp] theorem State.err_lastCorr_setUnread (s : State) (k : Nat) (v : Bool) : (s.setUnread k v).err.lastCorr = s.err.lastCorr := rfl
@[simp] theorem State.err_ringOver_setUnread (s : State) (k : Nat) (v : Bool) : (s.setUnread k v).err.ringOver = s.err.ringOver := rfl
@[simp] theorem State.scrubAt_setScrubAt (s : State) (k : Nat) (v : Nat) :
    (s.setScrubAt k v).scrubAt k = v := mget_mput_same _ _ k v
theorem State.scrubAt_setScrubAt_of_ne (s : State) (k j : Nat) (v : Nat) (h : j ≠ k) :
    (s.setScrubAt k v).scrubAt j = s.scrubAt j := mget_mput_ne _ _ k j v h
@[simp] theorem State.por_setScrubAt (s : State) (k : Nat) (v : Nat) : (s.setScrubAt k v).por = s.por := rfl
@[simp] theorem State.tb_setScrubAt (s : State) (k : Nat) (v : Nat) : (s.setScrubAt k v).tb = s.tb := rfl
@[simp] theorem State.reg_setScrubAt (s : State) (k : Nat) (v : Nat) : (s.setScrubAt k v).reg = s.reg := rfl
@[simp] theorem State.mem_setScrubAt (s : State) (k : Nat) (v : Nat) : (s.setScrubAt k v).mem = s.mem := rfl
@[simp] theorem State.fab_setScrubAt (s : State) (k : Nat) (v : Nat) : (s.setScrubAt k v).fab = s.fab := rfl
@[simp] theorem State.ord_setScrubAt (s : State) (k : Nat) (v : Nat) : (s.setScrubAt k v).ord = s.ord := rfl
@[simp] theorem State.arb_setScrubAt (s : State) (k : Nat) (v : Nat) : (s.setScrubAt k v).arb = s.arb := rfl
@[simp] theorem State.pcl_setScrubAt (s : State) (k : Nat) (v : Nat) : (s.setScrubAt k v).pcl = s.pcl := rfl
@[simp] theorem State.qm_setScrubAt (s : State) (k : Nat) (v : Nat) : (s.setScrubAt k v).qm = s.qm := rfl
@[simp] theorem State.xlt_setScrubAt (s : State) (k : Nat) (v : Nat) : (s.setScrubAt k v).xlt = s.xlt := rfl
@[simp] theorem State.port_setScrubAt (s : State) (k : Nat) (v : Nat) : (s.setScrubAt k v).port = s.port := rfl
@[simp] theorem State.fn_setScrubAt (s : State) (k : Nat) (v : Nat) : (s.setScrubAt k v).fn = s.fn := rfl
@[simp] theorem State.pwr_setScrubAt (s : State) (k : Nat) (v : Nat) : (s.setScrubAt k v).pwr = s.pwr := rfl
@[simp] theorem State.boot_setScrubAt (s : State) (k : Nat) (v : Nat) : (s.setScrubAt k v).boot = s.boot := rfl
@[simp] theorem State.pending_setScrubAt (s : State) (k : Nat) (v : Nat) : (s.setScrubAt k v).pending = s.pending := rfl
@[simp] theorem State.free_setScrubAt (s : State) (k : Nat) (v : Nat) : (s.setScrubAt k v).free = s.free := rfl
@[simp] theorem State.out_setScrubAt (s : State) (k : Nat) (v : Nat) : (s.setScrubAt k v).out = s.out := rfl
@[simp] theorem State.err_unread_setScrubAt (s : State) (k : Nat) (v : Nat) : (s.setScrubAt k v).err.unread = s.err.unread := rfl
@[simp] theorem State.err_psScrubAt_setScrubAt (s : State) (k : Nat) (v : Nat) : (s.setScrubAt k v).err.psScrubAt = s.err.psScrubAt := rfl
@[simp] theorem State.err_pktInj_setScrubAt (s : State) (k : Nat) (v : Nat) : (s.setScrubAt k v).err.pktInj = s.err.pktInj := rfl
@[simp] theorem State.err_lastCorr_setScrubAt (s : State) (k : Nat) (v : Nat) : (s.setScrubAt k v).err.lastCorr = s.err.lastCorr := rfl
@[simp] theorem State.err_ringOver_setScrubAt (s : State) (k : Nat) (v : Nat) : (s.setScrubAt k v).err.ringOver = s.err.ringOver := rfl
@[simp] theorem State.psScrubAt_setPsScrubAt (s : State) (k : Nat) (v : Nat) :
    (s.setPsScrubAt k v).psScrubAt k = v := mget_mput_same _ _ k v
theorem State.psScrubAt_setPsScrubAt_of_ne (s : State) (k j : Nat) (v : Nat) (h : j ≠ k) :
    (s.setPsScrubAt k v).psScrubAt j = s.psScrubAt j := mget_mput_ne _ _ k j v h
@[simp] theorem State.por_setPsScrubAt (s : State) (k : Nat) (v : Nat) : (s.setPsScrubAt k v).por = s.por := rfl
@[simp] theorem State.tb_setPsScrubAt (s : State) (k : Nat) (v : Nat) : (s.setPsScrubAt k v).tb = s.tb := rfl
@[simp] theorem State.reg_setPsScrubAt (s : State) (k : Nat) (v : Nat) : (s.setPsScrubAt k v).reg = s.reg := rfl
@[simp] theorem State.mem_setPsScrubAt (s : State) (k : Nat) (v : Nat) : (s.setPsScrubAt k v).mem = s.mem := rfl
@[simp] theorem State.fab_setPsScrubAt (s : State) (k : Nat) (v : Nat) : (s.setPsScrubAt k v).fab = s.fab := rfl
@[simp] theorem State.ord_setPsScrubAt (s : State) (k : Nat) (v : Nat) : (s.setPsScrubAt k v).ord = s.ord := rfl
@[simp] theorem State.arb_setPsScrubAt (s : State) (k : Nat) (v : Nat) : (s.setPsScrubAt k v).arb = s.arb := rfl
@[simp] theorem State.pcl_setPsScrubAt (s : State) (k : Nat) (v : Nat) : (s.setPsScrubAt k v).pcl = s.pcl := rfl
@[simp] theorem State.qm_setPsScrubAt (s : State) (k : Nat) (v : Nat) : (s.setPsScrubAt k v).qm = s.qm := rfl
@[simp] theorem State.xlt_setPsScrubAt (s : State) (k : Nat) (v : Nat) : (s.setPsScrubAt k v).xlt = s.xlt := rfl
@[simp] theorem State.port_setPsScrubAt (s : State) (k : Nat) (v : Nat) : (s.setPsScrubAt k v).port = s.port := rfl
@[simp] theorem State.fn_setPsScrubAt (s : State) (k : Nat) (v : Nat) : (s.setPsScrubAt k v).fn = s.fn := rfl
@[simp] theorem State.pwr_setPsScrubAt (s : State) (k : Nat) (v : Nat) : (s.setPsScrubAt k v).pwr = s.pwr := rfl
@[simp] theorem State.boot_setPsScrubAt (s : State) (k : Nat) (v : Nat) : (s.setPsScrubAt k v).boot = s.boot := rfl
@[simp] theorem State.pending_setPsScrubAt (s : State) (k : Nat) (v : Nat) : (s.setPsScrubAt k v).pending = s.pending := rfl
@[simp] theorem State.free_setPsScrubAt (s : State) (k : Nat) (v : Nat) : (s.setPsScrubAt k v).free = s.free := rfl
@[simp] theorem State.out_setPsScrubAt (s : State) (k : Nat) (v : Nat) : (s.setPsScrubAt k v).out = s.out := rfl
@[simp] theorem State.err_unread_setPsScrubAt (s : State) (k : Nat) (v : Nat) : (s.setPsScrubAt k v).err.unread = s.err.unread := rfl
@[simp] theorem State.err_scrubAt_setPsScrubAt (s : State) (k : Nat) (v : Nat) : (s.setPsScrubAt k v).err.scrubAt = s.err.scrubAt := rfl
@[simp] theorem State.err_pktInj_setPsScrubAt (s : State) (k : Nat) (v : Nat) : (s.setPsScrubAt k v).err.pktInj = s.err.pktInj := rfl
@[simp] theorem State.err_lastCorr_setPsScrubAt (s : State) (k : Nat) (v : Nat) : (s.setPsScrubAt k v).err.lastCorr = s.err.lastCorr := rfl
@[simp] theorem State.err_ringOver_setPsScrubAt (s : State) (k : Nat) (v : Nat) : (s.setPsScrubAt k v).err.ringOver = s.err.ringOver := rfl
@[simp] theorem State.pktInj_setPktInj (s : State) (k : Nat) (v : Option Nat) :
    (s.setPktInj k v).pktInj k = v := mget_mput_same _ _ k v
theorem State.pktInj_setPktInj_of_ne (s : State) (k j : Nat) (v : Option Nat) (h : j ≠ k) :
    (s.setPktInj k v).pktInj j = s.pktInj j := mget_mput_ne _ _ k j v h
@[simp] theorem State.por_setPktInj (s : State) (k : Nat) (v : Option Nat) : (s.setPktInj k v).por = s.por := rfl
@[simp] theorem State.tb_setPktInj (s : State) (k : Nat) (v : Option Nat) : (s.setPktInj k v).tb = s.tb := rfl
@[simp] theorem State.reg_setPktInj (s : State) (k : Nat) (v : Option Nat) : (s.setPktInj k v).reg = s.reg := rfl
@[simp] theorem State.mem_setPktInj (s : State) (k : Nat) (v : Option Nat) : (s.setPktInj k v).mem = s.mem := rfl
@[simp] theorem State.fab_setPktInj (s : State) (k : Nat) (v : Option Nat) : (s.setPktInj k v).fab = s.fab := rfl
@[simp] theorem State.ord_setPktInj (s : State) (k : Nat) (v : Option Nat) : (s.setPktInj k v).ord = s.ord := rfl
@[simp] theorem State.arb_setPktInj (s : State) (k : Nat) (v : Option Nat) : (s.setPktInj k v).arb = s.arb := rfl
@[simp] theorem State.pcl_setPktInj (s : State) (k : Nat) (v : Option Nat) : (s.setPktInj k v).pcl = s.pcl := rfl
@[simp] theorem State.qm_setPktInj (s : State) (k : Nat) (v : Option Nat) : (s.setPktInj k v).qm = s.qm := rfl
@[simp] theorem State.xlt_setPktInj (s : State) (k : Nat) (v : Option Nat) : (s.setPktInj k v).xlt = s.xlt := rfl
@[simp] theorem State.port_setPktInj (s : State) (k : Nat) (v : Option Nat) : (s.setPktInj k v).port = s.port := rfl
@[simp] theorem State.fn_setPktInj (s : State) (k : Nat) (v : Option Nat) : (s.setPktInj k v).fn = s.fn := rfl
@[simp] theorem State.pwr_setPktInj (s : State) (k : Nat) (v : Option Nat) : (s.setPktInj k v).pwr = s.pwr := rfl
@[simp] theorem State.boot_setPktInj (s : State) (k : Nat) (v : Option Nat) : (s.setPktInj k v).boot = s.boot := rfl
@[simp] theorem State.pending_setPktInj (s : State) (k : Nat) (v : Option Nat) : (s.setPktInj k v).pending = s.pending := rfl
@[simp] theorem State.free_setPktInj (s : State) (k : Nat) (v : Option Nat) : (s.setPktInj k v).free = s.free := rfl
@[simp] theorem State.out_setPktInj (s : State) (k : Nat) (v : Option Nat) : (s.setPktInj k v).out = s.out := rfl
@[simp] theorem State.err_unread_setPktInj (s : State) (k : Nat) (v : Option Nat) : (s.setPktInj k v).err.unread = s.err.unread := rfl
@[simp] theorem State.err_scrubAt_setPktInj (s : State) (k : Nat) (v : Option Nat) : (s.setPktInj k v).err.scrubAt = s.err.scrubAt := rfl
@[simp] theorem State.err_psScrubAt_setPktInj (s : State) (k : Nat) (v : Option Nat) : (s.setPktInj k v).err.psScrubAt = s.err.psScrubAt := rfl
@[simp] theorem State.err_lastCorr_setPktInj (s : State) (k : Nat) (v : Option Nat) : (s.setPktInj k v).err.lastCorr = s.err.lastCorr := rfl
@[simp] theorem State.err_ringOver_setPktInj (s : State) (k : Nat) (v : Option Nat) : (s.setPktInj k v).err.ringOver = s.err.ringOver := rfl
@[simp] theorem State.lastCorr_setLastCorr (s : State) (k : Nat) (v : Option Nat) :
    (s.setLastCorr k v).lastCorr k = v := mget_mput_same _ _ k v
theorem State.lastCorr_setLastCorr_of_ne (s : State) (k j : Nat) (v : Option Nat) (h : j ≠ k) :
    (s.setLastCorr k v).lastCorr j = s.lastCorr j := mget_mput_ne _ _ k j v h
@[simp] theorem State.por_setLastCorr (s : State) (k : Nat) (v : Option Nat) : (s.setLastCorr k v).por = s.por := rfl
@[simp] theorem State.tb_setLastCorr (s : State) (k : Nat) (v : Option Nat) : (s.setLastCorr k v).tb = s.tb := rfl
@[simp] theorem State.reg_setLastCorr (s : State) (k : Nat) (v : Option Nat) : (s.setLastCorr k v).reg = s.reg := rfl
@[simp] theorem State.mem_setLastCorr (s : State) (k : Nat) (v : Option Nat) : (s.setLastCorr k v).mem = s.mem := rfl
@[simp] theorem State.fab_setLastCorr (s : State) (k : Nat) (v : Option Nat) : (s.setLastCorr k v).fab = s.fab := rfl
@[simp] theorem State.ord_setLastCorr (s : State) (k : Nat) (v : Option Nat) : (s.setLastCorr k v).ord = s.ord := rfl
@[simp] theorem State.arb_setLastCorr (s : State) (k : Nat) (v : Option Nat) : (s.setLastCorr k v).arb = s.arb := rfl
@[simp] theorem State.pcl_setLastCorr (s : State) (k : Nat) (v : Option Nat) : (s.setLastCorr k v).pcl = s.pcl := rfl
@[simp] theorem State.qm_setLastCorr (s : State) (k : Nat) (v : Option Nat) : (s.setLastCorr k v).qm = s.qm := rfl
@[simp] theorem State.xlt_setLastCorr (s : State) (k : Nat) (v : Option Nat) : (s.setLastCorr k v).xlt = s.xlt := rfl
@[simp] theorem State.port_setLastCorr (s : State) (k : Nat) (v : Option Nat) : (s.setLastCorr k v).port = s.port := rfl
@[simp] theorem State.fn_setLastCorr (s : State) (k : Nat) (v : Option Nat) : (s.setLastCorr k v).fn = s.fn := rfl
@[simp] theorem State.pwr_setLastCorr (s : State) (k : Nat) (v : Option Nat) : (s.setLastCorr k v).pwr = s.pwr := rfl
@[simp] theorem State.boot_setLastCorr (s : State) (k : Nat) (v : Option Nat) : (s.setLastCorr k v).boot = s.boot := rfl
@[simp] theorem State.pending_setLastCorr (s : State) (k : Nat) (v : Option Nat) : (s.setLastCorr k v).pending = s.pending := rfl
@[simp] theorem State.free_setLastCorr (s : State) (k : Nat) (v : Option Nat) : (s.setLastCorr k v).free = s.free := rfl
@[simp] theorem State.out_setLastCorr (s : State) (k : Nat) (v : Option Nat) : (s.setLastCorr k v).out = s.out := rfl
@[simp] theorem State.err_unread_setLastCorr (s : State) (k : Nat) (v : Option Nat) : (s.setLastCorr k v).err.unread = s.err.unread := rfl
@[simp] theorem State.err_scrubAt_setLastCorr (s : State) (k : Nat) (v : Option Nat) : (s.setLastCorr k v).err.scrubAt = s.err.scrubAt := rfl
@[simp] theorem State.err_psScrubAt_setLastCorr (s : State) (k : Nat) (v : Option Nat) : (s.setLastCorr k v).err.psScrubAt = s.err.psScrubAt := rfl
@[simp] theorem State.err_pktInj_setLastCorr (s : State) (k : Nat) (v : Option Nat) : (s.setLastCorr k v).err.pktInj = s.err.pktInj := rfl
@[simp] theorem State.err_ringOver_setLastCorr (s : State) (k : Nat) (v : Option Nat) : (s.setLastCorr k v).err.ringOver = s.err.ringOver := rfl
@[simp] theorem State.ringOver_setRingOver (s : State) (k : Nat) (v : Option Nat) :
    (s.setRingOver k v).ringOver k = v := mget_mput_same _ _ k v
theorem State.ringOver_setRingOver_of_ne (s : State) (k j : Nat) (v : Option Nat) (h : j ≠ k) :
    (s.setRingOver k v).ringOver j = s.ringOver j := mget_mput_ne _ _ k j v h
@[simp] theorem State.por_setRingOver (s : State) (k : Nat) (v : Option Nat) : (s.setRingOver k v).por = s.por := rfl
@[simp] theorem State.tb_setRingOver (s : State) (k : Nat) (v : Option Nat) : (s.setRingOver k v).tb = s.tb := rfl
@[simp] theorem State.reg_setRingOver (s : State) (k : Nat) (v : Option Nat) : (s.setRingOver k v).reg = s.reg := rfl
@[simp] theorem State.mem_setRingOver (s : State) (k : Nat) (v : Option Nat) : (s.setRingOver k v).mem = s.mem := rfl
@[simp] theorem State.fab_setRingOver (s : State) (k : Nat) (v : Option Nat) : (s.setRingOver k v).fab = s.fab := rfl
@[simp] theorem State.ord_setRingOver (s : State) (k : Nat) (v : Option Nat) : (s.setRingOver k v).ord = s.ord := rfl
@[simp] theorem State.arb_setRingOver (s : State) (k : Nat) (v : Option Nat) : (s.setRingOver k v).arb = s.arb := rfl
@[simp] theorem State.pcl_setRingOver (s : State) (k : Nat) (v : Option Nat) : (s.setRingOver k v).pcl = s.pcl := rfl
@[simp] theorem State.qm_setRingOver (s : State) (k : Nat) (v : Option Nat) : (s.setRingOver k v).qm = s.qm := rfl
@[simp] theorem State.xlt_setRingOver (s : State) (k : Nat) (v : Option Nat) : (s.setRingOver k v).xlt = s.xlt := rfl
@[simp] theorem State.port_setRingOver (s : State) (k : Nat) (v : Option Nat) : (s.setRingOver k v).port = s.port := rfl
@[simp] theorem State.fn_setRingOver (s : State) (k : Nat) (v : Option Nat) : (s.setRingOver k v).fn = s.fn := rfl
@[simp] theorem State.pwr_setRingOver (s : State) (k : Nat) (v : Option Nat) : (s.setRingOver k v).pwr = s.pwr := rfl
@[simp] theorem State.boot_setRingOver (s : State) (k : Nat) (v : Option Nat) : (s.setRingOver k v).boot = s.boot := rfl
@[simp] theorem State.pending_setRingOver (s : State) (k : Nat) (v : Option Nat) : (s.setRingOver k v).pending = s.pending := rfl
@[simp] theorem State.free_setRingOver (s : State) (k : Nat) (v : Option Nat) : (s.setRingOver k v).free = s.free := rfl
@[simp] theorem State.out_setRingOver (s : State) (k : Nat) (v : Option Nat) : (s.setRingOver k v).out = s.out := rfl
@[simp] theorem State.err_unread_setRingOver (s : State) (k : Nat) (v : Option Nat) : (s.setRingOver k v).err.unread = s.err.unread := rfl
@[simp] theorem State.err_scrubAt_setRingOver (s : State) (k : Nat) (v : Option Nat) : (s.setRingOver k v).err.scrubAt = s.err.scrubAt := rfl
@[simp] theorem State.err_psScrubAt_setRingOver (s : State) (k : Nat) (v : Option Nat) : (s.setRingOver k v).err.psScrubAt = s.err.psScrubAt := rfl
@[simp] theorem State.err_pktInj_setRingOver (s : State) (k : Nat) (v : Option Nat) : (s.setRingOver k v).err.pktInj = s.err.pktInj := rfl
@[simp] theorem State.err_lastCorr_setRingOver (s : State) (k : Nat) (v : Option Nat) : (s.setRingOver k v).err.lastCorr = s.err.lastCorr := rfl
@[simp] theorem State.dom_setDom (s : State) (k : Nat) (v : Dom) :
    (s.setDom k v).dom k = v := mget_mput_same _ _ k v
theorem State.dom_setDom_of_ne (s : State) (k j : Nat) (v : Dom) (h : j ≠ k) :
    (s.setDom k v).dom j = s.dom j := mget_mput_ne _ _ k j v h
@[simp] theorem State.por_setDom (s : State) (k : Nat) (v : Dom) : (s.setDom k v).por = s.por := rfl
@[simp] theorem State.tb_setDom (s : State) (k : Nat) (v : Dom) : (s.setDom k v).tb = s.tb := rfl
@[simp] theorem State.reg_setDom (s : State) (k : Nat) (v : Dom) : (s.setDom k v).reg = s.reg := rfl
@[simp] theorem State.mem_setDom (s : State) (k : Nat) (v : Dom) : (s.setDom k v).mem = s.mem := rfl
@[simp] theorem State.fab_setDom (s : State) (k : Nat) (v : Dom) : (s.setDom k v).fab = s.fab := rfl
@[simp] theorem State.ord_setDom (s : State) (k : Nat) (v : Dom) : (s.setDom k v).ord = s.ord := rfl
@[simp] theorem State.arb_setDom (s : State) (k : Nat) (v : Dom) : (s.setDom k v).arb = s.arb := rfl
@[simp] theorem State.pcl_setDom (s : State) (k : Nat) (v : Dom) : (s.setDom k v).pcl = s.pcl := rfl
@[simp] theorem State.qm_setDom (s : State) (k : Nat) (v : Dom) : (s.setDom k v).qm = s.qm := rfl
@[simp] theorem State.xlt_setDom (s : State) (k : Nat) (v : Dom) : (s.setDom k v).xlt = s.xlt := rfl
@[simp] theorem State.port_setDom (s : State) (k : Nat) (v : Dom) : (s.setDom k v).port = s.port := rfl
@[simp] theorem State.fn_setDom (s : State) (k : Nat) (v : Dom) : (s.setDom k v).fn = s.fn := rfl
@[simp] theorem State.err_setDom (s : State) (k : Nat) (v : Dom) : (s.setDom k v).err = s.err := rfl
@[simp] theorem State.boot_setDom (s : State) (k : Nat) (v : Dom) : (s.setDom k v).boot = s.boot := rfl
@[simp] theorem State.pending_setDom (s : State) (k : Nat) (v : Dom) : (s.setDom k v).pending = s.pending := rfl
@[simp] theorem State.free_setDom (s : State) (k : Nat) (v : Dom) : (s.setDom k v).free = s.free := rfl
@[simp] theorem State.out_setDom (s : State) (k : Nat) (v : Dom) : (s.setDom k v).out = s.out := rfl
@[simp] theorem State.imageVal_setImageVal (s : State) (k : Nat) (v : Option Nat) :
    (s.setImageVal k v).imageVal k = v := mget_mput_same _ _ k v
theorem State.imageVal_setImageVal_of_ne (s : State) (k j : Nat) (v : Option Nat) (h : j ≠ k) :
    (s.setImageVal k v).imageVal j = s.imageVal j := mget_mput_ne _ _ k j v h
@[simp] theorem State.por_setImageVal (s : State) (k : Nat) (v : Option Nat) : (s.setImageVal k v).por = s.por := rfl
@[simp] theorem State.tb_setImageVal (s : State) (k : Nat) (v : Option Nat) : (s.setImageVal k v).tb = s.tb := rfl
@[simp] theorem State.reg_setImageVal (s : State) (k : Nat) (v : Option Nat) : (s.setImageVal k v).reg = s.reg := rfl
@[simp] theorem State.mem_setImageVal (s : State) (k : Nat) (v : Option Nat) : (s.setImageVal k v).mem = s.mem := rfl
@[simp] theorem State.fab_setImageVal (s : State) (k : Nat) (v : Option Nat) : (s.setImageVal k v).fab = s.fab := rfl
@[simp] theorem State.ord_setImageVal (s : State) (k : Nat) (v : Option Nat) : (s.setImageVal k v).ord = s.ord := rfl
@[simp] theorem State.arb_setImageVal (s : State) (k : Nat) (v : Option Nat) : (s.setImageVal k v).arb = s.arb := rfl
@[simp] theorem State.pcl_setImageVal (s : State) (k : Nat) (v : Option Nat) : (s.setImageVal k v).pcl = s.pcl := rfl
@[simp] theorem State.qm_setImageVal (s : State) (k : Nat) (v : Option Nat) : (s.setImageVal k v).qm = s.qm := rfl
@[simp] theorem State.xlt_setImageVal (s : State) (k : Nat) (v : Option Nat) : (s.setImageVal k v).xlt = s.xlt := rfl
@[simp] theorem State.port_setImageVal (s : State) (k : Nat) (v : Option Nat) : (s.setImageVal k v).port = s.port := rfl
@[simp] theorem State.fn_setImageVal (s : State) (k : Nat) (v : Option Nat) : (s.setImageVal k v).fn = s.fn := rfl
@[simp] theorem State.err_setImageVal (s : State) (k : Nat) (v : Option Nat) : (s.setImageVal k v).err = s.err := rfl
@[simp] theorem State.pwr_setImageVal (s : State) (k : Nat) (v : Option Nat) : (s.setImageVal k v).pwr = s.pwr := rfl
@[simp] theorem State.pending_setImageVal (s : State) (k : Nat) (v : Option Nat) : (s.setImageVal k v).pending = s.pending := rfl
@[simp] theorem State.free_setImageVal (s : State) (k : Nat) (v : Option Nat) : (s.setImageVal k v).free = s.free := rfl
@[simp] theorem State.out_setImageVal (s : State) (k : Nat) (v : Option Nat) : (s.setImageVal k v).out = s.out := rfl
@[simp] theorem State.boot_fuseKeys_setImageVal (s : State) (k : Nat) (v : Option Nat) : (s.setImageVal k v).boot.fuseKeys = s.boot.fuseKeys := rfl
@[simp] theorem State.boot_torn_setImageVal (s : State) (k : Nat) (v : Option Nat) : (s.setImageVal k v).boot.torn = s.boot.torn := rfl
@[simp] theorem State.boot_flash_setImageVal (s : State) (k : Nat) (v : Option Nat) : (s.setImageVal k v).boot.flash = s.boot.flash := rfl
@[simp] theorem State.boot_eq_setImageVal (s : State) (k : Nat) (v : Option Nat) : (s.setImageVal k v).boot.eq = s.boot.eq := rfl
@[simp] theorem State.boot_calOff_setImageVal (s : State) (k : Nat) (v : Option Nat) : (s.setImageVal k v).boot.calOff = s.boot.calOff := rfl
@[simp] theorem State.boot_spdm_setImageVal (s : State) (k : Nat) (v : Option Nat) : (s.setImageVal k v).boot.spdm = s.boot.spdm := rfl
@[simp] theorem State.boot_transcript_setImageVal (s : State) (k : Nat) (v : Option Nat) : (s.setImageVal k v).boot.transcript = s.boot.transcript := rfl
@[simp] theorem State.boot_meas_setImageVal (s : State) (k : Nat) (v : Option Nat) : (s.setImageVal k v).boot.meas = s.boot.meas := rfl
@[simp] theorem State.keySlot_setKeySlot (s : State) (k : Nat) (v : KeySlot) :
    (s.setKeySlot k v).keySlot k = v := mget_mput_same _ _ k v
theorem State.keySlot_setKeySlot_of_ne (s : State) (k j : Nat) (v : KeySlot) (h : j ≠ k) :
    (s.setKeySlot k v).keySlot j = s.keySlot j := mget_mput_ne _ _ k j v h
@[simp] theorem State.por_setKeySlot (s : State) (k : Nat) (v : KeySlot) : (s.setKeySlot k v).por = s.por := rfl
@[simp] theorem State.tb_setKeySlot (s : State) (k : Nat) (v : KeySlot) : (s.setKeySlot k v).tb = s.tb := rfl
@[simp] theorem State.reg_setKeySlot (s : State) (k : Nat) (v : KeySlot) : (s.setKeySlot k v).reg = s.reg := rfl
@[simp] theorem State.mem_setKeySlot (s : State) (k : Nat) (v : KeySlot) : (s.setKeySlot k v).mem = s.mem := rfl
@[simp] theorem State.fab_setKeySlot (s : State) (k : Nat) (v : KeySlot) : (s.setKeySlot k v).fab = s.fab := rfl
@[simp] theorem State.ord_setKeySlot (s : State) (k : Nat) (v : KeySlot) : (s.setKeySlot k v).ord = s.ord := rfl
@[simp] theorem State.arb_setKeySlot (s : State) (k : Nat) (v : KeySlot) : (s.setKeySlot k v).arb = s.arb := rfl
@[simp] theorem State.pcl_setKeySlot (s : State) (k : Nat) (v : KeySlot) : (s.setKeySlot k v).pcl = s.pcl := rfl
@[simp] theorem State.qm_setKeySlot (s : State) (k : Nat) (v : KeySlot) : (s.setKeySlot k v).qm = s.qm := rfl
@[simp] theorem State.xlt_setKeySlot (s : State) (k : Nat) (v : KeySlot) : (s.setKeySlot k v).xlt = s.xlt := rfl
@[simp] theorem State.port_setKeySlot (s : State) (k : Nat) (v : KeySlot) : (s.setKeySlot k v).port = s.port := rfl
@[simp] theorem State.fn_setKeySlot (s : State) (k : Nat) (v : KeySlot) : (s.setKeySlot k v).fn = s.fn := rfl
@[simp] theorem State.err_setKeySlot (s : State) (k : Nat) (v : KeySlot) : (s.setKeySlot k v).err = s.err := rfl
@[simp] theorem State.pwr_setKeySlot (s : State) (k : Nat) (v : KeySlot) : (s.setKeySlot k v).pwr = s.pwr := rfl
@[simp] theorem State.pending_setKeySlot (s : State) (k : Nat) (v : KeySlot) : (s.setKeySlot k v).pending = s.pending := rfl
@[simp] theorem State.free_setKeySlot (s : State) (k : Nat) (v : KeySlot) : (s.setKeySlot k v).free = s.free := rfl
@[simp] theorem State.out_setKeySlot (s : State) (k : Nat) (v : KeySlot) : (s.setKeySlot k v).out = s.out := rfl
@[simp] theorem State.boot_image_setKeySlot (s : State) (k : Nat) (v : KeySlot) : (s.setKeySlot k v).boot.image = s.boot.image := rfl
@[simp] theorem State.boot_torn_setKeySlot (s : State) (k : Nat) (v : KeySlot) : (s.setKeySlot k v).boot.torn = s.boot.torn := rfl
@[simp] theorem State.boot_flash_setKeySlot (s : State) (k : Nat) (v : KeySlot) : (s.setKeySlot k v).boot.flash = s.boot.flash := rfl
@[simp] theorem State.boot_eq_setKeySlot (s : State) (k : Nat) (v : KeySlot) : (s.setKeySlot k v).boot.eq = s.boot.eq := rfl
@[simp] theorem State.boot_calOff_setKeySlot (s : State) (k : Nat) (v : KeySlot) : (s.setKeySlot k v).boot.calOff = s.boot.calOff := rfl
@[simp] theorem State.boot_spdm_setKeySlot (s : State) (k : Nat) (v : KeySlot) : (s.setKeySlot k v).boot.spdm = s.boot.spdm := rfl
@[simp] theorem State.boot_transcript_setKeySlot (s : State) (k : Nat) (v : KeySlot) : (s.setKeySlot k v).boot.transcript = s.boot.transcript := rfl
@[simp] theorem State.boot_meas_setKeySlot (s : State) (k : Nat) (v : KeySlot) : (s.setKeySlot k v).boot.meas = s.boot.meas := rfl
@[simp] theorem State.tornSlot_setTornSlot (s : State) (k : Nat) (v : Bool) :
    (s.setTornSlot k v).tornSlot k = v := mget_mput_same _ _ k v
theorem State.tornSlot_setTornSlot_of_ne (s : State) (k j : Nat) (v : Bool) (h : j ≠ k) :
    (s.setTornSlot k v).tornSlot j = s.tornSlot j := mget_mput_ne _ _ k j v h
@[simp] theorem State.por_setTornSlot (s : State) (k : Nat) (v : Bool) : (s.setTornSlot k v).por = s.por := rfl
@[simp] theorem State.tb_setTornSlot (s : State) (k : Nat) (v : Bool) : (s.setTornSlot k v).tb = s.tb := rfl
@[simp] theorem State.reg_setTornSlot (s : State) (k : Nat) (v : Bool) : (s.setTornSlot k v).reg = s.reg := rfl
@[simp] theorem State.mem_setTornSlot (s : State) (k : Nat) (v : Bool) : (s.setTornSlot k v).mem = s.mem := rfl
@[simp] theorem State.fab_setTornSlot (s : State) (k : Nat) (v : Bool) : (s.setTornSlot k v).fab = s.fab := rfl
@[simp] theorem State.ord_setTornSlot (s : State) (k : Nat) (v : Bool) : (s.setTornSlot k v).ord = s.ord := rfl
@[simp] theorem State.arb_setTornSlot (s : State) (k : Nat) (v : Bool) : (s.setTornSlot k v).arb = s.arb := rfl
@[simp] theorem State.pcl_setTornSlot (s : State) (k : Nat) (v : Bool) : (s.setTornSlot k v).pcl = s.pcl := rfl
@[simp] theorem State.qm_setTornSlot (s : State) (k : Nat) (v : Bool) : (s.setTornSlot k v).qm = s.qm := rfl
@[simp] theorem State.xlt_setTornSlot (s : State) (k : Nat) (v : Bool) : (s.setTornSlot k v).xlt = s.xlt := rfl
@[simp] theorem State.port_setTornSlot (s : State) (k : Nat) (v : Bool) : (s.setTornSlot k v).port = s.port := rfl
@[simp] theorem State.fn_setTornSlot (s : State) (k : Nat) (v : Bool) : (s.setTornSlot k v).fn = s.fn := rfl
@[simp] theorem State.err_setTornSlot (s : State) (k : Nat) (v : Bool) : (s.setTornSlot k v).err = s.err := rfl
@[simp] theorem State.pwr_setTornSlot (s : State) (k : Nat) (v : Bool) : (s.setTornSlot k v).pwr = s.pwr := rfl
@[simp] theorem State.pending_setTornSlot (s : State) (k : Nat) (v : Bool) : (s.setTornSlot k v).pending = s.pending := rfl
@[simp] theorem State.free_setTornSlot (s : State) (k : Nat) (v : Bool) : (s.setTornSlot k v).free = s.free := rfl
@[simp] theorem State.out_setTornSlot (s : State) (k : Nat) (v : Bool) : (s.setTornSlot k v).out = s.out := rfl
@[simp] theorem State.boot_image_setTornSlot (s : State) (k : Nat) (v : Bool) : (s.setTornSlot k v).boot.image = s.boot.image := rfl
@[simp] theorem State.boot_fuseKeys_setTornSlot (s : State) (k : Nat) (v : Bool) : (s.setTornSlot k v).boot.fuseKeys = s.boot.fuseKeys := rfl
@[simp] theorem State.boot_flash_setTornSlot (s : State) (k : Nat) (v : Bool) : (s.setTornSlot k v).boot.flash = s.boot.flash := rfl
@[simp] theorem State.boot_eq_setTornSlot (s : State) (k : Nat) (v : Bool) : (s.setTornSlot k v).boot.eq = s.boot.eq := rfl
@[simp] theorem State.boot_calOff_setTornSlot (s : State) (k : Nat) (v : Bool) : (s.setTornSlot k v).boot.calOff = s.boot.calOff := rfl
@[simp] theorem State.boot_spdm_setTornSlot (s : State) (k : Nat) (v : Bool) : (s.setTornSlot k v).boot.spdm = s.boot.spdm := rfl
@[simp] theorem State.boot_transcript_setTornSlot (s : State) (k : Nat) (v : Bool) : (s.setTornSlot k v).boot.transcript = s.boot.transcript := rfl
@[simp] theorem State.boot_meas_setTornSlot (s : State) (k : Nat) (v : Bool) : (s.setTornSlot k v).boot.meas = s.boot.meas := rfl
@[simp] theorem State.flashByte_setFlashByte (s : State) (k : Nat) (v : Byte) :
    (s.setFlashByte k v).flashByte k = v := mget_mput_same _ _ k v
theorem State.flashByte_setFlashByte_of_ne (s : State) (k j : Nat) (v : Byte) (h : j ≠ k) :
    (s.setFlashByte k v).flashByte j = s.flashByte j := mget_mput_ne _ _ k j v h
@[simp] theorem State.por_setFlashByte (s : State) (k : Nat) (v : Byte) : (s.setFlashByte k v).por = s.por := rfl
@[simp] theorem State.tb_setFlashByte (s : State) (k : Nat) (v : Byte) : (s.setFlashByte k v).tb = s.tb := rfl
@[simp] theorem State.reg_setFlashByte (s : State) (k : Nat) (v : Byte) : (s.setFlashByte k v).reg = s.reg := rfl
@[simp] theorem State.mem_setFlashByte (s : State) (k : Nat) (v : Byte) : (s.setFlashByte k v).mem = s.mem := rfl
@[simp] theorem State.fab_setFlashByte (s : State) (k : Nat) (v : Byte) : (s.setFlashByte k v).fab = s.fab := rfl
@[simp] theorem State.ord_setFlashByte (s : State) (k : Nat) (v : Byte) : (s.setFlashByte k v).ord = s.ord := rfl
@[simp] theorem State.arb_setFlashByte (s : State) (k : Nat) (v : Byte) : (s.setFlashByte k v).arb = s.arb := rfl
@[simp] theorem State.pcl_setFlashByte (s : State) (k : Nat) (v : Byte) : (s.setFlashByte k v).pcl = s.pcl := rfl
@[simp] theorem State.qm_setFlashByte (s : State) (k : Nat) (v : Byte) : (s.setFlashByte k v).qm = s.qm := rfl
@[simp] theorem State.xlt_setFlashByte (s : State) (k : Nat) (v : Byte) : (s.setFlashByte k v).xlt = s.xlt := rfl
@[simp] theorem State.port_setFlashByte (s : State) (k : Nat) (v : Byte) : (s.setFlashByte k v).port = s.port := rfl
@[simp] theorem State.fn_setFlashByte (s : State) (k : Nat) (v : Byte) : (s.setFlashByte k v).fn = s.fn := rfl
@[simp] theorem State.err_setFlashByte (s : State) (k : Nat) (v : Byte) : (s.setFlashByte k v).err = s.err := rfl
@[simp] theorem State.pwr_setFlashByte (s : State) (k : Nat) (v : Byte) : (s.setFlashByte k v).pwr = s.pwr := rfl
@[simp] theorem State.pending_setFlashByte (s : State) (k : Nat) (v : Byte) : (s.setFlashByte k v).pending = s.pending := rfl
@[simp] theorem State.free_setFlashByte (s : State) (k : Nat) (v : Byte) : (s.setFlashByte k v).free = s.free := rfl
@[simp] theorem State.out_setFlashByte (s : State) (k : Nat) (v : Byte) : (s.setFlashByte k v).out = s.out := rfl
@[simp] theorem State.boot_image_setFlashByte (s : State) (k : Nat) (v : Byte) : (s.setFlashByte k v).boot.image = s.boot.image := rfl
@[simp] theorem State.boot_fuseKeys_setFlashByte (s : State) (k : Nat) (v : Byte) : (s.setFlashByte k v).boot.fuseKeys = s.boot.fuseKeys := rfl
@[simp] theorem State.boot_torn_setFlashByte (s : State) (k : Nat) (v : Byte) : (s.setFlashByte k v).boot.torn = s.boot.torn := rfl
@[simp] theorem State.boot_eq_setFlashByte (s : State) (k : Nat) (v : Byte) : (s.setFlashByte k v).boot.eq = s.boot.eq := rfl
@[simp] theorem State.boot_calOff_setFlashByte (s : State) (k : Nat) (v : Byte) : (s.setFlashByte k v).boot.calOff = s.boot.calOff := rfl
@[simp] theorem State.boot_spdm_setFlashByte (s : State) (k : Nat) (v : Byte) : (s.setFlashByte k v).boot.spdm = s.boot.spdm := rfl
@[simp] theorem State.boot_transcript_setFlashByte (s : State) (k : Nat) (v : Byte) : (s.setFlashByte k v).boot.transcript = s.boot.transcript := rfl
@[simp] theorem State.boot_meas_setFlashByte (s : State) (k : Nat) (v : Byte) : (s.setFlashByte k v).boot.meas = s.boot.meas := rfl
@[simp] theorem State.eqWord_setEqWord (s : State) (k : Nat) (v : Nat) :
    (s.setEqWord k v).eqWord k = v := mget_mput_same _ _ k v
theorem State.eqWord_setEqWord_of_ne (s : State) (k j : Nat) (v : Nat) (h : j ≠ k) :
    (s.setEqWord k v).eqWord j = s.eqWord j := mget_mput_ne _ _ k j v h
@[simp] theorem State.por_setEqWord (s : State) (k : Nat) (v : Nat) : (s.setEqWord k v).por = s.por := rfl
@[simp] theorem State.tb_setEqWord (s : State) (k : Nat) (v : Nat) : (s.setEqWord k v).tb = s.tb := rfl
@[simp] theorem State.reg_setEqWord (s : State) (k : Nat) (v : Nat) : (s.setEqWord k v).reg = s.reg := rfl
@[simp] theorem State.mem_setEqWord (s : State) (k : Nat) (v : Nat) : (s.setEqWord k v).mem = s.mem := rfl
@[simp] theorem State.fab_setEqWord (s : State) (k : Nat) (v : Nat) : (s.setEqWord k v).fab = s.fab := rfl
@[simp] theorem State.ord_setEqWord (s : State) (k : Nat) (v : Nat) : (s.setEqWord k v).ord = s.ord := rfl
@[simp] theorem State.arb_setEqWord (s : State) (k : Nat) (v : Nat) : (s.setEqWord k v).arb = s.arb := rfl
@[simp] theorem State.pcl_setEqWord (s : State) (k : Nat) (v : Nat) : (s.setEqWord k v).pcl = s.pcl := rfl
@[simp] theorem State.qm_setEqWord (s : State) (k : Nat) (v : Nat) : (s.setEqWord k v).qm = s.qm := rfl
@[simp] theorem State.xlt_setEqWord (s : State) (k : Nat) (v : Nat) : (s.setEqWord k v).xlt = s.xlt := rfl
@[simp] theorem State.port_setEqWord (s : State) (k : Nat) (v : Nat) : (s.setEqWord k v).port = s.port := rfl
@[simp] theorem State.fn_setEqWord (s : State) (k : Nat) (v : Nat) : (s.setEqWord k v).fn = s.fn := rfl
@[simp] theorem State.err_setEqWord (s : State) (k : Nat) (v : Nat) : (s.setEqWord k v).err = s.err := rfl
@[simp] theorem State.pwr_setEqWord (s : State) (k : Nat) (v : Nat) : (s.setEqWord k v).pwr = s.pwr := rfl
@[simp] theorem State.pending_setEqWord (s : State) (k : Nat) (v : Nat) : (s.setEqWord k v).pending = s.pending := rfl
@[simp] theorem State.free_setEqWord (s : State) (k : Nat) (v : Nat) : (s.setEqWord k v).free = s.free := rfl
@[simp] theorem State.out_setEqWord (s : State) (k : Nat) (v : Nat) : (s.setEqWord k v).out = s.out := rfl
@[simp] theorem State.boot_image_setEqWord (s : State) (k : Nat) (v : Nat) : (s.setEqWord k v).boot.image = s.boot.image := rfl
@[simp] theorem State.boot_fuseKeys_setEqWord (s : State) (k : Nat) (v : Nat) : (s.setEqWord k v).boot.fuseKeys = s.boot.fuseKeys := rfl
@[simp] theorem State.boot_torn_setEqWord (s : State) (k : Nat) (v : Nat) : (s.setEqWord k v).boot.torn = s.boot.torn := rfl
@[simp] theorem State.boot_flash_setEqWord (s : State) (k : Nat) (v : Nat) : (s.setEqWord k v).boot.flash = s.boot.flash := rfl
@[simp] theorem State.boot_calOff_setEqWord (s : State) (k : Nat) (v : Nat) : (s.setEqWord k v).boot.calOff = s.boot.calOff := rfl
@[simp] theorem State.boot_spdm_setEqWord (s : State) (k : Nat) (v : Nat) : (s.setEqWord k v).boot.spdm = s.boot.spdm := rfl
@[simp] theorem State.boot_transcript_setEqWord (s : State) (k : Nat) (v : Nat) : (s.setEqWord k v).boot.transcript = s.boot.transcript := rfl
@[simp] theorem State.boot_meas_setEqWord (s : State) (k : Nat) (v : Nat) : (s.setEqWord k v).boot.meas = s.boot.meas := rfl
@[simp] theorem State.calOffset_setCalOffset (s : State) (k : Nat) (v : Int) :
    (s.setCalOffset k v).calOffset k = v := mget_mput_same _ _ k v
theorem State.calOffset_setCalOffset_of_ne (s : State) (k j : Nat) (v : Int) (h : j ≠ k) :
    (s.setCalOffset k v).calOffset j = s.calOffset j := mget_mput_ne _ _ k j v h
@[simp] theorem State.por_setCalOffset (s : State) (k : Nat) (v : Int) : (s.setCalOffset k v).por = s.por := rfl
@[simp] theorem State.tb_setCalOffset (s : State) (k : Nat) (v : Int) : (s.setCalOffset k v).tb = s.tb := rfl
@[simp] theorem State.reg_setCalOffset (s : State) (k : Nat) (v : Int) : (s.setCalOffset k v).reg = s.reg := rfl
@[simp] theorem State.mem_setCalOffset (s : State) (k : Nat) (v : Int) : (s.setCalOffset k v).mem = s.mem := rfl
@[simp] theorem State.fab_setCalOffset (s : State) (k : Nat) (v : Int) : (s.setCalOffset k v).fab = s.fab := rfl
@[simp] theorem State.ord_setCalOffset (s : State) (k : Nat) (v : Int) : (s.setCalOffset k v).ord = s.ord := rfl
@[simp] theorem State.arb_setCalOffset (s : State) (k : Nat) (v : Int) : (s.setCalOffset k v).arb = s.arb := rfl
@[simp] theorem State.pcl_setCalOffset (s : State) (k : Nat) (v : Int) : (s.setCalOffset k v).pcl = s.pcl := rfl
@[simp] theorem State.qm_setCalOffset (s : State) (k : Nat) (v : Int) : (s.setCalOffset k v).qm = s.qm := rfl
@[simp] theorem State.xlt_setCalOffset (s : State) (k : Nat) (v : Int) : (s.setCalOffset k v).xlt = s.xlt := rfl
@[simp] theorem State.port_setCalOffset (s : State) (k : Nat) (v : Int) : (s.setCalOffset k v).port = s.port := rfl
@[simp] theorem State.fn_setCalOffset (s : State) (k : Nat) (v : Int) : (s.setCalOffset k v).fn = s.fn := rfl
@[simp] theorem State.err_setCalOffset (s : State) (k : Nat) (v : Int) : (s.setCalOffset k v).err = s.err := rfl
@[simp] theorem State.pwr_setCalOffset (s : State) (k : Nat) (v : Int) : (s.setCalOffset k v).pwr = s.pwr := rfl
@[simp] theorem State.pending_setCalOffset (s : State) (k : Nat) (v : Int) : (s.setCalOffset k v).pending = s.pending := rfl
@[simp] theorem State.free_setCalOffset (s : State) (k : Nat) (v : Int) : (s.setCalOffset k v).free = s.free := rfl
@[simp] theorem State.out_setCalOffset (s : State) (k : Nat) (v : Int) : (s.setCalOffset k v).out = s.out := rfl
@[simp] theorem State.boot_image_setCalOffset (s : State) (k : Nat) (v : Int) : (s.setCalOffset k v).boot.image = s.boot.image := rfl
@[simp] theorem State.boot_fuseKeys_setCalOffset (s : State) (k : Nat) (v : Int) : (s.setCalOffset k v).boot.fuseKeys = s.boot.fuseKeys := rfl
@[simp] theorem State.boot_torn_setCalOffset (s : State) (k : Nat) (v : Int) : (s.setCalOffset k v).boot.torn = s.boot.torn := rfl
@[simp] theorem State.boot_flash_setCalOffset (s : State) (k : Nat) (v : Int) : (s.setCalOffset k v).boot.flash = s.boot.flash := rfl
@[simp] theorem State.boot_eq_setCalOffset (s : State) (k : Nat) (v : Int) : (s.setCalOffset k v).boot.eq = s.boot.eq := rfl
@[simp] theorem State.boot_spdm_setCalOffset (s : State) (k : Nat) (v : Int) : (s.setCalOffset k v).boot.spdm = s.boot.spdm := rfl
@[simp] theorem State.boot_transcript_setCalOffset (s : State) (k : Nat) (v : Int) : (s.setCalOffset k v).boot.transcript = s.boot.transcript := rfl
@[simp] theorem State.boot_meas_setCalOffset (s : State) (k : Nat) (v : Int) : (s.setCalOffset k v).boot.meas = s.boot.meas := rfl
@[simp] theorem State.spdmAt_setSpdmAt (s : State) (k : Nat) (v : Nat) :
    (s.setSpdmAt k v).spdmAt k = v := mget_mput_same _ _ k v
theorem State.spdmAt_setSpdmAt_of_ne (s : State) (k j : Nat) (v : Nat) (h : j ≠ k) :
    (s.setSpdmAt k v).spdmAt j = s.spdmAt j := mget_mput_ne _ _ k j v h
@[simp] theorem State.por_setSpdmAt (s : State) (k : Nat) (v : Nat) : (s.setSpdmAt k v).por = s.por := rfl
@[simp] theorem State.tb_setSpdmAt (s : State) (k : Nat) (v : Nat) : (s.setSpdmAt k v).tb = s.tb := rfl
@[simp] theorem State.reg_setSpdmAt (s : State) (k : Nat) (v : Nat) : (s.setSpdmAt k v).reg = s.reg := rfl
@[simp] theorem State.mem_setSpdmAt (s : State) (k : Nat) (v : Nat) : (s.setSpdmAt k v).mem = s.mem := rfl
@[simp] theorem State.fab_setSpdmAt (s : State) (k : Nat) (v : Nat) : (s.setSpdmAt k v).fab = s.fab := rfl
@[simp] theorem State.ord_setSpdmAt (s : State) (k : Nat) (v : Nat) : (s.setSpdmAt k v).ord = s.ord := rfl
@[simp] theorem State.arb_setSpdmAt (s : State) (k : Nat) (v : Nat) : (s.setSpdmAt k v).arb = s.arb := rfl
@[simp] theorem State.pcl_setSpdmAt (s : State) (k : Nat) (v : Nat) : (s.setSpdmAt k v).pcl = s.pcl := rfl
@[simp] theorem State.qm_setSpdmAt (s : State) (k : Nat) (v : Nat) : (s.setSpdmAt k v).qm = s.qm := rfl
@[simp] theorem State.xlt_setSpdmAt (s : State) (k : Nat) (v : Nat) : (s.setSpdmAt k v).xlt = s.xlt := rfl
@[simp] theorem State.port_setSpdmAt (s : State) (k : Nat) (v : Nat) : (s.setSpdmAt k v).port = s.port := rfl
@[simp] theorem State.fn_setSpdmAt (s : State) (k : Nat) (v : Nat) : (s.setSpdmAt k v).fn = s.fn := rfl
@[simp] theorem State.err_setSpdmAt (s : State) (k : Nat) (v : Nat) : (s.setSpdmAt k v).err = s.err := rfl
@[simp] theorem State.pwr_setSpdmAt (s : State) (k : Nat) (v : Nat) : (s.setSpdmAt k v).pwr = s.pwr := rfl
@[simp] theorem State.pending_setSpdmAt (s : State) (k : Nat) (v : Nat) : (s.setSpdmAt k v).pending = s.pending := rfl
@[simp] theorem State.free_setSpdmAt (s : State) (k : Nat) (v : Nat) : (s.setSpdmAt k v).free = s.free := rfl
@[simp] theorem State.out_setSpdmAt (s : State) (k : Nat) (v : Nat) : (s.setSpdmAt k v).out = s.out := rfl
@[simp] theorem State.boot_image_setSpdmAt (s : State) (k : Nat) (v : Nat) : (s.setSpdmAt k v).boot.image = s.boot.image := rfl
@[simp] theorem State.boot_fuseKeys_setSpdmAt (s : State) (k : Nat) (v : Nat) : (s.setSpdmAt k v).boot.fuseKeys = s.boot.fuseKeys := rfl
@[simp] theorem State.boot_torn_setSpdmAt (s : State) (k : Nat) (v : Nat) : (s.setSpdmAt k v).boot.torn = s.boot.torn := rfl
@[simp] theorem State.boot_flash_setSpdmAt (s : State) (k : Nat) (v : Nat) : (s.setSpdmAt k v).boot.flash = s.boot.flash := rfl
@[simp] theorem State.boot_eq_setSpdmAt (s : State) (k : Nat) (v : Nat) : (s.setSpdmAt k v).boot.eq = s.boot.eq := rfl
@[simp] theorem State.boot_calOff_setSpdmAt (s : State) (k : Nat) (v : Nat) : (s.setSpdmAt k v).boot.calOff = s.boot.calOff := rfl
@[simp] theorem State.boot_transcript_setSpdmAt (s : State) (k : Nat) (v : Nat) : (s.setSpdmAt k v).boot.transcript = s.boot.transcript := rfl
@[simp] theorem State.boot_meas_setSpdmAt (s : State) (k : Nat) (v : Nat) : (s.setSpdmAt k v).boot.meas = s.boot.meas := rfl
@[simp] theorem State.transcript_setTranscript (s : State) (k : Nat) (v : List Nat) :
    (s.setTranscript k v).transcript k = v := mget_mput_same _ _ k v
theorem State.transcript_setTranscript_of_ne (s : State) (k j : Nat) (v : List Nat) (h : j ≠ k) :
    (s.setTranscript k v).transcript j = s.transcript j := mget_mput_ne _ _ k j v h
@[simp] theorem State.por_setTranscript (s : State) (k : Nat) (v : List Nat) : (s.setTranscript k v).por = s.por := rfl
@[simp] theorem State.tb_setTranscript (s : State) (k : Nat) (v : List Nat) : (s.setTranscript k v).tb = s.tb := rfl
@[simp] theorem State.reg_setTranscript (s : State) (k : Nat) (v : List Nat) : (s.setTranscript k v).reg = s.reg := rfl
@[simp] theorem State.mem_setTranscript (s : State) (k : Nat) (v : List Nat) : (s.setTranscript k v).mem = s.mem := rfl
@[simp] theorem State.fab_setTranscript (s : State) (k : Nat) (v : List Nat) : (s.setTranscript k v).fab = s.fab := rfl
@[simp] theorem State.ord_setTranscript (s : State) (k : Nat) (v : List Nat) : (s.setTranscript k v).ord = s.ord := rfl
@[simp] theorem State.arb_setTranscript (s : State) (k : Nat) (v : List Nat) : (s.setTranscript k v).arb = s.arb := rfl
@[simp] theorem State.pcl_setTranscript (s : State) (k : Nat) (v : List Nat) : (s.setTranscript k v).pcl = s.pcl := rfl
@[simp] theorem State.qm_setTranscript (s : State) (k : Nat) (v : List Nat) : (s.setTranscript k v).qm = s.qm := rfl
@[simp] theorem State.xlt_setTranscript (s : State) (k : Nat) (v : List Nat) : (s.setTranscript k v).xlt = s.xlt := rfl
@[simp] theorem State.port_setTranscript (s : State) (k : Nat) (v : List Nat) : (s.setTranscript k v).port = s.port := rfl
@[simp] theorem State.fn_setTranscript (s : State) (k : Nat) (v : List Nat) : (s.setTranscript k v).fn = s.fn := rfl
@[simp] theorem State.err_setTranscript (s : State) (k : Nat) (v : List Nat) : (s.setTranscript k v).err = s.err := rfl
@[simp] theorem State.pwr_setTranscript (s : State) (k : Nat) (v : List Nat) : (s.setTranscript k v).pwr = s.pwr := rfl
@[simp] theorem State.pending_setTranscript (s : State) (k : Nat) (v : List Nat) : (s.setTranscript k v).pending = s.pending := rfl
@[simp] theorem State.free_setTranscript (s : State) (k : Nat) (v : List Nat) : (s.setTranscript k v).free = s.free := rfl
@[simp] theorem State.out_setTranscript (s : State) (k : Nat) (v : List Nat) : (s.setTranscript k v).out = s.out := rfl
@[simp] theorem State.boot_image_setTranscript (s : State) (k : Nat) (v : List Nat) : (s.setTranscript k v).boot.image = s.boot.image := rfl
@[simp] theorem State.boot_fuseKeys_setTranscript (s : State) (k : Nat) (v : List Nat) : (s.setTranscript k v).boot.fuseKeys = s.boot.fuseKeys := rfl
@[simp] theorem State.boot_torn_setTranscript (s : State) (k : Nat) (v : List Nat) : (s.setTranscript k v).boot.torn = s.boot.torn := rfl
@[simp] theorem State.boot_flash_setTranscript (s : State) (k : Nat) (v : List Nat) : (s.setTranscript k v).boot.flash = s.boot.flash := rfl
@[simp] theorem State.boot_eq_setTranscript (s : State) (k : Nat) (v : List Nat) : (s.setTranscript k v).boot.eq = s.boot.eq := rfl
@[simp] theorem State.boot_calOff_setTranscript (s : State) (k : Nat) (v : List Nat) : (s.setTranscript k v).boot.calOff = s.boot.calOff := rfl
@[simp] theorem State.boot_spdm_setTranscript (s : State) (k : Nat) (v : List Nat) : (s.setTranscript k v).boot.spdm = s.boot.spdm := rfl
@[simp] theorem State.boot_meas_setTranscript (s : State) (k : Nat) (v : List Nat) : (s.setTranscript k v).boot.meas = s.boot.meas := rfl
@[simp] theorem State.measAt_setMeasAt (s : State) (k : Nat) (v : Nat) :
    (s.setMeasAt k v).measAt k = v := mget_mput_same _ _ k v
theorem State.measAt_setMeasAt_of_ne (s : State) (k j : Nat) (v : Nat) (h : j ≠ k) :
    (s.setMeasAt k v).measAt j = s.measAt j := mget_mput_ne _ _ k j v h
@[simp] theorem State.por_setMeasAt (s : State) (k : Nat) (v : Nat) : (s.setMeasAt k v).por = s.por := rfl
@[simp] theorem State.tb_setMeasAt (s : State) (k : Nat) (v : Nat) : (s.setMeasAt k v).tb = s.tb := rfl
@[simp] theorem State.reg_setMeasAt (s : State) (k : Nat) (v : Nat) : (s.setMeasAt k v).reg = s.reg := rfl
@[simp] theorem State.mem_setMeasAt (s : State) (k : Nat) (v : Nat) : (s.setMeasAt k v).mem = s.mem := rfl
@[simp] theorem State.fab_setMeasAt (s : State) (k : Nat) (v : Nat) : (s.setMeasAt k v).fab = s.fab := rfl
@[simp] theorem State.ord_setMeasAt (s : State) (k : Nat) (v : Nat) : (s.setMeasAt k v).ord = s.ord := rfl
@[simp] theorem State.arb_setMeasAt (s : State) (k : Nat) (v : Nat) : (s.setMeasAt k v).arb = s.arb := rfl
@[simp] theorem State.pcl_setMeasAt (s : State) (k : Nat) (v : Nat) : (s.setMeasAt k v).pcl = s.pcl := rfl
@[simp] theorem State.qm_setMeasAt (s : State) (k : Nat) (v : Nat) : (s.setMeasAt k v).qm = s.qm := rfl
@[simp] theorem State.xlt_setMeasAt (s : State) (k : Nat) (v : Nat) : (s.setMeasAt k v).xlt = s.xlt := rfl
@[simp] theorem State.port_setMeasAt (s : State) (k : Nat) (v : Nat) : (s.setMeasAt k v).port = s.port := rfl
@[simp] theorem State.fn_setMeasAt (s : State) (k : Nat) (v : Nat) : (s.setMeasAt k v).fn = s.fn := rfl
@[simp] theorem State.err_setMeasAt (s : State) (k : Nat) (v : Nat) : (s.setMeasAt k v).err = s.err := rfl
@[simp] theorem State.pwr_setMeasAt (s : State) (k : Nat) (v : Nat) : (s.setMeasAt k v).pwr = s.pwr := rfl
@[simp] theorem State.pending_setMeasAt (s : State) (k : Nat) (v : Nat) : (s.setMeasAt k v).pending = s.pending := rfl
@[simp] theorem State.free_setMeasAt (s : State) (k : Nat) (v : Nat) : (s.setMeasAt k v).free = s.free := rfl
@[simp] theorem State.out_setMeasAt (s : State) (k : Nat) (v : Nat) : (s.setMeasAt k v).out = s.out := rfl
@[simp] theorem State.boot_image_setMeasAt (s : State) (k : Nat) (v : Nat) : (s.setMeasAt k v).boot.image = s.boot.image := rfl
@[simp] theorem State.boot_fuseKeys_setMeasAt (s : State) (k : Nat) (v : Nat) : (s.setMeasAt k v).boot.fuseKeys = s.boot.fuseKeys := rfl
@[simp] theorem State.boot_torn_setMeasAt (s : State) (k : Nat) (v : Nat) : (s.setMeasAt k v).boot.torn = s.boot.torn := rfl
@[simp] theorem State.boot_flash_setMeasAt (s : State) (k : Nat) (v : Nat) : (s.setMeasAt k v).boot.flash = s.boot.flash := rfl
@[simp] theorem State.boot_eq_setMeasAt (s : State) (k : Nat) (v : Nat) : (s.setMeasAt k v).boot.eq = s.boot.eq := rfl
@[simp] theorem State.boot_calOff_setMeasAt (s : State) (k : Nat) (v : Nat) : (s.setMeasAt k v).boot.calOff = s.boot.calOff := rfl
@[simp] theorem State.boot_spdm_setMeasAt (s : State) (k : Nat) (v : Nat) : (s.setMeasAt k v).boot.spdm = s.boot.spdm := rfl
@[simp] theorem State.boot_transcript_setMeasAt (s : State) (k : Nat) (v : Nat) : (s.setMeasAt k v).boot.transcript = s.boot.transcript := rfl

end Sys2Proof.Machine
end

