-- ==== Sys2Proof/Laws/Regs.lean ====
section
/-!
SUPPORT. The laws of the register file and of bit fields: a field that is written reads back its low bits, every other
field of the register and every other register instance reads as before, and nothing outside the register file changes.
-/
namespace Sys2Proof.Machine

/-! ## Bit fields -/

/-- The number that a replaced field leaves lies within 64 bits. -/
theorem bitsPut_lt (n lo m x : Nat) (hm : 0 < m) (hn : n < 2 ^ 64) (hw : 2 ^ lo * m ∣ 2 ^ 64) :
    n - n / 2 ^ lo % m * 2 ^ lo + x % m * 2 ^ lo < 2 ^ 64 := by
  obtain ⟨c, hc⟩ := hw
  have h1 : n = n / 2 ^ lo * 2 ^ lo + n % 2 ^ lo := by rw [Nat.div_add_mod']
  have h2 : n / 2 ^ lo = n / 2 ^ lo / m * m + n / 2 ^ lo % m := by rw [Nat.div_add_mod']
  have h3 : n % 2 ^ lo < 2 ^ lo := Nat.mod_lt _ (by positivity)
  have h4 : x % m < m := Nat.mod_lt _ hm
  have h5 : n / 2 ^ lo / m < c := by
    rw [Nat.div_div_eq_div_mul, Nat.div_lt_iff_lt_mul (by positivity)]; rw [Nat.mul_comm c]; omega
  have h9 : n = n / 2 ^ lo / m * m * 2 ^ lo + n / 2 ^ lo % m * 2 ^ lo + n % 2 ^ lo := by
    rw [← Nat.add_mul, ← h2, ← h1]
  have h6 : n - n / 2 ^ lo % m * 2 ^ lo = n / 2 ^ lo / m * m * 2 ^ lo + n % 2 ^ lo := by omega
  rw [h6]
  generalize n / 2 ^ lo / m = a at *
  generalize n % 2 ^ lo = r at *
  generalize x % m = y at *
  calc a * m * 2 ^ lo + r + y * 2 ^ lo < a * m * 2 ^ lo + 2 ^ lo + (m - 1) * 2 ^ lo := by
        have : y * 2 ^ lo ≤ (m - 1) * 2 ^ lo := Nat.mul_le_mul_right _ (by omega)
        omega
    _ = (a + 1) * (2 ^ lo * m) := by
        obtain ⟨k, rfl⟩ : ∃ k, m = k + 1 := ⟨m - 1, by omega⟩
        simp only [Nat.add_sub_cancel]; ring
    _ ≤ c * (2 ^ lo * m) := Nat.mul_le_mul_right _ (by omega)
    _ = 2 ^ 64 := by rw [hc]; ring

/-- The number behind a replaced field. -/
theorem bitsPut_toNat (v : Word) (hi lo x : Nat) (h : lo ≤ hi) (h64 : hi < 64) :
    (bitsPut v hi lo x).toNat
      = v.toNat / 2 ^ (hi + 1) * 2 ^ (hi + 1) + x % 2 ^ (hi + 1 - lo) * 2 ^ lo + v.toNat % 2 ^ lo := by
  have hd : 2 ^ lo * 2 ^ (hi + 1 - lo) = 2 ^ (hi + 1) := by rw [← pow_add]; congr 1; omega
  have hw : 2 ^ lo * 2 ^ (hi + 1 - lo) ∣ 2 ^ 64 := by rw [hd]; exact pow_dvd_pow 2 (by omega)
  have hlt := bitsPut_lt v.toNat lo (2 ^ (hi + 1 - lo)) x (by positivity) v.isLt hw
  simp only [bitsPut, BitVec.toNat_ofNat, Nat.mod_eq_of_lt hlt]
  generalize v.toNat = n
  generalize hm : 2 ^ (hi + 1 - lo) = m at *
  have h1 : n = n / 2 ^ lo * 2 ^ lo + n % 2 ^ lo := by rw [Nat.div_add_mod']
  have h2 : n / 2 ^ lo = n / 2 ^ lo / m * m + n / 2 ^ lo % m := by rw [Nat.div_add_mod']
  have h7 : n / 2 ^ lo / m = n / 2 ^ (hi + 1) := by rw [Nat.div_div_eq_div_mul, hd]
  have h8 : n / 2 ^ (hi + 1) * 2 ^ (hi + 1) = n / 2 ^ lo / m * m * 2 ^ lo := by rw [h7, ← hd]; ring
  rw [h8]
  have h9 : n = n / 2 ^ lo / m * m * 2 ^ lo + n / 2 ^ lo % m * 2 ^ lo + n % 2 ^ lo := by
    rw [← Nat.add_mul, ← h2, ← h1]
  omega

/-- A written field reads back the low bits of what was written. -/
theorem bitsGet_bitsPut_same (v : Word) (hi lo x : Nat) (h : lo ≤ hi) (h64 : hi < 64) :
    bitsGet (bitsPut v hi lo x) hi lo = x % 2 ^ (hi + 1 - lo) := by
  have hd : 2 ^ (hi + 1) = 2 ^ (hi + 1 - lo) * 2 ^ lo := by rw [← pow_add]; congr 1; omega
  have hp : 0 < 2 ^ lo := by positivity
  simp only [bitsGet, bitsPut_toNat v hi lo x h h64]
  rw [hd, ← Nat.mul_assoc, ← Nat.add_mul, Nat.add_comm, Nat.add_mul_div_right _ _ hp,
    Nat.div_eq_of_lt (Nat.mod_lt _ hp), Nat.zero_add, Nat.add_comm, Nat.add_mul_mod_self_right, Nat.mod_mod]

/-- A field that lies below a written one reads as before. -/
theorem bitsGet_bitsPut_below (v : Word) (hi lo hi' lo' x : Nat) (h : lo ≤ hi) (h64 : hi < 64) (h' : lo' ≤ hi')
    (hb : hi' < lo) : bitsGet (bitsPut v hi lo x) hi' lo' = bitsGet v hi' lo' := by
  simp only [bitsGet, bitsPut_toNat v hi lo x h h64]
  have e : ∀ n, n / 2 ^ lo' % 2 ^ (hi' + 1 - lo') = n % 2 ^ (hi' + 1) / 2 ^ lo' := by
    intro n
    have : 2 ^ (hi' + 1) = 2 ^ lo' * 2 ^ (hi' + 1 - lo') := by rw [← pow_add]; congr 1; omega
    rw [this, Nat.mod_mul_right_div_self]
  rw [e, e]
  congr 1
  have d1 : 2 ^ (hi' + 1) ∣ v.toNat / 2 ^ (hi + 1) * 2 ^ (hi + 1) + x % 2 ^ (hi + 1 - lo) * 2 ^ lo :=
    Dvd.dvd.add (Dvd.dvd.mul_left (pow_dvd_pow 2 (by omega)) _) (Dvd.dvd.mul_left (pow_dvd_pow 2 (by omega)) _)
  obtain ⟨c, hc⟩ := d1
  rw [hc, Nat.mul_add_mod, Nat.mod_mod_of_dvd _ (pow_dvd_pow 2 (by omega))]

/-- A field that lies above a written one reads as before. -/
theorem bitsGet_bitsPut_above (v : Word) (hi lo hi' lo' x : Nat) (h : lo ≤ hi) (h64 : hi < 64) (hb : hi < lo') :
    bitsGet (bitsPut v hi lo x) hi' lo' = bitsGet v hi' lo' := by
  simp only [bitsGet, bitsPut_toNat v hi lo x h h64]
  congr 1
  have hd : 2 ^ (hi + 1) = 2 ^ (hi + 1 - lo) * 2 ^ lo := by rw [← pow_add]; congr 1; omega
  have e : ∀ n, n / 2 ^ lo' = n / 2 ^ (hi + 1) / 2 ^ (lo' - (hi + 1)) := by
    intro n
    rw [Nat.div_div_eq_div_mul, ← pow_add]; congr 2; omega
  rw [e, e v.toNat]
  congr 1
  have hl : x % 2 ^ (hi + 1 - lo) * 2 ^ lo + v.toNat % 2 ^ lo < 2 ^ (hi + 1) := by
    have h1 : x % 2 ^ (hi + 1 - lo) < 2 ^ (hi + 1 - lo) := Nat.mod_lt _ (by positivity)
    have h2 : v.toNat % 2 ^ lo < 2 ^ lo := Nat.mod_lt _ (by positivity)
    rw [hd]
    calc _ < x % 2 ^ (hi + 1 - lo) * 2 ^ lo + 2 ^ lo := by omega
      _ = (x % 2 ^ (hi + 1 - lo) + 1) * 2 ^ lo := by ring
      _ ≤ _ := Nat.mul_le_mul_right _ (by omega)
  rw [Nat.add_assoc, Nat.add_comm, Nat.add_mul_div_right _ _ (by positivity), Nat.div_eq_of_lt hl, Nat.zero_add]

/-! ## The register file -/

/-- Two instances of registers have different places. -/
theorem regKey_ne (r r' : RegId) (i i' : Nat) (hi : i < 65536) (hi' : i' < 65536) (h : r ≠ r' ∨ i ≠ i') :
    regKey r i ≠ regKey r' i' := by
  intro e
  unfold regKey at e
  have h1 : r.ctorIdx = r'.ctorIdx := by omega
  have h2 : i = i' := by omega
  rcases h with h | h
  · apply h
    have f : ∀ a b : RegId, a.ctorIdx = b.ctorIdx → a = b := by
      intro a b hab
      have key : ∀ c : RegId, (RegId.ofNat c.ctorIdx) = c := by intro c; cases c <;> rfl
      rw [← key a, ← key b, hab]
    exact f _ _ h1
  · exact h h2

/-- A written register reads back. -/
@[simp] theorem rget_rput_same (s : State) (r : RegId) (i : Nat) (v : Word) : (s.rput r i v).rget r i = v := by
  simp only [State.rget, State.rput, mget_mput_same]
  split
  · next h => simp [h]
  · rfl

/-- Every other register instance reads as before. -/
theorem rget_rput_of_ne (s : State) (r r' : RegId) (i i' : Nat) (v : Word) (h : regKey r' i' ≠ regKey r i) :
    (s.rput r i v).rget r' i' = s.rget r' i' := by
  simp only [State.rget, State.rput, mget_mput_ne _ _ _ _ _ h]

/-- Writing an active value leaves every shadow. -/
@[simp] theorem sget_rput (s : State) (r r' : RegId) (i i' : Nat) (v : Word) :
    (s.rput r i v).sget r' i' = s.sget r' i' := rfl

/-- Writing a shadow leaves every active value. -/
@[simp] theorem rget_sput (s : State) (r r' : RegId) (i i' : Nat) (v : Word) :
    (s.sput r i v).rget r' i' = s.rget r' i' := rfl

/-- A written shadow reads back. -/
@[simp] theorem sget_sput_same (s : State) (r : RegId) (i : Nat) (v : Word) : (s.sput r i v).sget r i = v := by
  simp only [State.sget, State.sput, mget_mput_same]
  split
  · next h => simp [h]
  · rfl

/-- A written field reads back the low bits of what was written. -/
theorem fget_fset_same (s : State) (f : Fld) (i x : Nat) (h : f.lo ≤ f.hi) (h64 : f.hi < 64) :
    (s.fset f i x).fget f i = x % 2 ^ (f.hi + 1 - f.lo) := by
  simp [State.fget, State.fset, bitsGet_bitsPut_same _ _ _ _ h h64]

/-- A field of another register instance reads as before. -/
theorem fget_fset_of_ne (s : State) (f f' : Fld) (i i' x : Nat) (h : regKey f'.reg i' ≠ regKey f.reg i) :
    (s.fset f i x).fget f' i' = s.fget f' i' := by
  simp [State.fget, State.fset, rget_rput_of_ne _ _ _ _ _ _ h]

/-- Another field of the same register instance reads as before. -/
theorem fget_fset_disjoint (s : State) (f f' : Fld) (i x : Nat) (hr : f'.reg = f.reg) (h : f.lo ≤ f.hi)
    (h64 : f.hi < 64) (h' : f'.lo ≤ f'.hi) (hd : f'.hi < f.lo ∨ f.hi < f'.lo) :
    (s.fset f i x).fget f' i = s.fget f' i := by
  simp only [State.fget, State.fset, hr, rget_rput_same]
  rcases hd with hd | hd
  · exact bitsGet_bitsPut_below _ _ _ _ _ _ h h64 h' hd
  · exact bitsGet_bitsPut_above _ _ _ _ _ _ h h64 hd

/-- A written shadow field reads back the low bits of what was written. -/
theorem fgetS_fsetS_same (s : State) (f : Fld) (i x : Nat) (h : f.lo ≤ f.hi) (h64 : f.hi < 64) :
    (s.fsetS f i x).fgetS f i = x % 2 ^ (f.hi + 1 - f.lo) := by
  simp [State.fgetS, State.fsetS, bitsGet_bitsPut_same _ _ _ _ h h64]

/-- The register file keeps its canonical form. -/
theorem rput_wf (s : State) (r : RegId) (i : Nat) (v : Word) (h : mwf none s.reg.act = true) :
    mwf none (s.rput r i v).reg.act = true := mwf_mput _ _ _ _ h

end Sys2Proof.Machine
end

