-- ==== Sys2Proof/Laws/Kept.lean ====
section
/-!
SUPPORT. What every operation keeps, as one relation between a state and a later one: the queue of commands, the
canonical form of memories and registers, what has left the block, the count of free values and the fuses. Here are its
closure properties; the files Laws/Kept<Part>.lean have one lemma per operation.
-/
namespace Sys2Proof.Machine

/-- What lies between a state and a later one, but across the four commands of power-on reset. -/
structure Kept (s t : State) : Prop where
  pending : t.pending = s.pending
  por : t.por = s.por
  free : s.free ≤ t.free
  out : s.out <:+ t.out
  mem : Memory.wf s.mem = true → Memory.wf t.mem = true
  reg : RegFile.wf s.reg = true → RegFile.wf t.reg = true
  fuses : fusesKept s.boot t.boot

theorem fusesKept_refl (b : BootGrp) : fusesKept b b := ⟨le_rfl, le_rfl, id, fun _ => ⟨fun _ => rfl, id, id⟩⟩

theorem fusesKept_trans {a b c : BootGrp} (h : fusesKept a b) (g : fusesKept b c) : fusesKept a c := by
  obtain ⟨h1, h2, h3, h4⟩ := h
  obtain ⟨g1, g2, g3, g4⟩ := g
  refine ⟨h1.trans g1, h2.trans g2, fun x => g3 (h3 x), fun k => ⟨fun x => ?_, fun x => ?_, fun x => ?_⟩⟩
  · have e := (h4 k).1 x
    rw [← e]; exact (g4 k).1 (by rw [e]; exact x)
  · exact (g4 k).2.1 ((h4 k).2.1 x)
  · exact (g4 k).2.2 ((h4 k).2.2 x)

theorem Kept.refl (s : State) : Kept s s := ⟨rfl, rfl, le_rfl, List.suffix_refl _, id, id, fusesKept_refl _⟩

theorem Kept.trans {s t u : State} (h : Kept s t) (g : Kept t u) : Kept s u :=
  ⟨g.pending.trans h.pending, g.por.trans h.por, h.free.trans g.free, h.out.trans g.out, fun x => g.mem (h.mem x), fun x => g.reg (h.reg x),
    fusesKept_trans h.fuses g.fuses⟩

/-- `Kept.trans`, the later change first. -/
theorem Kept.after {s t u : State} (g : Kept t u) (h : Kept s t) : Kept s u := h.trans g

theorem Kept.of_pair {α : Type} {s t : State} {a : α} {p : α × State} (h : p = (a, t)) (k : Kept s p.2) : Kept s t := by
  subst h; exact k

theorem Kept.ite {c : Prop} [Decidable c] {s t u : State} (a : c → Kept s t) (b : Kept s u) :
    Kept s (if c then t else u) := by
  split
  · next h => exact a h
  · exact b

/-- What is shown of an intermediate state serves the rest. -/
theorem Kept.viaVar {Q : Prop} (y x : State) (h : Kept y x) (k : Kept y x → Q) : Q := k h

/-- A change that touches none of the parts concerned. -/
theorem Kept.of_eq {s t : State} (h1 : t.pending = s.pending) (hp : t.por = s.por) (h2 : t.free = s.free) (h3 : t.out = s.out)
    (h4 : t.mem = s.mem) (h5 : t.reg = s.reg) (h6 : t.boot.ownerCount = s.boot.ownerCount)
    (h7 : t.boot.vendorCount = s.boot.vendorCount) (h8 : t.boot.debugLock = s.boot.debugLock)
    (h9 : t.boot.fuseKeys = s.boot.fuseKeys) : Kept s t :=
  ⟨h1, hp, h2.ge, by rw [h3], by rw [h4]; exact id, by rw [h5]; exact id,
    ⟨h6.ge, h7.ge, by rw [h8]; exact id, by rw [h9]; exact fun k => ⟨fun _ => rfl, id, id⟩⟩⟩

/-- A change after a kept one that touches none of the parts concerned. -/
theorem Kept.then_eq {s t u : State} (h : Kept s t) (h1 : u.pending = t.pending) (hp : u.por = t.por) (h2 : u.free = t.free)
    (h3 : u.out = t.out) (h4 : u.mem = t.mem) (h5 : u.reg = t.reg) (h6 : u.boot.ownerCount = t.boot.ownerCount)
    (h7 : u.boot.vendorCount = t.boot.vendorCount) (h8 : u.boot.debugLock = t.boot.debugLock)
    (h9 : u.boot.fuseKeys = t.boot.fuseKeys) : Kept s u :=
  h.trans (.of_eq h1 hp h2 h3 h4 h5 h6 h7 h8 h9)

/-- What the commands of power-on reset keep: all but the cause of the reset. -/
def KeptButPor (s t : State) : Prop := Kept s { t with por := s.por }

theorem Kept.butPor {s t : State} (h : Kept s t) : KeptButPor s t :=
  ⟨h.pending, rfl, h.free, h.out, h.mem, h.reg, h.fuses⟩

/-- What is left of `KeptButPor` by a kept change. -/
theorem KeptButPor.trans {s t u : State} (h : KeptButPor s t) (g : Kept t u) : KeptButPor s u :=
  ⟨g.pending.trans h.pending, rfl, h.free.trans g.free, h.out.trans g.out, fun x => g.mem (h.mem x),
    fun x => g.reg (h.reg x), fusesKept_trans h.fuses g.fuses⟩

/-! ## The groups that are not concerned -/

theorem Kept.set_port {s t : State} (v : PortGrp) (h : Kept s t) : Kept s { t with port := v } := h.then_eq rfl rfl rfl rfl rfl rfl rfl rfl rfl rfl
theorem Kept.set_fab {s t : State} (v : FabGrp) (h : Kept s t) : Kept s { t with fab := v } := h.then_eq rfl rfl rfl rfl rfl rfl rfl rfl rfl rfl
theorem Kept.set_ord {s t : State} (v : OrdGrp) (h : Kept s t) : Kept s { t with ord := v } := h.then_eq rfl rfl rfl rfl rfl rfl rfl rfl rfl rfl
theorem Kept.set_arb {s t : State} (v : ArbGrp) (h : Kept s t) : Kept s { t with arb := v } := h.then_eq rfl rfl rfl rfl rfl rfl rfl rfl rfl rfl
theorem Kept.set_pcl {s t : State} (v : PclGrp) (h : Kept s t) : Kept s { t with pcl := v } := h.then_eq rfl rfl rfl rfl rfl rfl rfl rfl rfl rfl
theorem Kept.set_qm {s t : State} (v : QmGrp) (h : Kept s t) : Kept s { t with qm := v } := h.then_eq rfl rfl rfl rfl rfl rfl rfl rfl rfl rfl
theorem Kept.set_xlt {s t : State} (v : XltGrp) (h : Kept s t) : Kept s { t with xlt := v } := h.then_eq rfl rfl rfl rfl rfl rfl rfl rfl rfl rfl
theorem Kept.set_fn {s t : State} (v : FnGrp) (h : Kept s t) : Kept s { t with fn := v } := h.then_eq rfl rfl rfl rfl rfl rfl rfl rfl rfl rfl
theorem Kept.set_err {s t : State} (v : ErrGrp) (h : Kept s t) : Kept s { t with err := v } := h.then_eq rfl rfl rfl rfl rfl rfl rfl rfl rfl rfl
theorem Kept.set_pwr {s t : State} (v : PwrGrp) (h : Kept s t) : Kept s { t with pwr := v } := h.then_eq rfl rfl rfl rfl rfl rfl rfl rfl rfl rfl
theorem Kept.set_tb {s t : State} (v : TbGrp) (h : Kept s t) : Kept s { t with tb := v } := h.then_eq rfl rfl rfl rfl rfl rfl rfl rfl rfl rfl

/-! ## Combinators -/

theorem kept_when {c : Bool} {f : State → State} {s : State} (h : ∀ x, Kept x (f x)) : Kept s (when c f s) := by
  unfold when; split
  · exact h s
  · exact .refl s

theorem kept_foldl {α : Type} {f : State → α → State} (l : List α) (s : State) (h : ∀ a x, Kept x (f x a)) :
    Kept s (l.foldl f s) := by
  induction l generalizing s with
  | nil => exact .refl s
  | cons a t ih => exact (h a s).trans (ih _)

theorem kept_forN {n : Nat} {f : Nat → State → State} {s : State} (h : ∀ i x, Kept x (f i x)) : Kept s (forN n f s) :=
  kept_foldl _ _ (fun a x => h a x)

theorem kept_forL {α : Type} {l : List α} {f : α → State → State} {s : State} (h : ∀ a x, Kept x (f a x)) :
    Kept s (forL l f s) := kept_foldl _ _ (fun a x => h a x)

/-- Every next state of an outcome is a later state. -/
def KeptBy (s : State) (o : Host.Outcome State Fault Refusal) : Prop := ∀ t, o = .next t → Kept s t

theorem KeptBy.of_next {s t : State} (h : Kept s t) : KeptBy s (.next t) := by
  intro u e; cases e; exact h

theorem kept_live {s : State} {f : State → State} (h : ∀ x, Kept x (f x)) : KeptBy s (live s f) := by
  unfold live; split
  · exact .of_next (.refl s)
  · exact .of_next (h s)

/-! ## Writes of memory and registers -/

theorem Memory.wf_iff (m : MemGrp) : Memory.wf m = true ↔ mwf 0 m.cells = true ∧ mwf false m.poison = true
    ∧ mwf 0 m.ecc = true ∧ mwf 0 m.scratch = true ∧ mwf false m.scrPoison = true ∧ mwf 0 m.ps = true
    ∧ mwf 0 m.psEcc = true := by
  simp only [Memory.wf, Bool.and_eq_true, and_assoc]

theorem RegFile.wf_iff (r : RegGrp) : RegFile.wf r = true ↔ mwf none r.act = true ∧ mwf none r.shad = true := by
  simp only [RegFile.wf, Bool.and_eq_true]

/-- A change of memory that keeps its canonical form. -/
theorem Kept.set_mem {s t : State} (v : MemGrp) (h : Kept s t) (hm : Memory.wf t.mem = true → Memory.wf v = true) :
    Kept s { t with mem := v } := h.trans ⟨rfl, rfl, le_rfl, List.suffix_refl _, hm, id, fusesKept_refl _⟩

/-- A change of the register file that keeps its canonical form. -/
theorem Kept.set_reg {s t : State} (v : RegGrp) (h : Kept s t) (hr : RegFile.wf t.reg = true → RegFile.wf v = true) :
    Kept s { t with reg := v } := h.trans ⟨rfl, rfl, le_rfl, List.suffix_refl _, id, hr, fusesKept_refl _⟩

/-- A change of the boot group that keeps the fuses. -/
theorem Kept.set_boot {s t : State} (v : BootGrp) (h : Kept s t) (hf : fusesKept t.boot v) :
    Kept s { t with boot := v } := h.trans ⟨rfl, rfl, le_rfl, List.suffix_refl _, id, id, hf⟩

theorem kept_setByte {s : State} {k : Nat} {v : Byte} : Kept s (s.setByte k v) := by
  refine Kept.set_mem _ (.refl s) (fun h => ?_)
  rw [Memory.wf_iff] at *; exact ⟨mwf_mput _ _ _ _ h.1, h.2⟩

theorem kept_setPoisonAt {s : State} {k : Nat} {v : Bool} : Kept s (s.setPoisonAt k v) := by
  refine Kept.set_mem _ (.refl s) (fun h => ?_)
  rw [Memory.wf_iff] at *; exact ⟨h.1, mwf_mput _ _ _ _ h.2.1, h.2.2⟩

theorem kept_setEccAt {s : State} {k v : Nat} : Kept s (s.setEccAt k v) := by
  refine Kept.set_mem _ (.refl s) (fun h => ?_)
  rw [Memory.wf_iff] at *; exact ⟨h.1, h.2.1, mwf_mput _ _ _ _ h.2.2.1, h.2.2.2⟩

theorem kept_setScrByte {s : State} {k : Nat} {v : Byte} : Kept s (s.setScrByte k v) := by
  refine Kept.set_mem _ (.refl s) (fun h => ?_)
  rw [Memory.wf_iff] at *; exact ⟨h.1, h.2.1, h.2.2.1, mwf_mput _ _ _ _ h.2.2.2.1, h.2.2.2.2⟩

theorem kept_setScrPoisonAt {s : State} {k : Nat} {v : Bool} : Kept s (s.setScrPoisonAt k v) := by
  refine Kept.set_mem _ (.refl s) (fun h => ?_)
  rw [Memory.wf_iff] at *; exact ⟨h.1, h.2.1, h.2.2.1, h.2.2.2.1, mwf_mput _ _ _ _ h.2.2.2.2.1, h.2.2.2.2.2⟩

theorem kept_setPsWord {s : State} {k : Nat} {v : BitVec 32} : Kept s (s.setPsWord k v) := by
  refine Kept.set_mem _ (.refl s) (fun h => ?_)
  rw [Memory.wf_iff] at *
  exact ⟨h.1, h.2.1, h.2.2.1, h.2.2.2.1, h.2.2.2.2.1, mwf_mput _ _ _ _ h.2.2.2.2.2.1, h.2.2.2.2.2.2⟩

theorem kept_setPsEccAt {s : State} {k v : Nat} : Kept s (s.setPsEccAt k v) := by
  refine Kept.set_mem _ (.refl s) (fun h => ?_)
  rw [Memory.wf_iff] at *
  exact ⟨h.1, h.2.1, h.2.2.1, h.2.2.2.1, h.2.2.2.2.1, h.2.2.2.2.2.1, mwf_mput _ _ _ _ h.2.2.2.2.2.2⟩

theorem kept_rput {s : State} {r : RegId} {i : Nat} {v : Word} : Kept s (s.rput r i v) := by
  refine Kept.set_reg _ (.refl s) (fun h => ?_)
  rw [RegFile.wf_iff] at *; exact ⟨mwf_mput _ _ _ _ h.1, h.2⟩

theorem kept_sput {s : State} {r : RegId} {i : Nat} {v : Word} : Kept s (s.sput r i v) := by
  refine Kept.set_reg _ (.refl s) (fun h => ?_)
  rw [RegFile.wf_iff] at *; exact ⟨h.1, mwf_mput _ _ _ _ h.2⟩

theorem kept_emit {s : State} {o : Out} : Kept s (s.emit o) :=
  ⟨rfl, rfl, le_rfl, List.suffix_cons _ _, id, id, fusesKept_refl _⟩

theorem kept_takeFree {s : State} : Kept s (takeFree s).2 :=
  ⟨rfl, rfl, Nat.le_succ _, List.suffix_refl _, id, id, fusesKept_refl _⟩

/-- Fused state that one owner key slot gains. -/
theorem kept_setKeySlot {s : State} {k : Nat} {v : KeySlot} (h0 : (s.keySlot k).hash ≠ 0 → v.hash = (s.keySlot k).hash)
    (h1 : (s.keySlot k).enrolled = true → v.enrolled = true) (h2 : (s.keySlot k).revoked = true → v.revoked = true) :
    Kept s (s.setKeySlot k v) := by
  refine Kept.set_boot _ (.refl s) ⟨le_rfl, le_rfl, id, fun j => ?_⟩
  by_cases e : j = k
  · subst e
    simp only [mget_mput_same]
    exact ⟨h0, h1, h2⟩
  · rw [mget_mput_ne _ _ _ _ _ e]
    exact ⟨fun _ => rfl, id, id⟩

end Sys2Proof.Machine
end

