-- ==== Sys2Proof/Laws/KeptBase.lean ====
section
/-!
SUPPORT. What the operations of the shared layers, the time base, order, domains, the fabric and the arbiters keep (Laws/Kept.lean),
one lemma for each.
-/
set_option linter.all false
set_option linter.unusedTactic false
set_option linter.unreachableTactic false
namespace Sys2Proof.Machine

/-! ## Access -/

theorem kept_setFlight {s : State} {k : Nat} {v : Option Flight} : Kept s (State.setFlight s k v) :=
  Kept.set_fab _ (.refl s)

theorem kept_setChan {s : State} {k : Nat} {v : Chan} : Kept s (State.setChan s k v) := Kept.set_fab _ (.refl s)

theorem kept_setDir {s : State} {k : Nat} {v : LinkDir} : Kept s (State.setDir s k v) := Kept.set_fab _ (.refl s)

theorem kept_setLink {s : State} {k : Nat} {v : Link} : Kept s (State.setLink s k v) := Kept.set_fab _ (.refl s)

theorem kept_setRouteCopy {s : State} {k : Nat} {v : Option Nat} : Kept s (State.setRouteCopy s k v) :=
  Kept.set_fab _ (.refl s)

theorem kept_setInq {s : State} {k : Nat} {v : List Packet} : Kept s (State.setInq s k v) :=
  Kept.set_fab _ (.refl s)

theorem kept_setArrived {s : State} {k : Nat} {v : List Packet} : Kept s (State.setArrived s k v) :=
  Kept.set_fab _ (.refl s)

theorem kept_setToken {s : State} {k : Nat} {v : Option Int} : Kept s (State.setToken s k v) :=
  Kept.set_fab _ (.refl s)

theorem kept_setTokenTime {s : State} {k : Nat} {v : Nat} : Kept s (State.setTokenTime s k v) :=
  Kept.set_fab _ (.refl s)

theorem kept_setUntimed {s : State} {k : Nat} {v : Bool} : Kept s (State.setUntimed s k v) :=
  Kept.set_ord _ (.refl s)

theorem kept_setNiParked {s : State} {k : Nat} {v : Bool} : Kept s (State.setNiParked s k v) :=
  Kept.set_ord _ (.refl s)

theorem kept_setHoldTill {s : State} {k : Nat} {v : Nat} : Kept s (State.setHoldTill s k v) :=
  Kept.set_ord _ (.refl s)

theorem kept_setLastTime {s : State} {k : Nat} {v : Nat} : Kept s (State.setLastTime s k v) :=
  Kept.set_ord _ (.refl s)

theorem kept_setLastSeq {s : State} {k : Nat} {v : Nat} : Kept s (State.setLastSeq s k v) :=
  Kept.set_ord _ (.refl s)

theorem kept_setLastSent {s : State} {k : Nat} {v : Nat} : Kept s (State.setLastSent s k v) :=
  Kept.set_ord _ (.refl s)

theorem kept_setInjCnt {s : State} {k : Nat} {v : Nat} : Kept s (State.setInjCnt s k v) :=
  Kept.set_ord _ (.refl s)

theorem kept_setRecvCnt {s : State} {k : Nat} {v : Nat} : Kept s (State.setRecvCnt s k v) :=
  Kept.set_ord _ (.refl s)

theorem kept_setUsedUnits {s : State} {k : Nat} {v : Nat} : Kept s (State.setUsedUnits s k v) :=
  Kept.set_ord _ (.refl s)

theorem kept_setGate {s : State} {k : Nat} {v : Gate} : Kept s (State.setGate s k v) := Kept.set_ord _ (.refl s)

theorem kept_setFeeder {s : State} {k : Nat} {v : Feeder} : Kept s (State.setFeeder s k v) :=
  Kept.set_ord _ (.refl s)

theorem kept_setDamagedAt {s : State} {k : Nat} {v : List Packet} : Kept s (State.setDamagedAt s k v) :=
  Kept.set_ord _ (.refl s)

theorem kept_setDamTime {s : State} {k : Nat} {v : Option Nat} : Kept s (State.setDamTime s k v) :=
  Kept.set_ord _ (.refl s)

theorem kept_setConfirmed {s : State} {k : Nat} {v : Nat} : Kept s (State.setConfirmed s k v) :=
  Kept.set_ord _ (.refl s)

theorem kept_setSeenCnt {s : State} {k : Nat} {v : List Nat} : Kept s (State.setSeenCnt s k v) :=
  Kept.set_ord _ (.refl s)

theorem kept_setArbiter {s : State} {k : Nat} {v : Arb} : Kept s (State.setArbiter s k v) :=
  Kept.set_arb _ (.refl s)

theorem kept_setC52Force {s : State} {k : Nat} {v : Option Word} : Kept s (State.setC52Force s k v) :=
  Kept.set_arb _ (.refl s)

theorem kept_setSem {s : State} {k : Nat} {v : Sem} : Kept s (State.setSem s k v) := Kept.set_arb _ (.refl s)

theorem kept_setSemFence {s : State} {k : Nat} {v : Bool} : Kept s (State.setSemFence s k v) :=
  Kept.set_arb _ (.refl s)

theorem kept_setEng {s : State} {k : Nat} {v : Eng} : Kept s (State.setEng s k v) := Kept.set_pcl _ (.refl s)

theorem kept_setGreg {s : State} {k : Nat} {v : Word} : Kept s (State.setGreg s k v) := Kept.set_pcl _ (.refl s)

theorem kept_setClu {s : State} {k : Nat} {v : Cluster} : Kept s (State.setClu s k v) := Kept.set_pcl _ (.refl s)

theorem kept_setCtx {s : State} {k : Nat} {v : Ctx} : Kept s (State.setCtx s k v) := Kept.set_pcl _ (.refl s)

theorem kept_setQueue {s : State} {k : Nat} {v : Queue} : Kept s (State.setQueue s k v) := Kept.set_qm _ (.refl s)

theorem kept_setSpent {s : State} {k : Nat} {v : Nat} : Kept s (State.setSpent s k v) := Kept.set_qm _ (.refl s)

theorem kept_setXcache {s : State} {k : Nat} {v : List Line} : Kept s (State.setXcache s k v) :=
  Kept.set_xlt _ (.refl s)

theorem kept_setMissList {s : State} {k : Nat} {v : List Miss} : Kept s (State.setMissList s k v) :=
  Kept.set_xlt _ (.refl s)

theorem kept_setQuarAt {s : State} {k : Nat} {v : Bool} : Kept s (State.setQuarAt s k v) :=
  Kept.set_xlt _ (.refl s)

theorem kept_setProbesAt {s : State} {k : Nat} {v : List Probe} : Kept s (State.setProbesAt s k v) :=
  Kept.set_xlt _ (.refl s)

theorem kept_setEpochAt {s : State} {k : Nat} {v : Nat} : Kept s (State.setEpochAt s k v) :=
  Kept.set_xlt _ (.refl s)

theorem kept_setHpi {s : State} {k : Nat} {v : Hpi} : Kept s (State.setHpi s k v) := Kept.set_port _ (.refl s)

theorem kept_setCfgAt {s : State} {k : Nat} {v : Option Nat} : Kept s (State.setCfgAt s k v) :=
  Kept.set_port _ (.refl s)

theorem kept_setTag {s : State} {k : Nat} {v : Tag} : Kept s (State.setTag s k v) := Kept.set_port _ (.refl s)

theorem kept_setLpi {s : State} {k : Nat} {v : Lpi} : Kept s (State.setLpi s k v) := Kept.set_port _ (.refl s)

theorem kept_setSlotWord {s : State} {k : Nat} {v : Option Word} : Kept s (State.setSlotWord s k v) :=
  Kept.set_port _ (.refl s)

theorem kept_setVec {s : State} {k : Nat} {v : Vec} : Kept s (State.setVec s k v) := Kept.set_fn _ (.refl s)

theorem kept_setFnReset {s : State} {k : Nat} {v : Option FnReset} : Kept s (State.setFnReset s k v) :=
  Kept.set_fn _ (.refl s)

theorem kept_setFenced {s : State} {k : Nat} {v : Bool} : Kept s (State.setFenced s k v) :=
  Kept.set_fn _ (.refl s)

theorem kept_setNotices {s : State} {k : Nat} {v : List Nat} : Kept s (State.setNotices s k v) :=
  Kept.set_fn _ (.refl s)

theorem kept_setUnread {s : State} {k : Nat} {v : Bool} : Kept s (State.setUnread s k v) :=
  Kept.set_err _ (.refl s)

theorem kept_setScrubAt {s : State} {k : Nat} {v : Nat} : Kept s (State.setScrubAt s k v) :=
  Kept.set_err _ (.refl s)

theorem kept_setPsScrubAt {s : State} {k : Nat} {v : Nat} : Kept s (State.setPsScrubAt s k v) :=
  Kept.set_err _ (.refl s)

theorem kept_setPktInj {s : State} {k : Nat} {v : Option Nat} : Kept s (State.setPktInj s k v) :=
  Kept.set_err _ (.refl s)

theorem kept_setLastCorr {s : State} {k : Nat} {v : Option Nat} : Kept s (State.setLastCorr s k v) :=
  Kept.set_err _ (.refl s)

theorem kept_setRingOver {s : State} {k : Nat} {v : Option Nat} : Kept s (State.setRingOver s k v) :=
  Kept.set_err _ (.refl s)

theorem kept_setDom {s : State} {k : Nat} {v : Dom} : Kept s (State.setDom s k v) := Kept.set_pwr _ (.refl s)

theorem kept_setImageVal {s : State} {k : Nat} {v : Option Nat} : Kept s (State.setImageVal s k v) := by
  unfold State.setImageVal
  all_goals with_reducible repeat' first
    | (apply Kept.set_boot <;> first | assumption | apply Kept.refl | exact ⟨le_rfl, le_rfl, id, fun _ => ⟨fun _ => rfl, id, id⟩⟩)
    | apply Kept.refl | (apply Kept.of_eq <;> rfl)

theorem kept_setTornSlot {s : State} {k : Nat} {v : Bool} : Kept s (State.setTornSlot s k v) := by
  unfold State.setTornSlot
  all_goals with_reducible repeat' first
    | (apply Kept.set_boot <;> first | assumption | apply Kept.refl | exact ⟨le_rfl, le_rfl, id, fun _ => ⟨fun _ => rfl, id, id⟩⟩)
    | apply Kept.refl | (apply Kept.of_eq <;> rfl)

theorem kept_setFlashByte {s : State} {k : Nat} {v : Byte} : Kept s (State.setFlashByte s k v) := by
  unfold State.setFlashByte
  all_goals with_reducible repeat' first
    | (apply Kept.set_boot <;> first | assumption | apply Kept.refl | exact ⟨le_rfl, le_rfl, id, fun _ => ⟨fun _ => rfl, id, id⟩⟩)
    | apply Kept.refl | (apply Kept.of_eq <;> rfl)

theorem kept_setEqWord {s : State} {k : Nat} {v : Nat} : Kept s (State.setEqWord s k v) := by
  unfold State.setEqWord
  all_goals with_reducible repeat' first
    | (apply Kept.set_boot <;> first | assumption | apply Kept.refl | exact ⟨le_rfl, le_rfl, id, fun _ => ⟨fun _ => rfl, id, id⟩⟩)
    | apply Kept.refl | (apply Kept.of_eq <;> rfl)

theorem kept_setCalOffset {s : State} {k : Nat} {v : Int} : Kept s (State.setCalOffset s k v) := by
  unfold State.setCalOffset
  all_goals with_reducible repeat' first
    | (apply Kept.set_boot <;> first | assumption | apply Kept.refl | exact ⟨le_rfl, le_rfl, id, fun _ => ⟨fun _ => rfl, id, id⟩⟩)
    | apply Kept.refl | (apply Kept.of_eq <;> rfl)

theorem kept_setSpdmAt {s : State} {k : Nat} {v : Nat} : Kept s (State.setSpdmAt s k v) := by
  unfold State.setSpdmAt
  all_goals with_reducible repeat' first
    | (apply Kept.set_boot <;> first | assumption | apply Kept.refl | exact ⟨le_rfl, le_rfl, id, fun _ => ⟨fun _ => rfl, id, id⟩⟩)
    | apply Kept.refl | (apply Kept.of_eq <;> rfl)

theorem kept_setTranscript {s : State} {k : Nat} {v : List Nat} : Kept s (State.setTranscript s k v) := by
  unfold State.setTranscript
  all_goals with_reducible repeat' first
    | (apply Kept.set_boot <;> first | assumption | apply Kept.refl | exact ⟨le_rfl, le_rfl, id, fun _ => ⟨fun _ => rfl, id, id⟩⟩)
    | apply Kept.refl | (apply Kept.of_eq <;> rfl)

theorem kept_setMeasAt {s : State} {k : Nat} {v : Nat} : Kept s (State.setMeasAt s k v) := by
  unfold State.setMeasAt
  all_goals with_reducible repeat' first
    | (apply Kept.set_boot <;> first | assumption | apply Kept.refl | exact ⟨le_rfl, le_rfl, id, fun _ => ⟨fun _ => rfl, id, id⟩⟩)
    | apply Kept.refl | (apply Kept.of_eq <;> rfl)

/-! ## Ops -/

theorem kept_fset {s : State} {f : Fld} {i x : Nat} : Kept s (State.fset s f i x) := by
  unfold State.fset
  all_goals with_reducible repeat' first | apply Kept.refl | apply Kept.after (kept_rput)

theorem kept_fsetS {s : State} {f : Fld} {i x : Nat} : Kept s (State.fsetS s f i x) := by
  unfold State.fsetS
  all_goals with_reducible repeat' first | apply Kept.refl | apply Kept.after (kept_sput)

theorem kept_fsat {s : State} {f : Fld} {i k : Nat} : Kept s (State.fsat s f i k) := by
  unfold State.fsat
  all_goals with_reducible repeat' first | apply Kept.refl | apply Kept.after (kept_fset)

theorem kept_fwrap {s : State} {f : Fld} {i k : Nat} : Kept s (State.fwrap s f i k) := by
  unfold State.fwrap
  all_goals with_reducible repeat' first | apply Kept.refl | apply Kept.after (kept_fset)

theorem kept_commitRws {r : RegId} {a n : Nat} {s : State} : Kept s (commitRws r a n s) := by
  unfold commitRws
  all_goals with_reducible repeat' first
    | intro _ | apply Kept.refl | apply Kept.after (kept_forN ?_) | apply Kept.after (kept_rput)

theorem kept_touch {d : Nat} {s : State} : Kept s (touch d s) := by
  unfold touch
  all_goals with_reducible repeat' first
    | apply Kept.refl | apply Kept.after (kept_setDom) | (apply Kept.of_eq <;> rfl)

theorem kept_touchNi {ni : Nat} {s : State} : Kept s (touchNi ni s) := by
  unfold touchNi
  all_goals with_reducible repeat' first
    | apply Kept.refl | assumption | apply Kept.after (kept_touch) | split

theorem kept_stamped {s : State} {ni : Nat} : Kept s (State.stamped s ni) := by
  unfold State.stamped
  all_goals with_reducible repeat' first
    | apply Kept.refl | apply Kept.after (kept_setLastSeq) | apply Kept.after (kept_setLastTime)

theorem kept_offer {p : Packet} {s : State} : Kept s (offer p s) := by
  unfold offer
  revert s
  all_goals with_reducible repeat' first
    | (intro x; refine Kept.viaVar y x ?_ ?_; (on_goal 1 => try dsimp -zeta only [x]); (on_goal 2 => clear_value x; intro _))
    | (intro x; clear_value x) | (intro y; try dsimp -zeta only) | lift_lets | apply Kept.refl | assumption
    | apply Kept.after (kept_setInq) | split | (apply Kept.of_eq <;> rfl) | dsimp -zeta only

theorem kept_viol {v : Viol} {s : State} : Kept s (viol v s) := by
  unfold viol
  all_goals with_reducible repeat' first | apply Kept.refl | apply Kept.after (kept_offer)

theorem kept_violPkt {ni code : Nat} {p : Packet} {object value : Nat} {s : State} : Kept s (violPkt ni code p object value s) := by
  unfold violPkt
  all_goals with_reducible repeat' first | apply Kept.refl | apply Kept.after (kept_viol)

theorem kept_pfr {at_ : Nat} {p : Packet} {cause info : Nat} {s : State} : Kept s (pfr at_ p cause info s) := by
  unfold pfr
  all_goals with_reducible repeat' first | apply Kept.refl | apply Kept.after (kept_offer)

theorem kept_trace {ni cls event fn : Nat} {data : List Byte} {inj : Bool} {s : State} : Kept s (trace ni cls event fn data inj s) := by
  unfold trace
  all_goals with_reducible repeat' first | apply Kept.refl | apply Kept.after (kept_offer)

theorem kept_cfgPut {s : State} {fn : Nat} {f : CfgField} {v : Nat} : Kept s (State.cfgPut s fn f v) := by
  unfold State.cfgPut
  all_goals with_reducible repeat' first
    | apply Kept.refl | assumption | apply Kept.after (kept_setCfgAt) | split

theorem kept_aerUncor {fn bit : Nat} {name : String} {hdr : List Nat} {advisory : Bool} {s : State} : Kept s (aerUncor fn bit name hdr advisory s) := by
  unfold aerUncor
  revert s
  all_goals with_reducible repeat' first
    | (intro x; refine Kept.viaVar y x ?_ ?_; (on_goal 1 => try dsimp -zeta only [x]); (on_goal 2 => clear_value x; intro _))
    | (intro x; clear_value x) | (intro y; try dsimp -zeta only) | lift_lets | apply Kept.refl | assumption
    | apply Kept.after (kept_cfgPut) | apply Kept.after (kept_emit) | split | dsimp -zeta only

theorem kept_aerUr {fn : Nat} {hdr : List Nat} {advisory : Bool} {s : State} : Kept s (aerUr fn hdr advisory s) := by
  unfold aerUr
  all_goals with_reducible repeat' first | apply Kept.refl | apply Kept.after (kept_aerUncor)

theorem kept_aerInternal {s : State} : Kept s (aerInternal s) := by
  unfold aerInternal
  all_goals with_reducible repeat' first
    | intro _ | apply Kept.refl | apply Kept.after (kept_forN ?_) | apply Kept.after (kept_when ?_)
    | apply Kept.after (kept_aerUncor)

theorem kept_aerCorrectedAt {k : Nat} {s : State} : Kept s (aerCorrectedAt k s) := by
  unfold aerCorrectedAt
  revert s
  all_goals with_reducible repeat' first
    | (intro x; refine Kept.viaVar y x ?_ ?_; (on_goal 1 => try dsimp -zeta only [x]); (on_goal 2 => clear_value x; intro _))
    | (intro x; clear_value x) | (intro y; try dsimp -zeta only) | lift_lets
    | (apply Kept.set_fn <;> first | assumption | apply Kept.refl) | apply Kept.refl | assumption
    | apply Kept.after (kept_when ?_) | apply Kept.after (kept_cfgPut) | apply Kept.after (kept_setLastCorr)
    | apply Kept.after (kept_emit) | split | (apply Kept.of_eq <;> rfl) | dsimp -zeta only | dsimp only

theorem kept_aerCorrected {s : State} : Kept s (aerCorrected s) := by
  unfold aerCorrected
  all_goals with_reducible repeat' first
    | intro _ | apply Kept.refl | apply Kept.after (kept_forN ?_) | apply Kept.after (kept_aerCorrectedAt)

theorem kept_stgCheck {w : Nat} {s : State} : Kept s (stgCheck w s) := by
  unfold stgCheck
  revert s
  all_goals with_reducible repeat' first
    | (intro x; refine Kept.viaVar y x ?_ ?_; (on_goal 1 => try dsimp -zeta only [x]); (on_goal 2 => clear_value x; intro _))
    | (intro x; clear_value x) | (intro y; try dsimp -zeta only) | lift_lets | apply Kept.refl | assumption
    | apply Kept.after (kept_aerCorrected) | apply Kept.after (kept_setEccAt) | apply Kept.after (kept_fsat)
    | apply Kept.after (kept_setPoisonAt) | apply Kept.after (kept_viol) | split | dsimp -zeta only

theorem kept_stgCheckRange {a n : Nat} {s : State} : Kept s (stgCheckRange a n s) := by
  unfold stgCheckRange
  all_goals with_reducible repeat' first
    | intro _ | apply Kept.refl | apply Kept.after (kept_forL ?_) | apply Kept.after (kept_stgCheck)

theorem kept_stgWriteWord {ep : Bool} {a : Nat} {data : List Byte} {en : List Bool} {w : Nat} {s : State} : Kept s (stgWriteWord ep a data en w s) := by
  unfold stgWriteWord
  revert s
  all_goals with_reducible repeat' first
    | (intro x; refine Kept.viaVar y x ?_ ?_; (on_goal 1 => try dsimp -zeta only [x]); (on_goal 2 => clear_value x; intro _))
    | (intro x; clear_value x) | (intro y; try dsimp -zeta only) | lift_lets | apply Kept.refl | assumption
    | apply Kept.after (kept_setEccAt) | apply Kept.after (kept_setPoisonAt) | apply Kept.after (kept_stgCheck)
    | apply Kept.after (kept_forL ?_) | apply Kept.after (kept_setByte) | split | dsimp -zeta only

theorem kept_stgWrite {a : Nat} {data : List Byte} {en : List Bool} {ep : Bool} {s : State} : Kept s (stgWrite a data en ep s) := by
  unfold stgWrite
  all_goals with_reducible repeat' first
    | intro _ | apply Kept.refl | apply Kept.after (kept_forL ?_) | apply Kept.after (kept_stgWriteWord)

theorem kept_stgPut {a : Nat} {data : List Byte} {s : State} : Kept s (stgPut a data s) := by
  unfold stgPut
  all_goals with_reducible repeat' first | apply Kept.refl | apply Kept.after (kept_stgWrite)

theorem kept_violSource {p : Packet} {s : State} : Kept s (violSource p s) := by
  unfold violSource
  all_goals with_reducible repeat' first | apply Kept.refl | apply Kept.after (kept_violPkt)

theorem kept_guarded {w : Writer} {r : RegId} {i : Nat} {value : Word} {f : State → State} {s : State} (h0 : ∀ y, Kept y (f y)) : Kept s (guarded w r i value f s) := by
  unfold guarded
  all_goals with_reducible repeat' first
    | intro _ | apply Kept.refl | assumption | apply Kept.after (kept_violSource) | apply Kept.after (h0 _) | split

theorem kept_guardedP {w : Writer} {r : RegId} {i : Nat} {value : Word} {f : Packet → State → State} {s : State} (h0 : ∀ a0 y, Kept y (f a0 y)) : Kept s (guardedP w r i value f s) := by
  unfold guardedP
  all_goals with_reducible repeat' first
    | intro _ | apply Kept.refl | assumption | apply Kept.after (kept_guarded ?_) | apply Kept.after (h0 _ _)

theorem kept_busyMgc {p : Packet} {s : State} : Kept s (busyMgc p s) := by
  unfold busyMgc
  all_goals with_reducible repeat' first | apply Kept.refl | apply Kept.after (kept_violPkt)

theorem kept_busyWrite {w : Writer} {p : Packet} {s : State} : Kept s (busyWrite w p s) := by
  unfold busyWrite
  all_goals with_reducible repeat' first
    | apply Kept.refl | assumption | apply Kept.after (kept_busyMgc) | apply Kept.after (kept_pfr) | split

/-! ## Clock -/

theorem kept_tick {s : State} : Kept s (tick s) := by
  unfold tick
  split
  · exact .refl s
  · exact Kept.set_tb _ (.refl s)

/-! ## Undef -/

theorem kept_undefCore {s : State} : Kept s (undefCore s) := by
  refine ⟨rfl, rfl, Nat.le_add_right _ 7, List.suffix_refl _, fun _ => ?_, fun _ => ?_, fusesKept_refl _⟩
  · rw [Memory.wf_iff]
    exact ⟨mwf_mcanon _ _, mwf_mcanon _ _, mwf_mcanon _ _, mwf_mcanon _ _, mwf_mcanon _ _, mwf_mcanon _ _, mwf_mcanon _ _⟩
  · rw [RegFile.wf_iff]; exact ⟨mwf_mcanon _ _, mwf_mcanon _ _⟩

/-! ## TimeBase -/

theorem kept_droop {uv : Nat} {s : State} : Kept s (droop uv s) := by
  unfold droop
  all_goals with_reducible repeat' first
    | intro _ | apply Kept.refl | apply Kept.after (kept_when ?_) | apply Kept.after (kept_undefCore)

theorem kept_vmon100 {uv : Nat} {s : State} : Kept s (vmon100 uv s) := by
  unfold vmon100
  revert s
  all_goals with_reducible repeat' first
    | (intro x; refine Kept.viaVar y x ?_ ?_; (on_goal 1 => try dsimp -zeta only [x]); (on_goal 2 => clear_value x; intro _))
    | (intro x; clear_value x) | (intro y; try dsimp -zeta only) | lift_lets
    | (apply Kept.set_pwr <;> first | assumption | apply Kept.refl | apply kept_takeFree) | apply Kept.refl
    | assumption | apply Kept.after (kept_when ?_) | apply Kept.after (kept_fset) | apply Kept.after (kept_droop)
    | apply Kept.after (Kept.of_pair (by assumption) (kept_takeFree)) | apply Kept.after (kept_takeFree)
    | (apply Kept.of_eq <;> rfl) | dsimp -zeta only

theorem kept_execVmon100nsAverage {uv : Nat} {s : State} : KeptBy s (execVmon100nsAverage uv s) :=
  kept_live (fun _ => kept_vmon100)

theorem kept_coreUv {uv : Nat} {s : State} : Kept s (coreUv uv s) := by
  unfold coreUv
  revert s
  all_goals with_reducible repeat' first
    | (intro x; refine Kept.viaVar y x ?_ ?_; (on_goal 1 => try dsimp -zeta only [x]); (on_goal 2 => clear_value x; intro _))
    | (intro x; clear_value x) | (intro y; try dsimp -zeta only) | lift_lets | apply Kept.refl | assumption
    | apply Kept.after (kept_droop) | apply Kept.after (kept_fset) | apply Kept.after (kept_aerInternal)
    | apply Kept.after (kept_viol) | apply Kept.after (Kept.of_pair (by assumption) (kept_takeFree))
    | apply Kept.after (kept_takeFree) | split | dsimp -zeta only

theorem kept_execVmon50nsAverage {uv : Nat} {s : State} : KeptBy s (execVmon50nsAverage uv s) :=
  kept_live (fun _ => kept_coreUv)

theorem kept_execVnowUpdate {s : State} : KeptBy s (execVnowUpdate s) := by
  unfold execVnowUpdate
  refine kept_live ?_
  all_goals with_reducible repeat' first | intro _ | apply Kept.refl | apply Kept.after (kept_fset)

theorem kept_execVminClr {w : Writer} {s : State} : KeptBy s (execVminClr w s) := by
  unfold execVminClr
  refine kept_live ?_
  all_goals with_reducible repeat' first
    | intro _ | apply Kept.refl | apply Kept.after (kept_guarded ?_) | apply Kept.after (kept_fset)

theorem kept_stepMonWrite {v : Word} {s : State} : Kept s (stepMonWrite v s) := by
  unfold stepMonWrite
  revert s
  all_goals with_reducible repeat' first
    | (intro x; refine Kept.viaVar y x ?_ ?_; (on_goal 1 => try dsimp -zeta only [x]); (on_goal 2 => clear_value x; intro _))
    | (intro x; clear_value x) | (intro y; try dsimp -zeta only) | lift_lets
    | (apply Kept.set_pwr <;> first | assumption | apply Kept.refl) | apply Kept.refl | assumption
    | apply Kept.after (kept_fset) | split | (apply Kept.of_eq <;> rfl) | dsimp -zeta only

theorem kept_execStepMonCtlWrite {w : Writer} {value : BitVec 32} {s : State} : KeptBy s (execStepMonCtlWrite w value s) := by
  unfold execStepMonCtlWrite
  refine kept_live ?_
  all_goals with_reducible repeat' first
    | intro _ | apply Kept.refl | apply Kept.after (kept_guarded ?_) | apply Kept.after (kept_stepMonWrite)

theorem kept_stepMonEnd {steps : Nat} {s : State} : Kept s (stepMonEnd steps s) := by
  unfold stepMonEnd
  revert s
  all_goals with_reducible repeat' first
    | (intro x; refine Kept.viaVar y x ?_ ?_; (on_goal 1 => try dsimp -zeta only [x]); (on_goal 2 => clear_value x; intro _))
    | (intro x; clear_value x) | (intro y; try dsimp -zeta only) | lift_lets
    | (apply Kept.set_pwr <;> first | assumption | apply Kept.refl) | apply Kept.refl | assumption
    | apply Kept.after (kept_fset) | split | (apply Kept.of_eq <;> rfl) | dsimp -zeta only | dsimp only

theorem kept_execStepMonWindowEnd {steps : Nat} {s : State} : KeptBy s (execStepMonWindowEnd steps s) :=
  kept_live (fun _ => kept_stepMonEnd)

theorem kept_anchor {event : Nat} {s : State} : Kept s (anchor event s) := by
  unfold anchor
  all_goals with_reducible repeat' first | apply Kept.refl | apply Kept.after (kept_trace)

theorem kept_execTbPllLock {s : State} : KeptBy s (execTbPllLock s) := by
  unfold execTbPllLock
  refine kept_live ?_
  all_goals with_reducible repeat' first
    | (intro x; refine Kept.viaVar y x ?_ ?_; (on_goal 1 => try dsimp -zeta only [x]); (on_goal 2 => clear_value x; intro _))
    | (intro x; clear_value x) | (intro y; try dsimp -zeta only) | lift_lets
    | (apply Kept.set_tb <;> first | assumption | apply Kept.refl) | apply Kept.refl | assumption
    | apply Kept.after (kept_fset) | split | (apply Kept.of_eq <;> rfl) | dsimp -zeta only

theorem kept_srcWrite {src : Bool} {s : State} : Kept s (srcWrite src s) := by
  unfold srcWrite
  all_goals with_reducible repeat' first
    | intro _ | apply Kept.refl | apply Kept.after (kept_when ?_) | apply Kept.after (kept_fset)

theorem kept_execTbSrcWrite {w : Writer} {src : Bool} {s : State} : KeptBy s (execTbSrcWrite w src s) := by
  unfold execTbSrcWrite
  refine kept_live ?_
  all_goals with_reducible repeat' first
    | intro _ | apply Kept.refl | apply Kept.after (kept_guarded ?_) | apply Kept.after (kept_srcWrite)

theorem kept_execTbSwitchOver {s : State} : KeptBy s (execTbSwitchOver s) := by
  unfold execTbSwitchOver
  refine kept_live ?_
  all_goals with_reducible repeat' first
    | intro _ | apply Kept.refl | assumption | apply Kept.after (kept_anchor) | apply Kept.after (kept_rput)
    | apply Kept.after (kept_fset) | split

theorem kept_execTbFallback {s : State} : KeptBy s (execTbFallback s) := by
  unfold execTbFallback
  refine kept_live ?_
  all_goals with_reducible repeat' first
    | (intro x; refine Kept.viaVar y x ?_ ?_; (on_goal 1 => try dsimp -zeta only [x]); (on_goal 2 => clear_value x; intro _))
    | (intro x; clear_value x) | (intro y; try dsimp -zeta only) | lift_lets
    | (apply Kept.set_tb <;> first | assumption | apply Kept.refl) | apply Kept.refl | assumption
    | apply Kept.after (kept_fset) | apply Kept.after (kept_anchor) | apply Kept.after (kept_aerCorrected)
    | apply Kept.after (kept_emit) | split | (apply Kept.of_eq <;> rfl) | dsimp -zeta only

theorem kept_execTbStepWrite {w : Writer} {value : BitVec 32} {s : State} : KeptBy s (execTbStepWrite w value s) := by
  unfold execTbStepWrite
  refine kept_live ?_
  all_goals with_reducible repeat' first
    | intro _ | (apply Kept.set_tb <;> first | assumption | apply Kept.refl) | apply Kept.refl | assumption
    | apply Kept.after (kept_guarded ?_) | apply Kept.after (kept_step) | split | (apply Kept.of_eq <;> rfl)

theorem kept_execTbStepApply {s : State} : KeptBy s (execTbStepApply s) := by
  unfold execTbStepApply
  refine kept_live ?_
  all_goals with_reducible repeat' first
    | intro _ | (apply Kept.set_tb <;> first | assumption | apply Kept.refl) | apply Kept.refl | assumption
    | apply Kept.after (kept_step) | split | (apply Kept.of_eq <;> rfl)

theorem kept_execTbSlewWrite {w : Writer} {value : BitVec 32} {s : State} : KeptBy s (execTbSlewWrite w value s) := by
  unfold execTbSlewWrite
  refine kept_live ?_
  all_goals with_reducible repeat' first
    | (intro x; refine Kept.viaVar y x ?_ ?_; (on_goal 1 => try dsimp -zeta only [x]); (on_goal 2 => clear_value x; intro _))
    | (intro x; clear_value x) | (intro y; try dsimp -zeta only) | lift_lets | apply Kept.refl | assumption
    | apply Kept.after (kept_guarded ?_) | apply Kept.after (kept_fset) | split | dsimp -zeta only

theorem kept_execTbSlewAdjust {s : State} : KeptBy s (execTbSlewAdjust s) := by
  unfold execTbSlewAdjust
  refine kept_live ?_
  all_goals with_reducible repeat' first
    | intro _ | (apply Kept.set_tb <;> first | assumption | apply Kept.refl) | apply Kept.refl | assumption | split
    | (apply Kept.of_eq <;> rfl)

theorem kept_execAnchorRecord {s : State} : KeptBy s (execAnchorRecord s) := by
  unfold execAnchorRecord
  refine kept_live ?_
  all_goals with_reducible repeat' first
    | intro _ | (apply Kept.set_tb <;> first | assumption | apply Kept.refl) | apply Kept.refl | assumption
    | apply Kept.after (kept_anchor) | split | (apply Kept.of_eq <;> rfl)

/-! ## Order -/

theorem kept_sendMs {ni g : Nat} {park unpark : Bool} {s : State} : Kept s (sendMs ni g park unpark s) := by
  unfold sendMs
  revert s
  all_goals with_reducible repeat' first
    | (intro x; refine Kept.viaVar y x ?_ ?_; (on_goal 1 => try dsimp -zeta only [x]); (on_goal 2 => clear_value x; intro _))
    | (intro x; clear_value x) | (intro y; try dsimp -zeta only) | lift_lets
    | (apply Kept.set_ord <;> first | assumption | apply Kept.refl) | apply Kept.refl | assumption
    | apply Kept.after (kept_setLastSent) | (apply Kept.of_eq <;> rfl) | dsimp -zeta only

theorem kept_execMilestoneSend {ni : Fin 46} {g : Fin 10} {s : State} : KeptBy s (execMilestoneSend ni g s) := by
  unfold execMilestoneSend
  refine kept_live ?_
  all_goals with_reducible repeat' first
    | intro _ | apply Kept.refl | assumption | apply Kept.after (kept_sendMs) | split

theorem kept_parkNi {ni : Nat} {s : State} : Kept s (parkNi ni s) := by
  unfold parkNi
  all_goals with_reducible repeat' first
    | intro _ | apply Kept.refl | assumption | apply Kept.after (kept_forN ?_) | apply Kept.after (kept_when ?_)
    | apply Kept.after (kept_sendMs) | apply Kept.after (kept_setNiParked) | split

theorem kept_unparkNi {ni : Nat} {s : State} : Kept s (unparkNi ni s) := by
  unfold unparkNi
  revert s
  all_goals with_reducible repeat' first
    | (intro x; refine Kept.viaVar y x ?_ ?_; (on_goal 1 => try dsimp -zeta only [x]); (on_goal 2 => clear_value x; intro _))
    | (intro x; clear_value x) | (intro y; try dsimp -zeta only) | lift_lets | apply Kept.refl | assumption
    | apply Kept.after (kept_forN ?_) | apply Kept.after (kept_when ?_) | apply Kept.after (kept_sendMs)
    | apply Kept.after (kept_setNiParked) | apply Kept.after (kept_setHoldTill) | dsimp -zeta only

theorem kept_execTimeSerialLoad {s : State} : KeptBy s (execTimeSerialLoad s) := by
  unfold execTimeSerialLoad
  refine kept_live ?_
  all_goals with_reducible repeat' first
    | intro _ | (apply Kept.set_tb <;> first | assumption | apply Kept.refl) | apply Kept.refl | assumption
    | apply Kept.after (kept_forN ?_) | apply Kept.after (kept_when ?_) | apply Kept.after (kept_unparkNi)
    | apply Kept.after (kept_setUntimed) | split | (apply Kept.of_eq <;> rfl)

theorem kept_execUnparkHoldExpire {ni : Fin 46} {s : State} : KeptBy s (execUnparkHoldExpire ni s) := by
  unfold execUnparkHoldExpire
  refine kept_live ?_
  all_goals with_reducible repeat' first
    | intro _ | apply Kept.refl | assumption | apply Kept.after (kept_setHoldTill) | split

theorem kept_dispose {ni : Nat} {p : Packet} {c : Nat} {s : State} : Kept s (dispose ni p c s) := by
  unfold dispose
  revert s
  all_goals with_reducible repeat' first
    | (intro x; refine Kept.viaVar y x ?_ ?_; (on_goal 1 => try dsimp -zeta only [x]); (on_goal 2 => clear_value x; intro _))
    | (intro x; clear_value x) | (intro y; try dsimp -zeta only) | lift_lets | apply Kept.refl | assumption
    | apply Kept.after (kept_violPkt) | apply Kept.after (kept_offer) | apply Kept.after (kept_when ?_)
    | apply Kept.after (kept_aerUncor) | apply Kept.after (kept_setArrived) | split | (apply Kept.of_eq <;> rfl)
    | dsimp -zeta only

theorem kept_settleCounts {ni src c : Nat} {s : State} : Kept s (settleCounts ni src c s) := by
  unfold settleCounts
  revert s
  all_goals with_reducible repeat' first
    | (intro x; refine Kept.viaVar y x ?_ ?_; (on_goal 1 => try dsimp -zeta only [x]); (on_goal 2 => clear_value x; intro _))
    | (intro x; clear_value x) | (intro y; try dsimp -zeta only) | lift_lets | apply Kept.refl | assumption
    | apply Kept.after (kept_forL ?_) | apply Kept.after (kept_dispose) | apply Kept.after (kept_setDamagedAt)
    | apply Kept.after (kept_setConfirmed) | apply Kept.after (kept_setSeenCnt) | split | dsimp -zeta only

theorem kept_resolveCounts {ni src recv : Nat} {extra : List Nat} {s : State} : Kept s (resolveCounts ni src recv extra s) := by
  unfold resolveCounts
  revert s
  all_goals with_reducible repeat' first
    | (intro x; refine Kept.viaVar y x ?_ ?_; (on_goal 1 => try dsimp -zeta only [x]); (on_goal 2 => clear_value x; intro _))
    | (intro x; clear_value x) | (intro y; try dsimp -zeta only) | lift_lets | apply Kept.refl | assumption
    | apply Kept.after (kept_settleCounts) | apply Kept.after (kept_foldl _ _ ?_) | split | (apply Kept.of_eq <;> rfl)
    | dsimp -zeta only | dsimp only

theorem kept_countArrival {ni : Nat} {p : Packet} {s : State} : Kept s (countArrival ni p s) := by
  unfold countArrival
  revert s
  all_goals with_reducible repeat' first
    | (intro x; refine Kept.viaVar y x ?_ ?_; (on_goal 1 => try dsimp -zeta only [x]); (on_goal 2 => clear_value x; intro _))
    | (intro x; clear_value x) | (intro y; try dsimp -zeta only) | lift_lets | apply Kept.refl | assumption
    | apply Kept.after (kept_setRecvCnt) | apply Kept.after (kept_setSeenCnt) | apply Kept.after (kept_resolveCounts)
    | split | dsimp -zeta only

theorem kept_checkParity {ni : Nat} {p : Packet} {s : State} : Kept s (checkParity ni p s).2 := by
  unfold checkParity
  revert s
  all_goals with_reducible repeat' first
    | (intro x; refine Kept.viaVar y x ?_ ?_; (on_goal 1 => try dsimp -zeta only [x]); (on_goal 2 => clear_value x; intro _))
    | (intro x; clear_value x) | (intro y; try dsimp -zeta only) | lift_lets | apply Kept.refl | assumption
    | apply Kept.after (kept_forL ?_) | apply Kept.after (kept_violPkt) | apply Kept.after (kept_fsat) | split
    | (apply Kept.of_eq <;> rfl) | dsimp -zeta only

theorem kept_takeArrived {ni i : Nat} {s : State} : ∀ a t, takeArrived ni i s = some (a, t) → Kept s t := by
  intro a t h
  unfold takeArrived at h
  split at h
  · cases h
  · cases h; exact kept_setArrived

theorem kept_noteDamaged {ni : Nat} {gate : Bool} {p : Packet} {s : State} : Kept s (noteDamaged ni gate p s) := by
  unfold noteDamaged
  revert s
  all_goals with_reducible repeat' first
    | (intro x; refine Kept.viaVar y x ?_ ?_; (on_goal 1 => try dsimp -zeta only [x]); (on_goal 2 => clear_value x; intro _))
    | (intro x; clear_value x) | (intro y; try dsimp -zeta only) | lift_lets | apply Kept.refl | assumption
    | apply Kept.after (kept_fsat) | apply Kept.after (kept_setDamagedAt) | apply Kept.after (kept_setDamTime)
    | apply Kept.after (kept_when ?_) | apply Kept.after (kept_offer) | split | (apply Kept.of_eq <;> rfl)
    | dsimp -zeta only

theorem kept_leaveGate {g i : Nat} {h : Held} {s : State} : Kept s (leaveGate g i h s) := by
  unfold leaveGate
  revert s
  all_goals with_reducible repeat' first
    | (intro x; refine Kept.viaVar y x ?_ ?_; (on_goal 1 => try dsimp -zeta only [x]); (on_goal 2 => clear_value x; intro _))
    | (intro x; clear_value x) | (intro y; try dsimp -zeta only) | lift_lets | apply Kept.refl | assumption
    | apply Kept.after (kept_setGate) | apply Kept.after (kept_when ?_) | apply Kept.after (kept_fset)
    | apply Kept.after (kept_offer) | (apply Kept.of_eq <;> rfl) | dsimp -zeta only

theorem kept_execMilestoneArrive {i : Nat} {s : State} : KeptBy s (execMilestoneArrive i s) := by
  unfold execMilestoneArrive
  refine kept_live ?_
  all_goals with_reducible repeat' first
    | (intro x; refine Kept.viaVar y x ?_ ?_; (on_goal 1 => try dsimp -zeta only [x]); (on_goal 2 => clear_value x; intro _))
    | (intro x; clear_value x) | (intro y; try dsimp -zeta only) | lift_lets
    | (apply Kept.set_ord <;> first | assumption | apply Kept.refl) | apply Kept.refl | assumption
    | apply Kept.after (kept_resolveCounts) | apply Kept.after (kept_setFeeder) | split | (apply Kept.of_eq <;> rfl)
    | dsimp -zeta only | dsimp only

theorem kept_gateCommit {g : Nat} {s : State} : Kept s (gateCommit g s) := by
  unfold gateCommit
  all_goals with_reducible repeat' first
    | apply Kept.refl | assumption | apply Kept.after (kept_commitRws) | apply Kept.after (kept_fset) | split

theorem kept_execGateCommit {w : Writer} {g : Fin 10} {s : State} : KeptBy s (execGateCommit w g s) := by
  unfold execGateCommit
  refine kept_live ?_
  all_goals with_reducible repeat' first
    | intro _ | apply Kept.refl | apply Kept.after (kept_guarded ?_) | apply Kept.after (kept_gateCommit)

theorem kept_execGateLatClr {w : Writer} {g : Fin 10} {s : State} : KeptBy s (execGateLatClr w g s) := by
  unfold execGateLatClr
  refine kept_live ?_
  all_goals with_reducible repeat' first
    | intro _ | apply Kept.refl | apply Kept.after (kept_guarded ?_) | apply Kept.after (kept_fset)

/-! ## Domains -/

theorem kept_pwrTrace {event d cause : Nat} {s : State} : Kept s (pwrTrace event d cause s) := by
  unfold pwrTrace
  all_goals with_reducible repeat' first | apply Kept.refl | apply Kept.after (kept_trace)

theorem kept_pwrRefuse {d cause kind who : Nat} {s : State} : Kept s (pwrRefuse d cause kind who s) := by
  unfold pwrRefuse
  revert s
  all_goals with_reducible repeat' first
    | (intro x; refine Kept.viaVar y x ?_ ?_; (on_goal 1 => try dsimp -zeta only [x]); (on_goal 2 => clear_value x; intro _))
    | (intro x; clear_value x) | (intro y; try dsimp -zeta only) | lift_lets | apply Kept.refl | assumption
    | apply Kept.after (kept_fsat) | apply Kept.after (kept_fset) | apply Kept.after (kept_touch)
    | apply Kept.after (kept_pwrTrace) | dsimp -zeta only

theorem kept_beginEntry {d : Nat} {toOff : Bool} {s : State} : Kept s (beginEntry d toOff s) := by
  unfold beginEntry
  all_goals with_reducible repeat' first
    | intro _ | apply Kept.refl | apply Kept.after (kept_forL ?_) | apply Kept.after (kept_parkNi)
    | apply Kept.after (kept_setDom) | (apply Kept.of_eq <;> rfl)

theorem kept_cancelEntry {d : Nat} {s : State} : Kept s (cancelEntry d s) := by
  unfold cancelEntry
  all_goals with_reducible repeat' first
    | intro _ | apply Kept.refl | apply Kept.after (kept_forL ?_) | apply Kept.after (kept_when ?_)
    | apply Kept.after (kept_unparkNi) | apply Kept.after (kept_setDom) | (apply Kept.of_eq <;> rfl)

theorem kept_endDeep {s : State} : Kept s (endDeep s) := by
  unfold endDeep
  all_goals with_reducible repeat' first
    | (apply Kept.set_pwr <;> first | assumption | apply Kept.refl) | apply Kept.refl | assumption
    | apply Kept.after (kept_pwrTrace) | apply Kept.after (kept_fset) | split | (apply Kept.of_eq <;> rfl)

theorem kept_firstAttempt {d : Nat} {s : State} : Kept s (firstAttempt d s) := by
  unfold firstAttempt
  all_goals with_reducible repeat' first
    | apply Kept.refl | apply Kept.after (kept_endDeep) | apply Kept.after (kept_setDom) | (apply Kept.of_eq <;> rfl)

theorem kept_wakeOne {d : Nat} {s : State} : Kept s (wakeOne d s) := by
  unfold wakeOne
  revert s
  all_goals with_reducible repeat' first
    | (intro x; refine Kept.viaVar y x ?_ ?_; (on_goal 1 => try dsimp -zeta only [x]); (on_goal 2 => clear_value x; intro _))
    | (intro x; clear_value x) | (intro y; try dsimp -zeta only) | lift_lets | apply Kept.refl | assumption
    | apply Kept.after (kept_firstAttempt) | split | dsimp -zeta only

theorem kept_startWake {d : Nat} {s : State} : Kept s (startWake d s) := by
  unfold startWake
  all_goals with_reducible repeat' first
    | intro _ | apply Kept.refl | assumption | apply Kept.after (kept_forL ?_) | apply Kept.after (kept_wakeOne)
    | split

theorem kept_wakeFailed {d : Nat} {s : State} : Kept s (wakeFailed d s) := by
  unfold wakeFailed
  all_goals with_reducible repeat' first
    | apply Kept.refl | assumption | apply Kept.after (kept_firstAttempt) | split

theorem kept_loadImage {r : RegId} {i : Nat} {s : State} : Kept s (loadImage r i s) := by
  unfold loadImage
  all_goals with_reducible repeat' first
    | intro _ | apply Kept.refl | apply Kept.after (kept_forL ?_) | apply Kept.after (kept_fset)

theorem kept_loadImages {rs : List RegId} {s : State} : Kept s (loadImages rs s) := by
  unfold loadImages
  all_goals with_reducible repeat' first
    | intro _ | apply Kept.refl | apply Kept.after (kept_forL ?_) | apply Kept.after (kept_forN ?_)
    | apply Kept.after (kept_loadImage)

/-! ## Topology -/

theorem kept_putRoute {unit d v : Nat} {s : State} : Kept s (putRoute unit d v s) := by
  unfold putRoute
  all_goals with_reducible repeat' first
    | intro _ | apply Kept.refl | assumption | apply Kept.after (kept_forN ?_) | apply Kept.after (kept_setRouteCopy)
    | split

theorem kept_fabFault {ni kind whr : Nat} {f : Fld} {inj : Bool} {s : State} : Kept s (fabFault ni kind whr f inj s) := by
  unfold fabFault
  revert s
  all_goals with_reducible repeat' first
    | (intro x; refine Kept.viaVar y x ?_ ?_; (on_goal 1 => try dsimp -zeta only [x]); (on_goal 2 => clear_value x; intro _))
    | (intro x; clear_value x) | (intro y; try dsimp -zeta only) | lift_lets | apply Kept.refl | assumption
    | apply Kept.after (kept_fset) | apply Kept.after (kept_trace) | dsimp -zeta only

theorem kept_lookupRoute {unit d : Nat} {s : State} : Kept s (lookupRoute unit d s).2 := by
  unfold lookupRoute
  revert s
  all_goals with_reducible repeat' first
    | (intro x; refine Kept.viaVar y x ?_ ?_; (on_goal 1 => try dsimp -zeta only [x]); (on_goal 2 => clear_value x; intro _))
    | (intro x; clear_value x) | (intro y; try dsimp -zeta only) | lift_lets | apply Kept.refl | assumption
    | apply Kept.after (kept_aerCorrected) | apply Kept.after (kept_fabFault) | apply Kept.after (kept_putRoute)
    | split | dsimp -zeta only

/-! ## Fabric -/

theorem kept_linkRepeat {l kind : Nat} {inj : Bool} {s : State} : Kept s (linkRepeat l kind inj s) := by
  unfold linkRepeat
  revert s
  all_goals with_reducible repeat' first
    | (intro x; refine Kept.viaVar y x ?_ ?_; (on_goal 1 => try dsimp -zeta only [x]); (on_goal 2 => clear_value x; intro _))
    | (intro x; clear_value x) | (intro y; try dsimp -zeta only) | lift_lets | apply Kept.refl | assumption
    | apply Kept.after (kept_setLink) | apply Kept.after (kept_fset) | apply Kept.after (kept_fabFault)
    | apply Kept.after (kept_aerCorrected) | split | (apply Kept.of_eq <;> rfl) | dsimp -zeta only

theorem kept_linkFailed {l : Nat} {s : State} : Kept s (linkFailed l s) := by
  unfold linkFailed
  revert s
  all_goals with_reducible repeat' first
    | (intro x; refine Kept.viaVar y x ?_ ?_; (on_goal 1 => try dsimp -zeta only [x]); (on_goal 2 => clear_value x; intro _))
    | (intro x; clear_value x) | (intro y; try dsimp -zeta only) | lift_lets | apply Kept.refl | assumption
    | apply Kept.after (kept_setLink) | apply Kept.after (kept_fabFault) | apply Kept.after (kept_aerInternal)
    | apply Kept.after (kept_viol) | (apply Kept.of_eq <;> rfl) | dsimp -zeta only

theorem kept_enter {ni : Nat} {p : Packet} {s : State} : Kept s (enter ni p s) := by
  unfold enter
  revert s
  all_goals with_reducible repeat' first
    | (intro x; refine Kept.viaVar y x ?_ ?_; (on_goal 1 => try dsimp -zeta only [x]); (on_goal 2 => clear_value x; intro _))
    | (intro x; clear_value x) | (intro y; try dsimp -zeta only) | lift_lets
    | (apply Kept.set_fab <;> first | assumption | apply Kept.refl) | apply Kept.refl | assumption
    | apply Kept.after (kept_setInjCnt) | apply Kept.after (kept_setUsedUnits) | apply Kept.after (kept_setLastSent)
    | apply Kept.after (kept_setToken) | apply Kept.after (kept_setPktInj) | apply Kept.after (kept_setFlight) | split
    | (apply Kept.of_eq <;> rfl) | dsimp -zeta only

theorem kept_unsent {ni : Nat} {p : Packet} {s : State} : Kept s (unsent ni p s) := by
  unfold unsent
  revert s
  all_goals with_reducible repeat' first
    | (intro x; refine Kept.viaVar y x ?_ ?_; (on_goal 1 => try dsimp -zeta only [x]); (on_goal 2 => clear_value x; intro _))
    | (intro x; clear_value x) | (intro y; try dsimp -zeta only) | lift_lets | apply Kept.refl | assumption
    | apply Kept.after (kept_setCtx) | split | (apply Kept.of_eq <;> rfl) | dsimp -zeta only

theorem kept_niInject {ni q : Nat} {s : State} : Kept s (niInject ni q s) := by
  unfold niInject
  revert s
  all_goals with_reducible repeat' first
    | (intro x; refine Kept.viaVar y x ?_ ?_; (on_goal 1 => try dsimp -zeta only [x]); (on_goal 2 => clear_value x; intro _))
    | (intro x; clear_value x) | (intro y; try dsimp -zeta only) | lift_lets | apply Kept.refl | assumption
    | apply Kept.after (kept_setInq) | apply Kept.after (kept_setArrived) | apply Kept.after (kept_unsent)
    | apply Kept.after (kept_when ?_) | apply Kept.after (kept_pfr) | apply Kept.after (kept_violPkt)
    | apply Kept.after (kept_touchNi) | apply Kept.after (kept_enter)
    | apply Kept.after (Kept.of_pair (by assumption) (kept_lookupRoute)) | apply Kept.after (kept_lookupRoute) | split
    | (apply Kept.of_eq <;> rfl) | dsimp -zeta only | dsimp only

theorem kept_execNiInject {ni : Fin 46} {q : Fin 25} {s : State} : KeptBy s (execNiInject ni q s) :=
  kept_live (fun _ => kept_niInject)

theorem kept_headArrive {l : Nat} {up : Bool} {vc : Nat} {singleErr : Bool} {s : State} : Kept s (headArrive l up vc singleErr s) := by
  unfold headArrive
  revert s
  all_goals with_reducible repeat' first
    | (intro x; refine Kept.viaVar y x ?_ ?_; (on_goal 1 => try dsimp -zeta only [x]); (on_goal 2 => clear_value x; intro _))
    | (intro x; clear_value x) | (intro y; try dsimp -zeta only) | lift_lets | apply Kept.refl | assumption
    | apply Kept.after (kept_aerCorrected) | apply Kept.after (kept_fabFault) | apply Kept.after (kept_setLink)
    | apply Kept.after (kept_setChan) | apply Kept.after (Kept.of_pair (by assumption) (kept_lookupRoute))
    | apply Kept.after (kept_lookupRoute) | split | (apply Kept.of_eq <;> rfl) | dsimp -zeta only | dsimp only

theorem kept_execRouterHeadArrive {l : Fin 352} {up : Bool} {vc : Fin 8} {singleErr : Bool} {s : State} : KeptBy s (execRouterHeadArrive l up vc singleErr s) :=
  kept_live (fun _ => kept_headArrive)

theorem kept_alsoRequest {k : Nat} {more : List Nat} {s : State} : Kept s (alsoRequest k more s) := by
  unfold alsoRequest
  revert s
  all_goals with_reducible repeat' first
    | (intro x; refine Kept.viaVar y x ?_ ?_; (on_goal 1 => try dsimp -zeta only [x]); (on_goal 2 => clear_value x; intro _))
    | (intro x; clear_value x) | (intro y; try dsimp -zeta only) | lift_lets | apply Kept.refl | assumption
    | apply Kept.after (kept_setChan) | (apply Kept.of_eq <;> rfl) | dsimp -zeta only

theorem kept_execRouteSwitchbackRequest {l : Fin 352} {up : Bool} {vc : Fin 8} {s : State} : KeptBy s (execRouteSwitchbackRequest l up vc s) := by
  unfold execRouteSwitchbackRequest
  refine kept_live ?_
  all_goals with_reducible repeat' first
    | (intro x; refine Kept.viaVar y x ?_ ?_; (on_goal 1 => try dsimp -zeta only [x]); (on_goal 2 => clear_value x; intro _))
    | (intro x; clear_value x) | (intro y; try dsimp -zeta only) | lift_lets | apply Kept.refl | assumption
    | apply Kept.after (kept_alsoRequest) | apply Kept.after (Kept.of_pair (by assumption) (kept_lookupRoute))
    | apply Kept.after (kept_lookupRoute) | split | (apply Kept.of_eq <;> rfl) | dsimp -zeta only | dsimp only

theorem kept_execRouteDetourRequest {l : Fin 352} {up : Bool} {vc : Fin 8} {s : State} : KeptBy s (execRouteDetourRequest l up vc s) := by
  unfold execRouteDetourRequest
  refine kept_live ?_
  all_goals with_reducible repeat' first
    | (intro x; refine Kept.viaVar y x ?_ ?_; (on_goal 1 => try dsimp -zeta only [x]); (on_goal 2 => clear_value x; intro _))
    | (intro x; clear_value x) | (intro y; try dsimp -zeta only) | lift_lets | apply Kept.refl | assumption
    | apply Kept.after (kept_alsoRequest) | apply Kept.after (Kept.of_pair (by assumption) (kept_lookupRoute))
    | apply Kept.after (kept_lookupRoute) | split | (apply Kept.of_eq <;> rfl) | dsimp -zeta only | dsimp only

theorem kept_grantChan {k : Nat} {c : Contender} {s : State} : Kept s (grantChan k c s) := by
  unfold grantChan
  revert s
  all_goals with_reducible repeat' first
    | (intro x; refine Kept.viaVar y x ?_ ?_; (on_goal 1 => try dsimp -zeta only [x]); (on_goal 2 => clear_value x; intro _))
    | (intro x; clear_value x) | (intro y; try dsimp -zeta only) | lift_lets | apply Kept.refl | assumption
    | apply Kept.after (kept_setChan) | apply Kept.after (kept_setFlight) | split | (apply Kept.of_eq <;> rfl)
    | dsimp -zeta only | dsimp only

theorem kept_allocate {l : Nat} {up : Bool} {s : State} : Kept s (allocate l up s) := by
  unfold allocate
  revert s
  all_goals with_reducible repeat' first
    | (intro x; refine Kept.viaVar y x ?_ ?_; (on_goal 1 => try dsimp -zeta only [x]); (on_goal 2 => clear_value x; intro _))
    | (intro x; clear_value x) | (intro y; try dsimp -zeta only) | lift_lets | apply Kept.refl | assumption
    | apply Kept.after (kept_forN ?_) | apply Kept.after (kept_grantChan) | split | (apply Kept.of_eq <;> rfl)
    | dsimp -zeta only | dsimp only

theorem kept_takeFlit {x : Flit} {via : Option Nat} {s : State} : Kept s (takeFlit x via s) := by
  unfold takeFlit
  revert s
  all_goals with_reducible repeat' first
    | (intro x; refine Kept.viaVar y x ?_ ?_; (on_goal 1 => try dsimp -zeta only [x]); (on_goal 2 => clear_value x; intro _))
    | (intro x; clear_value x) | (intro y; try dsimp -zeta only) | lift_lets | apply Kept.refl | assumption
    | apply Kept.after (kept_setFlight) | apply Kept.after (kept_stamped) | apply Kept.after (kept_setChan)
    | apply Kept.after (kept_setDir) | split | (apply Kept.of_eq <;> rfl) | dsimp -zeta only | dsimp only

theorem kept_outputArb {l : Nat} {up : Bool} {s : State} : Kept s (outputArb l up s) := by
  unfold outputArb
  revert s
  all_goals with_reducible repeat' first
    | (intro x; refine Kept.viaVar y x ?_ ?_; (on_goal 1 => try dsimp -zeta only [x]); (on_goal 2 => clear_value x; intro _))
    | (intro x; clear_value x) | (intro y; try dsimp -zeta only) | lift_lets | apply Kept.refl | assumption
    | apply Kept.after (kept_allocate) | apply Kept.after (kept_takeFlit) | apply Kept.after (kept_setChan)
    | apply Kept.after (kept_setDir) | split | (apply Kept.of_eq <;> rfl) | dsimp -zeta only | dsimp only

theorem kept_execLinkOutputArbitration {l : Fin 352} {up : Bool} {s : State} : KeptBy s (execLinkOutputArbitration l up s) :=
  kept_live (fun _ => kept_outputArb)

theorem kept_sink {ni : Nat} {p : Packet} {s : State} : Kept s (sink ni p s) := by
  unfold sink
  revert s
  all_goals with_reducible repeat' first
    | (intro x; refine Kept.viaVar y x ?_ ?_; (on_goal 1 => try dsimp -zeta only [x]); (on_goal 2 => clear_value x; intro _))
    | (intro x; clear_value x) | (intro y; try dsimp -zeta only) | lift_lets | apply Kept.refl | assumption
    | apply Kept.after (kept_when ?_) | apply Kept.after (kept_offer) | apply Kept.after (kept_pfr)
    | apply Kept.after (kept_violPkt) | apply Kept.after (kept_setQueue) | apply Kept.after (kept_setSpent) | split
    | (apply Kept.of_eq <;> rfl) | dsimp -zeta only

theorem kept_acceptFlit {l : Nat} {up : Bool} {k : Nat} {x : Flit} {par : Nat} {s : State} : Kept s (acceptFlit l up k x par s) := by
  unfold acceptFlit
  revert s
  all_goals with_reducible repeat' first
    | (intro x; refine Kept.viaVar y x ?_ ?_; (on_goal 1 => try dsimp -zeta only [x]); (on_goal 2 => clear_value x; intro _))
    | (intro x; clear_value x) | (intro y; try dsimp -zeta only) | lift_lets | apply Kept.refl | assumption
    | apply Kept.after (kept_setDir) | apply Kept.after (kept_setFlight) | apply Kept.after (kept_setChan)
    | apply Kept.after (kept_sink) | apply Kept.after (kept_touchNi) | apply Kept.after (kept_setArrived)
    | apply Kept.after (kept_countArrival) | split | (apply Kept.of_eq <;> rfl) | dsimp -zeta only | dsimp only

theorem kept_repeatFlit {l : Nat} {up : Bool} {kind : Nat} {s : State} : Kept s (repeatFlit l up kind s) := by
  unfold repeatFlit
  revert s
  all_goals with_reducible repeat' first
    | (intro x; refine Kept.viaVar y x ?_ ?_; (on_goal 1 => try dsimp -zeta only [x]); (on_goal 2 => clear_value x; intro _))
    | (intro x; clear_value x) | (intro y; try dsimp -zeta only) | lift_lets | apply Kept.refl | assumption
    | apply Kept.after (kept_linkRepeat) | apply Kept.after (kept_setDir) | apply Kept.after (kept_linkFailed) | split
    | (apply Kept.of_eq <;> rfl) | dsimp -zeta only

theorem kept_flitArrive {l : Nat} {up : Bool} {err : FlitError} {par : Nat} {s : State} : Kept s (flitArrive l up err par s) := by
  unfold flitArrive
  revert s
  all_goals with_reducible repeat' first
    | (intro x; refine Kept.viaVar y x ?_ ?_; (on_goal 1 => try dsimp -zeta only [x]); (on_goal 2 => clear_value x; intro _))
    | (intro x; clear_value x) | (intro y; try dsimp -zeta only) | lift_lets | apply Kept.refl | assumption
    | apply Kept.after (kept_acceptFlit) | apply Kept.after (kept_repeatFlit) | split | (apply Kept.of_eq <;> rfl)
    | dsimp -zeta only | dsimp only

theorem kept_execFlitArrive {l : Fin 352} {up : Bool} {err : FlitError} {par : BitVec 8} {s : State} : KeptBy s (execFlitArrive l up err par s) :=
  kept_live (fun _ => kept_flitArrive)

theorem kept_execCreditReturn {l : Fin 352} {up : Bool} {s : State} : KeptBy s (execCreditReturn l up s) := by
  unfold execCreditReturn
  refine kept_live ?_
  all_goals with_reducible repeat' first
    | (intro x; refine Kept.viaVar y x ?_ ?_; (on_goal 1 => try dsimp -zeta only [x]); (on_goal 2 => clear_value x; intro _))
    | (intro x; clear_value x) | (intro y; try dsimp -zeta only) | lift_lets | apply Kept.refl | assumption
    | apply Kept.after (kept_setDir) | apply Kept.after (kept_setChan) | split | (apply Kept.of_eq <;> rfl)
    | dsimp -zeta only | dsimp only

theorem kept_execLimiterTokenAdd {ni : Fin 46} {qc : Fin 8} {s : State} : KeptBy s (execLimiterTokenAdd ni qc s) := by
  unfold execLimiterTokenAdd
  refine kept_live ?_
  all_goals with_reducible repeat' first
    | (intro x; refine Kept.viaVar y x ?_ ?_; (on_goal 1 => try dsimp -zeta only [x]); (on_goal 2 => clear_value x; intro _))
    | (intro x; clear_value x) | (intro y; try dsimp -zeta only) | lift_lets | apply Kept.refl | assumption
    | apply Kept.after (kept_setToken) | apply Kept.after (kept_setTokenTime) | split | dsimp -zeta only

theorem kept_fabCommit {s : State} : Kept s (fabCommit s) := by
  unfold fabCommit
  revert s
  all_goals with_reducible repeat' first
    | (intro x; refine Kept.viaVar y x ?_ ?_; (on_goal 1 => try dsimp -zeta only [x]); (on_goal 2 => clear_value x; intro _))
    | (intro x; clear_value x) | (intro y; try dsimp -zeta only) | lift_lets | apply Kept.refl | assumption
    | apply Kept.after (kept_commitRws) | apply Kept.after (kept_forN ?_) | apply Kept.after (kept_setToken)
    | apply Kept.after (kept_fset) | split | dsimp -zeta only

theorem kept_execFabCommit {w : Writer} {s : State} : KeptBy s (execFabCommit w s) := by
  unfold execFabCommit
  refine kept_live ?_
  all_goals with_reducible repeat' first
    | intro _ | apply Kept.refl | apply Kept.after (kept_guarded ?_) | apply Kept.after (kept_fabCommit)

theorem kept_forceOut {p : Packet} {out : Bool} {s : State} : Kept s (forceOut p out s) := by
  unfold forceOut
  revert s
  all_goals with_reducible repeat' first
    | (intro x; refine Kept.viaVar y x ?_ ?_; (on_goal 1 => try dsimp -zeta only [x]); (on_goal 2 => clear_value x; intro _))
    | (intro x; clear_value x) | (intro y; try dsimp -zeta only) | lift_lets | apply Kept.refl | assumption
    | apply Kept.after (kept_violSource) | apply Kept.after (kept_setLink) | apply Kept.after (kept_aerCorrected)
    | apply Kept.after (kept_fabFault) | split | (apply Kept.of_eq <;> rfl) | dsimp -zeta only

theorem kept_execForceOutWrite {w : Writer} {out : Bool} {s : State} : KeptBy s (execForceOutWrite w out s) := by
  unfold execForceOutWrite
  refine kept_live ?_
  all_goals with_reducible repeat' first
    | intro _ | apply Kept.refl | apply Kept.after (kept_guardedP ?_) | apply Kept.after (kept_forceOut)

theorem kept_rtWrite {value : Nat} {s : State} : Kept s (rtWrite value s) := by
  unfold rtWrite
  revert s
  all_goals with_reducible repeat' first
    | (intro x; refine Kept.viaVar y x ?_ ?_; (on_goal 1 => try dsimp -zeta only [x]); (on_goal 2 => clear_value x; intro _))
    | (intro x; clear_value x) | (intro y; try dsimp -zeta only) | lift_lets | apply Kept.refl | assumption
    | apply Kept.after (kept_putRoute) | split | dsimp -zeta only

theorem kept_execRtDataWrite {w : Writer} {value : BitVec 64} {s : State} : KeptBy s (execRtDataWrite w value s) := by
  unfold execRtDataWrite
  refine kept_live ?_
  all_goals with_reducible repeat' first
    | intro _ | apply Kept.refl | apply Kept.after (kept_guarded ?_) | apply Kept.after (kept_rtWrite)

/-! ## Arbiter -/

theorem kept_request {a i : Nat} {p : Packet} {s : State} : Kept s (request a i p s) := by
  unfold request
  revert s
  all_goals with_reducible repeat' first
    | (intro x; refine Kept.viaVar y x ?_ ?_; (on_goal 1 => try dsimp -zeta only [x]); (on_goal 2 => clear_value x; intro _))
    | (intro x; clear_value x) | (intro y; try dsimp -zeta only) | lift_lets | apply Kept.refl | assumption
    | apply Kept.after (kept_setArbiter) | (apply Kept.of_eq <;> rfl) | dsimp -zeta only

theorem kept_requestDeliver {a i : Nat} {s : State} : Kept s (requestDeliver a i s) := by
  unfold requestDeliver
  revert s
  all_goals with_reducible repeat' first
    | (intro x; refine Kept.viaVar y x ?_ ?_; (on_goal 1 => try dsimp -zeta only [x]); (on_goal 2 => clear_value x; intro _))
    | (intro x; clear_value x) | (intro y; try dsimp -zeta only) | lift_lets | apply Kept.refl | assumption
    | apply Kept.after (kept_setArbiter) | split | (apply Kept.of_eq <;> rfl) | dsimp -zeta only | dsimp only

theorem kept_execArbRequestDeliver {a : Fin 29} {idx : Fin 47} {s : State} : KeptBy s (execArbRequestDeliver a idx s) :=
  kept_live (fun _ => kept_requestDeliver)

theorem kept_contestOpen {a : Nat} {s : State} : Kept s (contestOpen a s) := by
  unfold contestOpen
  revert s
  all_goals with_reducible repeat' first
    | (intro x; refine Kept.viaVar y x ?_ ?_; (on_goal 1 => try dsimp -zeta only [x]); (on_goal 2 => clear_value x; intro _))
    | (intro x; clear_value x) | (intro y; try dsimp -zeta only) | lift_lets | apply Kept.refl | assumption
    | apply Kept.after (kept_setArbiter) | split | (apply Kept.of_eq <;> rfl) | dsimp -zeta only

theorem kept_execArbContestOpen {a : Fin 29} {s : State} : KeptBy s (execArbContestOpen a s) :=
  kept_live (fun _ => kept_contestOpen)

theorem kept_contestDecide {a : Nat} {s : State} : Kept s (contestDecide a s) := by
  unfold contestDecide
  revert s
  all_goals with_reducible repeat' first
    | (intro x; refine Kept.viaVar y x ?_ ?_; (on_goal 1 => try dsimp -zeta only [x]); (on_goal 2 => clear_value x; intro _))
    | (intro x; clear_value x) | (intro y; try dsimp -zeta only) | lift_lets | apply Kept.refl | assumption
    | apply Kept.after (kept_setArbiter) | apply Kept.after (kept_foldl _ _ ?_) | split | (apply Kept.of_eq <;> rfl)
    | dsimp -zeta only | dsimp only

theorem kept_execArbContestDecide {a : Fin 29} {s : State} : KeptBy s (execArbContestDecide a s) :=
  kept_live (fun _ => kept_contestDecide)

theorem kept_execArbBackoffExpire {a : Fin 29} {idx : Fin 47} {s : State} : KeptBy s (execArbBackoffExpire a idx s) := by
  unfold execArbBackoffExpire
  refine kept_live ?_
  all_goals with_reducible repeat' first
    | (intro x; refine Kept.viaVar y x ?_ ?_; (on_goal 1 => try dsimp -zeta only [x]); (on_goal 2 => clear_value x; intro _))
    | (intro x; clear_value x) | (intro y; try dsimp -zeta only) | lift_lets | apply Kept.refl | assumption
    | apply Kept.after (kept_setArbiter) | (apply Kept.of_eq <;> rfl) | dsimp -zeta only

theorem kept_zeroAnswer {ni : Nat} {p : Packet} {s : State} : Kept s (zeroAnswer ni p s) := by
  unfold zeroAnswer
  all_goals with_reducible repeat' first
    | apply Kept.refl | apply Kept.after (kept_offer) | (apply Kept.of_eq <;> rfl)

theorem kept_bankRead {ni : Nat} {p : Packet} {s : State} : Kept s (bankRead ni p s) := by
  unfold bankRead
  revert s
  all_goals with_reducible repeat' first
    | (intro x; refine Kept.viaVar y x ?_ ?_; (on_goal 1 => try dsimp -zeta only [x]); (on_goal 2 => clear_value x; intro _))
    | (intro x; clear_value x) | (intro y; try dsimp -zeta only) | lift_lets | apply Kept.refl | assumption
    | apply Kept.after (kept_stgCheckRange) | apply Kept.after (kept_offer) | (apply Kept.of_eq <;> rfl)
    | dsimp -zeta only

theorem kept_bankAtomic {ni : Nat} {p : Packet} {s : State} : Kept s (bankAtomic ni p s) := by
  unfold bankAtomic
  revert s
  all_goals with_reducible repeat' first
    | (intro x; refine Kept.viaVar y x ?_ ?_; (on_goal 1 => try dsimp -zeta only [x]); (on_goal 2 => clear_value x; intro _))
    | (intro x; clear_value x) | (intro y; try dsimp -zeta only) | lift_lets | apply Kept.refl | assumption
    | apply Kept.after (kept_stgCheckRange) | apply Kept.after (kept_stgWrite) | apply Kept.after (kept_offer) | split
    | (apply Kept.of_eq <;> rfl) | dsimp -zeta only

theorem kept_bankExec {ni : Nat} {p : Packet} {s : State} : Kept s (bankExec ni p s) := by
  unfold bankExec
  all_goals with_reducible repeat' first
    | apply Kept.refl | assumption | apply Kept.after (kept_zeroAnswer) | apply Kept.after (kept_offer)
    | apply Kept.after (kept_bankRead) | apply Kept.after (kept_bankAtomic) | apply Kept.after (kept_pfr)
    | apply Kept.after (kept_stgWrite) | split | (apply Kept.of_eq <;> rfl)

theorem kept_closeRecord {c fn : Nat} {s : State} : Kept s (closeRecord c fn s) := by
  unfold closeRecord
  revert s
  all_goals with_reducible repeat' first
    | (intro x; refine Kept.viaVar y x ?_ ?_; (on_goal 1 => try dsimp -zeta only [x]); (on_goal 2 => clear_value x; intro _))
    | (intro x; clear_value x) | (intro y; try dsimp -zeta only) | lift_lets | apply Kept.refl | assumption
    | apply Kept.after (kept_setClu) | (apply Kept.of_eq <;> rfl) | dsimp -zeta only

theorem kept_grantEnd {a : Nat} {s : State} : Kept s (grantEnd a s) := by
  unfold grantEnd
  revert s
  all_goals with_reducible repeat' first
    | (intro x; refine Kept.viaVar y x ?_ ?_; (on_goal 1 => try dsimp -zeta only [x]); (on_goal 2 => clear_value x; intro _))
    | (intro x; clear_value x) | (intro y; try dsimp -zeta only) | lift_lets | apply Kept.refl | assumption
    | apply Kept.after (kept_setArbiter) | apply Kept.after (kept_bankExec) | apply Kept.after (kept_touch)
    | apply Kept.after (kept_closeRecord) | apply Kept.after (kept_offer) | split | (apply Kept.of_eq <;> rfl)
    | dsimp -zeta only | dsimp only

theorem kept_execArbGrantEnd {a : Fin 29} {s : State} : KeptBy s (execArbGrantEnd a s) :=
  kept_live (fun _ => kept_grantEnd)

theorem kept_arbCommit {a : Nat} {s : State} : Kept s (arbCommit a s) := by
  unfold arbCommit
  all_goals with_reducible repeat' first | apply Kept.refl | apply Kept.after (kept_commitRws)

theorem kept_execArbCommit {w : Writer} {a : Fin 29} {s : State} : KeptBy s (execArbCommit w a s) := by
  unfold execArbCommit
  refine kept_live ?_
  all_goals with_reducible repeat' first
    | intro _ | apply Kept.refl | apply Kept.after (kept_guarded ?_) | apply Kept.after (kept_arbCommit)

theorem kept_c52Write {a : Nat} {hi : Bool} {v : Word} {s : State} : Kept s (c52Write a hi v s) := by
  unfold c52Write
  revert s
  all_goals with_reducible repeat' first
    | (intro x; refine Kept.viaVar y x ?_ ?_; (on_goal 1 => try dsimp -zeta only [x]); (on_goal 2 => clear_value x; intro _))
    | (intro x; clear_value x) | (intro y; try dsimp -zeta only) | lift_lets | apply Kept.refl | assumption
    | apply Kept.after (kept_rput) | apply Kept.after (kept_setC52Force) | apply Kept.after (kept_fset) | split
    | dsimp -zeta only

theorem kept_execC52PrioWrite {w : Writer} {a : Fin 29} {hi : Bool} {value : BitVec 32} {s : State} : KeptBy s (execC52PrioWrite w a hi value s) := by
  unfold execC52PrioWrite
  refine kept_live ?_
  all_goals with_reducible repeat' first
    | intro _ | apply Kept.refl | assumption | apply Kept.after (kept_guarded ?_) | apply Kept.after (kept_c52Write)
    | split

theorem kept_semServe {p : Packet} {s : State} : Kept s (semServe p s) := by
  unfold semServe
  revert s
  all_goals with_reducible repeat' first
    | (intro x; refine Kept.viaVar y x ?_ ?_; (on_goal 1 => try dsimp -zeta only [x]); (on_goal 2 => clear_value x; intro _))
    | (intro x; clear_value x) | (intro y; try dsimp -zeta only) | lift_lets | apply Kept.refl | assumption
    | apply Kept.after (kept_offer) | apply Kept.after (kept_setSem) | apply Kept.after (kept_viol)
    | apply Kept.after (kept_violPkt) | apply Kept.after (kept_fset) | split | (apply Kept.of_eq <;> rfl)
    | dsimp -zeta only | dsimp only

theorem kept_semExec {op : Nat} {s : State} : Kept s (semExec op s) := by
  unfold semExec
  revert s
  all_goals with_reducible repeat' first
    | (intro x; refine Kept.viaVar y x ?_ ?_; (on_goal 1 => try dsimp -zeta only [x]); (on_goal 2 => clear_value x; intro _))
    | (intro x; clear_value x) | (intro y; try dsimp -zeta only) | lift_lets | apply Kept.refl | assumption
    | apply Kept.after (kept_semServe) | apply Kept.after (kept_setArbiter) | split | (apply Kept.of_eq <;> rfl)
    | dsimp -zeta only | dsimp only

theorem kept_execSemExecAcquire {s : State} : KeptBy s (execSemExecAcquire s) := kept_live (fun _ => kept_semExec)

theorem kept_execSemExecRelease {s : State} : KeptBy s (execSemExecRelease s) := kept_live (fun _ => kept_semExec)

theorem kept_execSemExecForceRelease {s : State} : KeptBy s (execSemExecForceRelease s) :=
  kept_live (fun _ => kept_semExec)

theorem kept_execSemExecNoOp {s : State} : KeptBy s (execSemExecNoOp s) := kept_live (fun _ => kept_semExec)

theorem kept_semCmd {w : Writer} {op n : Nat} {s : State} : Kept s (semCmd w op n s) := by
  unfold semCmd
  all_goals with_reducible repeat' first
    | apply Kept.refl | assumption | apply Kept.after (kept_request) | split

theorem kept_execSemCmdAcquire {k : Fin 2} {num : BitVec 11} {s : State} : KeptBy s (execSemCmdAcquire k num s) := by
  unfold execSemCmdAcquire
  refine kept_live ?_
  all_goals with_reducible repeat' first | intro _ | apply Kept.refl | apply Kept.after (kept_semCmd)

theorem kept_execSemCmdRelease {k : Fin 2} {num : BitVec 11} {s : State} : KeptBy s (execSemCmdRelease k num s) := by
  unfold execSemCmdRelease
  refine kept_live ?_
  all_goals with_reducible repeat' first | intro _ | apply Kept.refl | apply Kept.after (kept_semCmd)

theorem kept_execSemCmdForceRelease {k : Fin 2} {num : BitVec 11} {s : State} : KeptBy s (execSemCmdForceRelease k num s) := by
  unfold execSemCmdForceRelease
  refine kept_live ?_
  all_goals with_reducible repeat' first | intro _ | apply Kept.refl | apply Kept.after (kept_semCmd)

theorem kept_semFreeFn {mine : Nat → Bool} {s : State} : Kept s (semFreeFn mine s) := by
  unfold semFreeFn
  revert s
  all_goals with_reducible repeat' first
    | (intro x; refine Kept.viaVar y x ?_ ?_; (on_goal 1 => try dsimp -zeta only [x]); (on_goal 2 => clear_value x; intro _))
    | (intro x; clear_value x) | (intro y; try dsimp -zeta only) | lift_lets | apply Kept.refl | assumption
    | apply Kept.after (kept_forN ?_) | apply Kept.after (kept_setSem) | split | dsimp -zeta only

theorem kept_semEndFence {x : Nat} {s : State} : Kept s (semEndFence x s) := by
  unfold semEndFence
  all_goals with_reducible repeat' first
    | apply Kept.refl | assumption | apply Kept.after (kept_semFreeFn) | apply Kept.after (kept_setSemFence) | split

theorem kept_execSemResetFree {fn : Fin 2048} {s : State} : KeptBy s (execSemResetFree fn s) := by
  unfold execSemResetFree
  refine kept_live ?_
  all_goals with_reducible repeat' first | intro _ | apply Kept.refl | apply Kept.after (kept_semEndFence)

end Sys2Proof.Machine
end

