-- ==== Sys2Proof/Laws/KeptSoref.lean ====
section
/-!
SUPPORT. What the operations and commands of the Soref engines keep (Laws/Kept.lean),
one lemma for each.
-/
set_option linter.all false
set_option linter.unusedTactic false
set_option linter.unreachableTactic false
namespace Sys2Proof.Machine

/-! ## Operands -/

theorem kept_setGr {e r : Nat} {v : Word} {s : State} : Kept s (setGr e r v s) := by
  unfold setGr
  all_goals with_reducible repeat' first
    | apply Kept.refl | assumption | apply Kept.after (kept_setGreg) | split

theorem kept_setGrBytes {e r n v : Nat} {s : State} : Kept s (setGrBytes e r n v s) := by
  unfold setGrBytes
  all_goals with_reducible repeat' first
    | apply Kept.refl | assumption | apply Kept.after (kept_setGr) | split

/-! ## Pacer -/

theorem kept_setEvt {e bit : Nat} {s : State} : Kept s (setEvt e bit s) := by
  unfold setEvt
  revert s
  all_goals with_reducible repeat' first
    | (intro x; refine Kept.viaVar y x ?_ ?_; (on_goal 1 => try dsimp -zeta only [x]); (on_goal 2 => clear_value x; intro _))
    | (intro x; clear_value x) | (intro y; try dsimp -zeta only) | lift_lets | apply Kept.refl | assumption
    | apply Kept.after (kept_setEng) | split | (apply Kept.of_eq <;> rfl) | dsimp -zeta only

theorem kept_psCorrect {c w : Nat} {s : State} : Kept s (psCorrect c w s) := by
  unfold psCorrect
  all_goals with_reducible repeat' first
    | apply Kept.refl | assumption | apply Kept.after (kept_aerCorrected) | apply Kept.after (kept_setPsEccAt)
    | apply Kept.after (kept_fset) | apply Kept.after (kept_fsat) | split

theorem kept_psUeRecord {c w : Nat} {s : State} : Kept s (psUeRecord c w s) := by
  unfold psUeRecord
  all_goals with_reducible repeat' first
    | apply Kept.refl | apply Kept.after (kept_viol) | apply Kept.after (kept_fsat)

theorem kept_scrWrite {e off : Nat} {data : List Byte} {ep : Bool} {s : State} : Kept s (scrWrite e off data ep s) := by
  unfold scrWrite
  revert s
  all_goals with_reducible repeat' first
    | (intro x; refine Kept.viaVar y x ?_ ?_; (on_goal 1 => try dsimp -zeta only [x]); (on_goal 2 => clear_value x; intro _))
    | (intro x; clear_value x) | (intro y; try dsimp -zeta only) | lift_lets | apply Kept.refl | assumption
    | apply Kept.after (kept_forL ?_) | apply Kept.after (kept_setScrByte) | apply Kept.after (kept_setScrPoisonAt)
    | split | dsimp -zeta only

theorem kept_engSend {e : Nat} {p : Packet} {s : State} : Kept s (engSend e p s) := by
  unfold engSend
  all_goals with_reducible repeat' first
    | apply Kept.refl | assumption | apply Kept.after (kept_request) | apply Kept.after (kept_setEng) | split
    | (apply Kept.of_eq <;> rfl)

theorem kept_notePosted {e dst : Nat} {s : State} : Kept s (notePosted e dst s) := by
  unfold notePosted
  revert s
  all_goals with_reducible repeat' first
    | (intro x; refine Kept.viaVar y x ?_ ?_; (on_goal 1 => try dsimp -zeta only [x]); (on_goal 2 => clear_value x; intro _))
    | (intro x; clear_value x) | (intro y; try dsimp -zeta only) | lift_lets | apply Kept.refl | assumption
    | apply Kept.after (kept_setEng) | split | (apply Kept.of_eq <;> rfl) | dsimp -zeta only

theorem kept_dropMsg {c : Nat} {p : Packet} {s : State} : Kept s (dropMsg c p s) := by
  unfold dropMsg
  all_goals with_reducible repeat' first
    | apply Kept.refl | apply Kept.after (kept_pfr) | apply Kept.after (kept_fsat)

theorem kept_discardHeld {e : Nat} {s : State} : Kept s (discardHeld e s) := by
  unfold discardHeld
  revert s
  all_goals with_reducible repeat' first
    | (intro x; refine Kept.viaVar y x ?_ ?_; (on_goal 1 => try dsimp -zeta only [x]); (on_goal 2 => clear_value x; intro _))
    | (intro x; clear_value x) | (intro y; try dsimp -zeta only) | lift_lets | apply Kept.refl | assumption
    | apply Kept.after (kept_forL ?_) | apply Kept.after (kept_dropMsg) | apply Kept.after (kept_setClu)
    | (apply Kept.of_eq <;> rfl) | dsimp -zeta only

theorem kept_returnQid {e : Nat} {db : Bool} {s : State} : Kept s (returnQid e db s) := by
  unfold returnQid
  revert s
  all_goals with_reducible repeat' first
    | (intro x; refine Kept.viaVar y x ?_ ?_; (on_goal 1 => try dsimp -zeta only [x]); (on_goal 2 => clear_value x; intro _))
    | (intro x; clear_value x) | (intro y; try dsimp -zeta only) | lift_lets | apply Kept.refl | assumption
    | apply Kept.after (kept_engSend) | apply Kept.after (kept_setEng) | split | (apply Kept.of_eq <;> rfl)
    | dsimp -zeta only

theorem kept_freeSems {e : Nat} {s : State} : Kept s (freeSems e s) := by
  unfold freeSems
  all_goals with_reducible repeat' first
    | intro _ | apply Kept.refl | apply Kept.after (kept_forL ?_) | apply Kept.after (kept_setSem)

theorem kept_returnDone {e : Nat} {s : State} : Kept s (returnDone e s) := by
  unfold returnDone
  all_goals with_reducible repeat' first
    | intro _ | apply Kept.refl | assumption | apply Kept.after (kept_forL ?_) | apply Kept.after (kept_setCtx)
    | split

theorem kept_haltEngine {e code addr info : Nat} {s : State} : Kept s (haltEngine e code addr info s) := by
  unfold haltEngine
  refine Kept.after kept_trace (.after kept_viol (.after kept_fsat ?_))
  have k : Kept s (discardHeld e (returnDone e (freeSems e ((scrWrite e 0xFF40 (s.faultRecord e code 1 addr info) false s).setEng e
      { s.eng e with
        st := .halted, stall := .none, ending := false, belay := false, cutPend := none, hold := false, lastFault := code,
        ctx := 0x3FF, ctxsts := 0, done := [] })))) :=
    .after kept_discardHeld (.after kept_returnDone (.after kept_freeSems (.after kept_setEng kept_scrWrite)))
  split
  · exact .after kept_returnQid k
  · exact k

theorem kept_raiseFault {e code addr info : Nat} {s : State} : Kept s (raiseFault e code addr info s) := by
  unfold raiseFault
  revert s
  all_goals with_reducible repeat' first
    | (intro x; refine Kept.viaVar y x ?_ ?_; (on_goal 1 => try dsimp -zeta only [x]); (on_goal 2 => clear_value x; intro _))
    | (intro x; clear_value x) | (intro y; try dsimp -zeta only) | lift_lets | apply Kept.refl | assumption
    | apply Kept.after (kept_haltEngine) | apply Kept.after (kept_scrWrite) | apply Kept.after (kept_setEng)
    | apply Kept.after (kept_trace) | apply Kept.after (kept_fsat) | split | (apply Kept.of_eq <;> rfl)
    | dsimp -zeta only

theorem kept_takeCut {e ni : Nat} {s : State} : Kept s (takeCut e ni s) := by
  unfold takeCut
  revert s
  all_goals with_reducible repeat' first
    | (intro x; refine Kept.viaVar y x ?_ ?_; (on_goal 1 => try dsimp -zeta only [x]); (on_goal 2 => clear_value x; intro _))
    | (intro x; clear_value x) | (intro y; try dsimp -zeta only) | lift_lets | apply Kept.refl | assumption
    | apply Kept.after (kept_raiseFault) | apply Kept.after (kept_setEng) | (apply Kept.of_eq <;> rfl)
    | dsimp -zeta only

theorem kept_checkCut {e : Nat} {s : State} : Kept s (checkCut e s) := by
  unfold checkCut
  revert s
  all_goals with_reducible repeat' first
    | (intro x; refine Kept.viaVar y x ?_ ?_; (on_goal 1 => try dsimp -zeta only [x]); (on_goal 2 => clear_value x; intro _))
    | (intro x; clear_value x) | (intro y; try dsimp -zeta only) | lift_lets | apply Kept.refl | assumption
    | apply Kept.after (kept_takeCut) | apply Kept.after (kept_setEng) | split | (apply Kept.of_eq <;> rfl)
    | dsimp -zeta only | dsimp only

theorem kept_finishAt {e npc : Nat} {s : State} : Kept s (finishAt e npc s) := by
  unfold finishAt
  revert s
  all_goals with_reducible repeat' first
    | (intro x; refine Kept.viaVar y x ?_ ?_; (on_goal 1 => try dsimp -zeta only [x]); (on_goal 2 => clear_value x; intro _))
    | (intro x; clear_value x) | (intro y; try dsimp -zeta only) | lift_lets | apply Kept.refl | assumption
    | apply Kept.after (kept_checkCut) | apply Kept.after (kept_setEng) | (apply Kept.of_eq <;> rfl)
    | dsimp -zeta only

theorem kept_finish {e : Nat} {s : State} : Kept s (finish e s) := by
  unfold finish
  all_goals with_reducible repeat' first | apply Kept.refl | apply Kept.after (kept_finishAt)

theorem kept_finishL {e : Nat} {s : State} : Kept s (finishL e s) := by
  unfold finishL
  all_goals with_reducible repeat' first | apply Kept.refl | apply Kept.after (kept_finishAt)

theorem kept_budgetFault {e : Nat} {s : State} : Kept s (budgetFault e s) := by
  unfold budgetFault
  revert s
  all_goals with_reducible repeat' first
    | (intro x; refine Kept.viaVar y x ?_ ?_; (on_goal 1 => try dsimp -zeta only [x]); (on_goal 2 => clear_value x; intro _))
    | (intro x; clear_value x) | (intro y; try dsimp -zeta only) | lift_lets | apply Kept.refl | assumption
    | apply Kept.after (kept_raiseFault) | apply Kept.after (kept_setEng) | split | (apply Kept.of_eq <;> rfl)
    | dsimp -zeta only

theorem kept_runInsn {e : Nat} {i : Option Soref} {f : State → State} {s : State} (h0 : ∀ y, Kept y (f y)) : Kept s (runInsn e i f s) := by
  unfold runInsn
  revert s
  all_goals with_reducible repeat' first
    | (intro x; refine Kept.viaVar y x ?_ ?_; (on_goal 1 => try dsimp -zeta only [x]); (on_goal 2 => clear_value x; intro _))
    | (intro x; clear_value x) | (intro y; try dsimp -zeta only) | lift_lets | apply Kept.refl | assumption
    | apply Kept.after (kept_budgetFault) | apply Kept.after (kept_raiseFault) | apply Kept.after (kept_psUeRecord)
    | apply Kept.after (kept_psCorrect) | apply Kept.after (kept_touch) | apply Kept.after (h0 _) | split
    | (apply Kept.of_eq <;> rfl) | dsimp -zeta only | dsimp only

theorem kept_soref {e : Fin 64} {i : Soref} {f : Nat → State → State} {s : State} (h0 : ∀ a0 y, Kept y (f a0 y)) : KeptBy s (soref e i f s) := by
  unfold soref
  refine kept_live ?_
  all_goals with_reducible repeat' first
    | intro _ | apply Kept.refl | assumption | apply Kept.after (kept_runInsn ?_) | apply Kept.after (h0 _ _)

theorem kept_execReservedEncoding {e : Fin 64} {s : State} : KeptBy s (execReservedEncoding e s) :=
  kept_live (fun _ => kept_runInsn (fun y => Kept.refl y))

theorem kept_post {e : Nat} {p : Packet} {s : State} : Kept s (post e p s) := by
  unfold post
  revert s
  all_goals with_reducible repeat' first
    | (intro x; refine Kept.viaVar y x ?_ ?_; (on_goal 1 => try dsimp -zeta only [x]); (on_goal 2 => clear_value x; intro _))
    | (intro x; clear_value x) | (intro y; try dsimp -zeta only) | lift_lets | apply Kept.refl | assumption
    | apply Kept.after (kept_finish) | apply Kept.after (kept_engSend) | apply Kept.after (kept_notePosted)
    | apply Kept.after (kept_setEng) | split | (apply Kept.of_eq <;> rfl) | dsimp -zeta only

theorem kept_block {e : Nat} {st : Stall} {p : Packet} {s : State} : Kept s (block e st p s) := by
  unfold block
  revert s
  all_goals with_reducible repeat' first
    | (intro x; refine Kept.viaVar y x ?_ ?_; (on_goal 1 => try dsimp -zeta only [x]); (on_goal 2 => clear_value x; intro _))
    | (intro x; clear_value x) | (intro y; try dsimp -zeta only) | lift_lets | apply Kept.refl | assumption
    | apply Kept.after (kept_setEng) | apply Kept.after (kept_engSend) | (apply Kept.of_eq <;> rfl) | dsimp -zeta only

theorem kept_startTask {e trail fn qid stamp : Nat} {s : State} : Kept s (startTask e trail fn qid stamp s) := by
  unfold startTask
  revert s
  all_goals with_reducible repeat' first
    | (intro x; refine Kept.viaVar y x ?_ ?_; (on_goal 1 => try dsimp -zeta only [x]); (on_goal 2 => clear_value x; intro _))
    | (intro x; clear_value x) | (intro y; try dsimp -zeta only) | lift_lets | apply Kept.refl | assumption
    | apply Kept.after (kept_forN ?_) | apply Kept.after (kept_setGreg) | apply Kept.after (kept_setEng)
    | dsimp -zeta only

theorem kept_landMsg {e : Nat} {p : Packet} {s : State} : Kept s (landMsg e p s) := by
  unfold landMsg
  revert s
  all_goals with_reducible repeat' first
    | (intro x; refine Kept.viaVar y x ?_ ?_; (on_goal 1 => try dsimp -zeta only [x]); (on_goal 2 => clear_value x; intro _))
    | (intro x; clear_value x) | (intro y; try dsimp -zeta only) | lift_lets | apply Kept.refl | assumption
    | apply Kept.after (kept_scrWrite) | apply Kept.after (kept_setEvt) | apply Kept.after (kept_setEng)
    | (apply Kept.of_eq <;> rfl) | dsimp -zeta only

theorem kept_refillWakes {c : Nat} {s : State} : Kept s (refillWakes c s) := by
  unfold refillWakes
  revert s
  all_goals with_reducible repeat' first
    | (intro x; refine Kept.viaVar y x ?_ ?_; (on_goal 1 => try dsimp -zeta only [x]); (on_goal 2 => clear_value x; intro _))
    | (intro x; clear_value x) | (intro y; try dsimp -zeta only) | lift_lets | apply Kept.refl | assumption
    | apply Kept.after (kept_setClu) | split | (apply Kept.of_eq <;> rfl) | dsimp -zeta only | dsimp only

theorem kept_startQueueTask {e : Nat} {w : Wake} {s : State} : Kept s (startQueueTask e w s) := by
  unfold startQueueTask
  revert s
  all_goals with_reducible repeat' first
    | (intro x; refine Kept.viaVar y x ?_ ?_; (on_goal 1 => try dsimp -zeta only [x]); (on_goal 2 => clear_value x; intro _))
    | (intro x; dsimp -zeta only [x]; clear x) | (intro x; clear_value x) | (intro y; try dsimp -zeta only)
    | lift_lets | apply Kept.refl | assumption | apply Kept.after (kept_startTask) | apply Kept.after (kept_scrWrite)
    | apply Kept.after (kept_offer) | (apply Kept.of_eq <;> rfl) | dsimp -zeta only

theorem kept_startMsgTask {e : Nat} {w : Wake} {s : State} : Kept s (startMsgTask e w s) := by
  unfold startMsgTask
  all_goals with_reducible repeat' first
    | apply Kept.refl | apply Kept.after (kept_landMsg) | apply Kept.after (kept_startTask)

theorem kept_startInit {c : Nat} {s : State} : Kept s (startInit c s) := by
  unfold startInit
  revert s
  all_goals with_reducible repeat' first
    | (intro x; refine Kept.viaVar y x ?_ ?_; (on_goal 1 => try dsimp -zeta only [x]); (on_goal 2 => clear_value x; intro _))
    | (intro x; clear_value x) | (intro y; try dsimp -zeta only) | lift_lets | apply Kept.refl | assumption
    | apply Kept.after (kept_startTask) | apply Kept.after (kept_setClu) | (apply Kept.of_eq <;> rfl)
    | dsimp -zeta only

theorem kept_dispatch {c : Nat} {s : State} : Kept s (dispatch c s) := by
  unfold dispatch
  revert s
  all_goals with_reducible repeat' first
    | (intro x; refine Kept.viaVar y x ?_ ?_; (on_goal 1 => try dsimp -zeta only [x]); (on_goal 2 => clear_value x; intro _))
    | (intro x; clear_value x) | (intro y; try dsimp -zeta only) | lift_lets | apply Kept.refl | assumption
    | apply Kept.after (kept_startInit) | apply Kept.after (kept_setClu) | apply Kept.after (kept_startMsgTask)
    | apply Kept.after (kept_refillWakes) | apply Kept.after (kept_startQueueTask) | split
    | (apply Kept.of_eq <;> rfl) | dsimp -zeta only | dsimp only

theorem kept_execDispatch {c : Fin 8} {s : State} : KeptBy s (execDispatch c s) :=
  kept_live (fun _ => kept_dispatch)

theorem kept_clusterWake {c i : Nat} {s : State} : Kept s (clusterWake c i s) := by
  unfold clusterWake
  revert s
  all_goals with_reducible repeat' first
    | (intro x; refine Kept.viaVar y x ?_ ?_; (on_goal 1 => try dsimp -zeta only [x]); (on_goal 2 => clear_value x; intro _))
    | (intro x; clear_value x) | (intro y; try dsimp -zeta only) | lift_lets | apply Kept.refl | assumption
    | apply Kept.after (kept_takeArrived _ _ (by assumption)) | apply Kept.after (kept_setClu)
    | apply Kept.after (kept_dropMsg) | apply Kept.after (Kept.of_pair (by assumption) (kept_checkParity))
    | apply Kept.after (kept_checkParity) | split | (apply Kept.of_eq <;> rfl) | dsimp -zeta only | dsimp only

theorem kept_execClusterWakeArrive {c : Fin 8} {i : Nat} {s : State} : KeptBy s (execClusterWakeArrive c i s) :=
  kept_live (fun _ => kept_clusterWake)

theorem kept_wakeCredit {i : Nat} {s : State} : Kept s (wakeCredit i s) := by
  unfold wakeCredit
  all_goals with_reducible repeat' first
    | apply Kept.refl | assumption | apply Kept.after (kept_takeArrived _ _ (by assumption))
    | apply Kept.after (kept_setSpent) | split

theorem kept_execWakeCreditReturn {i : Nat} {s : State} : KeptBy s (execWakeCreditReturn i s) :=
  kept_live (fun _ => kept_wakeCredit)

theorem kept_execTimerExpire {e : Fin 64} {s : State} : KeptBy s (execTimerExpire e s) := by
  unfold execTimerExpire
  refine kept_live ?_
  all_goals with_reducible repeat' first
    | (intro x; refine Kept.viaVar y x ?_ ?_; (on_goal 1 => try dsimp -zeta only [x]); (on_goal 2 => clear_value x; intro _))
    | (intro x; clear_value x) | (intro y; try dsimp -zeta only) | lift_lets | apply Kept.refl | assumption
    | apply Kept.after (kept_setEvt) | split | dsimp -zeta only

theorem kept_execWaitRelease {e : Fin 64} {s : State} : KeptBy s (execWaitRelease e s) := by
  unfold execWaitRelease
  refine kept_live ?_
  all_goals with_reducible repeat' first
    | (intro x; refine Kept.viaVar y x ?_ ?_; (on_goal 1 => try dsimp -zeta only [x]); (on_goal 2 => clear_value x; intro _))
    | (intro x; clear_value x) | (intro y; try dsimp -zeta only) | lift_lets | apply Kept.refl | assumption
    | apply Kept.after (kept_setEng) | split | (apply Kept.of_eq <;> rfl) | dsimp -zeta only

theorem kept_execNop {e : Fin 64} {s : State} : KeptBy s (execNop e s) := by
  unfold execNop
  refine kept_soref ?_
  all_goals with_reducible repeat' first | intro _ | apply Kept.refl | apply Kept.after (kept_finish)

theorem kept_waitInsn {e : Nat} {s : State} : Kept s (waitInsn e s) := by
  unfold waitInsn
  revert s
  all_goals with_reducible repeat' first
    | (intro x; refine Kept.viaVar y x ?_ ?_; (on_goal 1 => try dsimp -zeta only [x]); (on_goal 2 => clear_value x; intro _))
    | (intro x; clear_value x) | (intro y; try dsimp -zeta only) | lift_lets | apply Kept.refl | assumption
    | apply Kept.after (kept_raiseFault) | apply Kept.after (kept_finish) | apply Kept.after (kept_setEng) | split
    | (apply Kept.of_eq <;> rfl) | dsimp -zeta only

theorem kept_execWait {e : Fin 64} {s : State} : KeptBy s (execWait e s) := by
  unfold execWait
  refine kept_soref ?_
  all_goals with_reducible repeat' first | intro _ | apply Kept.refl | apply Kept.after (kept_waitInsn)

theorem kept_endTask {e : Nat} {s : State} : Kept s (endTask e s) := by
  unfold endTask
  revert s
  all_goals with_reducible repeat' first
    | (intro x; refine Kept.viaVar y x ?_ ?_; (on_goal 1 => try dsimp -zeta only [x]); (on_goal 2 => clear_value x; intro _))
    | (intro x; clear_value x) | (intro y; try dsimp -zeta only) | lift_lets | apply Kept.refl | assumption
    | apply Kept.after (kept_forL ?_) | apply Kept.after (kept_setCtx) | apply Kept.after (kept_discardHeld)
    | apply Kept.after (kept_returnQid) | apply Kept.after (kept_setEng) | apply Kept.after (kept_setClu)
    | apply Kept.after (kept_fset) | split | (apply Kept.of_eq <;> rfl) | dsimp -zeta only

theorem kept_endInsn {e : Nat} {s : State} : Kept s (endInsn e s) := by
  unfold endInsn
  revert s
  all_goals with_reducible repeat' first
    | (intro x; refine Kept.viaVar y x ?_ ?_; (on_goal 1 => try dsimp -zeta only [x]); (on_goal 2 => clear_value x; intro _))
    | (intro x; clear_value x) | (intro y; try dsimp -zeta only) | lift_lets | apply Kept.refl | assumption
    | apply Kept.after (kept_raiseFault) | apply Kept.after (kept_setEng) | apply Kept.after (kept_endTask) | split
    | (apply Kept.of_eq <;> rfl) | dsimp -zeta only

theorem kept_execEnd {e : Fin 64} {s : State} : KeptBy s (execEnd e s) := by
  unfold execEnd
  refine kept_soref ?_
  all_goals with_reducible repeat' first | intro _ | apply Kept.refl | apply Kept.after (kept_endInsn)

theorem kept_execEndContextsDrained {e : Fin 64} {s : State} : KeptBy s (execEndContextsDrained e s) := by
  unfold execEndContextsDrained
  refine kept_live ?_
  all_goals with_reducible repeat' first
    | intro _ | apply Kept.refl | assumption | apply Kept.after (kept_endTask) | split

theorem kept_faultNotice {e i : Nat} {s : State} : Kept s (faultNotice e i s) := by
  unfold faultNotice
  revert s
  all_goals with_reducible repeat' first
    | (intro x; refine Kept.viaVar y x ?_ ?_; (on_goal 1 => try dsimp -zeta only [x]); (on_goal 2 => clear_value x; intro _))
    | (intro x; clear_value x) | (intro y; try dsimp -zeta only) | lift_lets | apply Kept.refl | assumption
    | apply Kept.after (kept_takeArrived _ _ (by assumption)) | apply Kept.after (kept_closeRecord)
    | apply Kept.after (kept_setEng) | apply Kept.after (kept_checkCut) | split | (apply Kept.of_eq <;> rfl)
    | dsimp -zeta only | dsimp only

theorem kept_execFaultNoticeArrive {e : Fin 64} {i : Nat} {s : State} : KeptBy s (execFaultNoticeArrive e i s) :=
  kept_live (fun _ => kept_faultNotice)

theorem kept_engMessage {e : Nat} {p : Packet} {s : State} : Kept s (engMessage e p s) := by
  unfold engMessage
  revert s
  all_goals with_reducible repeat' first
    | (intro x; refine Kept.viaVar y x ?_ ?_; (on_goal 1 => try dsimp -zeta only [x]); (on_goal 2 => clear_value x; intro _))
    | (intro x; clear_value x) | (intro y; try dsimp -zeta only) | lift_lets | apply Kept.refl | assumption
    | apply Kept.after (kept_dropMsg) | apply Kept.after (kept_landMsg) | apply Kept.after (kept_setClu) | split
    | (apply Kept.of_eq <;> rfl) | dsimp -zeta only

theorem kept_unitMessage {ni i : Nat} {s : State} : Kept s (unitMessage ni i s) := by
  unfold unitMessage
  revert s
  all_goals with_reducible repeat' first
    | (intro x; refine Kept.viaVar y x ?_ ?_; (on_goal 1 => try dsimp -zeta only [x]); (on_goal 2 => clear_value x; intro _))
    | (intro x; clear_value x) | (intro y; try dsimp -zeta only) | lift_lets | apply Kept.refl | assumption
    | apply Kept.after (kept_takeArrived _ _ (by assumption)) | apply Kept.after (kept_emit)
    | apply Kept.after (kept_engMessage) | apply Kept.after (kept_dropMsg)
    | apply Kept.after (Kept.of_pair (by assumption) (kept_checkParity)) | apply Kept.after (kept_checkParity) | split
    | (apply Kept.of_eq <;> rfl) | dsimp -zeta only | dsimp only

theorem kept_execUnitMessageArrive {ni : Fin 46} {i : Nat} {s : State} : KeptBy s (execUnitMessageArrive ni i s) :=
  kept_live (fun _ => kept_unitMessage)

theorem kept_landFromHold {e : Nat} {s : State} : Kept s (landFromHold e s) := by
  unfold landFromHold
  revert s
  all_goals with_reducible repeat' first
    | (intro x; refine Kept.viaVar y x ?_ ?_; (on_goal 1 => try dsimp -zeta only [x]); (on_goal 2 => clear_value x; intro _))
    | (intro x; clear_value x) | (intro y; try dsimp -zeta only) | lift_lets | apply Kept.refl | assumption
    | apply Kept.after (kept_landMsg) | apply Kept.after (kept_setClu) | split | (apply Kept.of_eq <;> rfl)
    | dsimp -zeta only | dsimp only

theorem kept_execUnitMessageLandFromHold {e : Fin 64} {s : State} : KeptBy s (execUnitMessageLandFromHold e s) :=
  kept_live (fun _ => kept_landFromHold)

theorem kept_runStart {c : Nat} {s : State} : Kept s (runStart c s) := by
  unfold runStart
  revert s
  all_goals with_reducible repeat' first
    | (intro x; refine Kept.viaVar y x ?_ ?_; (on_goal 1 => try dsimp -zeta only [x]); (on_goal 2 => clear_value x; intro _))
    | (intro x; clear_value x) | (intro y; try dsimp -zeta only) | lift_lets | apply Kept.refl | assumption
    | apply Kept.after (kept_fset) | apply Kept.after (kept_startInit) | apply Kept.after (kept_setClu) | split
    | (apply Kept.of_eq <;> rfl) | dsimp -zeta only

theorem kept_execPclRunStart {w : Writer} {c : Fin 8} {s : State} : KeptBy s (execPclRunStart w c s) := by
  unfold execPclRunStart
  refine kept_live ?_
  all_goals with_reducible repeat' first
    | intro _ | apply Kept.refl | apply Kept.after (kept_guarded ?_) | apply Kept.after (kept_runStart)

theorem kept_execPclRunStop {w : Writer} {c : Fin 8} {s : State} : KeptBy s (execPclRunStop w c s) := by
  unfold execPclRunStop
  refine kept_live ?_
  all_goals with_reducible repeat' first
    | intro _ | apply Kept.refl | apply Kept.after (kept_guarded ?_) | apply Kept.after (kept_fset)

theorem kept_execPclLimitsCommit {w : Writer} {c : Fin 8} {s : State} : KeptBy s (execPclLimitsCommit w c s) := by
  unfold execPclLimitsCommit
  refine kept_live ?_
  all_goals with_reducible repeat' first
    | intro _ | apply Kept.refl | apply Kept.after (kept_guarded ?_) | apply Kept.after (kept_commitRws)

theorem kept_restart {e : Nat} {s : State} : Kept s (restart e s) := by
  unfold restart
  revert s
  all_goals with_reducible repeat' first
    | (intro x; refine Kept.viaVar y x ?_ ?_; (on_goal 1 => try dsimp -zeta only [x]); (on_goal 2 => clear_value x; intro _))
    | (intro x; clear_value x) | (intro y; try dsimp -zeta only) | lift_lets | apply Kept.refl | assumption
    | apply Kept.after (kept_trace) | apply Kept.after (kept_setEng) | split | (apply Kept.of_eq <;> rfl)
    | dsimp -zeta only

theorem kept_execEngineRestart {w : Writer} {e : Fin 64} {s : State} : KeptBy s (execEngineRestart w e s) := by
  unfold execEngineRestart
  refine kept_live ?_
  all_goals with_reducible repeat' first
    | intro _ | apply Kept.refl | apply Kept.after (kept_guarded ?_) | apply Kept.after (kept_restart)

theorem kept_execEngineKick {w : Writer} {e : Fin 64} {s : State} : KeptBy s (execEngineKick w e s) := by
  unfold execEngineKick
  refine kept_live ?_
  all_goals with_reducible repeat' first
    | intro _ | apply Kept.refl | apply Kept.after (kept_guarded ?_) | apply Kept.after (kept_setEvt)

theorem kept_psWrite {p : Packet} {c : Nat} {v : BitVec 32} {s : State} : Kept s (psWrite p c v s) := by
  unfold psWrite
  revert s
  all_goals with_reducible repeat' first
    | (intro x; refine Kept.viaVar y x ?_ ?_; (on_goal 1 => try dsimp -zeta only [x]); (on_goal 2 => clear_value x; intro _))
    | (intro x; clear_value x) | (intro y; try dsimp -zeta only) | lift_lets | apply Kept.refl | assumption
    | apply Kept.after (kept_busyMgc) | apply Kept.after (kept_setPsWord) | apply Kept.after (kept_setPsEccAt)
    | apply Kept.after (kept_fset) | apply Kept.after (kept_setClu) | split | (apply Kept.of_eq <;> rfl)
    | dsimp -zeta only

theorem kept_execPsDataWrite {w : Writer} {c : Fin 8} {value : BitVec 32} {s : State} : KeptBy s (execPsDataWrite w c value s) := by
  unfold execPsDataWrite
  refine kept_live ?_
  all_goals with_reducible repeat' first
    | intro _ | apply Kept.refl | apply Kept.after (kept_guardedP ?_) | apply Kept.after (kept_psWrite)

theorem kept_psRead {w : Writer} {c : Nat} {s : State} : Kept s (psRead w c s) := by
  unfold psRead
  revert s
  all_goals with_reducible repeat' first
    | (intro x; refine Kept.viaVar y x ?_ ?_; (on_goal 1 => try dsimp -zeta only [x]); (on_goal 2 => clear_value x; intro _))
    | (intro x; clear_value x) | (intro y; try dsimp -zeta only) | lift_lets | apply Kept.refl | assumption
    | apply Kept.after (kept_psUeRecord) | apply Kept.after (kept_psCorrect) | apply Kept.after (kept_emit) | split
    | (apply Kept.of_eq <;> rfl) | dsimp -zeta only | dsimp only

theorem kept_execPsDataRead {w : Writer} {c : Fin 8} {s : State} : KeptBy s (execPsDataRead w c s) :=
  kept_live (fun _ => kept_psRead)

/-! ## SorefCompute -/

theorem kept_setFlags {e f : Nat} {s : State} : Kept s (setFlags e f s) := by
  unfold setFlags
  all_goals with_reducible repeat' first
    | apply Kept.refl | apply Kept.after (kept_setEng) | (apply Kept.of_eq <;> rfl)

theorem kept_resultF {rd : Fin 32} {r : Word} {f : Nat} {e : Nat} {s : State} : Kept s (resultF rd r f e s) := by
  unfold resultF
  all_goals with_reducible repeat' first
    | apply Kept.refl | apply Kept.after (kept_finish) | apply Kept.after (kept_setFlags)
    | apply Kept.after (kept_setGr)

theorem kept_flagsOnly {f : Nat} {e : Nat} {s : State} : Kept s (flagsOnly f e s) := by
  unfold flagsOnly
  all_goals with_reducible repeat' first
    | apply Kept.refl | apply Kept.after (kept_finish) | apply Kept.after (kept_setFlags)

theorem kept_result {rd : Fin 32} {r : Word} {e : Nat} {s : State} : Kept s (result rd r e s) := by
  unfold result
  all_goals with_reducible repeat' first
    | apply Kept.refl | apply Kept.after (kept_finish) | apply Kept.after (kept_setGr)

theorem kept_reg2 {ra rb : Fin 32} {f : Word → Word → Nat → State → State} {e : Nat} {s : State} (h0 : ∀ a0 a1 a2 y, Kept y (f a0 a1 a2 y)) : Kept s (reg2 ra rb f e s) := by
  unfold reg2
  all_goals with_reducible repeat' first
    | intro _ | apply Kept.refl | assumption | apply Kept.after (h0 _ _ _ _)

theorem kept_reg1 {ra : Fin 32} {f : Word → Nat → State → State} {e : Nat} {s : State} (h0 : ∀ a0 a1 y, Kept y (f a0 a1 y)) : Kept s (reg1 ra f e s) := by
  unfold reg1
  all_goals with_reducible repeat' first
    | intro _ | apply Kept.refl | assumption | apply Kept.after (h0 _ _ _)

theorem kept_addOp {rd : Fin 32} {a b : Word} {z : Nat} {s : State} : Kept s (addOp rd a b z s) := by
  unfold addOp
  all_goals with_reducible repeat' first | apply Kept.refl | apply Kept.after (kept_resultF)

theorem kept_subOp {rd : Fin 32} {a b : Word} {z : Nat} {s : State} : Kept s (subOp rd a b z s) := by
  unfold subOp
  all_goals with_reducible repeat' first | apply Kept.refl | apply Kept.after (kept_resultF)

theorem kept_logicOp {rd : Fin 32} {r : Word} {z : Nat} {s : State} : Kept s (logicOp rd r z s) := by
  unfold logicOp
  all_goals with_reducible repeat' first | apply Kept.refl | apply Kept.after (kept_resultF)

theorem kept_sllOp {rd : Fin 32} {a : Word} {n : Nat} {e : Nat} {s : State} : Kept s (sllOp rd a n e s) := by
  unfold sllOp
  all_goals with_reducible repeat' first | apply Kept.refl | apply Kept.after (kept_resultF)

theorem kept_srlOp {rd : Fin 32} {a : Word} {n : Nat} {e : Nat} {s : State} : Kept s (srlOp rd a n e s) := by
  unfold srlOp
  all_goals with_reducible repeat' first | apply Kept.refl | apply Kept.after (kept_resultF)

theorem kept_sraOp {rd : Fin 32} {a : Word} {n : Nat} {e : Nat} {s : State} : Kept s (sraOp rd a n e s) := by
  unfold sraOp
  all_goals with_reducible repeat' first | apply Kept.refl | apply Kept.after (kept_resultF)

theorem kept_znOp {rd : Fin 32} {r : Word} {e : Nat} {s : State} : Kept s (znOp rd r e s) := by
  unfold znOp
  all_goals with_reducible repeat' first | apply Kept.refl | apply Kept.after (kept_resultF)

theorem kept_execAdd {e : Fin 64} {rd ra rb : Fin 32} {s : State} : KeptBy s (execAdd e rd ra rb s) := by
  unfold execAdd
  refine kept_soref ?_
  all_goals with_reducible repeat' first
    | intro _ | apply Kept.refl | apply Kept.after (kept_reg2 ?_) | apply Kept.after (kept_addOp)

theorem kept_execSub {e : Fin 64} {rd ra rb : Fin 32} {s : State} : KeptBy s (execSub e rd ra rb s) := by
  unfold execSub
  refine kept_soref ?_
  all_goals with_reducible repeat' first
    | intro _ | apply Kept.refl | apply Kept.after (kept_reg2 ?_) | apply Kept.after (kept_subOp)

theorem kept_execAnd {e : Fin 64} {rd ra rb : Fin 32} {s : State} : KeptBy s (execAnd e rd ra rb s) := by
  unfold execAnd
  refine kept_soref ?_
  all_goals with_reducible repeat' first
    | intro _ | apply Kept.refl | apply Kept.after (kept_reg2 ?_) | apply Kept.after (kept_logicOp)

theorem kept_execOr {e : Fin 64} {rd ra rb : Fin 32} {s : State} : KeptBy s (execOr e rd ra rb s) := by
  unfold execOr
  refine kept_soref ?_
  all_goals with_reducible repeat' first
    | intro _ | apply Kept.refl | apply Kept.after (kept_reg2 ?_) | apply Kept.after (kept_logicOp)

theorem kept_execXor {e : Fin 64} {rd ra rb : Fin 32} {s : State} : KeptBy s (execXor e rd ra rb s) := by
  unfold execXor
  refine kept_soref ?_
  all_goals with_reducible repeat' first
    | intro _ | apply Kept.refl | apply Kept.after (kept_reg2 ?_) | apply Kept.after (kept_logicOp)

theorem kept_execAndn {e : Fin 64} {rd ra rb : Fin 32} {s : State} : KeptBy s (execAndn e rd ra rb s) := by
  unfold execAndn
  refine kept_soref ?_
  all_goals with_reducible repeat' first
    | intro _ | apply Kept.refl | apply Kept.after (kept_reg2 ?_) | apply Kept.after (kept_logicOp)

theorem kept_execCmp {e : Fin 64} {ra rb : Fin 32} {s : State} : KeptBy s (execCmp e ra rb s) := by
  unfold execCmp
  refine kept_soref ?_
  all_goals with_reducible repeat' first
    | intro _ | apply Kept.refl | apply Kept.after (kept_reg2 ?_) | apply Kept.after (kept_flagsOnly)

theorem kept_execTst {e : Fin 64} {ra rb : Fin 32} {s : State} : KeptBy s (execTst e ra rb s) := by
  unfold execTst
  refine kept_soref ?_
  all_goals with_reducible repeat' first
    | intro _ | apply Kept.refl | apply Kept.after (kept_reg2 ?_) | apply Kept.after (kept_flagsOnly)

theorem kept_execSll {e : Fin 64} {rd ra rb : Fin 32} {s : State} : KeptBy s (execSll e rd ra rb s) := by
  unfold execSll
  refine kept_soref ?_
  all_goals with_reducible repeat' first
    | intro _ | apply Kept.refl | apply Kept.after (kept_reg2 ?_) | apply Kept.after (kept_sllOp)

theorem kept_execSrl {e : Fin 64} {rd ra rb : Fin 32} {s : State} : KeptBy s (execSrl e rd ra rb s) := by
  unfold execSrl
  refine kept_soref ?_
  all_goals with_reducible repeat' first
    | intro _ | apply Kept.refl | apply Kept.after (kept_reg2 ?_) | apply Kept.after (kept_srlOp)

theorem kept_execSra {e : Fin 64} {rd ra rb : Fin 32} {s : State} : KeptBy s (execSra e rd ra rb s) := by
  unfold execSra
  refine kept_soref ?_
  all_goals with_reducible repeat' first
    | intro _ | apply Kept.refl | apply Kept.after (kept_reg2 ?_) | apply Kept.after (kept_sraOp)

theorem kept_execMul {e : Fin 64} {rd ra rb : Fin 32} {s : State} : KeptBy s (execMul e rd ra rb s) := by
  unfold execMul
  refine kept_soref ?_
  all_goals with_reducible repeat' first
    | intro _ | apply Kept.refl | apply Kept.after (kept_reg2 ?_) | apply Kept.after (kept_znOp)

theorem kept_execMulhu {e : Fin 64} {rd ra rb : Fin 32} {s : State} : KeptBy s (execMulhu e rd ra rb s) := by
  unfold execMulhu
  refine kept_soref ?_
  all_goals with_reducible repeat' first
    | intro _ | apply Kept.refl | apply Kept.after (kept_reg2 ?_) | apply Kept.after (kept_znOp)

theorem kept_execClz {e : Fin 64} {rd ra : Fin 32} {s : State} : KeptBy s (execClz e rd ra s) := by
  unfold execClz
  refine kept_soref ?_
  all_goals with_reducible repeat' first
    | intro _ | apply Kept.refl | apply Kept.after (kept_reg1 ?_) | apply Kept.after (kept_znOp)

theorem kept_execAddi {e : Fin 64} {rd ra : Fin 32} {imm : BitVec 12} {s : State} : KeptBy s (execAddi e rd ra imm s) := by
  unfold execAddi
  refine kept_soref ?_
  all_goals with_reducible repeat' first
    | intro _ | apply Kept.refl | apply Kept.after (kept_reg1 ?_) | apply Kept.after (kept_addOp)

theorem kept_execAndi {e : Fin 64} {rd ra : Fin 32} {imm : BitVec 12} {s : State} : KeptBy s (execAndi e rd ra imm s) := by
  unfold execAndi
  refine kept_soref ?_
  all_goals with_reducible repeat' first
    | intro _ | apply Kept.refl | apply Kept.after (kept_reg1 ?_) | apply Kept.after (kept_logicOp)

theorem kept_execOri {e : Fin 64} {rd ra : Fin 32} {imm : BitVec 12} {s : State} : KeptBy s (execOri e rd ra imm s) := by
  unfold execOri
  refine kept_soref ?_
  all_goals with_reducible repeat' first
    | intro _ | apply Kept.refl | apply Kept.after (kept_reg1 ?_) | apply Kept.after (kept_logicOp)

theorem kept_execXori {e : Fin 64} {rd ra : Fin 32} {imm : BitVec 12} {s : State} : KeptBy s (execXori e rd ra imm s) := by
  unfold execXori
  refine kept_soref ?_
  all_goals with_reducible repeat' first
    | intro _ | apply Kept.refl | apply Kept.after (kept_reg1 ?_) | apply Kept.after (kept_logicOp)

theorem kept_execSlli {e : Fin 64} {rd ra : Fin 32} {n : BitVec 6} {s : State} : KeptBy s (execSlli e rd ra n s) := by
  unfold execSlli
  refine kept_soref ?_
  all_goals with_reducible repeat' first
    | intro _ | apply Kept.refl | apply Kept.after (kept_reg1 ?_) | apply Kept.after (kept_sllOp)

theorem kept_execSrli {e : Fin 64} {rd ra : Fin 32} {n : BitVec 6} {s : State} : KeptBy s (execSrli e rd ra n s) := by
  unfold execSrli
  refine kept_soref ?_
  all_goals with_reducible repeat' first
    | intro _ | apply Kept.refl | apply Kept.after (kept_reg1 ?_) | apply Kept.after (kept_srlOp)

theorem kept_execSrai {e : Fin 64} {rd ra : Fin 32} {n : BitVec 6} {s : State} : KeptBy s (execSrai e rd ra n s) := by
  unfold execSrai
  refine kept_soref ?_
  all_goals with_reducible repeat' first
    | intro _ | apply Kept.refl | apply Kept.after (kept_reg1 ?_) | apply Kept.after (kept_sraOp)

theorem kept_execCmpi {e : Fin 64} {ra : Fin 32} {imm : BitVec 12} {s : State} : KeptBy s (execCmpi e ra imm s) := by
  unfold execCmpi
  refine kept_soref ?_
  all_goals with_reducible repeat' first
    | intro _ | apply Kept.refl | apply Kept.after (kept_reg1 ?_) | apply Kept.after (kept_flagsOnly)

theorem kept_execTsti {e : Fin 64} {ra : Fin 32} {imm : BitVec 12} {s : State} : KeptBy s (execTsti e ra imm s) := by
  unfold execTsti
  refine kept_soref ?_
  all_goals with_reducible repeat' first
    | intro _ | apply Kept.refl | apply Kept.after (kept_reg1 ?_) | apply Kept.after (kept_flagsOnly)

theorem kept_liOp {rd : Fin 32} {v : Word} {e : Nat} {s : State} : Kept s (liOp rd v e s) := by
  unfold liOp
  all_goals with_reducible repeat' first
    | apply Kept.refl | apply Kept.after (kept_finishL) | apply Kept.after (kept_setGr)

theorem kept_addlOp {rd : Fin 32} {v a : Word} {e : Nat} {s : State} : Kept s (addlOp rd v a e s) := by
  unfold addlOp
  all_goals with_reducible repeat' first
    | apply Kept.refl | apply Kept.after (kept_finishL) | apply Kept.after (kept_setFlags)
    | apply Kept.after (kept_setGr)

theorem kept_cmplOp {v a : Word} {e : Nat} {s : State} : Kept s (cmplOp v a e s) := by
  unfold cmplOp
  all_goals with_reducible repeat' first
    | apply Kept.refl | apply Kept.after (kept_finishL) | apply Kept.after (kept_setFlags)

theorem kept_orhOp {rd : Fin 32} {imm : BitVec 32} {a : Word} {e : Nat} {s : State} : Kept s (orhOp rd imm a e s) := by
  unfold orhOp
  all_goals with_reducible repeat' first
    | apply Kept.refl | apply Kept.after (kept_finishL) | apply Kept.after (kept_setGr)

theorem kept_execLi {e : Fin 64} {rd : Fin 32} {imm : BitVec 44} {s : State} : KeptBy s (execLi e rd imm s) := by
  unfold execLi
  refine kept_soref ?_
  all_goals with_reducible repeat' first | intro _ | apply Kept.refl | apply Kept.after (kept_liOp)

theorem kept_execAddl {e : Fin 64} {rd ra : Fin 32} {imm : BitVec 44} {s : State} : KeptBy s (execAddl e rd ra imm s) := by
  unfold execAddl
  refine kept_soref ?_
  all_goals with_reducible repeat' first
    | intro _ | apply Kept.refl | apply Kept.after (kept_reg1 ?_) | apply Kept.after (kept_addlOp)

theorem kept_execOrh {e : Fin 64} {rd ra : Fin 32} {imm : BitVec 32} {s : State} : KeptBy s (execOrh e rd ra imm s) := by
  unfold execOrh
  refine kept_soref ?_
  all_goals with_reducible repeat' first
    | intro _ | apply Kept.refl | apply Kept.after (kept_reg1 ?_) | apply Kept.after (kept_orhOp)

theorem kept_execCmpl {e : Fin 64} {ra : Fin 32} {imm : BitVec 44} {s : State} : KeptBy s (execCmpl e ra imm s) := by
  unfold execCmpl
  refine kept_soref ?_
  all_goals with_reducible repeat' first
    | intro _ | apply Kept.refl | apply Kept.after (kept_reg1 ?_) | apply Kept.after (kept_cmplOp)

theorem kept_pushPc {e : Nat} {s : State} : Kept s (pushPc e s) := by
  unfold pushPc
  revert s
  all_goals with_reducible repeat' first
    | (intro x; refine Kept.viaVar y x ?_ ?_; (on_goal 1 => try dsimp -zeta only [x]); (on_goal 2 => clear_value x; intro _))
    | (intro x; clear_value x) | (intro y; try dsimp -zeta only) | lift_lets | apply Kept.refl | assumption
    | apply Kept.after (kept_setEng) | (apply Kept.of_eq <;> rfl) | dsimp -zeta only

theorem kept_jumpTo {call : Bool} {t : Int} {e : Nat} {s : State} : Kept s (jumpTo call t e s) := by
  unfold jumpTo
  all_goals with_reducible repeat' first
    | intro _ | apply Kept.refl | assumption | apply Kept.after (kept_raiseFault) | apply Kept.after (kept_finishAt)
    | apply Kept.after (kept_when ?_) | apply Kept.after (kept_pushPc) | split

theorem kept_branchOp {call : Bool} {c : Cond} {off : BitVec 20} {e : Nat} {s : State} : Kept s (branchOp call c off e s) := by
  unfold branchOp
  all_goals with_reducible repeat' first
    | apply Kept.refl | assumption | apply Kept.after (kept_jumpTo) | apply Kept.after (kept_finish) | split

theorem kept_retOp {e : Nat} {s : State} : Kept s (retOp e s) := by
  unfold retOp
  revert s
  all_goals with_reducible repeat' first
    | (intro x; refine Kept.viaVar y x ?_ ?_; (on_goal 1 => try dsimp -zeta only [x]); (on_goal 2 => clear_value x; intro _))
    | (intro x; clear_value x) | (intro y; try dsimp -zeta only) | lift_lets | apply Kept.refl | assumption
    | apply Kept.after (kept_raiseFault) | apply Kept.after (kept_finishAt) | apply Kept.after (kept_setEng) | split
    | (apply Kept.of_eq <;> rfl) | dsimp -zeta only | dsimp only

theorem kept_execBCc {e : Fin 64} {cond : Cond} {off : BitVec 20} {s : State} : KeptBy s (execBCc e cond off s) := by
  unfold execBCc
  refine kept_soref ?_
  all_goals with_reducible repeat' first | intro _ | apply Kept.refl | apply Kept.after (kept_branchOp)

theorem kept_execCallCc {e : Fin 64} {cond : Cond} {off : BitVec 20} {s : State} : KeptBy s (execCallCc e cond off s) := by
  unfold execCallCc
  refine kept_soref ?_
  all_goals with_reducible repeat' first | intro _ | apply Kept.refl | apply Kept.after (kept_branchOp)

theorem kept_execJr {e : Fin 64} {ra : Fin 32} {s : State} : KeptBy s (execJr e ra s) := by
  unfold execJr
  refine kept_soref ?_
  all_goals with_reducible repeat' first
    | intro _ | apply Kept.refl | apply Kept.after (kept_reg1 ?_) | apply Kept.after (kept_jumpTo)

theorem kept_execCallr {e : Fin 64} {ra : Fin 32} {s : State} : KeptBy s (execCallr e ra s) := by
  unfold execCallr
  refine kept_soref ?_
  all_goals with_reducible repeat' first
    | intro _ | apply Kept.refl | apply Kept.after (kept_reg1 ?_) | apply Kept.after (kept_jumpTo)

theorem kept_execRet {e : Fin 64} {s : State} : KeptBy s (execRet e s) := by
  unfold execRet
  refine kept_soref ?_
  all_goals with_reducible repeat' first | intro _ | apply Kept.refl | apply Kept.after (kept_retOp)

theorem kept_putSreg {e n : Nat} {v : Word} {s : State} : Kept s (putSreg e n v s) := by
  unfold putSreg
  revert s
  all_goals with_reducible repeat' first
    | (intro x; refine Kept.viaVar y x ?_ ?_; (on_goal 1 => try dsimp -zeta only [x]); (on_goal 2 => clear_value x; intro _))
    | (intro x; clear_value x) | (intro y; try dsimp -zeta only) | lift_lets
    | (apply Kept.set_fn <;> first | assumption | apply Kept.refl) | apply Kept.refl | assumption
    | apply Kept.after (kept_setEng) | split | (apply Kept.of_eq <;> rfl) | dsimp -zeta only | dsimp only

theorem kept_clearEvt {e : Nat} {v : Word} {s : State} : Kept s (clearEvt e v s) := by
  unfold clearEvt
  revert s
  all_goals with_reducible repeat' first
    | (intro x; refine Kept.viaVar y x ?_ ?_; (on_goal 1 => try dsimp -zeta only [x]); (on_goal 2 => clear_value x; intro _))
    | (intro x; clear_value x) | (intro y; try dsimp -zeta only) | lift_lets | apply Kept.refl | assumption
    | apply Kept.after (kept_setEng) | (apply Kept.of_eq <;> rfl) | dsimp -zeta only

theorem kept_srdOp {rd : Fin 32} {n : Nat} {e : Nat} {s : State} : Kept s (srdOp rd n e s) := by
  unfold srdOp
  all_goals with_reducible repeat' first
    | apply Kept.refl | apply Kept.after (kept_finish) | apply Kept.after (kept_setGr)

theorem kept_swrOp {n : Nat} {a : Word} {e : Nat} {s : State} : Kept s (swrOp n a e s) := by
  unfold swrOp
  all_goals with_reducible repeat' first
    | apply Kept.refl | assumption | apply Kept.after (kept_finish) | apply Kept.after (kept_clearEvt)
    | apply Kept.after (kept_putSreg) | apply Kept.after (kept_raiseFault) | split

theorem kept_sbiOp {f : Word → Word → Word} {n : Nat} {a : Word} {e : Nat} {s : State} : Kept s (sbiOp f n a e s) := by
  unfold sbiOp
  all_goals with_reducible repeat' first
    | apply Kept.refl | assumption | apply Kept.after (kept_finish) | apply Kept.after (kept_putSreg)
    | apply Kept.after (kept_raiseFault) | split

theorem kept_execSrd {e : Fin 64} {rd : Fin 32} {sreg : BitVec 8} {s : State} : KeptBy s (execSrd e rd sreg s) := by
  unfold execSrd
  refine kept_soref ?_
  all_goals with_reducible repeat' first | intro _ | apply Kept.refl | apply Kept.after (kept_srdOp)

theorem kept_execSwr {e : Fin 64} {ra : Fin 32} {sreg : BitVec 8} {s : State} : KeptBy s (execSwr e ra sreg s) := by
  unfold execSwr
  refine kept_soref ?_
  all_goals with_reducible repeat' first
    | intro _ | apply Kept.refl | apply Kept.after (kept_reg1 ?_) | apply Kept.after (kept_swrOp)

theorem kept_execSbis {e : Fin 64} {ra : Fin 32} {sreg : BitVec 8} {s : State} : KeptBy s (execSbis e ra sreg s) := by
  unfold execSbis
  refine kept_soref ?_
  all_goals with_reducible repeat' first
    | intro _ | apply Kept.refl | apply Kept.after (kept_reg1 ?_) | apply Kept.after (kept_sbiOp)

theorem kept_execSbic {e : Fin 64} {ra : Fin 32} {sreg : BitVec 8} {s : State} : KeptBy s (execSbic e ra sreg s) := by
  unfold execSbic
  refine kept_soref ?_
  all_goals with_reducible repeat' first
    | intro _ | apply Kept.refl | apply Kept.after (kept_reg1 ?_) | apply Kept.after (kept_sbiOp)

theorem kept_tdiffOp {rd : Fin 32} {a b : Word} {z : Nat} {s : State} : Kept s (tdiffOp rd a b z s) := by
  unfold tdiffOp
  all_goals with_reducible repeat' first | apply Kept.refl | apply Kept.after (kept_znOp)

theorem kept_tcmpOp {a b : Word} {e : Nat} {s : State} : Kept s (tcmpOp a b e s) := by
  unfold tcmpOp
  all_goals with_reducible repeat' first | apply Kept.refl | apply Kept.after (kept_flagsOnly)

theorem kept_execTdiff {e : Fin 64} {rd ra rb : Fin 32} {s : State} : KeptBy s (execTdiff e rd ra rb s) := by
  unfold execTdiff
  refine kept_soref ?_
  all_goals with_reducible repeat' first
    | intro _ | apply Kept.refl | apply Kept.after (kept_reg2 ?_) | apply Kept.after (kept_tdiffOp)

theorem kept_execTcmp {e : Fin 64} {ra rb : Fin 32} {s : State} : KeptBy s (execTcmp e ra rb s) := by
  unfold execTcmp
  refine kept_soref ?_
  all_goals with_reducible repeat' first
    | intro _ | apply Kept.refl | apply Kept.after (kept_reg2 ?_) | apply Kept.after (kept_tcmpOp)

/-! ## SorefMemory -/

theorem kept_rangeAlign {size a n : Nat} {e : Nat} {ok : State → State} {s : State} (h0 : ∀ y, Kept y (ok y)) : Kept s (rangeAlign size a n e ok s) := by
  unfold rangeAlign
  all_goals with_reducible repeat' first
    | intro _ | apply Kept.refl | assumption | apply Kept.after (kept_raiseFault) | apply Kept.after (h0 _) | split

theorem kept_ctlChecks {store wide : Bool} {a n : Nat} {e : Nat} {ok : State → State} {s : State} (h0 : ∀ y, Kept y (ok y)) : Kept s (ctlChecks store wide a n e ok s) := by
  unfold ctlChecks
  all_goals with_reducible repeat' first
    | intro _ | apply Kept.refl | assumption | apply Kept.after (kept_raiseFault)
    | apply Kept.after (kept_rangeAlign ?_) | apply Kept.after (h0 _) | split

theorem kept_ldxOp {w : LdWidth} {rd : Fin 32} {a : Nat} {e : Nat} {s : State} : Kept s (ldxOp w rd a e s) := by
  unfold ldxOp
  all_goals with_reducible repeat' first
    | intro _ | apply Kept.refl | assumption | apply Kept.after (kept_rangeAlign ?_)
    | apply Kept.after (kept_raiseFault) | apply Kept.after (kept_finish) | apply Kept.after (kept_setGr) | split

theorem kept_freeSlots {e a : Nat} {data : List Byte} {s : State} : Kept s (freeSlots e a data s) := by
  unfold freeSlots
  revert s
  all_goals with_reducible repeat' first
    | (intro x; refine Kept.viaVar y x ?_ ?_; (on_goal 1 => try dsimp -zeta only [x]); (on_goal 2 => clear_value x; intro _))
    | (intro x; clear_value x) | (intro y; try dsimp -zeta only) | lift_lets | apply Kept.refl | assumption
    | apply Kept.after (kept_forN ?_) | apply Kept.after (kept_setEng) | split | (apply Kept.of_eq <;> rfl)
    | dsimp -zeta only

theorem kept_stxOp {w : StWidth} {v : Word} {a : Nat} {e : Nat} {s : State} : Kept s (stxOp w v a e s) := by
  unfold stxOp
  revert s
  all_goals with_reducible repeat' first
    | (intro x; refine Kept.viaVar y x ?_ ?_; (on_goal 1 => try dsimp -zeta only [x]); (on_goal 2 => clear_value x; intro _))
    | (intro x; clear_value x) | (intro y; try dsimp -zeta only) | lift_lets | apply Kept.refl | assumption
    | apply Kept.after (kept_rangeAlign ?_) | apply Kept.after (kept_finish) | apply Kept.after (kept_freeSlots)
    | apply Kept.after (kept_scrWrite) | dsimp -zeta only

theorem kept_loadFrom {w : LdWidth} {rd : Fin 32} {asp dst a : Nat} {e : Nat} {s : State} : Kept s (loadFrom w rd asp dst a e s) := by
  unfold loadFrom
  all_goals with_reducible repeat' first
    | apply Kept.refl | assumption | apply Kept.after (kept_finish) | apply Kept.after (kept_setGr)
    | apply Kept.after (kept_block) | split

theorem kept_storeTo {w : StWidth} {v : Word} {asp dst a : Nat} {e : Nat} {s : State} : Kept s (storeTo w v asp dst a e s) := by
  unfold storeTo
  all_goals with_reducible repeat' first
    | apply Kept.refl | assumption | apply Kept.after (kept_finish) | apply Kept.after (kept_post) | split
    | (apply Kept.of_eq <;> rfl)

theorem kept_ldgOp {w : LdWidth} {rd : Fin 32} {a : Nat} {e : Nat} {s : State} : Kept s (ldgOp w rd a e s) := by
  unfold ldgOp
  all_goals with_reducible repeat' first
    | intro _ | apply Kept.refl | apply Kept.after (kept_rangeAlign ?_) | apply Kept.after (kept_loadFrom)

theorem kept_ldcOp {w : LdWidth} {rd : Fin 32} {a : Nat} {e : Nat} {s : State} : Kept s (ldcOp w rd a e s) := by
  unfold ldcOp
  all_goals with_reducible repeat' first
    | intro _ | apply Kept.refl | apply Kept.after (kept_ctlChecks ?_) | apply Kept.after (kept_loadFrom)

theorem kept_stgOp {w : StWidth} {v : Word} {a : Nat} {e : Nat} {s : State} : Kept s (stgOp w v a e s) := by
  unfold stgOp
  all_goals with_reducible repeat' first
    | intro _ | apply Kept.refl | apply Kept.after (kept_rangeAlign ?_) | apply Kept.after (kept_storeTo)

theorem kept_stcOp {w : StWidth} {v : Word} {a : Nat} {e : Nat} {s : State} : Kept s (stcOp w v a e s) := by
  unfold stcOp
  all_goals with_reducible repeat' first
    | intro _ | apply Kept.refl | apply Kept.after (kept_ctlChecks ?_) | apply Kept.after (kept_storeTo)

theorem kept_withAddr {ra : Fin 32} {imm : BitVec 12} {f : Nat → Nat → State → State} {e : Nat} {s : State} (h0 : ∀ a0 a1 y, Kept y (f a0 a1 y)) : Kept s (withAddr ra imm f e s) := by
  unfold withAddr
  all_goals with_reducible repeat' first
    | intro _ | apply Kept.refl | assumption | apply Kept.after (h0 _ _ _)

theorem kept_withStore {rs ra : Fin 32} {imm : BitVec 12} {f : Word → Nat → Nat → State → State} {e : Nat} {s : State} (h0 : ∀ a0 a1 a2 y, Kept y (f a0 a1 a2 y)) : Kept s (withStore rs ra imm f e s) := by
  unfold withStore
  all_goals with_reducible repeat' first
    | intro _ | apply Kept.refl | assumption | apply Kept.after (h0 _ _ _ _)

theorem kept_execLdx {e : Fin 64} {w : LdWidth} {rd ra : Fin 32} {imm : BitVec 12} {s : State} : KeptBy s (execLdx e w rd ra imm s) := by
  unfold execLdx
  refine kept_soref ?_
  all_goals with_reducible repeat' first
    | intro _ | apply Kept.refl | apply Kept.after (kept_withAddr ?_) | apply Kept.after (kept_ldxOp)

theorem kept_execLdg {e : Fin 64} {w : LdWidth} {rd ra : Fin 32} {imm : BitVec 12} {s : State} : KeptBy s (execLdg e w rd ra imm s) := by
  unfold execLdg
  refine kept_soref ?_
  all_goals with_reducible repeat' first
    | intro _ | apply Kept.refl | apply Kept.after (kept_withAddr ?_) | apply Kept.after (kept_ldgOp)

theorem kept_execLdc {e : Fin 64} {w : LdWidth} {rd ra : Fin 32} {imm : BitVec 12} {s : State} : KeptBy s (execLdc e w rd ra imm s) := by
  unfold execLdc
  refine kept_soref ?_
  all_goals with_reducible repeat' first
    | intro _ | apply Kept.refl | apply Kept.after (kept_withAddr ?_) | apply Kept.after (kept_ldcOp)

theorem kept_execStx {e : Fin 64} {w : StWidth} {rs ra : Fin 32} {imm : BitVec 12} {s : State} : KeptBy s (execStx e w rs ra imm s) := by
  unfold execStx
  refine kept_soref ?_
  all_goals with_reducible repeat' first
    | intro _ | apply Kept.refl | apply Kept.after (kept_withStore ?_) | apply Kept.after (kept_stxOp)

theorem kept_execStg {e : Fin 64} {w : StWidth} {rs ra : Fin 32} {imm : BitVec 12} {s : State} : KeptBy s (execStg e w rs ra imm s) := by
  unfold execStg
  refine kept_soref ?_
  all_goals with_reducible repeat' first
    | intro _ | apply Kept.refl | apply Kept.after (kept_withStore ?_) | apply Kept.after (kept_stgOp)

theorem kept_execStc {e : Fin 64} {w : StWidth} {rs ra : Fin 32} {imm : BitVec 12} {s : State} : KeptBy s (execStc e w rs ra imm s) := by
  unfold execStc
  refine kept_soref ?_
  all_goals with_reducible repeat' first
    | intro _ | apply Kept.refl | apply Kept.after (kept_withStore ?_) | apply Kept.after (kept_stcOp)

theorem kept_atomOp {ty : Nat} {d : Bool} {rd : Fin 32} {a : Nat} {vals : List Word} {e : Nat} {s : State} : Kept s (atomOp ty d rd a vals e s) := by
  unfold atomOp
  revert s
  all_goals with_reducible repeat' first
    | (intro x; refine Kept.viaVar y x ?_ ?_; (on_goal 1 => try dsimp -zeta only [x]); (on_goal 2 => clear_value x; intro _))
    | (intro x; clear_value x) | (intro y; try dsimp -zeta only) | lift_lets | apply Kept.refl | assumption
    | apply Kept.after (kept_rangeAlign ?_) | apply Kept.after (kept_finish) | apply Kept.after (kept_setGr)
    | apply Kept.after (kept_block) | split | (apply Kept.of_eq <;> rfl) | dsimp -zeta only

theorem kept_execFadd {e : Fin 64} {d : Bool} {rd ra rb : Fin 32} {s : State} : KeptBy s (execFadd e d rd ra rb s) := by
  unfold execFadd
  refine kept_soref ?_
  all_goals with_reducible repeat' first
    | intro _ | apply Kept.refl | apply Kept.after (kept_reg2 ?_) | apply Kept.after (kept_atomOp)

theorem kept_execSwp {e : Fin 64} {d : Bool} {rd ra rb : Fin 32} {s : State} : KeptBy s (execSwp e d rd ra rb s) := by
  unfold execSwp
  refine kept_soref ?_
  all_goals with_reducible repeat' first
    | intro _ | apply Kept.refl | apply Kept.after (kept_reg2 ?_) | apply Kept.after (kept_atomOp)

theorem kept_execCas {e : Fin 64} {d : Bool} {rd ra rb : Fin 32} {s : State} : KeptBy s (execCas e d rd ra rb s) := by
  unfold execCas
  refine kept_soref ?_
  all_goals with_reducible repeat' first
    | intro _ | apply Kept.refl | apply Kept.after (kept_reg2 ?_) | apply Kept.after (kept_reg1 ?_)
    | apply Kept.after (kept_atomOp)

/-! ## Mover -/

theorem kept_moverSend {c : Nat} {p : Packet} {s : State} : Kept s (moverSend c p s) := by
  unfold moverSend
  all_goals with_reducible repeat' first
    | apply Kept.refl | apply Kept.after (kept_request) | (apply Kept.of_eq <;> rfl)

theorem kept_askBanks {key : Nat} {s : State} : Kept s (askBanks key s) := by
  unfold askBanks
  revert s
  all_goals with_reducible repeat' first
    | (intro x; refine Kept.viaVar y x ?_ ?_; (on_goal 1 => try dsimp -zeta only [x]); (on_goal 2 => clear_value x; intro _))
    | (intro x; clear_value x) | (intro y; try dsimp -zeta only) | lift_lets | apply Kept.refl | assumption
    | apply Kept.after (kept_forL ?_) | apply Kept.after (kept_moverSend) | apply Kept.after (kept_setCtx) | split
    | (apply Kept.of_eq <;> rfl) | dsimp -zeta only

theorem kept_readIssue {key : Nat} {s : State} : Kept s (readIssue key s) := by
  unfold readIssue
  revert s
  all_goals with_reducible repeat' first
    | (intro x; refine Kept.viaVar y x ?_ ?_; (on_goal 1 => try dsimp -zeta only [x]); (on_goal 2 => clear_value x; intro _))
    | (intro x; clear_value x) | (intro y; try dsimp -zeta only) | lift_lets | apply Kept.refl | assumption
    | apply Kept.after (kept_setCtx) | apply Kept.after (kept_moverSend) | split | (apply Kept.of_eq <;> rfl)
    | dsimp -zeta only

theorem kept_execMoverReadIssue {c : Fin 8} {k : Fin 512} {s : State} : KeptBy s (execMoverReadIssue c k s) := by
  unfold execMoverReadIssue
  refine kept_live ?_
  all_goals with_reducible repeat' first | intro _ | apply Kept.refl | apply Kept.after (kept_readIssue)

theorem kept_readComplete {c i : Nat} {s : State} : Kept s (readComplete c i s) := by
  unfold readComplete
  revert s
  all_goals with_reducible repeat' first
    | (intro x; refine Kept.viaVar y x ?_ ?_; (on_goal 1 => try dsimp -zeta only [x]); (on_goal 2 => clear_value x; intro _))
    | (intro x; clear_value x) | (intro y; try dsimp -zeta only) | lift_lets | apply Kept.refl | assumption
    | apply Kept.after (kept_takeArrived _ _ (by assumption)) | apply Kept.after (kept_setCtx)
    | apply Kept.after (kept_askBanks) | apply Kept.after (Kept.of_pair (by assumption) (kept_checkParity))
    | apply Kept.after (kept_checkParity) | split | (apply Kept.of_eq <;> rfl) | dsimp -zeta only | dsimp only

theorem kept_execMoverReadComplete {c : Fin 8} {i : Nat} {s : State} : KeptBy s (execMoverReadComplete c i s) :=
  kept_live (fun _ => kept_readComplete)

theorem kept_writeSend {key : Nat} {s : State} : Kept s (writeSend key s) := by
  unfold writeSend
  revert s
  all_goals with_reducible repeat' first
    | (intro x; refine Kept.viaVar y x ?_ ?_; (on_goal 1 => try dsimp -zeta only [x]); (on_goal 2 => clear_value x; intro _))
    | (intro x; clear_value x) | (intro y; try dsimp -zeta only) | lift_lets | apply Kept.refl | assumption
    | apply Kept.after (kept_askBanks) | apply Kept.after (kept_setCtx) | apply Kept.after (kept_scrWrite)
    | apply Kept.after (kept_moverSend) | apply Kept.after (kept_notePosted) | split | (apply Kept.of_eq <;> rfl)
    | dsimp -zeta only | dsimp only

theorem kept_execMoverWriteSend {c : Fin 8} {k : Fin 512} {s : State} : KeptBy s (execMoverWriteSend c k s) := by
  unfold execMoverWriteSend
  refine kept_live ?_
  all_goals with_reducible repeat' first | intro _ | apply Kept.refl | apply Kept.after (kept_writeSend)

theorem kept_ctxReleased {key : Nat} {ep discard : Bool} {s : State} : Kept s (ctxReleased key ep discard s) := by
  unfold ctxReleased
  revert s
  all_goals with_reducible repeat' first
    | (intro x; refine Kept.viaVar y x ?_ ?_; (on_goal 1 => try dsimp -zeta only [x]); (on_goal 2 => clear_value x; intro _))
    | (intro x; clear_value x) | (intro y; try dsimp -zeta only) | lift_lets | apply Kept.refl | assumption
    | apply Kept.after (kept_setCtx) | split | (apply Kept.of_eq <;> rfl) | dsimp -zeta only

theorem kept_undefRange {x : Ctx} {s : State} : Kept s (undefRange x s) := by
  unfold undefRange
  revert s
  all_goals with_reducible repeat' first
    | (intro x; refine Kept.viaVar y x ?_ ?_; (on_goal 1 => try dsimp -zeta only [x]); (on_goal 2 => clear_value x; intro _))
    | (intro x; dsimp -zeta only [x]; clear x) | (intro x; clear_value x) | (intro y; try dsimp -zeta only)
    | lift_lets | apply Kept.refl | assumption | apply Kept.after (kept_forN ?_) | apply Kept.after (kept_setByte)
    | apply Kept.after (kept_setScrByte) | apply Kept.after (Kept.of_pair (by assumption) (kept_takeFree))
    | apply Kept.after (kept_takeFree) | split | dsimp -zeta only

theorem kept_completeCtx {key : Nat} {s0 : State} : Kept s0 (completeCtx key s0) := by
  unfold completeCtx
  revert s0
  all_goals with_reducible repeat' first
    | (intro x; refine Kept.viaVar y x ?_ ?_; (on_goal 1 => try dsimp -zeta only [x]); (on_goal 2 => clear_value x; intro _))
    | (intro x; clear_value x) | (intro y; try dsimp -zeta only) | lift_lets | apply Kept.refl | assumption
    | apply Kept.after (kept_undefRange) | apply Kept.after (kept_setCtx) | apply Kept.after (kept_returnQid)
    | apply Kept.after (kept_setEvt) | apply Kept.after (kept_setEng) | split | (apply Kept.of_eq <;> rfl)
    | dsimp -zeta only

theorem kept_execContextComplete {c : Fin 8} {k : Fin 512} {s : State} : KeptBy s (execContextComplete c k s) := by
  unfold execContextComplete
  refine kept_live ?_
  all_goals with_reducible repeat' first
    | (intro x; refine Kept.viaVar y x ?_ ?_; (on_goal 1 => try dsimp -zeta only [x]); (on_goal 2 => clear_value x; intro _))
    | (intro x; clear_value x) | (intro y; try dsimp -zeta only) | lift_lets | apply Kept.refl | assumption
    | apply Kept.after (kept_completeCtx) | split | dsimp -zeta only

/-! ## SorefMove -/

theorem kept_moveOp {rd : Fin 32} {e : Nat} {s : State} : Kept s (moveOp rd e s) := by
  unfold moveOp
  revert s
  all_goals with_reducible repeat' first
    | (intro x; refine Kept.viaVar y x ?_ ?_; (on_goal 1 => try dsimp -zeta only [x]); (on_goal 2 => clear_value x; intro _))
    | (intro x; dsimp -zeta only [x]; clear x) | (intro x; clear_value x) | (intro y; try dsimp -zeta only)
    | lift_lets | apply Kept.refl | assumption | apply Kept.after (kept_finish) | apply Kept.after (kept_setGr)
    | apply Kept.after (kept_setClu) | apply Kept.after (kept_setCtx) | split | (apply Kept.of_eq <;> rfl)
    | dsimp -zeta only | dsimp only

theorem kept_execMove {e : Fin 64} {rd : Fin 32} {s : State} : KeptBy s (execMove e rd s) := by
  unfold execMove
  refine kept_soref ?_
  all_goals with_reducible repeat' first | intro _ | apply Kept.refl | apply Kept.after (kept_moveOp)

theorem kept_ctxackOp {rd : Fin 32} {e : Nat} {s : State} : Kept s (ctxackOp rd e s) := by
  unfold ctxackOp
  revert s
  all_goals with_reducible repeat' first
    | (intro x; refine Kept.viaVar y x ?_ ?_; (on_goal 1 => try dsimp -zeta only [x]); (on_goal 2 => clear_value x; intro _))
    | (intro x; clear_value x) | (intro y; try dsimp -zeta only) | lift_lets | apply Kept.refl | assumption
    | apply Kept.after (kept_finish) | apply Kept.after (kept_setGr) | apply Kept.after (kept_setCtx)
    | apply Kept.after (kept_setEng) | split | (apply Kept.of_eq <;> rfl) | dsimp -zeta only | dsimp only

theorem kept_execCtxack {e : Fin 64} {rd : Fin 32} {s : State} : KeptBy s (execCtxack e rd s) := by
  unfold execCtxack
  refine kept_soref ?_
  all_goals with_reducible repeat' first | intro _ | apply Kept.refl | apply Kept.after (kept_ctxackOp)

theorem kept_xltOp {rd : Fin 32} {xu : Nat} {a : Word} {e : Nat} {s : State} : Kept s (xltOp rd xu a e s) := by
  unfold xltOp
  all_goals with_reducible repeat' first
    | apply Kept.refl | assumption | apply Kept.after (kept_raiseFault) | apply Kept.after (kept_finish)
    | apply Kept.after (kept_setGr) | apply Kept.after (kept_block) | split | (apply Kept.of_eq <;> rfl)

theorem kept_drainOp {rd : Fin 32} {a : Word} {e : Nat} {s : State} : Kept s (drainOp rd a e s) := by
  unfold drainOp
  all_goals with_reducible repeat' first
    | apply Kept.refl | assumption | apply Kept.after (kept_raiseFault) | apply Kept.after (kept_finish)
    | apply Kept.after (kept_setGr) | apply Kept.after (kept_block) | apply Kept.after (kept_setEng) | split
    | (apply Kept.of_eq <;> rfl)

theorem kept_execXlt {e : Fin 64} {rd ra : Fin 32} {xu : Fin 4} {s : State} : KeptBy s (execXlt e rd ra xu s) := by
  unfold execXlt
  refine kept_soref ?_
  all_goals with_reducible repeat' first
    | intro _ | apply Kept.refl | apply Kept.after (kept_reg1 ?_) | apply Kept.after (kept_xltOp)

theorem kept_execXltDrain {e : Fin 64} {rd ra : Fin 32} {s : State} : KeptBy s (execXltDrain e rd ra s) := by
  unfold execXltDrain
  refine kept_soref ?_
  all_goals with_reducible repeat' first
    | intro _ | apply Kept.refl | apply Kept.after (kept_reg1 ?_) | apply Kept.after (kept_drainOp)

theorem kept_fmarkOp {e : Nat} {s : State} : Kept s (fmarkOp e s) := by
  unfold fmarkOp
  all_goals with_reducible repeat' first
    | apply Kept.refl | apply Kept.after (kept_finish) | apply Kept.after (kept_setEng) | (apply Kept.of_eq <;> rfl)

theorem kept_execFmark {e : Fin 64} {s : State} : KeptBy s (execFmark e s) := by
  unfold execFmark
  refine kept_soref ?_
  all_goals with_reducible repeat' first | intro _ | apply Kept.refl | apply Kept.after (kept_fmarkOp)

theorem kept_fenceDone {e rd : Nat} {dam refused : Bool} {s : State} : Kept s (fenceDone e rd dam refused s) := by
  unfold fenceDone
  revert s
  all_goals with_reducible repeat' first
    | (intro x; refine Kept.viaVar y x ?_ ?_; (on_goal 1 => try dsimp -zeta only [x]); (on_goal 2 => clear_value x; intro _))
    | (intro x; clear_value x) | (intro y; try dsimp -zeta only) | lift_lets | apply Kept.refl | assumption
    | apply Kept.after (kept_finish) | apply Kept.after (kept_setGr) | split | dsimp -zeta only

theorem kept_fenceOp {rd : Fin 32} {e : Nat} {s : State} : Kept s (fenceOp rd e s) := by
  unfold fenceOp
  revert s
  all_goals with_reducible repeat' first
    | (intro x; refine Kept.viaVar y x ?_ ?_; (on_goal 1 => try dsimp -zeta only [x]); (on_goal 2 => clear_value x; intro _))
    | (intro x; clear_value x) | (intro y; try dsimp -zeta only) | lift_lets | apply Kept.refl | assumption
    | apply Kept.after (kept_finish) | apply Kept.after (kept_setGr) | apply Kept.after (kept_setEng)
    | apply Kept.after (kept_fenceDone) | apply Kept.after (kept_forL ?_) | apply Kept.after (kept_engSend) | split
    | (apply Kept.of_eq <;> rfl) | dsimp -zeta only

theorem kept_execFenceP {e : Fin 64} {rd : Fin 32} {s : State} : KeptBy s (execFenceP e rd s) := by
  unfold execFenceP
  refine kept_soref ?_
  all_goals with_reducible repeat' first | intro _ | apply Kept.refl | apply Kept.after (kept_fenceOp)

theorem kept_execFencePAnswersDone {e : Fin 64} {s : State} : KeptBy s (execFencePAnswersDone e s) := by
  unfold execFencePAnswersDone
  refine kept_live ?_
  all_goals with_reducible repeat' first
    | intro _ | apply Kept.refl | assumption | apply Kept.after (kept_fenceDone) | split

theorem kept_lockCheck {w : LockWidth} {sp : LockSpace} {a : Nat} {e : Nat} {ok : LockTarget → State → State} {s : State} (h0 : ∀ a0 y, Kept y (ok a0 y)) : Kept s (lockCheck w sp a e ok s) := by
  unfold lockCheck
  revert s
  all_goals with_reducible repeat' first
    | (intro x; refine Kept.viaVar y x ?_ ?_; (on_goal 1 => try dsimp -zeta only [x]); (on_goal 2 => clear_value x; intro _))
    | (intro x; clear_value x) | (intro y; try dsimp -zeta only) | lift_lets | apply Kept.refl | assumption
    | apply Kept.after (kept_rangeAlign ?_) | apply Kept.after (kept_raiseFault) | apply Kept.after (h0 _ _) | split
    | (apply Kept.of_eq <;> rfl) | dsimp -zeta only | dsimp only

theorem kept_lockRefused {e n a : Nat} {t : LockTarget} {s : State} : Kept s (lockRefused e n a t s) := by
  unfold lockRefused
  revert s
  all_goals with_reducible repeat' first
    | (intro x; refine Kept.viaVar y x ?_ ?_; (on_goal 1 => try dsimp -zeta only [x]); (on_goal 2 => clear_value x; intro _))
    | (intro x; clear_value x) | (intro y; try dsimp -zeta only) | lift_lets | apply Kept.refl | assumption
    | apply Kept.after (kept_raiseFault) | apply Kept.after (kept_violPkt) | apply Kept.after (kept_fset)
    | dsimp -zeta only

theorem kept_lockOp {w : LockWidth} {sp : LockSpace} {rd : Fin 32} {a : Word} {e : Nat} {s : State} : Kept s (lockOp w sp rd a e s) := by
  unfold lockOp
  revert s
  all_goals with_reducible repeat' first
    | (intro x; refine Kept.viaVar y x ?_ ?_; (on_goal 1 => try dsimp -zeta only [x]); (on_goal 2 => clear_value x; intro _))
    | (intro x; clear_value x) | (intro y; try dsimp -zeta only) | lift_lets
    | (apply Kept.set_fn <;> first | assumption | apply Kept.refl) | apply Kept.refl | assumption
    | apply Kept.after (kept_lockCheck ?_) | apply Kept.after (kept_finish) | apply Kept.after (kept_setGrBytes)
    | apply Kept.after (kept_lockRefused) | apply Kept.after (kept_block) | apply Kept.after (kept_setClu) | split
    | (apply Kept.of_eq <;> rfl) | dsimp -zeta only

theorem kept_unlockOp {w : LockWidth} {sp : LockSpace} {rs : Fin 32} {a : Word} {e : Nat} {s : State} : Kept s (unlockOp w sp rs a e s) := by
  unfold unlockOp
  revert s
  all_goals with_reducible repeat' first
    | (intro x; refine Kept.viaVar y x ?_ ?_; (on_goal 1 => try dsimp -zeta only [x]); (on_goal 2 => clear_value x; intro _))
    | (intro x; clear_value x) | (intro y; try dsimp -zeta only) | lift_lets | apply Kept.refl | assumption
    | apply Kept.after (kept_lockCheck ?_) | apply Kept.after (kept_finish) | apply Kept.after (kept_pfr)
    | apply Kept.after (kept_post) | apply Kept.after (kept_setEng) | split | (apply Kept.of_eq <;> rfl)
    | dsimp -zeta only

theorem kept_execLock {e : Fin 64} {w : LockWidth} {sp : LockSpace} {rd ra : Fin 32} {s : State} : KeptBy s (execLock e w sp rd ra s) := by
  unfold execLock
  refine kept_soref ?_
  all_goals with_reducible repeat' first
    | intro _ | apply Kept.refl | apply Kept.after (kept_reg1 ?_) | apply Kept.after (kept_lockOp)

theorem kept_execUnlock {e : Fin 64} {w : LockWidth} {sp : LockSpace} {rs ra : Fin 32} {s : State} : KeptBy s (execUnlock e w sp rs ra s) := by
  unfold execUnlock
  refine kept_soref ?_
  all_goals with_reducible repeat' first
    | intro _ | apply Kept.refl | apply Kept.after (kept_reg1 ?_) | apply Kept.after (kept_unlockOp)

theorem kept_semOpInsn {op : Nat} {rd : Fin 32} {a : Word} {e : Nat} {s : State} : Kept s (semOpInsn op rd a e s) := by
  unfold semOpInsn
  all_goals with_reducible repeat' first
    | apply Kept.refl | assumption | apply Kept.after (kept_raiseFault) | apply Kept.after (kept_finish)
    | apply Kept.after (kept_setGr) | apply Kept.after (kept_block) | split | (apply Kept.of_eq <;> rfl)

theorem kept_execAcq {e : Fin 64} {rd : Fin 32} {num : BitVec 11} {s : State} : KeptBy s (execAcq e rd num s) := by
  unfold execAcq
  refine kept_soref ?_
  all_goals with_reducible repeat' first | intro _ | apply Kept.refl | apply Kept.after (kept_semOpInsn)

theorem kept_execRel {e : Fin 64} {rd : Fin 32} {num : BitVec 11} {s : State} : KeptBy s (execRel e rd num s) := by
  unfold execRel
  refine kept_soref ?_
  all_goals with_reducible repeat' first | intro _ | apply Kept.refl | apply Kept.after (kept_semOpInsn)

theorem kept_execAcqr {e : Fin 64} {rd ra : Fin 32} {s : State} : KeptBy s (execAcqr e rd ra s) := by
  unfold execAcqr
  refine kept_soref ?_
  all_goals with_reducible repeat' first
    | intro _ | apply Kept.refl | apply Kept.after (kept_reg1 ?_) | apply Kept.after (kept_semOpInsn)

theorem kept_execRelr {e : Fin 64} {rd ra : Fin 32} {s : State} : KeptBy s (execRelr e rd ra s) := by
  unfold execRelr
  refine kept_soref ?_
  all_goals with_reducible repeat' first
    | intro _ | apply Kept.refl | apply Kept.after (kept_reg1 ?_) | apply Kept.after (kept_semOpInsn)

theorem kept_umsgOp {u : Nat} {e : Nat} {s : State} : Kept s (umsgOp u e s) := by
  unfold umsgOp
  all_goals with_reducible repeat' first
    | intro _ | apply Kept.refl | assumption | apply Kept.after (kept_raiseFault) | apply Kept.after (kept_finish)
    | apply Kept.after (kept_post) | split | (apply Kept.of_eq <;> rfl)

theorem kept_execUmsg {e : Fin 64} {unit : BitVec 12} {s : State} : KeptBy s (execUmsg e unit s) := by
  unfold execUmsg
  refine kept_soref ?_
  all_goals with_reducible repeat' first | intro _ | apply Kept.refl | apply Kept.after (kept_umsgOp)

theorem kept_raiseOp {v : Word} {e : Nat} {s : State} : Kept s (raiseOp v e s) := by
  unfold raiseOp
  all_goals with_reducible repeat' first
    | apply Kept.refl | assumption | apply Kept.after (kept_raiseFault) | apply Kept.after (kept_finish)
    | apply Kept.after (kept_post) | split | (apply Kept.of_eq <;> rfl)

theorem kept_execRaise {e : Fin 64} {v : BitVec 11} {s : State} : KeptBy s (execRaise e v s) := by
  unfold execRaise
  refine kept_soref ?_
  all_goals with_reducible repeat' first | intro _ | apply Kept.refl | apply Kept.after (kept_raiseOp)

theorem kept_execRaiser {e : Fin 64} {ra : Fin 32} {s : State} : KeptBy s (execRaiser e ra s) := by
  unfold execRaiser
  refine kept_soref ?_
  all_goals with_reducible repeat' first
    | intro _ | apply Kept.refl | apply Kept.after (kept_reg1 ?_) | apply Kept.after (kept_raiseOp)

theorem kept_raisePresent {e : Nat} {s : State} : Kept s (raisePresent e s) := by
  unfold raisePresent
  all_goals with_reducible repeat' first
    | apply Kept.refl | assumption | apply Kept.after (kept_request) | apply Kept.after (kept_setEng) | split
    | (apply Kept.of_eq <;> rfl)

theorem kept_execRaiseRequestPresent {e : Fin 64} {s : State} : KeptBy s (execRaiseRequestPresent e s) :=
  kept_live (fun _ => kept_raisePresent)

theorem kept_stallResume {e : Nat} {s : State} : Kept s (stallResume e s) := by
  unfold stallResume
  revert s
  all_goals with_reducible repeat' first
    | (intro x; refine Kept.viaVar y x ?_ ?_; (on_goal 1 => try dsimp -zeta only [x]); (on_goal 2 => clear_value x; intro _))
    | (intro x; clear_value x) | (intro y; try dsimp -zeta only) | lift_lets | apply Kept.refl | assumption
    | apply Kept.after (kept_request) | apply Kept.after (kept_setEng) | apply Kept.after (kept_checkCut) | split
    | (apply Kept.of_eq <;> rfl) | dsimp -zeta only | dsimp only

theorem kept_execEngineStallResume {e : Fin 64} {s : State} : KeptBy s (execEngineStallResume e s) :=
  kept_live (fun _ => kept_stallResume)

theorem kept_refusedAccess {e : Nat} {s : State} : Kept s (refusedAccess e s) := by
  unfold refusedAccess
  all_goals with_reducible repeat' first
    | apply Kept.refl | assumption | apply Kept.after (kept_finish) | apply Kept.after (kept_setGr)
    | apply Kept.after (kept_setGrBytes) | apply Kept.after (kept_closeRecord) | split

theorem kept_goodReply {e : Nat} {p : Packet} {s : State} : Kept s (goodReply e p s) := by
  unfold goodReply
  revert s
  all_goals with_reducible repeat' first
    | (intro x; refine Kept.viaVar y x ?_ ?_; (on_goal 1 => try dsimp -zeta only [x]); (on_goal 2 => clear_value x; intro _))
    | (intro x; clear_value x) | (intro y; try dsimp -zeta only) | lift_lets | apply Kept.refl | assumption
    | apply Kept.after (kept_finish) | apply Kept.after (kept_setGr) | apply Kept.after (kept_setGrBytes)
    | apply Kept.after (kept_setEng) | split | (apply Kept.of_eq <;> rfl) | dsimp -zeta only | dsimp only

theorem kept_reply {e : Nat} {p : Packet} {s : State} : Kept s (reply e p s) := by
  unfold reply
  revert s
  all_goals with_reducible repeat' first
    | (intro x; refine Kept.viaVar y x ?_ ?_; (on_goal 1 => try dsimp -zeta only [x]); (on_goal 2 => clear_value x; intro _))
    | (intro x; clear_value x) | (intro y; try dsimp -zeta only) | lift_lets | apply Kept.refl | assumption
    | apply Kept.after (kept_finish) | apply Kept.after (kept_setGr) | apply Kept.after (kept_checkCut)
    | apply Kept.after (kept_raiseFault) | apply Kept.after (kept_goodReply) | apply Kept.after (kept_closeRecord)
    | split | (apply Kept.of_eq <;> rfl) | dsimp -zeta only | dsimp only

theorem kept_engineReply {e i : Nat} {s : State} : Kept s (engineReply e i s) := by
  unfold engineReply
  revert s
  all_goals with_reducible repeat' first
    | (intro x; refine Kept.viaVar y x ?_ ?_; (on_goal 1 => try dsimp -zeta only [x]); (on_goal 2 => clear_value x; intro _))
    | (intro x; clear_value x) | (intro y; try dsimp -zeta only) | lift_lets | apply Kept.refl | assumption
    | apply Kept.after (kept_takeArrived _ _ (by assumption)) | apply Kept.after (kept_setEng)
    | apply Kept.after (kept_refusedAccess) | apply Kept.after (kept_reply)
    | apply Kept.after (Kept.of_pair (by assumption) (kept_checkParity)) | apply Kept.after (kept_checkParity) | split
    | (apply Kept.of_eq <;> rfl) | dsimp -zeta only | dsimp only

theorem kept_execEngineReplyArrive {e : Fin 64} {i : Nat} {s : State} : KeptBy s (execEngineReplyArrive e i s) :=
  kept_live (fun _ => kept_engineReply)

end Sys2Proof.Machine
end

