-- ==== Sys2Proof/Laws/KeptUnits.lean ====
section
/-!
SUPPORT. What the operations and commands of the queue manager and the translation unit keep (Laws/Kept.lean),
one lemma for each.
-/
set_option linter.all false
set_option linter.unusedTactic false
set_option linter.unreachableTactic false
namespace Sys2Proof.Machine

/-! ## Queues -/

theorem kept_putQueue {q : Nat} {x : Queue} {s : State} : Kept s (putQueue q x s) := by
  unfold putQueue
  revert s
  all_goals with_reducible repeat' first
    | (intro x; refine Kept.viaVar y x ?_ ?_; (on_goal 1 => try dsimp -zeta only [x]); (on_goal 2 => clear_value x; intro _))
    | (intro x; clear_value x) | (intro y; try dsimp -zeta only) | lift_lets | apply Kept.refl | assumption
    | apply Kept.after (kept_setQueue) | apply Kept.after (kept_stgPut) | dsimp -zeta only

theorem kept_queueError {q code : Nat} {s : State} : Kept s (queueError q code s) := by
  unfold queueError
  all_goals with_reducible repeat' first
    | apply Kept.refl | assumption | apply Kept.after (kept_trace) | apply Kept.after (kept_fset) | split

theorem kept_queueWakeSend {q : Nat} {s : State} : Kept s (queueWakeSend q s) := by
  unfold queueWakeSend
  revert s
  all_goals with_reducible repeat' first
    | (intro x; refine Kept.viaVar y x ?_ ?_; (on_goal 1 => try dsimp -zeta only [x]); (on_goal 2 => clear_value x; intro _))
    | (intro x; clear_value x) | (intro y; try dsimp -zeta only) | lift_lets | apply Kept.refl | assumption
    | apply Kept.after (kept_putQueue) | apply Kept.after (kept_setSpent) | apply Kept.after (kept_trace)
    | apply Kept.after (kept_offer) | split | (apply Kept.of_eq <;> rfl) | dsimp -zeta only

theorem kept_execQueueWakeSend {qid : Fin 8192} {s : State} : KeptBy s (execQueueWakeSend qid s) :=
  kept_live (fun _ => kept_queueWakeSend)

theorem kept_execSqTailDb {fn : Fin 2048} {q : Fin 4} {tail : BitVec 16} {s : State} : KeptBy s (execSqTailDb fn q tail s) := by
  unfold execSqTailDb
  refine kept_live ?_
  all_goals with_reducible repeat' first | intro _ | apply Kept.refl | apply Kept.after (kept_offer)

theorem kept_execCqHeadDb {fn : Fin 2048} {q : Fin 4} {head : BitVec 16} {s : State} : KeptBy s (execCqHeadDb fn q head s) := by
  unfold execCqHeadDb
  refine kept_live ?_
  all_goals with_reducible repeat' first | intro _ | apply Kept.refl | apply Kept.after (kept_offer)

theorem kept_doorbellEvent {q : Nat} {s : State} : Kept s (doorbellEvent q s) := by
  unfold doorbellEvent
  all_goals with_reducible repeat' first
    | intro _ | apply Kept.refl | assumption | apply Kept.after (kept_setEvt) | split

theorem kept_doorbellReject {q code : Nat} {p : Packet} {s : State} : Kept s (doorbellReject q code p s) := by
  unfold doorbellReject
  revert s
  all_goals with_reducible repeat' first
    | (intro x; refine Kept.viaVar y x ?_ ?_; (on_goal 1 => try dsimp -zeta only [x]); (on_goal 2 => clear_value x; intro _))
    | (intro x; clear_value x) | (intro y; try dsimp -zeta only) | lift_lets | apply Kept.refl | assumption
    | apply Kept.after (kept_viol) | apply Kept.after (kept_queueError) | apply Kept.after (kept_fsat) | split
    | dsimp -zeta only

theorem kept_doorbell {p : Packet} {s : State} : Kept s (doorbell p s) := by
  unfold doorbell
  revert s
  all_goals with_reducible repeat' first
    | (intro x; refine Kept.viaVar y x ?_ ?_; (on_goal 1 => try dsimp -zeta only [x]); (on_goal 2 => clear_value x; intro _))
    | (intro x; clear_value x) | (intro y; try dsimp -zeta only) | lift_lets | apply Kept.refl | assumption
    | apply Kept.after (kept_trace) | apply Kept.after (kept_fsat) | apply Kept.after (kept_doorbellReject)
    | apply Kept.after (kept_putQueue) | apply Kept.after (kept_setQueue) | apply Kept.after (kept_doorbellEvent)
    | split | (apply Kept.of_eq <;> rfl) | dsimp -zeta only | dsimp only

theorem kept_takeSound {ni i : Nat} {s : State} : ∀ a t, takeSound ni i s = some (a, t) → Kept s t := by
  intro a t h
  unfold takeSound at h
  split at h
  · cases h
  · split at h
    · cases h
    · cases h; exact kept_takeArrived _ _ ‹_›

theorem kept_doorbellArrive {kind : Bool} {i : Nat} {s : State} : Kept s (doorbellArrive kind i s) := by
  unfold doorbellArrive
  all_goals with_reducible repeat' first
    | apply Kept.refl | assumption | apply Kept.after (kept_takeSound _ _ (by assumption))
    | apply Kept.after (kept_doorbell) | split

theorem kept_execDoorbellSqTail {i : Nat} {s : State} : KeptBy s (execDoorbellSqTail i s) :=
  kept_live (fun _ => kept_doorbellArrive)

theorem kept_execDoorbellCqHead {i : Nat} {s : State} : KeptBy s (execDoorbellCqHead i s) :=
  kept_live (fun _ => kept_doorbellArrive)

theorem kept_qmRefuse {q v : Nat} {p : Packet} {s : State} : Kept s (qmRefuse q v p s) := by
  unfold qmRefuse
  all_goals with_reducible repeat' first
    | apply Kept.refl | apply Kept.after (kept_violPkt) | apply Kept.after (kept_fsat)

theorem kept_headWrite {q v : Nat} {p : Packet} {s : State} : Kept s (headWrite q v p s) := by
  unfold headWrite
  revert s
  all_goals with_reducible repeat' first
    | (intro x; refine Kept.viaVar y x ?_ ?_; (on_goal 1 => try dsimp -zeta only [x]); (on_goal 2 => clear_value x; intro _))
    | (intro x; clear_value x) | (intro y; try dsimp -zeta only) | lift_lets | apply Kept.refl | assumption
    | apply Kept.after (kept_qmRefuse) | apply Kept.after (kept_queueError) | apply Kept.after (kept_putQueue)
    | apply Kept.after (kept_fset) | split | (apply Kept.of_eq <;> rfl) | dsimp -zeta only

theorem kept_errWrite {q v : Nat} {p : Packet} {s : State} : Kept s (errWrite q v p s) := by
  unfold errWrite
  all_goals with_reducible repeat' first
    | apply Kept.refl | assumption | apply Kept.after (kept_qmRefuse) | apply Kept.after (kept_queueError) | split

theorem kept_qmStore {err : Bool} {i : Nat} {s : State} : Kept s (qmStore err i s) := by
  unfold qmStore
  revert s
  all_goals with_reducible repeat' first
    | (intro x; refine Kept.viaVar y x ?_ ?_; (on_goal 1 => try dsimp -zeta only [x]); (on_goal 2 => clear_value x; intro _))
    | (intro x; clear_value x) | (intro y; try dsimp -zeta only) | lift_lets | apply Kept.refl | assumption
    | apply Kept.after (kept_takeSound _ _ (by assumption)) | apply Kept.after (kept_errWrite)
    | apply Kept.after (kept_headWrite) | split | (apply Kept.of_eq <;> rfl) | dsimp -zeta only | dsimp only

theorem kept_execQmQheadWrite {i : Nat} {s : State} : KeptBy s (execQmQheadWrite i s) :=
  kept_live (fun _ => kept_qmStore)

theorem kept_execQmQerrWrite {i : Nat} {s : State} : KeptBy s (execQmQerrWrite i s) :=
  kept_live (fun _ => kept_qmStore)

theorem kept_qidReturn {i : Nat} {s : State} : Kept s (qidReturn i s) := by
  unfold qidReturn
  revert s
  all_goals with_reducible repeat' first
    | (intro x; refine Kept.viaVar y x ?_ ?_; (on_goal 1 => try dsimp -zeta only [x]); (on_goal 2 => clear_value x; intro _))
    | (intro x; clear_value x) | (intro y; try dsimp -zeta only) | lift_lets | apply Kept.refl | assumption
    | apply Kept.after (kept_takeSound _ _ (by assumption)) | apply Kept.after (kept_trace)
    | apply Kept.after (kept_putQueue) | split | (apply Kept.of_eq <;> rfl) | dsimp -zeta only | dsimp only

theorem kept_execQidReturn {i : Nat} {s : State} : KeptBy s (execQidReturn i s) :=
  kept_live (fun _ => kept_qidReturn)

theorem kept_pointerRead {i : Nat} {s : State} : Kept s (pointerRead i s) := by
  unfold pointerRead
  split
  · exact .refl s
  · have k := kept_takeSound _ _ ‹_›
    extract_lets off
    split
    · split
      · extract_lets q
        split
        · exact .after kept_offer k
        · exact .refl s
      · exact .refl s
    · exact .refl s

theorem kept_execQPointerRead {i : Nat} {s : State} : KeptBy s (execQPointerRead i s) :=
  kept_live (fun _ => kept_pointerRead)

theorem kept_queueEnable {q : Nat} {s : State} : Kept s (queueEnable q s) := by
  unfold queueEnable
  revert s
  all_goals with_reducible repeat' first
    | (intro x; refine Kept.viaVar y x ?_ ?_; (on_goal 1 => try dsimp -zeta only [x]); (on_goal 2 => clear_value x; intro _))
    | (intro x; clear_value x) | (intro y; try dsimp -zeta only) | lift_lets | apply Kept.refl | assumption
    | apply Kept.after (kept_fset) | apply Kept.after (kept_putQueue) | split | dsimp -zeta only

theorem kept_queueDisable {q : Nat} {s : State} : Kept s (queueDisable q s) := by
  unfold queueDisable
  all_goals with_reducible repeat' first
    | apply Kept.refl | apply Kept.after (kept_setQueue) | (apply Kept.of_eq <;> rfl)

theorem kept_queueSkip {q : Nat} {s : State} : Kept s (queueSkip q s) := by
  unfold queueSkip
  revert s
  all_goals with_reducible repeat' first
    | (intro x; refine Kept.viaVar y x ?_ ?_; (on_goal 1 => try dsimp -zeta only [x]); (on_goal 2 => clear_value x; intro _))
    | (intro x; clear_value x) | (intro y; try dsimp -zeta only) | lift_lets | apply Kept.refl | assumption
    | apply Kept.after (kept_putQueue) | apply Kept.after (kept_fset) | split | (apply Kept.of_eq <;> rfl)
    | dsimp -zeta only

theorem kept_execQueueEnable {fn : Fin 2048} {q : Fin 4} {s : State} : KeptBy s (execQueueEnable fn q s) := by
  unfold execQueueEnable
  refine kept_live ?_
  all_goals with_reducible repeat' first | intro _ | apply Kept.refl | apply Kept.after (kept_queueEnable)

theorem kept_execQueueDisable {fn : Fin 2048} {q : Fin 4} {s : State} : KeptBy s (execQueueDisable fn q s) := by
  unfold execQueueDisable
  refine kept_live ?_
  all_goals with_reducible repeat' first | intro _ | apply Kept.refl | apply Kept.after (kept_queueDisable)

theorem kept_execQueueSkip {fn : Fin 2048} {q : Fin 4} {s : State} : KeptBy s (execQueueSkip fn q s) := by
  unfold execQueueSkip
  refine kept_live ?_
  all_goals with_reducible repeat' first | intro _ | apply Kept.refl | apply Kept.after (kept_queueSkip)

theorem kept_execQueueErrClear {fn : Fin 2048} {q : Fin 4} {s : State} : KeptBy s (execQueueErrClear fn q s) := by
  unfold execQueueErrClear
  refine kept_live ?_
  all_goals with_reducible repeat' first | intro _ | apply Kept.refl | apply Kept.after (kept_fset)

/-! ## Xlt -/

theorem kept_putDesc {w : Nat} {d : List Nat} {c : Nat} {s : State} : Kept s (putDesc w d c s) := by
  unfold putDesc
  all_goals with_reducible repeat' first | intro _ | apply Kept.refl | apply Kept.after (kept_stgPut)

theorem kept_putEnt {e : Nat} {x : List Nat} {c : Nat} {s : State} : Kept s (putEnt e x c s) := by
  unfold putEnt
  all_goals with_reducible repeat' first | intro _ | apply Kept.refl | apply Kept.after (kept_stgPut)

theorem kept_bumpEpoch {k : Nat} {s : State} : Kept s (bumpEpoch k s) := by
  unfold bumpEpoch
  all_goals with_reducible repeat' first | apply Kept.refl | apply Kept.after (kept_setEpochAt)

theorem kept_cacheIn {x : Nat} {l : Line} {s : State} : Kept s (cacheIn x l s) := by
  unfold cacheIn
  revert s
  all_goals with_reducible repeat' first
    | (intro x; refine Kept.viaVar y x ?_ ?_; (on_goal 1 => try dsimp -zeta only [x]); (on_goal 2 => clear_value x; intro _))
    | (intro x; clear_value x) | (intro y; try dsimp -zeta only) | lift_lets | apply Kept.refl | assumption
    | apply Kept.after (kept_setXcache) | apply Kept.after (Kept.of_pair (by assumption) (kept_takeFree))
    | apply Kept.after (kept_takeFree) | split | dsimp -zeta only

theorem kept_hpiForget {k : Nat} {p : HpiLine → Bool} {s : State} : Kept s (hpiForget k p s) := by
  unfold hpiForget
  revert s
  all_goals with_reducible repeat' first
    | (intro x; refine Kept.viaVar y x ?_ ?_; (on_goal 1 => try dsimp -zeta only [x]); (on_goal 2 => clear_value x; intro _))
    | (intro x; clear_value x) | (intro y; try dsimp -zeta only) | lift_lets | apply Kept.refl | assumption
    | apply Kept.after (kept_setHpi) | split | (apply Kept.of_eq <;> rfl) | dsimp -zeta only

theorem kept_forgetWindow {w : Nat} {s : State} : Kept s (forgetWindow w s) := by
  unfold forgetWindow
  revert s
  all_goals with_reducible repeat' first
    | (intro x; refine Kept.viaVar y x ?_ ?_; (on_goal 1 => try dsimp -zeta only [x]); (on_goal 2 => clear_value x; intro _))
    | (intro x; clear_value x) | (intro y; try dsimp -zeta only) | lift_lets | apply Kept.refl | assumption
    | apply Kept.after (kept_forN ?_) | apply Kept.after (kept_setXcache) | apply Kept.after (kept_hpiForget)
    | dsimp -zeta only

theorem kept_forgetEntry {e : Nat} {s : State} : Kept s (forgetEntry e s) := by
  unfold forgetEntry
  revert s
  all_goals with_reducible repeat' first
    | (intro x; refine Kept.viaVar y x ?_ ?_; (on_goal 1 => try dsimp -zeta only [x]); (on_goal 2 => clear_value x; intro _))
    | (intro x; clear_value x) | (intro y; try dsimp -zeta only) | lift_lets | apply Kept.refl | assumption
    | apply Kept.after (kept_forN ?_) | apply Kept.after (kept_setXcache) | apply Kept.after (kept_hpiForget)
    | dsimp -zeta only

theorem kept_xltAnswer {x : Nat} {p : Packet} {ent : Nat} {w : Word} {s : State} : Kept s (xltAnswer x p ent w s) := by
  unfold xltAnswer
  all_goals with_reducible repeat' first
    | apply Kept.refl | apply Kept.after (kept_offer) | apply Kept.after (kept_reply) | (apply Kept.of_eq <;> rfl)

theorem kept_missAnswer {x : Nat} {m : Miss} {ent : Nat} {w : Word} {s : State} : Kept s (missAnswer x m ent w s).2 := by
  unfold missAnswer
  all_goals with_reducible repeat' first
    | apply Kept.refl | apply Kept.after (kept_xltAnswer) | (apply Kept.of_eq <;> rfl)

theorem kept_missEntry {x : Nat} {m : Miss} {d : List Nat} {s : State} : Kept s (missEntry x m d s).2 := by
  unfold missEntry
  all_goals with_reducible repeat' first
    | apply Kept.refl | assumption | apply Kept.after (Kept.of_pair (by assumption) (kept_missAnswer))
    | apply Kept.after (kept_missAnswer) | split | (apply Kept.of_eq <;> rfl)

theorem kept_putMiss {x i : Nat} {m : Miss} {s : State} : Kept s (putMiss x i m s) := by
  unfold putMiss
  all_goals with_reducible repeat' first
    | apply Kept.refl | assumption | apply Kept.after (kept_setMissList) | split

theorem kept_lookup {x : Nat} {p : Packet} {s : State} : ∀ t, lookup x p s = some t → Kept s t := by
  intro t h
  unfold lookup at h
  dsimp only at h
  repeat' split at h
  all_goals (cases h)
  all_goals with_reducible repeat' first
    | (intro x; refine Kept.viaVar y x ?_ ?_; (on_goal 1 => try dsimp -zeta only [x]); (on_goal 2 => clear_value x; intro _))
    | (intro x; clear_value x) | (intro y; try dsimp -zeta only) | lift_lets | apply Kept.refl | assumption
    | apply Kept.after (kept_xltAnswer) | apply Kept.after (kept_setMissList)
    | apply Kept.after (Kept.of_pair (by assumption) (kept_missEntry)) | apply Kept.after (kept_missEntry) | split
    | (apply Kept.of_eq <;> rfl) | dsimp -zeta only | dsimp only

theorem kept_addDrain {d : Drain} {s : State} : Kept s (addDrain d s) := Kept.set_xlt _ (.refl s)

theorem kept_markServed {a : Nat} {g : Grant} {s : State} : Kept s (markServed a g s) := by
  unfold markServed
  all_goals with_reducible repeat' first
    | apply Kept.refl | apply Kept.after (kept_setArbiter) | (apply Kept.of_eq <;> rfl)

theorem kept_xltLookup {x : Nat} {s : State} : Kept s (xltLookup x s) := by
  unfold xltLookup
  all_goals with_reducible repeat' first
    | apply Kept.refl | assumption | apply Kept.after (kept_markServed) | apply Kept.after (kept_addDrain)
    | apply Kept.after (kept_lookup _ (by assumption)) | split | (apply Kept.of_eq <;> rfl)

theorem kept_execXltLookup {x : Fin 4} {s : State} : KeptBy s (execXltLookup x s) :=
  kept_live (fun _ => kept_xltLookup)

theorem kept_enqueue {c : SeqCmd} {s : State} : Kept s (enqueue c s) := Kept.set_xlt _ (.refl s)

theorem kept_missDesc {x : Nat} {m : Miss} {s : State} : Kept s (missDesc x m s).2 := by
  unfold missDesc
  revert s
  all_goals with_reducible repeat' first
    | (intro x; refine Kept.viaVar y x ?_ ?_; (on_goal 1 => try dsimp -zeta only [x]); (on_goal 2 => clear_value x; intro _))
    | (intro x; clear_value x) | (intro y; try dsimp -zeta only) | lift_lets | apply Kept.refl | assumption
    | apply Kept.after (kept_enqueue) | apply Kept.after (kept_when ?_) | apply Kept.after (kept_cacheIn)
    | apply Kept.after (Kept.of_pair (by assumption) (kept_missEntry)) | apply Kept.after (kept_missEntry)
    | apply Kept.after (Kept.of_pair (by assumption) (kept_missAnswer)) | apply Kept.after (kept_missAnswer) | split
    | (apply Kept.of_eq <;> rfl) | dsimp -zeta only | dsimp only

theorem kept_missEnt {x e : Nat} {m : Miss} {s : State} : Kept s (missEnt x e m s).2 := by
  unfold missEnt
  revert s
  all_goals with_reducible repeat' first
    | (intro x; refine Kept.viaVar y x ?_ ?_; (on_goal 1 => try dsimp -zeta only [x]); (on_goal 2 => clear_value x; intro _))
    | (intro x; dsimp -zeta only [x]; clear x) | (intro x; clear_value x) | (intro y; try dsimp -zeta only)
    | lift_lets | apply Kept.refl | assumption | apply Kept.after (kept_enqueue) | apply Kept.after (kept_when ?_)
    | apply Kept.after (kept_cacheIn) | apply Kept.after (Kept.of_pair (by assumption) (kept_missAnswer))
    | apply Kept.after (kept_missAnswer) | split | (apply Kept.of_eq <;> rfl) | dsimp -zeta only | dsimp only

theorem kept_missCopy {x i copy : Nat} {s : State} : Kept s (missCopy x i copy s) := by
  unfold missCopy
  revert s
  all_goals with_reducible repeat' first
    | (intro x; refine Kept.viaVar y x ?_ ?_; (on_goal 1 => try dsimp -zeta only [x]); (on_goal 2 => clear_value x; intro _))
    | (intro x; clear_value x) | (intro y; try dsimp -zeta only) | lift_lets | apply Kept.refl | assumption
    | apply Kept.after (kept_stgCheckRange) | apply Kept.after (kept_putMiss)
    | apply Kept.after (Kept.of_pair (by assumption) (kept_missDesc)) | apply Kept.after (kept_missDesc)
    | apply Kept.after (Kept.of_pair (by assumption) (kept_missEnt)) | apply Kept.after (kept_missEnt) | split
    | (apply Kept.of_eq <;> rfl) | dsimp -zeta only | dsimp only

theorem kept_execXuMissCopyArrive {x : Fin 4} {m : Nat} {copy : Fin 5} {s : State} : KeptBy s (execXuMissCopyArrive x m copy s) :=
  kept_live (fun _ => kept_missCopy)

theorem kept_seqPop {s : State} : Kept s (seqPop s) := Kept.set_xlt _ (.refl s)

theorem kept_seqOut {c : SeqCmd} {s : State} : Kept s (seqOut c s) := Kept.set_xlt _ (.refl s)

theorem kept_quarantine {isEntry : Bool} {idx : Nat} {s : State} : Kept s (quarantine isEntry idx s) := by
  unfold quarantine
  revert s
  all_goals with_reducible repeat' first
    | (intro x; refine Kept.viaVar y x ?_ ?_; (on_goal 1 => try dsimp -zeta only [x]); (on_goal 2 => clear_value x; intro _))
    | (intro x; clear_value x) | (intro y; try dsimp -zeta only) | lift_lets | apply Kept.refl | assumption
    | apply Kept.after (kept_viol) | apply Kept.after (kept_setQuarAt) | apply Kept.after (kept_fsat) | split
    | dsimp -zeta only

theorem kept_rewriteExec {s : State} : Kept s (rewriteExec s) := by
  unfold rewriteExec
  revert s
  all_goals with_reducible repeat' first
    | (intro x; refine Kept.viaVar y x ?_ ?_; (on_goal 1 => try dsimp -zeta only [x]); (on_goal 2 => clear_value x; intro _))
    | (intro x; clear_value x) | (intro y; try dsimp -zeta only) | lift_lets | apply Kept.refl | assumption
    | apply Kept.after (kept_seqPop) | apply Kept.after (kept_quarantine) | apply Kept.after (kept_forL ?_)
    | apply Kept.after (kept_putEnt) | apply Kept.after (kept_putDesc) | apply Kept.after (kept_fsat) | split
    | (apply Kept.of_eq <;> rfl) | dsimp -zeta only | dsimp only

theorem kept_execCopyRewriteExecute {s : State} : KeptBy s (execCopyRewriteExecute s) :=
  kept_live (fun _ => kept_rewriteExec)

theorem kept_setErr {k code : Nat} {s : State} : Kept s (setErr k code s) := by
  unfold setErr
  all_goals with_reducible repeat' first
    | apply Kept.refl | assumption | apply Kept.after (kept_fset) | split

theorem kept_activeVersions {w : Nat} {s : State} : Kept s (activeVersions w s).2 := by
  unfold activeVersions
  revert s
  all_goals with_reducible repeat' first
    | (intro x; refine Kept.viaVar y x ?_ ?_; (on_goal 1 => try dsimp -zeta only [x]); (on_goal 2 => clear_value x; intro _))
    | (intro x; clear_value x) | (intro y; try dsimp -zeta only) | lift_lets | apply Kept.refl | assumption
    | apply Kept.after (Kept.of_pair (by assumption) (kept_takeFree)) | apply Kept.after (kept_takeFree) | split
    | (apply Kept.of_eq <;> rfl) | dsimp -zeta only | dsimp only

theorem kept_commitExec {s : State} : Kept s (commitExec s) := by
  unfold commitExec
  revert s
  all_goals with_reducible repeat' first
    | (intro x; refine Kept.viaVar y x ?_ ?_; (on_goal 1 => try dsimp -zeta only [x]); (on_goal 2 => clear_value x; intro _))
    | (intro x; clear_value x) | (intro y; try dsimp -zeta only) | lift_lets
    | (apply Kept.set_err <;> first | assumption | apply Kept.refl | apply kept_activeVersions) | apply Kept.refl
    | assumption | apply Kept.after (kept_setErr) | apply Kept.after (kept_seqPop) | apply Kept.after (kept_forN ?_)
    | apply Kept.after (kept_putDesc) | apply Kept.after (kept_seqOut) | apply Kept.after (kept_bumpEpoch)
    | apply Kept.after (kept_setQuarAt) | apply Kept.after (Kept.of_pair (by assumption) (kept_activeVersions))
    | apply Kept.after (kept_activeVersions) | split | (apply Kept.of_eq <;> rfl) | dsimp -zeta only | dsimp only

theorem kept_execCommitExecute {s : State} : KeptBy s (execCommitExecute s) :=
  kept_live (fun _ => kept_commitExec)

theorem kept_acksDone {s : State} : Kept s (acksDone s) := by
  unfold acksDone
  revert s
  all_goals with_reducible repeat' first
    | (intro x; refine Kept.viaVar y x ?_ ?_; (on_goal 1 => try dsimp -zeta only [x]); (on_goal 2 => clear_value x; intro _))
    | (intro x; dsimp -zeta only [x]; clear x) | (intro x; clear_value x) | (intro y; try dsimp -zeta only)
    | lift_lets | (apply Kept.set_xlt <;> first | assumption | apply Kept.refl) | apply Kept.refl | assumption
    | apply Kept.after (kept_setErr) | apply Kept.after (kept_forgetWindow) | split | (apply Kept.of_eq <;> rfl)
    | dsimp -zeta only | dsimp only

theorem kept_execCommitAcksDone {s : State} : KeptBy s (execCommitAcksDone s) :=
  kept_live (fun _ => kept_acksDone)

theorem kept_bumpExec {s : State} : Kept s (bumpExec s) := by
  unfold bumpExec
  all_goals with_reducible repeat' first
    | intro _ | apply Kept.refl | assumption | apply Kept.after (kept_setErr) | apply Kept.after (kept_seqPop)
    | apply Kept.after (kept_addDrain) | apply Kept.after (kept_seqOut) | apply Kept.after (kept_bumpEpoch)
    | apply Kept.after (kept_forN ?_) | apply Kept.after (kept_putDesc) | split | (apply Kept.of_eq <;> rfl)

theorem kept_execBumpExecute {s : State} : KeptBy s (execBumpExecute s) := kept_live (fun _ => kept_bumpExec)

theorem kept_bumpOwned {mine : Nat → Bool} {s : State} : Kept s (bumpOwned mine s) := by
  unfold bumpOwned
  all_goals with_reducible repeat' first
    | intro _ | apply Kept.refl | assumption | apply Kept.after (kept_forN ?_) | apply Kept.after (kept_enqueue)
    | split

theorem kept_winCmd {w : Writer} {op : Nat} {s : State} : Kept s (winCmd w op s) := by
  unfold winCmd
  revert s
  all_goals with_reducible repeat' first
    | (intro x; refine Kept.viaVar y x ?_ ?_; (on_goal 1 => try dsimp -zeta only [x]); (on_goal 2 => clear_value x; intro _))
    | (intro x; clear_value x) | (intro y; try dsimp -zeta only) | lift_lets | apply Kept.refl | assumption
    | apply Kept.after (kept_setErr) | apply Kept.after (kept_enqueue) | apply Kept.after (kept_addDrain) | split
    | dsimp -zeta only

theorem kept_execWinCmdCommit {w : Writer} {s : State} : KeptBy s (execWinCmdCommit w s) := by
  unfold execWinCmdCommit
  refine kept_live ?_
  all_goals with_reducible repeat' first
    | intro _ | apply Kept.refl | apply Kept.after (kept_guarded ?_) | apply Kept.after (kept_winCmd)

theorem kept_execWinCmdDrain {w : Writer} {s : State} : KeptBy s (execWinCmdDrain w s) := by
  unfold execWinCmdDrain
  refine kept_live ?_
  all_goals with_reducible repeat' first
    | intro _ | apply Kept.refl | apply Kept.after (kept_guarded ?_) | apply Kept.after (kept_winCmd)

theorem kept_execWinCmdBump {w : Writer} {s : State} : KeptBy s (execWinCmdBump w s) := by
  unfold execWinCmdBump
  refine kept_live ?_
  all_goals with_reducible repeat' first
    | intro _ | apply Kept.refl | apply Kept.after (kept_guarded ?_) | apply Kept.after (kept_winCmd)

theorem kept_putDrain {d : Drain} {s : State} : Kept s (putDrain d s) := by
  unfold putDrain
  all_goals with_reducible repeat' first
    | intro _ | (apply Kept.set_xlt <;> first | assumption | apply Kept.refl) | apply Kept.refl | assumption | split
    | (apply Kept.of_eq <;> rfl)

theorem kept_endDrain {d : Drain} {s : State} : Kept s (endDrain d s) := Kept.set_xlt _ (.refl s)

theorem kept_reportDrain {d : Drain} {v : Nat} {s : State} : Kept s (reportDrain d v s) := by
  unfold reportDrain
  revert s
  all_goals with_reducible repeat' first
    | (intro x; refine Kept.viaVar y x ?_ ?_; (on_goal 1 => try dsimp -zeta only [x]); (on_goal 2 => clear_value x; intro _))
    | (intro x; clear_value x) | (intro y; try dsimp -zeta only) | lift_lets | apply Kept.refl | assumption
    | apply Kept.after (kept_endDrain) | apply Kept.after (kept_offer) | apply Kept.after (kept_reply)
    | apply Kept.after (kept_setErr) | split | (apply Kept.of_eq <;> rfl) | dsimp -zeta only | dsimp only

theorem kept_drainStart {x i : Nat} {s : State} : Kept s (drainStart x i s) := by
  unfold drainStart
  revert s
  all_goals with_reducible repeat' first
    | (intro x; refine Kept.viaVar y x ?_ ?_; (on_goal 1 => try dsimp -zeta only [x]); (on_goal 2 => clear_value x; intro _))
    | (intro x; clear_value x) | (intro y; try dsimp -zeta only) | lift_lets | apply Kept.refl | assumption
    | apply Kept.after (kept_reportDrain) | apply Kept.after (kept_forL ?_) | apply Kept.after (kept_offer)
    | apply Kept.after (kept_putDrain) | apply Kept.after (Kept.of_pair (by assumption) (kept_activeVersions))
    | apply Kept.after (kept_activeVersions) | split | (apply Kept.of_eq <;> rfl) | dsimp -zeta only | dsimp only

theorem kept_execDrainStart {x : Fin 4} {i : Nat} {s : State} : KeptBy s (execDrainStart x i s) :=
  kept_live (fun _ => kept_drainStart)

theorem kept_probeArrive {ni i : Nat} {s : State} : Kept s (probeArrive ni i s) := by
  unfold probeArrive
  revert s
  all_goals with_reducible repeat' first
    | (intro x; refine Kept.viaVar y x ?_ ?_; (on_goal 1 => try dsimp -zeta only [x]); (on_goal 2 => clear_value x; intro _))
    | (intro x; clear_value x) | (intro y; try dsimp -zeta only) | lift_lets | apply Kept.refl | assumption
    | apply Kept.after (kept_takeArrived _ _ (by assumption)) | apply Kept.after (kept_setProbesAt) | split
    | (apply Kept.of_eq <;> rfl) | dsimp -zeta only | dsimp only

theorem kept_execProbeArrive {ni : Fin 46} {i : Nat} {s : State} : KeptBy s (execProbeArrive ni i s) :=
  kept_live (fun _ => kept_probeArrive)

theorem kept_probeAnswer {ni i : Nat} {s : State} : Kept s (probeAnswer ni i s) := by
  unfold probeAnswer
  all_goals with_reducible repeat' first
    | apply Kept.refl | assumption | apply Kept.after (kept_offer) | apply Kept.after (kept_reply)
    | apply Kept.after (kept_setProbesAt) | split | (apply Kept.of_eq <;> rfl)

theorem kept_execProbeAnswer {ni : Fin 46} {i : Nat} {s : State} : KeptBy s (execProbeAnswer ni i s) :=
  kept_live (fun _ => kept_probeAnswer)

theorem kept_writeDxv {w v : Nat} {s : State} : Kept s (writeDxv w v s) := by
  unfold writeDxv
  all_goals with_reducible repeat' first
    | intro _ | apply Kept.refl | assumption | apply Kept.after (kept_bumpEpoch) | apply Kept.after (kept_forN ?_)
    | apply Kept.after (kept_putDesc) | split

theorem kept_probesDone {x i : Nat} {s : State} : Kept s (probesDone x i s) := by
  unfold probesDone
  revert s
  all_goals with_reducible repeat' first
    | (intro x; refine Kept.viaVar y x ?_ ?_; (on_goal 1 => try dsimp -zeta only [x]); (on_goal 2 => clear_value x; intro _))
    | (intro x; clear_value x) | (intro y; try dsimp -zeta only) | lift_lets | apply Kept.refl | assumption
    | apply Kept.after (kept_setArrived) | apply Kept.after (kept_endDrain) | apply Kept.after (kept_writeDxv)
    | apply Kept.after (kept_enqueue) | apply Kept.after (kept_putDrain) | split | (apply Kept.of_eq <;> rfl)
    | dsimp -zeta only | dsimp only

theorem kept_execDrainProbesDone {x : Fin 4} {i : Nat} {s : State} : KeptBy s (execDrainProbesDone x i s) :=
  kept_live (fun _ => kept_probesDone)

theorem kept_dxvExec {s : State} : Kept s (dxvExec s) := by
  unfold dxvExec
  revert s
  all_goals with_reducible repeat' first
    | (intro x; refine Kept.viaVar y x ?_ ?_; (on_goal 1 => try dsimp -zeta only [x]); (on_goal 2 => clear_value x; intro _))
    | (intro x; clear_value x) | (intro y; try dsimp -zeta only) | lift_lets | apply Kept.refl | assumption
    | apply Kept.after (kept_writeDxv) | apply Kept.after (kept_seqPop) | apply Kept.after (kept_reportDrain) | split
    | (apply Kept.of_eq <;> rfl) | dsimp -zeta only | dsimp only

theorem kept_execDxvWriteExecute {s : State} : KeptBy s (execDxvWriteExecute s) :=
  kept_live (fun _ => kept_dxvExec)

theorem kept_teCmd {w : Writer} {f : Nat → State → State} {s : State} (h0 : ∀ a0 y, Kept y (f a0 y)) : Kept s (teCmd w f s) := by
  unfold teCmd
  revert s
  all_goals with_reducible repeat' first
    | (intro x; refine Kept.viaVar y x ?_ ?_; (on_goal 1 => try dsimp -zeta only [x]); (on_goal 2 => clear_value x; intro _))
    | (intro x; clear_value x) | (intro y; try dsimp -zeta only) | lift_lets | apply Kept.refl | assumption
    | apply Kept.after (kept_fset) | apply Kept.after (h0 _ _) | split | dsimp -zeta only

theorem kept_teWrite {k : Nat} {s : State} : Kept s (teWrite k s) := by
  unfold teWrite
  all_goals with_reducible repeat' first | apply Kept.refl | apply Kept.after (kept_enqueue)

theorem kept_teRead {k : Nat} {s : State} : Kept s (teRead k s) := by
  unfold teRead
  revert s
  all_goals with_reducible repeat' first
    | (intro x; refine Kept.viaVar y x ?_ ?_; (on_goal 1 => try dsimp -zeta only [x]); (on_goal 2 => clear_value x; intro _))
    | (intro x; clear_value x) | (intro y; try dsimp -zeta only) | lift_lets | apply Kept.refl | assumption
    | apply Kept.after (kept_stgCheckRange) | apply Kept.after (kept_rput) | apply Kept.after (kept_fset)
    | apply Kept.after (kept_enqueue) | split | (apply Kept.of_eq <;> rfl) | dsimp -zeta only | dsimp only

theorem kept_execTeCmdWrite {w : Writer} {s : State} : KeptBy s (execTeCmdWrite w s) := by
  unfold execTeCmdWrite
  refine kept_live ?_
  all_goals with_reducible repeat' first
    | intro _ | apply Kept.refl | apply Kept.after (kept_guarded ?_) | apply Kept.after (kept_teCmd ?_)
    | apply Kept.after (kept_teWrite)

theorem kept_execTeCmdRead {w : Writer} {s : State} : KeptBy s (execTeCmdRead w s) := by
  unfold execTeCmdRead
  refine kept_live ?_
  all_goals with_reducible repeat' first
    | intro _ | apply Kept.refl | apply Kept.after (kept_guarded ?_) | apply Kept.after (kept_teCmd ?_)
    | apply Kept.after (kept_teRead)

theorem kept_higherWver {a b : Option (List Nat)} {s : State} : Kept s (higherWver a b s).2 := by
  unfold higherWver
  revert s
  all_goals with_reducible repeat' first
    | (intro x; refine Kept.viaVar y x ?_ ?_; (on_goal 1 => try dsimp -zeta only [x]); (on_goal 2 => clear_value x; intro _))
    | (intro x; clear_value x) | (intro y; try dsimp -zeta only) | lift_lets | apply Kept.refl | assumption
    | apply Kept.after (Kept.of_pair (by assumption) (kept_takeFree)) | apply Kept.after (kept_takeFree) | split
    | (apply Kept.of_eq <;> rfl) | dsimp -zeta only | dsimp only

theorem kept_entryExec {s : State} : Kept s (entryExec s) := by
  unfold entryExec
  revert s
  all_goals with_reducible repeat' first
    | (intro x; refine Kept.viaVar y x ?_ ?_; (on_goal 1 => try dsimp -zeta only [x]); (on_goal 2 => clear_value x; intro _))
    | (intro x; clear_value x) | (intro y; try dsimp -zeta only) | lift_lets | apply Kept.refl | assumption
    | apply Kept.after (kept_forN ?_) | apply Kept.after (kept_putEnt) | apply Kept.after (kept_seqPop)
    | apply Kept.after (kept_forgetEntry) | apply Kept.after (kept_bumpEpoch) | apply Kept.after (kept_setQuarAt)
    | apply Kept.after (Kept.of_pair (by assumption) (kept_higherWver)) | apply Kept.after (kept_higherWver) | split
    | (apply Kept.of_eq <;> rfl) | dsimp -zeta only | dsimp only

theorem kept_execEntryWriteExecute {s : State} : KeptBy s (execEntryWriteExecute s) :=
  kept_live (fun _ => kept_entryExec)

theorem kept_loadShadows {k : Nat} {s : State} : Kept s (loadShadows k s) := by
  unfold loadShadows
  refine Kept.after kept_sput (.after kept_sput (.after kept_sput ?_))
  split
  · exact .refl s
  · exact (kept_takeFree (s := s)).trans ⟨rfl, rfl, Nat.le_add_right _ 2, List.suffix_refl _, id, id, fusesKept_refl _⟩

theorem kept_winSelWrite {w : Writer} {p : Packet} {value : Word} {s : State} : Kept s (winSelWrite w p value s) := by
  unfold winSelWrite
  revert s
  all_goals with_reducible repeat' first
    | (intro x; refine Kept.viaVar y x ?_ ?_; (on_goal 1 => try dsimp -zeta only [x]); (on_goal 2 => clear_value x; intro _))
    | (intro x; clear_value x) | (intro y; try dsimp -zeta only) | lift_lets | apply Kept.refl | assumption
    | apply Kept.after (kept_busyWrite) | apply Kept.after (kept_loadShadows) | apply Kept.after (kept_fset) | split
    | dsimp -zeta only

theorem kept_execWinSelWrite {w : Writer} {value : BitVec 32} {s : State} : KeptBy s (execWinSelWrite w value s) := by
  unfold execWinSelWrite
  refine kept_live ?_
  all_goals with_reducible repeat' first
    | intro _ | apply Kept.refl | apply Kept.after (kept_guardedP ?_) | apply Kept.after (kept_winSelWrite)

theorem kept_fWinWrite {fn : Nat} {value : Word} {s : State} : Kept s (fWinWrite fn value s) := by
  unfold fWinWrite
  revert s
  all_goals with_reducible repeat' first
    | (intro x; refine Kept.viaVar y x ?_ ?_; (on_goal 1 => try dsimp -zeta only [x]); (on_goal 2 => clear_value x; intro _))
    | (intro x; clear_value x) | (intro y; try dsimp -zeta only) | lift_lets | apply Kept.refl | assumption
    | apply Kept.after (kept_fset) | apply Kept.after (kept_hpiForget) | dsimp -zeta only

theorem kept_execFWinWrite {w : Writer} {fn : Fin 2048} {value : BitVec 32} {s : State} : KeptBy s (execFWinWrite w fn value s) := by
  unfold execFWinWrite
  refine kept_live ?_
  all_goals with_reducible repeat' first
    | intro _ | apply Kept.refl | apply Kept.after (kept_guarded ?_) | apply Kept.after (kept_fWinWrite)

theorem kept_execXltLocWrite {w : Writer} {value : BitVec 32} {s : State} : KeptBy s (execXltLocWrite w value s) := by
  unfold execXltLocWrite
  refine kept_live ?_
  all_goals with_reducible repeat' first
    | intro _ | apply Kept.refl | apply Kept.after (kept_guarded ?_) | apply Kept.after (kept_rput)

end Sys2Proof.Machine
end

