-- ==== Sys2Proof/Laws/KeptHost.lean ====
section
/-!
SUPPORT. What the operations and commands of the host ports keep (Laws/Kept.lean),
one lemma for each.
-/
set_option linter.all false
set_option linter.unusedTactic false
set_option linter.unreachableTactic false
namespace Sys2Proof.Machine

/-! ## HostPort -/

theorem kept_setHostLink {k : Nat} {x : LinkState} {s : State} : Kept s (setHostLink k x s) := by
  unfold setHostLink
  revert s
  all_goals with_reducible repeat' first
    | (intro x; refine Kept.viaVar y x ?_ ?_; (on_goal 1 => try dsimp -zeta only [x]); (on_goal 2 => clear_value x; intro _))
    | (intro x; clear_value x) | (intro y; try dsimp -zeta only) | lift_lets | apply Kept.refl | assumption
    | apply Kept.after (kept_touch) | apply Kept.after (kept_setHpi) | apply Kept.after (kept_trace) | split
    | (apply Kept.of_eq <;> rfl) | dsimp -zeta only

theorem kept_hostLinkMove {k : Nat} {x : LinkState} {w : Nat} {s : State} : Kept s (hostLinkMove k x w s) := by
  unfold hostLinkMove
  revert s
  all_goals with_reducible repeat' first
    | (intro x; refine Kept.viaVar y x ?_ ?_; (on_goal 1 => try dsimp -zeta only [x]); (on_goal 2 => clear_value x; intro _))
    | (intro x; clear_value x) | (intro y; try dsimp -zeta only) | lift_lets | apply Kept.refl | assumption
    | apply Kept.after (kept_setHostLink) | apply Kept.after (kept_fset) | split | dsimp -zeta only

theorem kept_execHostLinkStateChange {k : Fin 2} {st : LinkState} {width : Nat} {s : State} : KeptBy s (execHostLinkStateChange k st width s) :=
  kept_live (fun _ => kept_hostLinkMove)

theorem kept_sendTlp {k : Nat} {o : Out} {s : State} : Kept s (sendTlp k o s) := by
  unfold sendTlp
  revert s
  all_goals with_reducible repeat' first
    | (intro x; refine Kept.viaVar y x ?_ ?_; (on_goal 1 => try dsimp -zeta only [x]); (on_goal 2 => clear_value x; intro _))
    | (intro x; clear_value x) | (intro y; try dsimp -zeta only) | lift_lets | apply Kept.refl | assumption
    | apply Kept.after (kept_setHpi) | apply Kept.after (kept_emit) | split | (apply Kept.of_eq <;> rfl)
    | dsimp -zeta only

theorem kept_hostFail {k fn status : Nat} {t : Tlp} {s : State} : Kept s (hostFail k fn status t s) := by
  unfold hostFail
  all_goals with_reducible repeat' first | apply Kept.refl | apply Kept.after (kept_sendTlp)

theorem kept_hostUr {k fn kind : Nat} {t : Tlp} {s : State} : Kept s (hostUr k fn kind t s) := by
  unfold hostUr
  all_goals with_reducible repeat' first
    | apply Kept.refl | apply Kept.after (kept_aerUr) | apply Kept.after (kept_hostFail)

theorem kept_hostCa {k fn kind : Nat} {t : Tlp} {s : State} : Kept s (hostCa k fn kind t s) := by
  unfold hostCa
  all_goals with_reducible repeat' first
    | apply Kept.refl | apply Kept.after (kept_aerUncor) | apply Kept.after (kept_hostFail)

theorem kept_hostData {k fn : Nat} {t : Tlp} {off n : Nat} {data : List Byte} {ep : Bool} {s : State} : Kept s (hostData k fn t off n data ep s) := by
  unfold hostData
  all_goals with_reducible repeat' first | apply Kept.refl | apply Kept.after (kept_sendTlp)

theorem kept_hostDataAll {k fn n i : Nat} {t : Tlp} {d : List Byte} {ep : Bool} {s : State} :
    Kept s (hostDataAll k fn t d ep n i s) := by
  induction n generalizing s i with
  | zero => exact .refl s
  | succ n ih =>
    unfold hostDataAll; dsimp only
    split
    · exact .refl s
    · exact .after ih kept_hostData

theorem kept_hostPfr {k fn cause info : Nat} {t : Tlp} {s : State} : Kept s (hostPfr k fn cause info t s) := by
  unfold hostPfr
  all_goals with_reducible repeat' first
    | (apply Kept.set_fn <;> first | assumption | apply Kept.refl) | apply Kept.refl | apply Kept.after (kept_pfr)
    | (apply Kept.of_eq <;> rfl)

theorem kept_pumpOne {k : Nat} {s : State} : Kept s (pumpOne k s) := by
  unfold pumpOne
  revert s
  all_goals with_reducible repeat' first
    | (intro x; refine Kept.viaVar y x ?_ ?_; (on_goal 1 => try dsimp -zeta only [x]); (on_goal 2 => clear_value x; intro _))
    | (intro x; clear_value x) | (intro y; try dsimp -zeta only) | lift_lets
    | (apply Kept.set_fn <;> first | assumption | apply Kept.refl) | apply Kept.refl | assumption
    | apply Kept.after (kept_offer) | apply Kept.after (kept_setHpi) | split | (apply Kept.of_eq <;> rfl)
    | dsimp -zeta only | dsimp only

theorem kept_hostPump {k : Nat} {s : State} : Kept s (hostPump k s) := by
  unfold hostPump
  all_goals with_reducible repeat' first
    | intro _ | apply Kept.refl | apply Kept.after (kept_forN ?_) | apply Kept.after (kept_pumpOne)

theorem kept_hostPush {k : Nat} {r : HostReq} {s : State} : Kept s (hostPush k r s) := by
  unfold hostPush
  revert s
  all_goals with_reducible repeat' first
    | (intro x; refine Kept.viaVar y x ?_ ?_; (on_goal 1 => try dsimp -zeta only [x]); (on_goal 2 => clear_value x; intro _))
    | (intro x; clear_value x) | (intro y; try dsimp -zeta only) | lift_lets | apply Kept.refl | assumption
    | apply Kept.after (kept_hostPump) | apply Kept.after (kept_setHpi) | (apply Kept.of_eq <;> rfl)
    | dsimp -zeta only

theorem kept_bar2Fail {k fn kind xst : Nat} {t : Tlp} {s : State} : Kept s (bar2Fail k fn kind xst t s) := by
  unfold bar2Fail
  all_goals with_reducible repeat' first
    | apply Kept.refl | assumption | apply Kept.after (kept_hostPfr) | apply Kept.after (kept_hostUr) | split

theorem kept_bar2Access {k fn kind off : Nat} {t : Tlp} {s : State} : Kept s (bar2Access k fn kind off t s) := by
  unfold bar2Access
  revert s
  all_goals with_reducible repeat' first
    | (intro x; refine Kept.viaVar y x ?_ ?_; (on_goal 1 => try dsimp -zeta only [x]); (on_goal 2 => clear_value x; intro _))
    | (intro x; clear_value x) | (intro y; try dsimp -zeta only) | lift_lets
    | (apply Kept.set_fn <;> first | assumption | apply Kept.refl) | apply Kept.refl | assumption
    | apply Kept.after (kept_bar2Fail) | apply Kept.after (kept_hostPush) | apply Kept.after (kept_offer) | split
    | (apply Kept.of_eq <;> rfl) | dsimp -zeta only | dsimp only

theorem kept_bar0Bad {k fn kind off : Nat} {t : Tlp} {s : State} : Kept s (bar0Bad k fn kind off t s) := by
  unfold bar0Bad
  all_goals with_reducible repeat' first
    | apply Kept.refl | assumption | apply Kept.after (kept_viol) | apply Kept.after (kept_hostUr) | split

theorem kept_bar0Access {k fn kind off : Nat} {t : Tlp} {s : State} : Kept s (bar0Access k fn kind off t s) := by
  unfold bar0Access
  revert s
  all_goals with_reducible repeat' first
    | (intro x; refine Kept.viaVar y x ?_ ?_; (on_goal 1 => try dsimp -zeta only [x]); (on_goal 2 => clear_value x; intro _))
    | (intro x; clear_value x) | (intro y; try dsimp -zeta only) | lift_lets | apply Kept.refl | assumption
    | apply Kept.after (kept_hostUr) | apply Kept.after (kept_bar0Bad) | apply Kept.after (kept_hostPush) | split
    | dsimp -zeta only

theorem kept_hostAccess {k kind : Nat} {t : Tlp} {s : State} : Kept s (hostAccess k kind t s) := by
  unfold hostAccess
  revert s
  all_goals with_reducible repeat' first
    | (intro x; refine Kept.viaVar y x ?_ ?_; (on_goal 1 => try dsimp -zeta only [x]); (on_goal 2 => clear_value x; intro _))
    | (intro x; clear_value x) | (intro y; try dsimp -zeta only) | lift_lets | apply Kept.refl | assumption
    | apply Kept.after (kept_aerUr) | apply Kept.after (kept_hostUr) | apply Kept.after (kept_aerUncor)
    | apply Kept.after (kept_hostPfr) | apply Kept.after (kept_hostFail) | apply Kept.after (kept_when ?_)
    | apply Kept.after (kept_bar2Access) | apply Kept.after (kept_bar0Access) | split | (apply Kept.of_eq <;> rfl)
    | dsimp -zeta only | dsimp only

theorem kept_execHostMemWrite {k : Fin 2} {t : Tlp} {s : State} : KeptBy s (execHostMemWrite k t s) :=
  kept_live (fun _ => kept_hostAccess)

theorem kept_execHostMemRead {k : Fin 2} {t : Tlp} {s : State} : KeptBy s (execHostMemRead k t s) :=
  kept_live (fun _ => kept_hostAccess)

theorem kept_execHostAtomicop {k : Fin 2} {op : AtomOp} {t : Tlp} {s : State} : KeptBy s (execHostAtomicop k op t s) := by
  unfold execHostAtomicop
  refine kept_live ?_
  all_goals with_reducible repeat' first | intro _ | apply Kept.refl | apply Kept.after (kept_hostAccess)

theorem kept_hpiCache {k : Nat} {l : HpiLine} {s : State} : Kept s (hpiCache k l s) := by
  unfold hpiCache
  revert s
  all_goals with_reducible repeat' first
    | (intro x; refine Kept.viaVar y x ?_ ?_; (on_goal 1 => try dsimp -zeta only [x]); (on_goal 2 => clear_value x; intro _))
    | (intro x; clear_value x) | (intro y; try dsimp -zeta only) | lift_lets | apply Kept.refl | assumption
    | apply Kept.after (kept_setHpi) | apply Kept.after (Kept.of_pair (by assumption) (kept_takeFree))
    | apply Kept.after (kept_takeFree) | split | (apply Kept.of_eq <;> rfl) | dsimp -zeta only

theorem kept_resolveReq {k : Nat} {r : HostReq} {x : Sum Nat Packet} {s : State} : Kept s (resolveReq k r x s) := by
  unfold resolveReq
  revert s
  all_goals with_reducible repeat' first
    | (intro x; refine Kept.viaVar y x ?_ ?_; (on_goal 1 => try dsimp -zeta only [x]); (on_goal 2 => clear_value x; intro _))
    | (intro x; clear_value x) | (intro y; try dsimp -zeta only) | lift_lets | apply Kept.refl | assumption
    | apply Kept.after (kept_hostPump) | apply Kept.after (kept_bar2Fail) | apply Kept.after (kept_setHpi) | split
    | (apply Kept.of_eq <;> rfl) | dsimp -zeta only | dsimp only

theorem kept_translationReply {k i : Nat} {s : State} : Kept s (translationReply k i s) := by
  unfold translationReply
  revert s
  all_goals with_reducible repeat' first
    | (intro x; refine Kept.viaVar y x ?_ ?_; (on_goal 1 => try dsimp -zeta only [x]); (on_goal 2 => clear_value x; intro _))
    | (intro x; dsimp -zeta only [x]; clear x) | (intro x; clear_value x) | (intro y; try dsimp -zeta only)
    | lift_lets | (apply Kept.set_fn <;> first | assumption | apply Kept.refl | apply kept_checkParity)
    | apply Kept.refl | assumption | apply Kept.after (kept_takeArrived _ _ (by assumption))
    | apply Kept.after (kept_resolveReq) | apply Kept.after (kept_when ?_) | apply Kept.after (kept_hpiCache)
    | apply Kept.after (Kept.of_pair (by assumption) (kept_checkParity)) | apply Kept.after (kept_checkParity) | split
    | (apply Kept.of_eq <;> rfl) | dsimp -zeta only | dsimp only

theorem kept_execHpiTranslationReply {k : Fin 2} {i : Nat} {s : State} : KeptBy s (execHpiTranslationReply k i s) :=
  kept_live (fun _ => kept_translationReply)

/-! ## HostOut -/

theorem kept_hostGather {k : Nat} {f : List Gather → List Gather} {s : State} : Kept s (hostGather k f s) := by
  unfold hostGather
  revert s
  all_goals with_reducible repeat' first
    | (intro x; refine Kept.viaVar y x ?_ ?_; (on_goal 1 => try dsimp -zeta only [x]); (on_goal 2 => clear_value x; intro _))
    | (intro x; clear_value x) | (intro y; try dsimp -zeta only) | lift_lets | apply Kept.refl | assumption
    | apply Kept.after (kept_forL ?_) | apply Kept.after (kept_offer) | apply Kept.after (kept_setHpi)
    | (apply Kept.of_eq <;> rfl) | dsimp -zeta only

theorem kept_npNext {k i off : Nat} {e : Egress} {s : State} : Kept s (npNext k i off e s) := by
  unfold npNext
  revert s
  all_goals with_reducible repeat' first
    | (intro x; refine Kept.viaVar y x ?_ ?_; (on_goal 1 => try dsimp -zeta only [x]); (on_goal 2 => clear_value x; intro _))
    | (intro x; clear_value x) | (intro y; try dsimp -zeta only) | lift_lets | apply Kept.refl | assumption
    | apply Kept.after (kept_setHpi) | split | (apply Kept.of_eq <;> rfl) | dsimp -zeta only

theorem kept_gatherOpen {k : Nat} {e : Egress} {s : State} : Kept s (gatherOpen k e s) := by
  unfold gatherOpen
  all_goals with_reducible repeat' first
    | apply Kept.refl | assumption | apply Kept.after (kept_setHpi) | split | (apply Kept.of_eq <;> rfl)

theorem kept_requestIssue {k i : Nat} {s : State} : Kept s (requestIssue k i s) := by
  unfold requestIssue
  revert s
  all_goals with_reducible repeat' first
    | (intro x; refine Kept.viaVar y x ?_ ?_; (on_goal 1 => try dsimp -zeta only [x]); (on_goal 2 => clear_value x; intro _))
    | (intro x; clear_value x) | (intro y; try dsimp -zeta only) | lift_lets
    | (apply Kept.set_fn <;> first | assumption | apply Kept.refl) | apply Kept.refl | assumption
    | apply Kept.after (kept_hostGather) | apply Kept.after (kept_gatherOpen) | apply Kept.after (kept_npNext)
    | apply Kept.after (kept_setTag) | apply Kept.after (kept_sendTlp) | split | (apply Kept.of_eq <;> rfl)
    | dsimp -zeta only | dsimp only

theorem kept_execHostRequestIssue {k : Fin 2} {i : Nat} {s : State} : KeptBy s (execHostRequestIssue k i s) :=
  kept_live (fun _ => kept_requestIssue)

theorem kept_lateCpl {k : Nat} {c : Cpl} {quiet : Bool} {s : State} : Kept s (lateCpl k c quiet s) := by
  unfold lateCpl
  revert s
  all_goals with_reducible repeat' first
    | (intro x; refine Kept.viaVar y x ?_ ?_; (on_goal 1 => try dsimp -zeta only [x]); (on_goal 2 => clear_value x; intro _))
    | (intro x; clear_value x) | (intro y; try dsimp -zeta only) | lift_lets | apply Kept.refl | assumption
    | apply Kept.after (kept_viol) | apply Kept.after (kept_aerUncor) | split | dsimp -zeta only

theorem kept_goodCpl {k : Nat} {c : Cpl} {t : Tag} {s : State} : Kept s (goodCpl k c t s) := by
  unfold goodCpl
  revert s
  all_goals with_reducible repeat' first
    | (intro x; refine Kept.viaVar y x ?_ ?_; (on_goal 1 => try dsimp -zeta only [x]); (on_goal 2 => clear_value x; intro _))
    | (intro x; clear_value x) | (intro y; try dsimp -zeta only) | lift_lets | apply Kept.refl | assumption
    | apply Kept.after (kept_when ?_) | apply Kept.after (kept_aerUncor) | apply Kept.after (kept_hostGather)
    | apply Kept.after (kept_setTag) | apply Kept.after (kept_stgWrite) | split | (apply Kept.of_eq <;> rfl)
    | dsimp -zeta only

theorem kept_cooledCpl {k : Nat} {c : Cpl} {t : Tag} {s : State} : Kept s (cooledCpl k c t s) := by
  unfold cooledCpl
  revert s
  all_goals with_reducible repeat' first
    | (intro x; refine Kept.viaVar y x ?_ ?_; (on_goal 1 => try dsimp -zeta only [x]); (on_goal 2 => clear_value x; intro _))
    | (intro x; clear_value x) | (intro y; try dsimp -zeta only) | lift_lets | apply Kept.refl | assumption
    | apply Kept.after (kept_setTag) | apply Kept.after (kept_lateCpl) | apply Kept.after (kept_when ?_)
    | apply Kept.after (kept_fset) | split | (apply Kept.of_eq <;> rfl) | dsimp -zeta only

theorem kept_completionArrive {k : Nat} {c : Cpl} {s : State} : Kept s (completionArrive k c s) := by
  unfold completionArrive
  revert s
  all_goals with_reducible repeat' first
    | (intro x; refine Kept.viaVar y x ?_ ?_; (on_goal 1 => try dsimp -zeta only [x]); (on_goal 2 => clear_value x; intro _))
    | (intro x; clear_value x) | (intro y; try dsimp -zeta only) | lift_lets | apply Kept.refl | assumption
    | apply Kept.after (kept_cooledCpl) | apply Kept.after (kept_goodCpl) | apply Kept.after (kept_lateCpl) | split
    | dsimp -zeta only

theorem kept_execHostCompletionArrive {k : Fin 2} {cpl : Cpl} {s : State} : KeptBy s (execHostCompletionArrive k cpl s) :=
  kept_live (fun _ => kept_completionArrive)

theorem kept_completionTimeout {k tag : Nat} {s : State} : Kept s (completionTimeout k tag s) := by
  unfold completionTimeout
  revert s
  all_goals with_reducible repeat' first
    | (intro x; refine Kept.viaVar y x ?_ ?_; (on_goal 1 => try dsimp -zeta only [x]); (on_goal 2 => clear_value x; intro _))
    | (intro x; clear_value x) | (intro y; try dsimp -zeta only) | lift_lets
    | (apply Kept.set_port <;> first | assumption | apply Kept.refl)
    | (apply Kept.set_fn <;> first | assumption | apply Kept.refl) | apply Kept.refl | assumption
    | apply Kept.after (kept_aerUncor) | apply Kept.after (kept_fset) | apply Kept.after (kept_viol)
    | apply Kept.after (kept_hostGather) | apply Kept.after (kept_setTag) | split | (apply Kept.of_eq <;> rfl)
    | dsimp -zeta only

theorem kept_execHostCompletionTimeout {k : Fin 2} {tag : Fin 4096} {s : State} : KeptBy s (execHostCompletionTimeout k tag s) :=
  kept_live (fun _ => kept_completionTimeout)

theorem kept_execTagCoolExpire {g : Fin 10} {tag : Fin 4096} {s : State} : KeptBy s (execTagCoolExpire g tag s) := by
  unfold execTagCoolExpire
  refine kept_live ?_
  all_goals with_reducible repeat' first
    | (intro x; refine Kept.viaVar y x ?_ ?_; (on_goal 1 => try dsimp -zeta only [x]); (on_goal 2 => clear_value x; intro _))
    | (intro x; clear_value x) | (intro y; try dsimp -zeta only) | lift_lets | apply Kept.refl | assumption
    | apply Kept.after (kept_setTag) | split | dsimp -zeta only

theorem kept_vdmArrive {k fn vendor dw3 : Nat} {msg : List Byte} {s : State} : Kept s (vdmArrive k fn vendor dw3 msg s) := by
  unfold vdmArrive
  revert s
  all_goals with_reducible repeat' first
    | (intro x; refine Kept.viaVar y x ?_ ?_; (on_goal 1 => try dsimp -zeta only [x]); (on_goal 2 => clear_value x; intro _))
    | (intro x; clear_value x) | (intro y; try dsimp -zeta only) | lift_lets
    | (apply Kept.set_port <;> first | assumption | apply Kept.refl)
    | (apply Kept.set_fn <;> first | assumption | apply Kept.refl) | apply Kept.refl | assumption
    | apply Kept.after (kept_hostPush) | apply Kept.after (kept_viol) | split | (apply Kept.of_eq <;> rfl)
    | dsimp -zeta only

theorem kept_execHostVdmArrive {k : Fin 2} {fn : Fin 2048} {vendor : BitVec 16} {dw3 : BitVec 32} {msg : List (BitVec 8)} {s : State} : KeptBy s (execHostVdmArrive k fn vendor dw3 msg s) :=
  kept_live (fun _ => kept_vdmArrive)

theorem kept_ltrSend {k : Nat} {s : State} : Kept s (ltrSend k s) := by
  unfold ltrSend
  revert s
  all_goals with_reducible repeat' first
    | (intro x; refine Kept.viaVar y x ?_ ?_; (on_goal 1 => try dsimp -zeta only [x]); (on_goal 2 => clear_value x; intro _))
    | (intro x; clear_value x) | (intro y; try dsimp -zeta only) | lift_lets | apply Kept.refl | assumption
    | apply Kept.after (kept_setHpi) | apply Kept.after (kept_emit) | split | (apply Kept.of_eq <;> rfl)
    | dsimp -zeta only

theorem kept_execLtrSend {k : Fin 2} {s : State} : KeptBy s (execLtrSend k s) := kept_live (fun _ => kept_ltrSend)

theorem kept_egressPush {k : Nat} {p : Packet} {s : State} : Kept s (egressPush k p s) := by
  unfold egressPush
  revert s
  all_goals with_reducible repeat' first
    | (intro x; refine Kept.viaVar y x ?_ ?_; (on_goal 1 => try dsimp -zeta only [x]); (on_goal 2 => clear_value x; intro _))
    | (intro x; clear_value x) | (intro y; try dsimp -zeta only) | lift_lets | apply Kept.refl | assumption
    | apply Kept.after (kept_setHpi) | (apply Kept.of_eq <;> rfl) | dsimp -zeta only

theorem kept_slotApply {k : Nat} {s : State} : Kept s (slotApply k s) := by
  unfold slotApply
  revert s
  all_goals with_reducible repeat' first
    | (intro x; refine Kept.viaVar y x ?_ ?_; (on_goal 1 => try dsimp -zeta only [x]); (on_goal 2 => clear_value x; intro _))
    | (intro x; clear_value x) | (intro y; try dsimp -zeta only) | lift_lets | apply Kept.refl | assumption
    | apply Kept.after (kept_forN ?_) | apply Kept.after (kept_rput) | apply Kept.after (kept_setSlotWord)
    | apply Kept.after (kept_setHpi) | split | (apply Kept.of_eq <;> rfl) | dsimp -zeta only

theorem kept_slotNext {k : Nat} {s : State} : Kept s (slotNext k s) := by
  unfold slotNext
  revert s
  all_goals with_reducible repeat' first
    | (intro x; refine Kept.viaVar y x ?_ ?_; (on_goal 1 => try dsimp -zeta only [x]); (on_goal 2 => clear_value x; intro _))
    | (intro x; clear_value x) | (intro y; try dsimp -zeta only) | lift_lets | apply Kept.refl | assumption
    | apply Kept.after (kept_setHpi) | apply Kept.after (kept_slotApply) | split | (apply Kept.of_eq <;> rfl)
    | dsimp -zeta only

theorem kept_slotScan {k : Nat} {l : List Egress} {n : Nat} {s : State} : Kept s (slotScan k l n s).2 := by
  induction n generalizing s with
  | zero => exact .refl s
  | succ n ih =>
    unfold slotScan; dsimp only
    split
    · exact .refl s
    · split
      · exact .refl s
      · exact .after ih kept_slotNext

theorem kept_egressDrop {k order : Nat} {s : State} : Kept s (egressDrop k order s) := by
  unfold egressDrop
  revert s
  all_goals with_reducible repeat' first
    | (intro x; refine Kept.viaVar y x ?_ ?_; (on_goal 1 => try dsimp -zeta only [x]); (on_goal 2 => clear_value x; intro _))
    | (intro x; clear_value x) | (intro y; try dsimp -zeta only) | lift_lets | apply Kept.refl | assumption
    | apply Kept.after (kept_setHpi) | (apply Kept.of_eq <;> rfl) | dsimp -zeta only

theorem kept_egressAt {k order off : Nat} {s : State} : Kept s (egressAt k order off s) := by
  unfold egressAt
  revert s
  all_goals with_reducible repeat' first
    | (intro x; refine Kept.viaVar y x ?_ ?_; (on_goal 1 => try dsimp -zeta only [x]); (on_goal 2 => clear_value x; intro _))
    | (intro x; clear_value x) | (intro y; try dsimp -zeta only) | lift_lets | apply Kept.refl | assumption
    | apply Kept.after (kept_setHpi) | split | (apply Kept.of_eq <;> rfl) | dsimp -zeta only

theorem kept_hostClose {k tag : Nat} {s : State} : Kept s (hostClose k tag s) := by
  unfold hostClose
  revert s
  all_goals with_reducible repeat' first
    | (intro x; refine Kept.viaVar y x ?_ ?_; (on_goal 1 => try dsimp -zeta only [x]); (on_goal 2 => clear_value x; intro _))
    | (intro x; clear_value x) | (intro y; try dsimp -zeta only) | lift_lets | apply Kept.refl | assumption
    | apply Kept.after (kept_hostPump) | apply Kept.after (kept_setHpi) | (apply Kept.of_eq <;> rfl)
    | dsimp -zeta only

theorem kept_sendWrite {k : Nat} {e : Egress} {s : State} : Kept s (sendWrite k e s).st := by
  unfold sendWrite; dsimp only
  split
  · exact .after kept_egressDrop kept_pfr
  · dsimp only
    split
    · exact .after kept_egressDrop kept_sendTlp
    · exact .after kept_egressAt kept_sendTlp

theorem kept_sendCpl {k : Nat} {e : Egress} {s : State} : Kept s (sendCpl k e s).st := by
  unfold sendCpl; dsimp only
  split
  · exact kept_egressDrop
  · split
    · dsimp only
      split
      · exact .after kept_hostUr (.after kept_hostClose kept_egressDrop)
      · exact .after kept_hostCa (.after kept_hostClose kept_egressDrop)
    · dsimp only
      split
      · exact .after kept_hostClose (.after kept_egressDrop kept_hostData)
      · exact .after kept_egressAt kept_hostData

theorem kept_sendRead {k : Nat} {e : Egress} {s : State} : Kept s (sendRead k e s).st := by
  unfold sendRead; dsimp only
  split
  · exact .after kept_offer kept_egressDrop
  · split
    · exact .after kept_zeroAnswer kept_egressDrop
    · split
      · exact .after kept_offer kept_egressDrop
      · exact .after kept_setHpi kept_egressDrop

theorem kept_sendHead {k : Nat} {e : Egress} {s : State} : Kept s (sendHead k e s).st := by
  unfold sendHead; dsimp only
  split
  · exact kept_sendCpl
  · split
    · exact kept_sendRead
    · split
      · exact .after kept_sendTlp kept_egressDrop
      · exact kept_sendWrite

theorem kept_slotSend {k q n sent : Nat} {s : State} : Kept s (slotSend k q n sent s) := by
  induction n generalizing s sent with
  | zero => exact .refl s
  | succ n ih =>
    unfold slotSend
    split
    · exact .refl s
    · dsimp only
      split
      · exact kept_sendHead
      · exact .after ih kept_sendHead

theorem kept_hostEgress {k : Nat} {s : State} : Kept s (hostEgress k s) := by
  unfold hostEgress
  split
  · exact .refl s
  · split
    · next h => exact .after kept_slotApply (Kept.of_pair h kept_slotScan)
    · next h => exact .after kept_slotNext (.after kept_slotSend (Kept.of_pair h kept_slotScan))

theorem kept_execHostEgressSend {k : Fin 2} {s : State} : KeptBy s (execHostEgressSend k s) :=
  kept_live (fun _ => kept_hostEgress)

theorem kept_slotCommit {k : Nat} {s : State} : Kept s (slotCommit k s) := by
  unfold slotCommit
  revert s
  all_goals with_reducible repeat' first
    | (intro x; refine Kept.viaVar y x ?_ ?_; (on_goal 1 => try dsimp -zeta only [x]); (on_goal 2 => clear_value x; intro _))
    | (intro x; clear_value x) | (intro y; try dsimp -zeta only) | lift_lets | apply Kept.refl | assumption
    | apply Kept.after (kept_forN ?_) | apply Kept.after (kept_setSlotWord) | apply Kept.after (kept_setHpi)
    | apply Kept.after (kept_slotApply) | split | (apply Kept.of_eq <;> rfl) | dsimp -zeta only

theorem kept_execSlotCommit {w : Writer} {k : Fin 2} {s : State} : KeptBy s (execSlotCommit w k s) := by
  unfold execSlotCommit
  refine kept_live ?_
  all_goals with_reducible repeat' first
    | intro _ | apply Kept.refl | apply Kept.after (kept_guarded ?_) | apply Kept.after (kept_slotCommit)

theorem kept_hostAnswer {k : Nat} {p : Packet} {s : State} : Kept s (hostAnswer k p s) := by
  unfold hostAnswer
  revert s
  all_goals with_reducible repeat' first
    | (intro x; refine Kept.viaVar y x ?_ ?_; (on_goal 1 => try dsimp -zeta only [x]); (on_goal 2 => clear_value x; intro _))
    | (intro x; clear_value x) | (intro y; try dsimp -zeta only) | lift_lets | apply Kept.refl | assumption
    | apply Kept.after (kept_hostClose) | apply Kept.after (kept_hostUr) | apply Kept.after (kept_hostCa)
    | apply Kept.after (kept_hostDataAll) | split | (apply Kept.of_eq <;> rfl) | dsimp -zeta only | dsimp only

end Sys2Proof.Machine
end

