-- ==== Sys2Proof/Laws/KeptPort.lean ====
section
/-!
SUPPORT. What the operations and commands of Drevlink ports, the bridge and interrupts keep (Laws/Kept.lean),
one lemma for each.
-/
set_option linter.all false
set_option linter.unusedTactic false
set_option linter.unreachableTactic false
namespace Sys2Proof.Machine

/-! ## Drev -/

theorem kept_setTrain {p st : Nat} {s : State} : Kept s (setTrain p st s) := by
  unfold setTrain
  revert s
  all_goals with_reducible repeat' first
    | (intro x; refine Kept.viaVar y x ?_ ?_; (on_goal 1 => try dsimp -zeta only [x]); (on_goal 2 => clear_value x; intro _))
    | (intro x; clear_value x) | (intro y; try dsimp -zeta only) | lift_lets | apply Kept.refl | assumption
    | apply Kept.after (kept_setLpi) | apply Kept.after (kept_when ?_) | apply Kept.after (kept_fset)
    | apply Kept.after (kept_trace) | (apply Kept.of_eq <;> rfl) | dsimp -zeta only

theorem kept_setLst {p v : Nat} {s : State} : Kept s (setLst p v s) := by
  unfold setLst
  revert s
  all_goals with_reducible repeat' first
    | (intro x; refine Kept.viaVar y x ?_ ?_; (on_goal 1 => try dsimp -zeta only [x]); (on_goal 2 => clear_value x; intro _))
    | (intro x; clear_value x) | (intro y; try dsimp -zeta only) | lift_lets | apply Kept.refl | assumption
    | apply Kept.after (kept_trace) | apply Kept.after (kept_setLpi) | split | (apply Kept.of_eq <;> rfl)
    | dsimp -zeta only

theorem kept_sendMl {p ty : Nat} {payload : List Nat} {s : State} : Kept s (sendMl p ty payload s) := by
  unfold sendMl
  all_goals with_reducible repeat' first | apply Kept.refl | apply Kept.after (kept_emit)

theorem kept_violFrame {p code object value : Nat} {f : Frame} {s : State} : Kept s (violFrame p code object value f s) := by
  unfold violFrame
  all_goals with_reducible repeat' first | apply Kept.refl | apply Kept.after (kept_viol)

theorem kept_violPort {p code object value : Nat} {s : State} : Kept s (violPort p code object value s) := by
  unfold violPort
  all_goals with_reducible repeat' first | apply Kept.refl | apply Kept.after (kept_viol)

theorem kept_hostFailRecord {p : Nat} {req : Packet} {s : State} : Kept s (hostFailRecord p req s) := by
  unfold hostFailRecord
  all_goals with_reducible repeat' first
    | intro _ | apply Kept.refl | apply Kept.after (kept_when ?_) | apply Kept.after (kept_viol)

theorem kept_lpiFail {p csts xv : Nat} {req : Packet} {s : State} : Kept s (lpiFail p csts xv req s) := by
  unfold lpiFail
  all_goals with_reducible repeat' first
    | apply Kept.refl | apply Kept.after (kept_offer) | apply Kept.after (kept_reply) | (apply Kept.of_eq <;> rfl)

theorem kept_lpiGather {p : Nat} {f : List Gather → List Gather} {s : State} : Kept s (lpiGather p f s) := by
  unfold lpiGather
  revert s
  all_goals with_reducible repeat' first
    | (intro x; refine Kept.viaVar y x ?_ ?_; (on_goal 1 => try dsimp -zeta only [x]); (on_goal 2 => clear_value x; intro _))
    | (intro x; clear_value x) | (intro y; try dsimp -zeta only) | lift_lets | apply Kept.refl | assumption
    | apply Kept.after (kept_forL ?_) | apply Kept.after (kept_offer) | apply Kept.after (kept_setLpi)
    | (apply Kept.of_eq <;> rfl) | dsimp -zeta only

theorem kept_flushPosted {g : Nat} {p : Packet} {s : State} : Kept s (flushPosted g p s) := by
  unfold flushPosted
  all_goals with_reducible repeat' first
    | (apply Kept.set_fn <;> first | assumption | apply Kept.refl) | apply Kept.refl | assumption
    | apply Kept.after (kept_pfr) | split | (apply Kept.of_eq <;> rfl)

theorem kept_flushAnswer {p : Nat} {req : Packet} {s : State} : Kept s (flushAnswer p req s) := by
  unfold flushAnswer
  all_goals with_reducible repeat' first
    | apply Kept.refl | assumption | apply Kept.after (kept_offer) | apply Kept.after (kept_reply)
    | apply Kept.after (kept_lpiFail) | apply Kept.after (kept_hostFailRecord) | split | (apply Kept.of_eq <;> rfl)

theorem kept_gateDrop {g : Nat} {f : Packet → State → State} {s : State} (h0 : ∀ a0 y, Kept y (f a0 y)) : Kept s (gateDrop g f s) := by
  unfold gateDrop
  revert s
  all_goals with_reducible repeat' first
    | (intro x; refine Kept.viaVar y x ?_ ?_; (on_goal 1 => try dsimp -zeta only [x]); (on_goal 2 => clear_value x; intro _))
    | (intro x; clear_value x) | (intro y; try dsimp -zeta only) | lift_lets | apply Kept.refl | assumption
    | apply Kept.after (kept_forL ?_) | apply Kept.after (kept_offer) | apply Kept.after (kept_setGate)
    | apply Kept.after (h0 _ _) | (apply Kept.of_eq <;> rfl) | dsimp -zeta only

theorem kept_flushOne {p : Nat} {x : Packet} {s : State} : Kept s (flushOne p x s) := by
  unfold flushOne
  all_goals with_reducible repeat' first
    | intro _ | apply Kept.refl | assumption | apply Kept.after (kept_flushPosted)
    | apply Kept.after (kept_flushAnswer) | apply Kept.after (kept_setLpi) | split | (apply Kept.of_eq <;> rfl)

theorem kept_freeTags {g : Nat} {s : State} : Kept s (freeTags g s) := Kept.set_port _ (.refl s)

theorem kept_lpiFlush {p cause : Nat} {s : State} : Kept s (lpiFlush p cause s) := by
  unfold lpiFlush
  revert s
  all_goals with_reducible repeat' first
    | (intro x; refine Kept.viaVar y x ?_ ?_; (on_goal 1 => try dsimp -zeta only [x]); (on_goal 2 => clear_value x; intro _))
    | (intro x; clear_value x) | (intro y; try dsimp -zeta only) | lift_lets | apply Kept.refl | assumption
    | apply Kept.after (kept_parkNi) | apply Kept.after (kept_trace) | apply Kept.after (kept_forL ?_)
    | apply Kept.after (kept_flushPosted) | apply Kept.after (kept_flushOne) | apply Kept.after (kept_flushAnswer)
    | apply Kept.after (kept_offer) | apply Kept.after (kept_when ?_) | apply Kept.after (kept_gateDrop ?_)
    | apply Kept.after (kept_freeTags) | apply Kept.after (kept_setLpi) | apply Kept.after (kept_setLst)
    | apply Kept.after (kept_fset) | apply Kept.after (kept_fsat) | split | (apply Kept.of_eq <;> rfl)
    | dsimp -zeta only | dsimp only

theorem kept_leaveActive {p : Nat} {agreed : Bool} {s : State} : Kept s (leaveActive p agreed s) := by
  unfold leaveActive
  all_goals with_reducible repeat' first
    | apply Kept.refl | assumption | apply Kept.after (kept_setLpi) | split | (apply Kept.of_eq <;> rfl)

theorem kept_pfClean {p : Nat} {s : State} : Kept s (pfClean p s) := by
  unfold pfClean
  revert s
  all_goals with_reducible repeat' first
    | (intro x; refine Kept.viaVar y x ?_ ?_; (on_goal 1 => try dsimp -zeta only [x]); (on_goal 2 => clear_value x; intro _))
    | (intro x; clear_value x) | (intro y; try dsimp -zeta only) | lift_lets | apply Kept.refl | assumption
    | apply Kept.after (kept_setLpi) | (apply Kept.of_eq <;> rfl) | dsimp -zeta only

theorem kept_departLink {p : Nat} {s : State} : Kept s (departLink p s) := by
  unfold departLink
  revert s
  all_goals with_reducible repeat' first
    | (intro x; refine Kept.viaVar y x ?_ ?_; (on_goal 1 => try dsimp -zeta only [x]); (on_goal 2 => clear_value x; intro _))
    | (intro x; clear_value x) | (intro y; try dsimp -zeta only) | lift_lets | apply Kept.refl | assumption
    | apply Kept.after (kept_pfClean) | apply Kept.after (kept_setLpi) | apply Kept.after (kept_lpiFlush)
    | apply Kept.after (kept_setLst) | split | (apply Kept.of_eq <;> rfl) | dsimp -zeta only | dsimp only

theorem kept_execLinkDeparture {p : Fin 8} {s : State} : KeptBy s (execLinkDeparture p s) :=
  kept_live (fun _ => kept_departLink)

theorem kept_execGraceExpire {p : Fin 8} {s : State} : KeptBy s (execGraceExpire p s) := by
  unfold execGraceExpire
  refine kept_live ?_
  all_goals with_reducible repeat' first
    | intro _ | apply Kept.refl | assumption | apply Kept.after (kept_lpiFlush) | split

theorem kept_portOpen {p : Nat} {s : State} : Kept s (portOpen p s) := by
  unfold portOpen
  all_goals with_reducible repeat' first
    | intro _ | apply Kept.refl | apply Kept.after (kept_when ?_) | apply Kept.after (kept_unparkNi)

theorem kept_enterActive {p : Nat} {s : State} : Kept s (enterActive p s) := by
  unfold enterActive
  revert s
  all_goals with_reducible repeat' first
    | (intro x; refine Kept.viaVar y x ?_ ?_; (on_goal 1 => try dsimp -zeta only [x]); (on_goal 2 => clear_value x; intro _))
    | (intro x; clear_value x) | (intro y; try dsimp -zeta only) | lift_lets | apply Kept.refl | assumption
    | apply Kept.after (kept_departLink) | apply Kept.after (kept_lpiFlush) | apply Kept.after (kept_setTrain)
    | apply Kept.after (kept_fset) | apply Kept.after (kept_setLpi) | apply Kept.after (kept_setLst)
    | apply Kept.after (kept_portOpen) | split | (apply Kept.of_eq <;> rfl) | dsimp -zeta only

/-! ## Lanes -/

theorem kept_toDetect {p : Nat} {s : State} : Kept s (toDetect p s) := by
  unfold toDetect
  revert s
  all_goals with_reducible repeat' first
    | (intro x; refine Kept.viaVar y x ?_ ?_; (on_goal 1 => try dsimp -zeta only [x]); (on_goal 2 => clear_value x; intro _))
    | (intro x; clear_value x) | (intro y; try dsimp -zeta only) | lift_lets | apply Kept.refl | assumption
    | apply Kept.after (kept_setTrain) | apply Kept.after (kept_setLpi) | apply Kept.after (kept_fset)
    | (apply Kept.of_eq <;> rfl) | dsimp -zeta only

theorem kept_toConfig {p : Nat} {s : State} : Kept s (toConfig p s) := by
  unfold toConfig
  revert s
  all_goals with_reducible repeat' first
    | (intro x; refine Kept.viaVar y x ?_ ?_; (on_goal 1 => try dsimp -zeta only [x]); (on_goal 2 => clear_value x; intro _))
    | (intro x; clear_value x) | (intro y; try dsimp -zeta only) | lift_lets | apply Kept.refl | assumption
    | apply Kept.after (kept_setTrain) | apply Kept.after (kept_sendMl) | apply Kept.after (kept_setLpi)
    | (apply Kept.of_eq <;> rfl) | dsimp -zeta only

theorem kept_toFailed {p cause : Nat} {s : State} : Kept s (toFailed p cause s) := by
  unfold toFailed
  all_goals with_reducible repeat' first
    | apply Kept.refl | apply Kept.after (kept_setTrain) | apply Kept.after (kept_fset)

theorem kept_putTaps {lane : Nat} {pre main post : Int} {s : State} : Kept s (putTaps lane pre main post s) := by
  unfold putTaps
  all_goals with_reducible repeat' first | apply Kept.refl | apply Kept.after (kept_fset)

theorem kept_takeTaps {p : Nat} {s : State} : Kept s (takeTaps p s) := by
  unfold takeTaps
  revert s
  all_goals with_reducible repeat' first
    | (intro x; refine Kept.viaVar y x ?_ ?_; (on_goal 1 => try dsimp -zeta only [x]); (on_goal 2 => clear_value x; intro _))
    | (intro x; clear_value x) | (intro y; try dsimp -zeta only) | lift_lets | apply Kept.refl | assumption
    | apply Kept.after (kept_forL ?_) | apply Kept.after (kept_putTaps) | apply Kept.after (kept_fset)
    | dsimp -zeta only

theorem kept_toEq {p : Nat} {fresh : Bool} {s : State} : Kept s (toEq p fresh s) := by
  unfold toEq
  revert s
  all_goals with_reducible repeat' first
    | (intro x; refine Kept.viaVar y x ?_ ?_; (on_goal 1 => try dsimp -zeta only [x]); (on_goal 2 => clear_value x; intro _))
    | (intro x; clear_value x) | (intro y; try dsimp -zeta only) | lift_lets | apply Kept.refl | assumption
    | apply Kept.after (kept_when ?_) | apply Kept.after (kept_takeTaps) | apply Kept.after (kept_fset)
    | apply Kept.after (kept_setTrain) | apply Kept.after (kept_setLpi) | (apply Kept.of_eq <;> rfl)
    | dsimp -zeta only

theorem kept_toLock {p : Nat} {retr : Bool} {s : State} : Kept s (toLock p retr s) := by
  unfold toLock
  revert s
  all_goals with_reducible repeat' first
    | (intro x; refine Kept.viaVar y x ?_ ?_; (on_goal 1 => try dsimp -zeta only [x]); (on_goal 2 => clear_value x; intro _))
    | (intro x; clear_value x) | (intro y; try dsimp -zeta only) | lift_lets | apply Kept.refl | assumption
    | apply Kept.after (kept_setTrain) | apply Kept.after (kept_setLpi) | (apply Kept.of_eq <;> rfl)
    | dsimp -zeta only

theorem kept_toTest {p : Nat} {s : State} : Kept s (toTest p s) := by
  unfold toTest
  all_goals with_reducible repeat' first
    | apply Kept.refl | apply Kept.after (kept_setTrain) | apply Kept.after (kept_leaveActive)
    | apply Kept.after (kept_fset)

theorem kept_failedAttempt {p : Nat} {s : State} : Kept s (failedAttempt p s) := by
  unfold failedAttempt
  revert s
  all_goals with_reducible repeat' first
    | (intro x; refine Kept.viaVar y x ?_ ?_; (on_goal 1 => try dsimp -zeta only [x]); (on_goal 2 => clear_value x; intro _))
    | (intro x; clear_value x) | (intro y; try dsimp -zeta only) | lift_lets | apply Kept.refl | assumption
    | apply Kept.after (kept_fset) | apply Kept.after (kept_toFailed) | apply Kept.after (kept_toConfig) | split
    | dsimp -zeta only

theorem kept_restartPort {p : Nat} {s : State} : Kept s (restartPort p s) := by
  unfold restartPort
  all_goals with_reducible repeat' first
    | apply Kept.refl | apply Kept.after (kept_toDetect) | apply Kept.after (kept_fset)

theorem kept_startRetrain {p : Nat} {s : State} : Kept s (startRetrain p s) := by
  unfold startRetrain
  all_goals with_reducible repeat' first
    | apply Kept.refl | assumption | apply Kept.after (kept_sendMl) | apply Kept.after (kept_toLock)
    | apply Kept.after (kept_leaveActive) | apply Kept.after (kept_fsat) | split

theorem kept_linkEnable {p : Nat} {s : State} : Kept s (linkEnable p s) := by
  unfold linkEnable
  all_goals with_reducible repeat' first
    | intro _ | apply Kept.refl | assumption | apply Kept.after (kept_when ?_) | apply Kept.after (kept_startWake)
    | apply Kept.after (kept_restartPort) | apply Kept.after (kept_fset) | split

theorem kept_linkDisable {p : Nat} {s : State} : Kept s (linkDisable p s) := by
  unfold linkDisable
  all_goals with_reducible repeat' first
    | intro _ | apply Kept.refl | assumption | apply Kept.after (kept_when ?_) | apply Kept.after (kept_sendMl)
    | apply Kept.after (kept_setTrain) | apply Kept.after (kept_leaveActive) | apply Kept.after (kept_fset) | split

theorem kept_execLnkEnable {w : Writer} {p : Fin 8} {s : State} : KeptBy s (execLnkEnable w p s) := by
  unfold execLnkEnable
  refine kept_live ?_
  all_goals with_reducible repeat' first
    | intro _ | apply Kept.refl | apply Kept.after (kept_guarded ?_) | apply Kept.after (kept_linkEnable)

theorem kept_execLnkDisable {w : Writer} {p : Fin 8} {s : State} : KeptBy s (execLnkDisable w p s) := by
  unfold execLnkDisable
  refine kept_live ?_
  all_goals with_reducible repeat' first
    | intro _ | apply Kept.refl | apply Kept.after (kept_guarded ?_) | apply Kept.after (kept_linkDisable)

theorem kept_linkMode {p : Nat} {test : Bool} {s : State} : Kept s (linkMode p test s) := by
  unfold linkMode
  revert s
  all_goals with_reducible repeat' first
    | (intro x; refine Kept.viaVar y x ?_ ?_; (on_goal 1 => try dsimp -zeta only [x]); (on_goal 2 => clear_value x; intro _))
    | (intro x; clear_value x) | (intro y; try dsimp -zeta only) | lift_lets | apply Kept.refl | assumption
    | apply Kept.after (kept_fset) | apply Kept.after (kept_when ?_) | apply Kept.after (kept_toTest)
    | apply Kept.after (kept_toDetect) | split | dsimp -zeta only

theorem kept_execLnkModeWrite {w : Writer} {p : Fin 8} {test : Bool} {s : State} : KeptBy s (execLnkModeWrite w p test s) := by
  unfold execLnkModeWrite
  refine kept_live ?_
  all_goals with_reducible repeat' first
    | intro _ | apply Kept.refl | apply Kept.after (kept_guarded ?_) | apply Kept.after (kept_linkMode)

theorem kept_execLnkCtlRetrain {w : Writer} {p : Fin 8} {s : State} : KeptBy s (execLnkCtlRetrain w p s) := by
  unfold execLnkCtlRetrain
  refine kept_live ?_
  all_goals with_reducible repeat' first
    | intro _ | apply Kept.refl | apply Kept.after (kept_guarded ?_) | apply Kept.after (kept_when ?_)
    | apply Kept.after (kept_startRetrain)

theorem kept_renewGate {g : Nat} {s : State} : Kept s (renewGate g s) := by
  unfold renewGate
  revert s
  all_goals with_reducible repeat' first
    | (intro x; refine Kept.viaVar y x ?_ ?_; (on_goal 1 => try dsimp -zeta only [x]); (on_goal 2 => clear_value x; intro _))
    | (intro x; clear_value x) | (intro y; try dsimp -zeta only) | lift_lets | apply Kept.refl | assumption
    | apply Kept.after (kept_forN ?_) | apply Kept.after (kept_rput) | apply Kept.after (kept_sput)
    | apply Kept.after (kept_setInjCnt) | apply Kept.after (kept_setFeeder) | apply Kept.after (kept_setUsedUnits)
    | dsimp -zeta only

theorem kept_renewReach {ps : List Nat} {s : State} : Kept s (renewReach ps s) := by
  unfold renewReach
  all_goals with_reducible repeat' first
    | intro _ | apply Kept.refl | apply Kept.after (kept_forL ?_) | apply Kept.after (kept_putRoute)

theorem kept_ensureFlushed {p : Nat} {s : State} : Kept s (ensureFlushed p s) := by
  unfold ensureFlushed
  revert s
  all_goals with_reducible repeat' first
    | (intro x; refine Kept.viaVar y x ?_ ?_; (on_goal 1 => try dsimp -zeta only [x]); (on_goal 2 => clear_value x; intro _))
    | (intro x; clear_value x) | (intro y; try dsimp -zeta only) | lift_lets | apply Kept.refl | assumption
    | apply Kept.after (kept_departLink) | apply Kept.after (kept_when ?_) | apply Kept.after (kept_lpiFlush)
    | dsimp -zeta only

theorem kept_changeWidth {p v : Nat} {s : State} : Kept s (changeWidth p v s) := by
  unfold changeWidth
  revert s
  all_goals with_reducible repeat' first
    | (intro x; refine Kept.viaVar y x ?_ ?_; (on_goal 1 => try dsimp -zeta only [x]); (on_goal 2 => clear_value x; intro _))
    | (intro x; clear_value x) | (intro y; try dsimp -zeta only) | lift_lets | apply Kept.refl | assumption
    | apply Kept.after (kept_forL ?_) | apply Kept.after (kept_ensureFlushed) | apply Kept.after (kept_fset)
    | apply Kept.after (kept_renewReach) | apply Kept.after (kept_renewGate) | dsimp -zeta only

theorem kept_widthWrite {p v : Nat} {s : State} : Kept s (widthWrite p v s) := by
  unfold widthWrite
  all_goals with_reducible repeat' first
    | apply Kept.refl | assumption | apply Kept.after (kept_changeWidth) | split

theorem kept_execWidthChange {w : Writer} {p : Fin 8} {width : BitVec 2} {s : State} : KeptBy s (execWidthChange w p width s) := by
  unfold execWidthChange
  refine kept_live ?_
  all_goals with_reducible repeat' first
    | intro _ | apply Kept.refl | assumption | apply Kept.after (kept_guardedP ?_) | apply Kept.after (kept_busyWrite)
    | apply Kept.after (kept_widthWrite) | split

theorem kept_mlRecv {p ty : Nat} {f : State → State} {s : State} (h0 : ∀ y, Kept y (f y)) : Kept s (mlRecv p ty f s) := by
  unfold mlRecv
  all_goals with_reducible repeat' first
    | intro _ | apply Kept.refl | assumption | apply Kept.after (kept_fset) | apply Kept.after (h0 _) | split

theorem kept_helloSend {p : Nat} {s : State} : Kept s (helloSend p s) := by
  unfold helloSend
  revert s
  all_goals with_reducible repeat' first
    | (intro x; refine Kept.viaVar y x ?_ ?_; (on_goal 1 => try dsimp -zeta only [x]); (on_goal 2 => clear_value x; intro _))
    | (intro x; clear_value x) | (intro y; try dsimp -zeta only) | lift_lets | apply Kept.refl | assumption
    | apply Kept.after (kept_sendMl) | apply Kept.after (kept_setLpi) | apply Kept.after (kept_when ?_) | split
    | (apply Kept.of_eq <;> rfl) | dsimp -zeta only | dsimp only

theorem kept_execHelloSend {p : Fin 8} {s : State} : KeptBy s (execHelloSend p s) :=
  kept_live (fun _ => kept_helloSend)

theorem kept_configOrFail {p width : Nat} {s : State} : Kept s (configOrFail p width s) := by
  unfold configOrFail
  revert s
  all_goals with_reducible repeat' first
    | (intro x; refine Kept.viaVar y x ?_ ?_; (on_goal 1 => try dsimp -zeta only [x]); (on_goal 2 => clear_value x; intro _))
    | (intro x; clear_value x) | (intro y; try dsimp -zeta only) | lift_lets | apply Kept.refl | assumption
    | apply Kept.after (kept_toConfig) | apply Kept.after (kept_toFailed) | split | dsimp -zeta only

theorem kept_hello {p rate width ident : Nat} {s : State} : Kept s (hello p rate width ident s) := by
  unfold hello
  revert s
  all_goals with_reducible repeat' first
    | (intro x; refine Kept.viaVar y x ?_ ?_; (on_goal 1 => try dsimp -zeta only [x]); (on_goal 2 => clear_value x; intro _))
    | (intro x; clear_value x) | (intro y; try dsimp -zeta only) | lift_lets | apply Kept.refl | assumption
    | apply Kept.after (kept_rput) | apply Kept.after (kept_fset) | apply Kept.after (kept_setLpi)
    | apply Kept.after (kept_configOrFail) | apply Kept.after (kept_leaveActive) | apply Kept.after (kept_restartPort)
    | split | (apply Kept.of_eq <;> rfl) | dsimp -zeta only | dsimp only

theorem kept_execHello {p : Fin 8} {rate : BitVec 2} {loopOk : Bool} {width : BitVec 2} {ident : BitVec 64} {s : State} : KeptBy s (execHello p rate loopOk width ident s) := by
  unfold execHello
  refine kept_live ?_
  all_goals with_reducible repeat' first
    | intro _ | apply Kept.refl | apply Kept.after (kept_mlRecv ?_) | apply Kept.after (kept_hello)

theorem kept_rateRecv {p rate : Nat} {s : State} : Kept s (rateRecv p rate s) := by
  unfold rateRecv
  all_goals with_reducible repeat' first
    | intro _ | apply Kept.refl | apply Kept.after (kept_when ?_) | apply Kept.after (kept_toEq)

theorem kept_execRate {p : Fin 8} {rate : BitVec 2} {s : State} : KeptBy s (execRate p rate s) := by
  unfold execRate
  refine kept_live ?_
  all_goals with_reducible repeat' first
    | intro _ | apply Kept.refl | apply Kept.after (kept_mlRecv ?_) | apply Kept.after (kept_rateRecv)

theorem kept_eqReq {p pos tap : Nat} {up : Bool} {s : State} : Kept s (eqReq p pos tap up s) := by
  unfold eqReq
  revert s
  all_goals with_reducible repeat' first
    | (intro x; refine Kept.viaVar y x ?_ ?_; (on_goal 1 => try dsimp -zeta only [x]); (on_goal 2 => clear_value x; intro _))
    | (intro x; clear_value x) | (intro y; try dsimp -zeta only) | lift_lets | apply Kept.refl | assumption
    | apply Kept.after (kept_sendMl) | apply Kept.after (kept_putTaps) | split | dsimp -zeta only

theorem kept_execEqReq {p : Fin 8} {lane : Fin 16} {tap : Fin 3} {up : Bool} {s : State} : KeptBy s (execEqReq p lane tap up s) := by
  unfold execEqReq
  refine kept_live ?_
  all_goals with_reducible repeat' first
    | intro _ | apply Kept.refl | apply Kept.after (kept_mlRecv ?_) | apply Kept.after (kept_eqReq)

theorem kept_execEqAck {p : Fin 8} {lane : Fin 16} {pre main post : BitVec 8} {clamped : Bool} {s : State} :
    KeptBy s (execEqAck p lane pre main post clamped s) := kept_live (fun _ => kept_mlRecv (fun y => Kept.refl y))

theorem kept_eqExit {p : Nat} {s : State} : Kept s (eqExit p s) := by
  unfold eqExit
  all_goals with_reducible repeat' first
    | intro _ | apply Kept.refl | apply Kept.after (kept_when ?_) | apply Kept.after (kept_toLock)

theorem kept_execEqDone {p : Fin 8} {s : State} : KeptBy s (execEqDone p s) := by
  unfold execEqDone
  refine kept_live ?_
  all_goals with_reducible repeat' first
    | intro _ | apply Kept.refl | apply Kept.after (kept_mlRecv ?_) | apply Kept.after (kept_when ?_)
    | apply Kept.after (kept_eqExit) | apply Kept.after (kept_setLpi) | (apply Kept.of_eq <;> rfl)

theorem kept_eqPass {p : Nat} {s : State} : Kept s (eqPass p s) := by
  unfold eqPass
  revert s
  all_goals with_reducible repeat' first
    | (intro x; refine Kept.viaVar y x ?_ ?_; (on_goal 1 => try dsimp -zeta only [x]); (on_goal 2 => clear_value x; intro _))
    | (intro x; clear_value x) | (intro y; try dsimp -zeta only) | lift_lets | apply Kept.refl | assumption
    | apply Kept.after (kept_eqExit) | apply Kept.after (kept_sendMl) | apply Kept.after (kept_setLpi) | split
    | (apply Kept.of_eq <;> rfl) | dsimp -zeta only

theorem kept_execEqCheckPass {p : Fin 8} {s : State} : KeptBy s (execEqCheckPass p s) :=
  kept_live (fun _ => kept_eqPass)

theorem kept_lockExit {p : Nat} {s : State} : Kept s (lockExit p s) := by
  unfold lockExit
  all_goals with_reducible repeat' first
    | intro _ | apply Kept.refl | apply Kept.after (kept_when ?_) | apply Kept.after (kept_enterActive)

theorem kept_execLocked {p : Fin 8} {s : State} : KeptBy s (execLocked p s) := by
  unfold execLocked
  refine kept_live ?_
  all_goals with_reducible repeat' first
    | intro _ | apply Kept.refl | apply Kept.after (kept_mlRecv ?_) | apply Kept.after (kept_when ?_)
    | apply Kept.after (kept_lockExit) | apply Kept.after (kept_setLpi) | (apply Kept.of_eq <;> rfl)

theorem kept_execRetrain {p : Fin 8} {s : State} : KeptBy s (execRetrain p s) := by
  unfold execRetrain
  refine kept_live ?_
  all_goals with_reducible repeat' first
    | intro _ | apply Kept.refl | apply Kept.after (kept_mlRecv ?_) | apply Kept.after (kept_startRetrain)

theorem kept_execLinkDown {p : Fin 8} {s : State} : KeptBy s (execLinkDown p s) := by
  unfold execLinkDown
  refine kept_live ?_
  all_goals with_reducible repeat' first
    | intro _ | apply Kept.refl | apply Kept.after (kept_mlRecv ?_) | apply Kept.after (kept_when ?_)
    | apply Kept.after (kept_toDetect) | apply Kept.after (kept_leaveActive)

theorem kept_sleepExit {p : Nat} {s : State} : Kept s (sleepExit p s) := by
  unfold sleepExit
  all_goals with_reducible repeat' first
    | intro _ | apply Kept.refl | apply Kept.after (kept_when ?_) | apply Kept.after (kept_beginEntry)
    | apply Kept.after (kept_setTrain) | apply Kept.after (kept_leaveActive)

theorem kept_leaveSleep {p : Nat} {s : State} : Kept s (leaveSleep p s) := by
  unfold leaveSleep
  all_goals with_reducible repeat' first
    | intro _ | apply Kept.refl | apply Kept.after (kept_when ?_) | apply Kept.after (kept_toDetect)
    | apply Kept.after (kept_emit)

theorem kept_execSleep {p : Fin 8} {s : State} : KeptBy s (execSleep p s) := by
  unfold execSleep
  refine kept_live ?_
  all_goals with_reducible repeat' first
    | intro _ | apply Kept.refl | apply Kept.after (kept_mlRecv ?_) | apply Kept.after (kept_when ?_)
    | apply Kept.after (kept_sleepExit) | apply Kept.after (kept_setLpi) | (apply Kept.of_eq <;> rfl)

theorem kept_loopReq {p mask : Nat} {enter : Bool} {s : State} : Kept s (loopReq p mask enter s) := by
  unfold loopReq
  revert s
  all_goals with_reducible repeat' first
    | (intro x; refine Kept.viaVar y x ?_ ?_; (on_goal 1 => try dsimp -zeta only [x]); (on_goal 2 => clear_value x; intro _))
    | (intro x; clear_value x) | (intro y; try dsimp -zeta only) | lift_lets | apply Kept.refl | assumption
    | apply Kept.after (kept_enter) | apply Kept.after (kept_sendMl) | apply Kept.after (kept_toTest)
    | apply Kept.after (kept_setLpi) | apply Kept.after (kept_toDetect) | split | (apply Kept.of_eq <;> rfl)
    | dsimp -zeta only

theorem kept_execLoopReq {p : Fin 8} {mask : BitVec 16} {enter : Bool} {s : State} : KeptBy s (execLoopReq p mask enter s) := by
  unfold execLoopReq
  refine kept_live ?_
  all_goals with_reducible repeat' first
    | intro _ | apply Kept.refl | apply Kept.after (kept_mlRecv ?_) | apply Kept.after (kept_loopReq)
    | apply Kept.after (kept_enter)

theorem kept_execLoopAck {p : Fin 8} {done : Bool} {s : State} : KeptBy s (execLoopAck p done s) :=
  kept_live (fun _ => kept_mlRecv (fun y => Kept.refl y))

theorem kept_execMlInvalidMessage {p : Fin 8} {type : BitVec 8} {s : State} : KeptBy s (execMlInvalidMessage p type s) := by
  unfold execMlInvalidMessage
  refine kept_live ?_
  all_goals with_reducible repeat' first
    | intro _ | apply Kept.refl | apply Kept.after (kept_when ?_) | apply Kept.after (kept_violPort)

theorem kept_execMgmtMessageCrcError {p : Fin 8} {s : State} : KeptBy s (execMgmtMessageCrcError p s) := by
  unfold execMgmtMessageCrcError
  refine kept_live ?_
  all_goals with_reducible repeat' first
    | intro _ | apply Kept.refl | apply Kept.after (kept_when ?_) | apply Kept.after (kept_fsat)

theorem kept_trainTimeout {p : Nat} {s : State} : Kept s (trainTimeout p s) := by
  unfold trainTimeout
  revert s
  all_goals with_reducible repeat' first
    | (intro x; refine Kept.viaVar y x ?_ ?_; (on_goal 1 => try dsimp -zeta only [x]); (on_goal 2 => clear_value x; intro _))
    | (intro x; dsimp -zeta only [x]; clear x) | (intro x; clear_value x) | (intro y; try dsimp -zeta only)
    | lift_lets | apply Kept.refl | assumption | apply Kept.after (kept_when ?_)
    | apply Kept.after (kept_failedAttempt) | apply Kept.after (kept_toEq) | split | dsimp -zeta only

theorem kept_execTrainingTimeout {p : Fin 8} {s : State} : KeptBy s (execTrainingTimeout p s) := by
  unfold execTrainingTimeout
  refine kept_live ?_
  all_goals with_reducible repeat' first
    | intro _ | apply Kept.refl | apply Kept.after (kept_when ?_) | apply Kept.after (kept_trainTimeout)

theorem kept_codeword {p corrected : Nat} {uncorrectable : Bool} {s : State} : Kept s (codeword p corrected uncorrectable s) := by
  unfold codeword
  revert s
  all_goals with_reducible repeat' first
    | (intro x; refine Kept.viaVar y x ?_ ?_; (on_goal 1 => try dsimp -zeta only [x]); (on_goal 2 => clear_value x; intro _))
    | (intro x; clear_value x) | (intro y; try dsimp -zeta only) | lift_lets | apply Kept.refl | assumption
    | apply Kept.after (kept_fsat) | split | dsimp -zeta only

theorem kept_execCodewordReceive {p : Fin 8} {lane : Fin 4} {corrected : Nat} {uncorrectable : Bool} {s : State} : KeptBy s (execCodewordReceive p lane corrected uncorrectable s) :=
  kept_live (fun _ => kept_codeword)

theorem kept_lockGain {p lane : Nat} {inverted : Bool} {s : State} : Kept s (lockGain p lane inverted s) := by
  unfold lockGain
  revert s
  all_goals with_reducible repeat' first
    | (intro x; refine Kept.viaVar y x ?_ ?_; (on_goal 1 => try dsimp -zeta only [x]); (on_goal 2 => clear_value x; intro _))
    | (intro x; clear_value x) | (intro y; try dsimp -zeta only) | lift_lets | apply Kept.refl | assumption
    | apply Kept.after (kept_fset) | apply Kept.after (kept_lockExit) | apply Kept.after (kept_sendMl)
    | apply Kept.after (kept_setLpi) | split | (apply Kept.of_eq <;> rfl) | dsimp -zeta only

theorem kept_execCodewordLockGain {p : Fin 8} {lane : Fin 4} {inverted : Bool} {s : State} : KeptBy s (execCodewordLockGain p lane inverted s) :=
  kept_live (fun _ => kept_lockGain)

theorem kept_lockLoss {p lane : Nat} {s : State} : Kept s (lockLoss p lane s) := by
  unfold lockLoss
  revert s
  all_goals with_reducible repeat' first
    | (intro x; refine Kept.viaVar y x ?_ ?_; (on_goal 1 => try dsimp -zeta only [x]); (on_goal 2 => clear_value x; intro _))
    | (intro x; clear_value x) | (intro y; try dsimp -zeta only) | lift_lets | apply Kept.refl | assumption
    | apply Kept.after (kept_startRetrain) | apply Kept.after (kept_setLpi) | split | (apply Kept.of_eq <;> rfl)
    | dsimp -zeta only

theorem kept_execCodewordLockLoss {p : Fin 8} {lane : Fin 4} {s : State} : KeptBy s (execCodewordLockLoss p lane s) :=
  kept_live (fun _ => kept_lockLoss)

theorem kept_wakePattern {p : Nat} {s : State} : Kept s (wakePattern p s) := by
  unfold wakePattern
  all_goals with_reducible repeat' first
    | intro _ | apply Kept.refl | assumption | apply Kept.after (kept_startWake) | apply Kept.after (kept_when ?_)
    | apply Kept.after (kept_toDetect) | apply Kept.after (kept_fset) | split

theorem kept_execWakePatternDetect {p : Fin 8} {s : State} : KeptBy s (execWakePatternDetect p s) :=
  kept_live (fun _ => kept_wakePattern)

theorem kept_laneGo {p lane kind : Nat} {s : State} : Kept s (laneGo p lane kind s) := by
  unfold laneGo
  revert s
  all_goals with_reducible repeat' first
    | (intro x; refine Kept.viaVar y x ?_ ?_; (on_goal 1 => try dsimp -zeta only [x]); (on_goal 2 => clear_value x; intro _))
    | (intro x; clear_value x) | (intro y; try dsimp -zeta only) | lift_lets | apply Kept.refl | assumption
    | apply Kept.after (kept_fset) | apply Kept.after (kept_emit) | apply Kept.after (kept_setLpi) | split
    | (apply Kept.of_eq <;> rfl) | dsimp -zeta only

theorem kept_laneInjWrite {w : Writer} {p lane kind : Nat} {s : State} : KeptBy s (laneInjWrite w p lane kind s) := by
  unfold laneInjWrite
  refine kept_live ?_
  all_goals with_reducible repeat' first
    | intro _ | apply Kept.refl | apply Kept.after (kept_guarded ?_) | apply Kept.after (kept_laneGo)

theorem kept_execLaneInjSingle {w : Writer} {p : Fin 8} {lane : Fin 4} {s : State} : KeptBy s (execLaneInjSingle w p lane s) := by
  unfold execLaneInjSingle
  refine kept_laneInjWrite
  all_goals with_reducible repeat' first | apply Kept.refl

theorem kept_execLaneInjBurst {w : Writer} {p : Fin 8} {lane : Fin 4} {s : State} : KeptBy s (execLaneInjBurst w p lane s) := by
  unfold execLaneInjBurst
  refine kept_laneInjWrite
  all_goals with_reducible repeat' first | apply Kept.refl

theorem kept_execLaneInjRate {w : Writer} {p : Fin 8} {lane : Fin 4} {s : State} : KeptBy s (execLaneInjRate w p lane s) := by
  unfold execLaneInjRate
  refine kept_laneInjWrite
  all_goals with_reducible repeat' first | apply Kept.refl

theorem kept_execLaneInjStop {w : Writer} {p : Fin 8} {lane : Fin 4} {s : State} : KeptBy s (execLaneInjStop w p lane s) := by
  unfold execLaneInjStop
  refine kept_laneInjWrite
  all_goals with_reducible repeat' first | apply Kept.refl

theorem kept_checkerEnable {i : Nat} {s : State} : Kept s (checkerEnable i s) := by
  unfold checkerEnable
  all_goals with_reducible repeat' first
    | intro _ | apply Kept.refl | apply Kept.after (kept_when ?_) | apply Kept.after (kept_fset)

theorem kept_execLaneCheckerEnable {w : Writer} {p : Fin 8} {lane : Fin 4} {s : State} : KeptBy s (execLaneCheckerEnable w p lane s) := by
  unfold execLaneCheckerEnable
  refine kept_live ?_
  all_goals with_reducible repeat' first
    | intro _ | apply Kept.refl | apply Kept.after (kept_guarded ?_) | apply Kept.after (kept_checkerEnable)

theorem kept_execCheckerLock {p : Fin 8} {lane : Fin 4} {s : State} : KeptBy s (execCheckerLock p lane s) := by
  unfold execCheckerLock
  refine kept_live ?_
  all_goals with_reducible repeat' first
    | intro _ | apply Kept.refl | apply Kept.after (kept_when ?_) | apply Kept.after (kept_fset)

theorem kept_checkerLoss {p i wrong : Nat} {s : State} : Kept s (checkerLoss p i wrong s) := by
  unfold checkerLoss
  all_goals with_reducible repeat' first
    | intro _ | apply Kept.refl | assumption | apply Kept.after (kept_when ?_) | apply Kept.after (kept_fset)
    | apply Kept.after (kept_fsat) | split

theorem kept_execCheckerLoss {p : Fin 8} {lane : Fin 4} {wrong : Nat} {s : State} : KeptBy s (execCheckerLoss p lane wrong s) := by
  unfold execCheckerLoss
  refine kept_live ?_
  all_goals with_reducible repeat' first | intro _ | apply Kept.refl | apply Kept.after (kept_checkerLoss)

/-! ## Link -/

theorem kept_zeroReply {p : Nat} {x : Packet} {s : State} : Kept s (zeroReply p x s) := by
  unfold zeroReply
  revert s
  all_goals with_reducible repeat' first
    | (intro x; refine Kept.viaVar y x ?_ ?_; (on_goal 1 => try dsimp -zeta only [x]); (on_goal 2 => clear_value x; intro _))
    | (intro x; clear_value x) | (intro y; try dsimp -zeta only) | lift_lets | apply Kept.refl | assumption
    | apply Kept.after (kept_zeroAnswer) | apply Kept.after (kept_offer) | apply Kept.after (kept_reply)
    | apply Kept.after (Kept.of_pair (by assumption) (kept_takeFree)) | apply Kept.after (kept_takeFree) | split
    | (apply Kept.of_eq <;> rfl) | dsimp -zeta only

theorem kept_answerZeros {p : Nat} {s : State} : Kept s (answerZeros p s) := by
  unfold answerZeros
  revert s
  all_goals with_reducible repeat' first
    | (intro x; refine Kept.viaVar y x ?_ ?_; (on_goal 1 => try dsimp -zeta only [x]); (on_goal 2 => clear_value x; intro _))
    | (intro x; clear_value x) | (intro y; try dsimp -zeta only) | lift_lets | apply Kept.refl | assumption
    | apply Kept.after (kept_forL ?_) | apply Kept.after (kept_zeroReply) | apply Kept.after (kept_setLpi)
    | (apply Kept.of_eq <;> rfl) | dsimp -zeta only

theorem kept_applyAck {p a : Nat} {s : State} : Kept s (applyAck p a s) := by
  unfold applyAck
  revert s
  all_goals with_reducible repeat' first
    | (intro x; refine Kept.viaVar y x ?_ ?_; (on_goal 1 => try dsimp -zeta only [x]); (on_goal 2 => clear_value x; intro _))
    | (intro x; clear_value x) | (intro y; try dsimp -zeta only) | lift_lets | apply Kept.refl | assumption
    | apply Kept.after (kept_answerZeros) | apply Kept.after (kept_setLpi) | apply Kept.after (kept_violPort) | split
    | (apply Kept.of_eq <;> rfl) | dsimp -zeta only | dsimp only

theorem kept_startReplay {p : Nat} {s : State} : Kept s (startReplay p s) := by
  unfold startReplay
  revert s
  all_goals with_reducible repeat' first
    | (intro x; refine Kept.viaVar y x ?_ ?_; (on_goal 1 => try dsimp -zeta only [x]); (on_goal 2 => clear_value x; intro _))
    | (intro x; clear_value x) | (intro y; try dsimp -zeta only) | lift_lets | apply Kept.refl | assumption
    | apply Kept.after (kept_setLpi) | apply Kept.after (kept_startRetrain) | split | (apply Kept.of_eq <;> rfl)
    | dsimp -zeta only | dsimp only

theorem kept_replayTimeout {p : Nat} {s : State} : Kept s (replayTimeout p s) := by
  unfold replayTimeout
  revert s
  all_goals with_reducible repeat' first
    | (intro x; refine Kept.viaVar y x ?_ ?_; (on_goal 1 => try dsimp -zeta only [x]); (on_goal 2 => clear_value x; intro _))
    | (intro x; clear_value x) | (intro y; try dsimp -zeta only) | lift_lets | apply Kept.refl | assumption
    | apply Kept.after (kept_startReplay) | apply Kept.after (kept_fsat) | split | (apply Kept.of_eq <;> rfl)
    | dsimp -zeta only | dsimp only

theorem kept_execReplayTimeout {p : Fin 8} {s : State} : KeptBy s (execReplayTimeout p s) :=
  kept_live (fun _ => kept_replayTimeout)

theorem kept_resumeDone {p : Nat} {s : State} : Kept s (resumeDone p s) := by
  unfold resumeDone
  all_goals with_reducible repeat' first
    | intro _ | apply Kept.refl | apply Kept.after (kept_when ?_) | apply Kept.after (kept_setLst)

theorem kept_slotBlock {p : Nat} {s : State} : Kept s (slotBlock p s) := by
  unfold slotBlock
  revert s
  all_goals with_reducible repeat' first
    | (intro x; refine Kept.viaVar y x ?_ ?_; (on_goal 1 => try dsimp -zeta only [x]); (on_goal 2 => clear_value x; intro _))
    | (intro x; clear_value x) | (intro y; try dsimp -zeta only) | lift_lets | apply Kept.refl | assumption
    | apply Kept.after (kept_resumeDone) | apply Kept.after (kept_setLpi) | apply Kept.after (kept_emit)
    | apply Kept.after (kept_fsat) | split | (apply Kept.of_eq <;> rfl) | dsimp -zeta only

theorem kept_execControlSlotSend {p : Fin 8} {s : State} : KeptBy s (execControlSlotSend p s) :=
  kept_live (fun _ => kept_slotBlock)

theorem kept_lcbRecv {p a : Nat} {np : Bool} {h d : Nat} {s : State} : Kept s (lcbRecv p a np h d s) := by
  unfold lcbRecv
  revert s
  all_goals with_reducible repeat' first
    | (intro x; refine Kept.viaVar y x ?_ ?_; (on_goal 1 => try dsimp -zeta only [x]); (on_goal 2 => clear_value x; intro _))
    | (intro x; clear_value x) | (intro y; try dsimp -zeta only) | lift_lets | apply Kept.refl | assumption
    | apply Kept.after (kept_applyAck) | apply Kept.after (kept_setLpi) | apply Kept.after (kept_when ?_)
    | apply Kept.after (kept_violPort) | split | (apply Kept.of_eq <;> rfl) | dsimp -zeta only

theorem kept_execLcb {p : Fin 8} {ackseq : BitVec 12} {np : Bool} {hcnt : BitVec 16} {dcnt : BitVec 24} {s : State} : KeptBy s (execLcb p ackseq np hcnt dcnt s) :=
  kept_live (fun _ => kept_lcbRecv)

theorem kept_nakRecv {p a : Nat} {s : State} : Kept s (nakRecv p a s) := by
  unfold nakRecv
  revert s
  all_goals with_reducible repeat' first
    | (intro x; refine Kept.viaVar y x ?_ ?_; (on_goal 1 => try dsimp -zeta only [x]); (on_goal 2 => clear_value x; intro _))
    | (intro x; clear_value x) | (intro y; try dsimp -zeta only) | lift_lets | apply Kept.refl | assumption
    | apply Kept.after (kept_applyAck) | apply Kept.after (kept_fsat) | apply Kept.after (kept_startReplay) | split
    | dsimp -zeta only

theorem kept_execNak {p : Fin 8} {ackseq : BitVec 12} {s : State} : KeptBy s (execNak p ackseq s) :=
  kept_live (fun _ => kept_nakRecv)

theorem kept_initRecv {p : Nat} {np : Bool} {h d : Nat} {s : State} : Kept s (initRecv p np h d s) := by
  unfold initRecv
  revert s
  all_goals with_reducible repeat' first
    | (intro x; refine Kept.viaVar y x ?_ ?_; (on_goal 1 => try dsimp -zeta only [x]); (on_goal 2 => clear_value x; intro _))
    | (intro x; clear_value x) | (intro y; try dsimp -zeta only) | lift_lets | apply Kept.refl | assumption
    | apply Kept.after (kept_rput) | apply Kept.after (kept_setLpi) | apply Kept.after (kept_violPort)
    | apply Kept.after (kept_fset) | split | (apply Kept.of_eq <;> rfl) | dsimp -zeta only

theorem kept_execInit {p : Fin 8} {np : Bool} {hcred : BitVec 16} {dcred : BitVec 24} {s : State} : KeptBy s (execInit p np hcred dcred s) :=
  kept_live (fun _ => kept_initRecv)

theorem kept_resumeRecv {p a : Nat} {keep : Bool} {s : State} : Kept s (resumeRecv p a keep s) := by
  unfold resumeRecv
  revert s
  all_goals with_reducible repeat' first
    | (intro x; refine Kept.viaVar y x ?_ ?_; (on_goal 1 => try dsimp -zeta only [x]); (on_goal 2 => clear_value x; intro _))
    | (intro x; clear_value x) | (intro y; try dsimp -zeta only) | lift_lets | apply Kept.refl | assumption
    | apply Kept.after (kept_applyAck) | apply Kept.after (kept_setLpi) | apply Kept.after (kept_lpiFlush)
    | apply Kept.after (kept_setLst) | apply Kept.after (kept_portOpen) | apply Kept.after (kept_resumeDone) | split
    | (apply Kept.of_eq <;> rfl) | dsimp -zeta only

theorem kept_execResume {p : Fin 8} {ackseq : BitVec 12} {keep : Bool} {s : State} : KeptBy s (execResume p ackseq keep s) :=
  kept_live (fun _ => kept_resumeRecv)

theorem kept_discardFrame {p : Nat} {f : Frame} {s : State} : Kept s (discardFrame p f s) := by
  unfold discardFrame
  revert s
  all_goals with_reducible repeat' first
    | (intro x; refine Kept.viaVar y x ?_ ?_; (on_goal 1 => try dsimp -zeta only [x]); (on_goal 2 => clear_value x; intro _))
    | (intro x; clear_value x) | (intro y; try dsimp -zeta only) | lift_lets | apply Kept.refl | assumption
    | apply Kept.after (kept_setLpi) | apply Kept.after (kept_fsat) | apply Kept.after (kept_when ?_)
    | apply Kept.after (kept_violFrame) | split | (apply Kept.of_eq <;> rfl) | dsimp -zeta only

theorem kept_acceptFrame {p : Nat} {f : Frame} {g : State → State} {s : State} (h0 : ∀ y, Kept y (g y)) : Kept s (acceptFrame p f g s) := by
  unfold acceptFrame
  all_goals with_reducible repeat' first
    | intro _ | apply Kept.refl | assumption | apply Kept.after (kept_setLpi) | apply Kept.after (kept_startRetrain)
    | apply Kept.after (kept_violFrame) | apply Kept.after (h0 _) | split | (apply Kept.of_eq <;> rfl)

theorem kept_recvFrame {p : Nat} {f : Frame} {mine : Bool} {g : State → State} {s : State} (h0 : ∀ y, Kept y (g y)) : Kept s (recvFrame p f mine g s) := by
  unfold recvFrame
  all_goals with_reducible repeat' first
    | intro _ | apply Kept.refl | assumption | apply Kept.after (kept_discardFrame) | apply Kept.after (kept_touch)
    | apply Kept.after (kept_acceptFrame ?_) | apply Kept.after (h0 _) | split

theorem kept_execErroredFrame {p : Fin 8} {f : Frame} {s : State} : KeptBy s (execErroredFrame p f s) :=
  kept_live (fun _ => kept_recvFrame (fun y => Kept.refl y))

theorem kept_lpiPush {p : Nat} {x : Packet} {s : State} : Kept s (lpiPush p x s) := by
  unfold lpiPush
  revert s
  all_goals with_reducible repeat' first
    | (intro x; refine Kept.viaVar y x ?_ ?_; (on_goal 1 => try dsimp -zeta only [x]); (on_goal 2 => clear_value x; intro _))
    | (intro x; clear_value x) | (intro y; try dsimp -zeta only) | lift_lets | apply Kept.refl | assumption
    | apply Kept.after (kept_answerZeros) | apply Kept.after (kept_setLpi) | (apply Kept.of_eq <;> rfl)
    | dsimp -zeta only

theorem kept_answerFrame {p csts : Nat} {f : Frame} {s : State} : Kept s (answerFrame p csts f s) := by
  unfold answerFrame
  all_goals with_reducible repeat' first
    | intro _ | apply Kept.refl | apply Kept.after (kept_lpiPush) | apply Kept.after (kept_when ?_)
    | apply Kept.after (kept_fsat)

theorem kept_undefinedFrame {p : Nat} {f : Frame} {s : State} : Kept s (undefinedFrame p f s) := by
  unfold undefinedFrame
  all_goals with_reducible repeat' first
    | intro _ | apply Kept.refl | apply Kept.after (kept_when ?_) | apply Kept.after (kept_answerFrame)
    | apply Kept.after (kept_violFrame)

theorem kept_execUndefinedTtFrame {p : Fin 8} {f : Frame} {s : State} : KeptBy s (execUndefinedTtFrame p f s) := by
  unfold execUndefinedTtFrame
  refine kept_live ?_
  all_goals with_reducible repeat' first
    | intro _ | apply Kept.refl | apply Kept.after (kept_recvFrame ?_) | apply Kept.after (kept_undefinedFrame)

theorem kept_stallMicro {p : Nat} {s : State} : Kept s (stallMicro p s) := by
  unfold stallMicro
  revert s
  all_goals with_reducible repeat' first
    | (intro x; refine Kept.viaVar y x ?_ ?_; (on_goal 1 => try dsimp -zeta only [x]); (on_goal 2 => clear_value x; intro _))
    | (intro x; clear_value x) | (intro y; try dsimp -zeta only) | lift_lets | apply Kept.refl | assumption
    | apply Kept.after (kept_setLpi) | apply Kept.after (kept_fsat) | apply Kept.after (kept_when ?_)
    | apply Kept.after (kept_startRetrain) | apply Kept.after (kept_violPort) | split | (apply Kept.of_eq <;> rfl)
    | dsimp -zeta only

theorem kept_execStallMicrosecond {p : Fin 8} {s : State} : KeptBy s (execStallMicrosecond p s) :=
  kept_live (fun _ => kept_stallMicro)

theorem kept_execDroughtEpochEnd {p : Fin 8} {s : State} : KeptBy s (execDroughtEpochEnd p s) := by
  unfold execDroughtEpochEnd
  refine kept_live ?_
  all_goals with_reducible repeat' first
    | (intro x; refine Kept.viaVar y x ?_ ?_; (on_goal 1 => try dsimp -zeta only [x]); (on_goal 2 => clear_value x; intro _))
    | (intro x; clear_value x) | (intro y; try dsimp -zeta only) | lift_lets | apply Kept.refl | assumption
    | apply Kept.after (kept_setLpi) | apply Kept.after (kept_fset) | split | (apply Kept.of_eq <;> rfl)
    | dsimp -zeta only

theorem kept_leakSnap {p : Nat} {s : State} : Kept s (leakSnap p s) := by
  unfold leakSnap
  revert s
  all_goals with_reducible repeat' first
    | (intro x; refine Kept.viaVar y x ?_ ?_; (on_goal 1 => try dsimp -zeta only [x]); (on_goal 2 => clear_value x; intro _))
    | (intro x; clear_value x) | (intro y; try dsimp -zeta only) | lift_lets | apply Kept.refl | assumption
    | apply Kept.after (kept_fset) | split | dsimp -zeta only

theorem kept_execLeakSnapshot {p : Fin 8} {s : State} : KeptBy s (execLeakSnapshot p s) :=
  kept_live (fun _ => kept_leakSnap)

/-! ## Bridge -/

theorem kept_lpiDrop {p order : Nat} {s : State} : Kept s (lpiDrop p order s) := by
  unfold lpiDrop
  revert s
  all_goals with_reducible repeat' first
    | (intro x; refine Kept.viaVar y x ?_ ?_; (on_goal 1 => try dsimp -zeta only [x]); (on_goal 2 => clear_value x; intro _))
    | (intro x; clear_value x) | (intro y; try dsimp -zeta only) | lift_lets | apply Kept.refl | assumption
    | apply Kept.after (kept_setLpi) | (apply Kept.of_eq <;> rfl) | dsimp -zeta only

theorem kept_lpiAt {p order off : Nat} {s : State} : Kept s (lpiAt p order off s) := by
  unfold lpiAt
  revert s
  all_goals with_reducible repeat' first
    | (intro x; refine Kept.viaVar y x ?_ ?_; (on_goal 1 => try dsimp -zeta only [x]); (on_goal 2 => clear_value x; intro _))
    | (intro x; clear_value x) | (intro y; try dsimp -zeta only) | lift_lets | apply Kept.refl | assumption
    | apply Kept.after (kept_setLpi) | split | (apply Kept.of_eq <;> rfl) | dsimp -zeta only

theorem kept_putFrame {p : Nat} {e : Egress} {f : Frame} {s : State} : Kept s (putFrame p e f s) := by
  unfold putFrame
  revert s
  all_goals with_reducible repeat' first
    | (intro x; refine Kept.viaVar y x ?_ ?_; (on_goal 1 => try dsimp -zeta only [x]); (on_goal 2 => clear_value x; intro _))
    | (intro x; clear_value x) | (intro y; try dsimp -zeta only) | lift_lets | apply Kept.refl | assumption
    | apply Kept.after (kept_touch) | apply Kept.after (kept_setLpi) | apply Kept.after (kept_emit)
    | (apply Kept.of_eq <;> rfl) | dsimp -zeta only

theorem kept_closeLock {p : Nat} {k : FarLock} {s : State} : Kept s (closeLock p k s) := by
  unfold closeLock
  revert s
  all_goals with_reducible repeat' first
    | (intro x; refine Kept.viaVar y x ?_ ?_; (on_goal 1 => try dsimp -zeta only [x]); (on_goal 2 => clear_value x; intro _))
    | (intro x; clear_value x) | (intro y; try dsimp -zeta only) | lift_lets | apply Kept.refl | assumption
    | apply Kept.after (kept_setLpi) | apply Kept.after (kept_setTag) | apply Kept.after (kept_offer) | split
    | (apply Kept.of_eq <;> rfl) | dsimp -zeta only | dsimp only

theorem kept_lpiTagOut {p t : Nat} {x : Packet} {off n : Nat} {lock : Bool} {pf : Option Nat} {s : State} : Kept s (lpiTagOut p t x off n lock pf s) := by
  unfold lpiTagOut
  all_goals with_reducible repeat' first | apply Kept.refl | apply Kept.after (kept_setTag)

theorem kept_sendLocked {p : Nat} {e : Egress} {s : State} : Kept s (sendLocked p e s) := by
  unfold sendLocked
  revert s
  all_goals with_reducible repeat' first
    | (intro x; refine Kept.viaVar y x ?_ ?_; (on_goal 1 => try dsimp -zeta only [x]); (on_goal 2 => clear_value x; intro _))
    | (intro x; clear_value x) | (intro y; try dsimp -zeta only) | lift_lets | apply Kept.refl | assumption
    | apply Kept.after (kept_putFrame) | apply Kept.after (kept_lpiTagOut) | apply Kept.after (kept_lpiDrop)
    | apply Kept.after (kept_setLpi) | split | (apply Kept.of_eq <;> rfl) | dsimp -zeta only | dsimp only

theorem kept_sendReadPart {p : Nat} {e : Egress} {s : State} : Kept s (sendReadPart p e s) := by
  unfold sendReadPart
  revert s
  all_goals with_reducible repeat' first
    | (intro x; refine Kept.viaVar y x ?_ ?_; (on_goal 1 => try dsimp -zeta only [x]); (on_goal 2 => clear_value x; intro _))
    | (intro x; clear_value x) | (intro y; try dsimp -zeta only) | lift_lets | apply Kept.refl | assumption
    | apply Kept.after (kept_when ?_) | apply Kept.after (kept_setLpi) | apply Kept.after (kept_lpiDrop)
    | apply Kept.after (kept_lpiAt) | apply Kept.after (kept_lpiGather) | apply Kept.after (kept_putFrame)
    | apply Kept.after (kept_lpiTagOut) | apply Kept.after (Kept.of_pair (by assumption) (kept_takeFree))
    | apply Kept.after (kept_takeFree) | split | (apply Kept.of_eq <;> rfl) | dsimp -zeta only | dsimp only

theorem kept_sendAnswer {p : Nat} {e : Egress} {s : State} : Kept s (sendAnswer p e s) := by
  unfold sendAnswer
  revert s
  all_goals with_reducible repeat' first
    | (intro x; refine Kept.viaVar y x ?_ ?_; (on_goal 1 => try dsimp -zeta only [x]); (on_goal 2 => clear_value x; intro _))
    | (intro x; clear_value x) | (intro y; try dsimp -zeta only) | lift_lets
    | (apply Kept.set_fn <;> first | assumption | apply Kept.refl) | apply Kept.refl | assumption
    | apply Kept.after (kept_lpiDrop) | apply Kept.after (kept_putFrame) | apply Kept.after (kept_setLpi)
    | apply Kept.after (kept_when ?_) | apply Kept.after (kept_fsat) | split | (apply Kept.of_eq <;> rfl)
    | dsimp -zeta only | dsimp only

theorem kept_sendPosted {p : Nat} {e : Egress} {s : State} : Kept s (sendPosted p e s) := by
  unfold sendPosted
  revert s
  all_goals with_reducible repeat' first
    | (intro x; refine Kept.viaVar y x ?_ ?_; (on_goal 1 => try dsimp -zeta only [x]); (on_goal 2 => clear_value x; intro _))
    | (intro x; clear_value x) | (intro y; try dsimp -zeta only) | lift_lets | apply Kept.refl | assumption
    | apply Kept.after (kept_lpiDrop) | apply Kept.after (kept_when ?_) | apply Kept.after (kept_pfr)
    | apply Kept.after (kept_closeLock) | apply Kept.after (kept_putFrame) | split | (apply Kept.of_eq <;> rfl)
    | dsimp -zeta only | dsimp only

theorem kept_resend {p : Nat} {t : TxFrame} {s : State} : Kept s (resend p t s) := by
  unfold resend
  revert s
  all_goals with_reducible repeat' first
    | (intro x; refine Kept.viaVar y x ?_ ?_; (on_goal 1 => try dsimp -zeta only [x]); (on_goal 2 => clear_value x; intro _))
    | (intro x; clear_value x) | (intro y; try dsimp -zeta only) | lift_lets | apply Kept.refl | assumption
    | apply Kept.after (kept_setLpi) | apply Kept.after (kept_emit) | split | (apply Kept.of_eq <;> rfl)
    | dsimp -zeta only

theorem kept_frameSend {p : Nat} {s : State} : Kept s (frameSend p s) := by
  unfold frameSend
  all_goals with_reducible repeat' first
    | apply Kept.refl | assumption | apply Kept.after (kept_resend) | apply Kept.after (kept_answerZeros)
    | apply Kept.after (kept_sendAnswer) | apply Kept.after (kept_sendPosted) | apply Kept.after (kept_sendLocked)
    | apply Kept.after (kept_sendReadPart) | split

theorem kept_execFrameSend {p : Fin 8} {s : State} : KeptBy s (execFrameSend p s) :=
  kept_live (fun _ => kept_frameSend)

theorem kept_farOpen {p : Nat} {s : State} : Kept s (farOpen p s) := by
  unfold farOpen
  all_goals with_reducible repeat' first
    | apply Kept.refl | assumption | apply Kept.after (kept_sendLocked) | split

theorem kept_execFarLockOpen {p : Fin 8} {s : State} : KeptBy s (execFarLockOpen p s) :=
  kept_live (fun _ => kept_farOpen)

theorem kept_makeRoom {p : Nat} {s : State} : ∀ t, makeRoom p s = some t → Kept s t := by
  intro t h
  unfold makeRoom at h
  dsimp only at h
  repeat' split at h
  all_goals (cases h)
  all_goals with_reducible repeat' first
    | (intro x; refine Kept.viaVar y x ?_ ?_; (on_goal 1 => try dsimp -zeta only [x]); (on_goal 2 => clear_value x; intro _))
    | (intro x; clear_value x) | (intro y; try dsimp -zeta only) | lift_lets | apply Kept.refl | assumption
    | apply Kept.after (kept_setLpi) | split | (apply Kept.of_eq <;> rfl) | dsimp -zeta only | dsimp only

theorem kept_askBlock {p : Nat} {x : Packet} {a : Nat} {s : State} : ∀ z t, askBlock p x a s = some (z, t) → Kept s t := by
  intro z t h
  unfold askBlock at h
  dsimp only at h
  repeat' split at h
  all_goals (cases h)
  all_goals with_reducible repeat' first
    | (intro x; refine Kept.viaVar y x ?_ ?_; (on_goal 1 => try dsimp -zeta only [x]); (on_goal 2 => clear_value x; intro _))
    | (intro x; clear_value x) | (intro y; try dsimp -zeta only) | lift_lets | apply Kept.refl | assumption
    | apply Kept.after (kept_makeRoom _ (by assumption)) | apply Kept.after (kept_setLpi)
    | apply Kept.after (kept_lpiPush) | split | (apply Kept.of_eq <;> rfl) | dsimp -zeta only | dsimp only

theorem kept_gatherBlocks {p : Nat} {x : Packet} {l ids : List Nat} {s : State} :
    ∀ a t, gatherBlocks p x l ids s = some (a, t) → Kept s t := by
  intro a t h
  induction l generalizing ids s with
  | nil => cases h; exact .refl _
  | cons b l ih =>
    unfold gatherBlocks at h
    split at h
    · exact ih h
    · split at h
      · cases h
      · next e => exact (kept_askBlock _ _ e).trans (ih h)

theorem kept_readAhead {p last : Nat} {x : Packet} {s : State} : Kept s (readAhead p x last s) := by
  unfold readAhead
  refine kept_forN (fun j y => ?_)
  dsimp only
  split
  · split
    · exact .refl y
    · next e => exact kept_askBlock _ _ e
  · exact .refl y

theorem kept_blockAnswer {p : Nat} {w : PfWait} {s : State} : Kept s (blockAnswer p w s) := by
  unfold blockAnswer
  revert s
  all_goals with_reducible repeat' first
    | (intro x; refine Kept.viaVar y x ?_ ?_; (on_goal 1 => try dsimp -zeta only [x]); (on_goal 2 => clear_value x; intro _))
    | (intro x; clear_value x) | (intro y; try dsimp -zeta only) | lift_lets | apply Kept.refl | assumption
    | apply Kept.after (kept_offer) | apply Kept.after (kept_reply)
    | apply Kept.after (Kept.of_pair (by assumption) (kept_takeFree)) | apply Kept.after (kept_takeFree) | split
    | (apply Kept.of_eq <;> rfl) | dsimp -zeta only | dsimp only

theorem kept_pfSettle {p : Nat} {s : State} : Kept s (pfSettle p s) := by
  unfold pfSettle
  revert s
  all_goals with_reducible repeat' first
    | (intro x; refine Kept.viaVar y x ?_ ?_; (on_goal 1 => try dsimp -zeta only [x]); (on_goal 2 => clear_value x; intro _))
    | (intro x; clear_value x) | (intro y; try dsimp -zeta only) | lift_lets | apply Kept.refl | assumption
    | apply Kept.after (kept_forL ?_) | apply Kept.after (kept_blockAnswer) | apply Kept.after (kept_pfClean)
    | apply Kept.after (kept_setLpi) | (apply Kept.of_eq <;> rfl) | dsimp -zeta only

theorem kept_pfRead {p : Nat} {x : Packet} {s : State} : Kept s (pfRead p x s) := by
  unfold pfRead
  extract_lets first blocks hit s1
  have k : Kept s s1 := kept_fsat
  split
  · exact .after kept_lpiPush k
  · next e => exact .after kept_pfSettle (.after kept_readAhead (.after kept_setLpi (k.trans (kept_gatherBlocks _ _ e))))

theorem kept_pfCover {p : Nat} {x : Packet} {s : State} : Kept s (pfCover p x s) := by
  unfold pfCover
  revert s
  all_goals with_reducible repeat' first
    | (intro x; refine Kept.viaVar y x ?_ ?_; (on_goal 1 => try dsimp -zeta only [x]); (on_goal 2 => clear_value x; intro _))
    | (intro x; clear_value x) | (intro y; try dsimp -zeta only) | lift_lets | apply Kept.refl | assumption
    | apply Kept.after (kept_pfClean) | apply Kept.after (kept_setLpi) | split | (apply Kept.of_eq <;> rfl)
    | dsimp -zeta only

theorem kept_pfFail {p id csts xv : Nat} {s : State} : Kept s (pfFail p id csts xv s) := by
  unfold pfFail
  revert s
  all_goals with_reducible repeat' first
    | (intro x; refine Kept.viaVar y x ?_ ?_; (on_goal 1 => try dsimp -zeta only [x]); (on_goal 2 => clear_value x; intro _))
    | (intro x; clear_value x) | (intro y; try dsimp -zeta only) | lift_lets | apply Kept.refl | assumption
    | apply Kept.after (kept_forL ?_) | apply Kept.after (kept_lpiFail) | apply Kept.after (kept_pfClean)
    | apply Kept.after (kept_setLpi) | (apply Kept.of_eq <;> rfl) | dsimp -zeta only

theorem kept_pfLand {p id : Nat} {data : List Byte} {ep : Bool} {s : State} : Kept s (pfLand p id data ep s) := by
  unfold pfLand
  revert s
  all_goals with_reducible repeat' first
    | (intro x; refine Kept.viaVar y x ?_ ?_; (on_goal 1 => try dsimp -zeta only [x]); (on_goal 2 => clear_value x; intro _))
    | (intro x; clear_value x) | (intro y; try dsimp -zeta only) | lift_lets | apply Kept.refl | assumption
    | apply Kept.after (kept_pfSettle) | apply Kept.after (kept_setLpi) | split | (apply Kept.of_eq <;> rfl)
    | dsimp -zeta only

theorem kept_pfExpire {p i : Nat} {s : State} : Kept s (pfExpire p i s) := by
  unfold pfExpire
  revert s
  all_goals with_reducible repeat' first
    | (intro x; refine Kept.viaVar y x ?_ ?_; (on_goal 1 => try dsimp -zeta only [x]); (on_goal 2 => clear_value x; intro _))
    | (intro x; clear_value x) | (intro y; try dsimp -zeta only) | lift_lets | apply Kept.refl | assumption
    | apply Kept.after (kept_pfClean) | apply Kept.after (kept_setLpi) | split | (apply Kept.of_eq <;> rfl)
    | dsimp -zeta only | dsimp only

theorem kept_execPrefetchExpire {p : Fin 8} {i : Nat} {s : State} : KeptBy s (execPrefetchExpire p i s) :=
  kept_live (fun _ => kept_pfExpire)

theorem kept_lpiRelease {p : Nat} {x : Packet} {s : State} : Kept s (lpiRelease p x s) := by
  unfold lpiRelease
  all_goals with_reducible repeat' first
    | apply Kept.refl | assumption | apply Kept.after (kept_lpiPush) | apply Kept.after (kept_pfCover)
    | apply Kept.after (kept_pfRead) | split

theorem kept_pushAbort {p : Nat} {k : FarLock} {s : State} : Kept s (pushAbort p k s) := by
  unfold pushAbort
  all_goals with_reducible repeat' first | apply Kept.refl | apply Kept.after (kept_lpiPush)

theorem kept_lockAnswer {p tag : Nat} {a : Packet} {s : State} : Kept s (lockAnswer p tag a s) := by
  unfold lockAnswer
  revert s
  all_goals with_reducible repeat' first
    | (intro x; refine Kept.viaVar y x ?_ ?_; (on_goal 1 => try dsimp -zeta only [x]); (on_goal 2 => clear_value x; intro _))
    | (intro x; clear_value x) | (intro y; try dsimp -zeta only) | lift_lets | apply Kept.refl | assumption
    | apply Kept.after (kept_setLpi) | split | (apply Kept.of_eq <;> rfl) | dsimp -zeta only

theorem kept_tagFailed {p tag : Nat} {t : Tag} {csts xv : Nat} {s : State} : Kept s (tagFailed p tag t csts xv s) := by
  unfold tagFailed
  revert s
  all_goals with_reducible repeat' first
    | (intro x; refine Kept.viaVar y x ?_ ?_; (on_goal 1 => try dsimp -zeta only [x]); (on_goal 2 => clear_value x; intro _))
    | (intro x; clear_value x) | (intro y; try dsimp -zeta only) | lift_lets | apply Kept.refl | assumption
    | apply Kept.after (kept_pfFail) | apply Kept.after (kept_reply) | apply Kept.after (kept_offer)
    | apply Kept.after (kept_pushAbort) | apply Kept.after (kept_lockAnswer) | apply Kept.after (kept_lpiGather)
    | split | (apply Kept.of_eq <;> rfl) | dsimp -zeta only | dsimp only

theorem kept_endTag {p tag : Nat} {t : Tag} {s : State} : Kept s (endTag p tag t s) := by
  unfold endTag
  all_goals with_reducible repeat' first
    | apply Kept.refl | assumption | apply Kept.after (kept_setTag) | split

theorem kept_atomicFinish {p tag : Nat} {k : FarLock} {old : List Byte} {ep : Bool} {s : State} : Kept s (atomicFinish p tag k old ep s) := by
  unfold atomicFinish
  revert s
  all_goals with_reducible repeat' first
    | (intro x; refine Kept.viaVar y x ?_ ?_; (on_goal 1 => try dsimp -zeta only [x]); (on_goal 2 => clear_value x; intro _))
    | (intro x; clear_value x) | (intro y; try dsimp -zeta only) | lift_lets | apply Kept.refl | assumption
    | apply Kept.after (kept_lockAnswer) | apply Kept.after (kept_reply) | apply Kept.after (kept_pushAbort)
    | apply Kept.after (kept_lpiPush) | split | (apply Kept.of_eq <;> rfl) | dsimp -zeta only

theorem kept_tagLanded {p tag : Nat} {t : Tag} {s : State} : Kept s (tagLanded p tag t s) := by
  unfold tagLanded
  revert s
  all_goals with_reducible repeat' first
    | (intro x; refine Kept.viaVar y x ?_ ?_; (on_goal 1 => try dsimp -zeta only [x]); (on_goal 2 => clear_value x; intro _))
    | (intro x; clear_value x) | (intro y; try dsimp -zeta only) | lift_lets | apply Kept.refl | assumption
    | apply Kept.after (kept_pfLand) | apply Kept.after (kept_atomicFinish) | apply Kept.after (kept_offer)
    | apply Kept.after (kept_reply) | apply Kept.after (kept_lpiGather)
    | apply Kept.after (Kept.of_pair (by assumption) (kept_takeFree)) | apply Kept.after (kept_takeFree) | split
    | (apply Kept.of_eq <;> rfl) | dsimp -zeta only | dsimp only

theorem kept_goodPartner {p : Nat} {f : Frame} {t : Tag} {s : State} : Kept s (goodPartner p f t s) := by
  unfold goodPartner
  revert s
  all_goals with_reducible repeat' first
    | (intro x; refine Kept.viaVar y x ?_ ?_; (on_goal 1 => try dsimp -zeta only [x]); (on_goal 2 => clear_value x; intro _))
    | (intro x; clear_value x) | (intro y; try dsimp -zeta only) | lift_lets | apply Kept.refl | assumption
    | apply Kept.after (kept_tagFailed) | apply Kept.after (kept_endTag) | apply Kept.after (kept_when ?_)
    | apply Kept.after (kept_violFrame) | apply Kept.after (kept_stgWrite) | apply Kept.after (kept_tagLanded)
    | apply Kept.after (kept_setTag) | split | (apply Kept.of_eq <;> rfl) | dsimp -zeta only

theorem kept_latePartner {p : Nat} {f : Frame} {t : Tag} {s : State} : Kept s (latePartner p f t s) := by
  unfold latePartner
  revert s
  all_goals with_reducible repeat' first
    | (intro x; refine Kept.viaVar y x ?_ ?_; (on_goal 1 => try dsimp -zeta only [x]); (on_goal 2 => clear_value x; intro _))
    | (intro x; clear_value x) | (intro y; try dsimp -zeta only) | lift_lets
    | (apply Kept.set_fn <;> first | assumption | apply Kept.refl) | apply Kept.refl | assumption
    | apply Kept.after (kept_violFrame) | apply Kept.after (kept_when ?_) | apply Kept.after (kept_setTag) | split
    | (apply Kept.of_eq <;> rfl) | dsimp -zeta only

theorem kept_partnerCompletion {p : Nat} {f : Frame} {s : State} : Kept s (partnerCompletion p f s) := by
  unfold partnerCompletion
  revert s
  all_goals with_reducible repeat' first
    | (intro x; refine Kept.viaVar y x ?_ ?_; (on_goal 1 => try dsimp -zeta only [x]); (on_goal 2 => clear_value x; intro _))
    | (intro x; clear_value x) | (intro y; try dsimp -zeta only) | lift_lets | apply Kept.refl | assumption
    | apply Kept.after (kept_goodPartner) | apply Kept.after (kept_latePartner) | split | dsimp -zeta only

theorem kept_execPartnerCompletion {p : Fin 8} {f : Frame} {s : State} : KeptBy s (execPartnerCompletion p f s) := by
  unfold execPartnerCompletion
  refine kept_live ?_
  all_goals with_reducible repeat' first
    | intro _ | apply Kept.refl | apply Kept.after (kept_recvFrame ?_) | apply Kept.after (kept_partnerCompletion)

theorem kept_llTimeout {p tag : Nat} {s : State} : Kept s (llTimeout p tag s) := by
  unfold llTimeout
  revert s
  all_goals with_reducible repeat' first
    | (intro x; refine Kept.viaVar y x ?_ ?_; (on_goal 1 => try dsimp -zeta only [x]); (on_goal 2 => clear_value x; intro _))
    | (intro x; clear_value x) | (intro y; try dsimp -zeta only) | lift_lets | apply Kept.refl | assumption
    | apply Kept.after (kept_tagFailed) | apply Kept.after (kept_violFrame) | apply Kept.after (kept_setTag) | split
    | (apply Kept.of_eq <;> rfl) | dsimp -zeta only

theorem kept_execLlCompletionTimeout {p : Fin 8} {tag : Fin 4096} {s : State} : KeptBy s (execLlCompletionTimeout p tag s) :=
  kept_live (fun _ => kept_llTimeout)

theorem kept_outsideMap {p : Nat} {f : Frame} {s : State} : Kept s (outsideMap p f s) := by
  unfold outsideMap
  revert s
  all_goals with_reducible repeat' first
    | (intro x; refine Kept.viaVar y x ?_ ?_; (on_goal 1 => try dsimp -zeta only [x]); (on_goal 2 => clear_value x; intro _))
    | (intro x; clear_value x) | (intro y; try dsimp -zeta only) | lift_lets | apply Kept.refl | assumption
    | apply Kept.after (kept_violFrame) | apply Kept.after (kept_when ?_) | apply Kept.after (kept_answerFrame)
    | dsimp -zeta only

theorem kept_partnerAsk {p : Nat} {f : Frame} {dst asp addr : Nat} {host : Bool} {s : State} : Kept s (partnerAsk p f dst asp addr host s) := by
  unfold partnerAsk
  revert s
  all_goals with_reducible repeat' first
    | (intro x; refine Kept.viaVar y x ?_ ?_; (on_goal 1 => try dsimp -zeta only [x]); (on_goal 2 => clear_value x; intro _))
    | (intro x; clear_value x) | (intro y; try dsimp -zeta only) | lift_lets | apply Kept.refl | assumption
    | apply Kept.after (kept_offer) | apply Kept.after (kept_setLpi) | (apply Kept.of_eq <;> rfl) | dsimp -zeta only

theorem kept_partnerRead {p : Nat} {f : Frame} {s : State} : Kept s (partnerRead p f s) := by
  unfold partnerRead
  revert s
  all_goals with_reducible repeat' first
    | (intro x; refine Kept.viaVar y x ?_ ?_; (on_goal 1 => try dsimp -zeta only [x]); (on_goal 2 => clear_value x; intro _))
    | (intro x; clear_value x) | (intro y; try dsimp -zeta only) | lift_lets | apply Kept.refl | assumption
    | apply Kept.after (kept_answerFrame) | apply Kept.after (kept_violFrame) | apply Kept.after (kept_outsideMap)
    | apply Kept.after (kept_makeRoom _ (by assumption)) | apply Kept.after (kept_partnerAsk) | split
    | (apply Kept.of_eq <;> rfl) | dsimp -zeta only | dsimp only

theorem kept_execPartnerRead {p : Fin 8} {f : Frame} {s : State} : KeptBy s (execPartnerRead p f s) := by
  unfold execPartnerRead
  refine kept_live ?_
  all_goals with_reducible repeat' first
    | intro _ | apply Kept.refl | apply Kept.after (kept_recvFrame ?_) | apply Kept.after (kept_partnerRead)

theorem kept_partnerWrite {p : Nat} {f : Frame} {s : State} : Kept s (partnerWrite p f s) := by
  unfold partnerWrite
  all_goals with_reducible repeat' first
    | apply Kept.refl | assumption | apply Kept.after (kept_outsideMap) | apply Kept.after (kept_offer) | split

theorem kept_execPartnerWrite {p : Fin 8} {f : Frame} {s : State} : KeptBy s (execPartnerWrite p f s) := by
  unfold execPartnerWrite
  refine kept_live ?_
  all_goals with_reducible repeat' first
    | intro _ | apply Kept.refl | apply Kept.after (kept_recvFrame ?_) | apply Kept.after (kept_partnerWrite)

theorem kept_partnerDoorbell {p : Nat} {f : Frame} {s : State} : Kept s (partnerDoorbell p f s) := by
  unfold partnerDoorbell
  revert s
  all_goals with_reducible repeat' first
    | (intro x; refine Kept.viaVar y x ?_ ?_; (on_goal 1 => try dsimp -zeta only [x]); (on_goal 2 => clear_value x; intro _))
    | (intro x; clear_value x) | (intro y; try dsimp -zeta only) | lift_lets | apply Kept.refl | assumption
    | apply Kept.after (kept_offer) | dsimp -zeta only

theorem kept_execPartnerDoorbellMessage {p : Fin 8} {f : Frame} {s : State} : KeptBy s (execPartnerDoorbellMessage p f s) := by
  unfold execPartnerDoorbellMessage
  refine kept_live ?_
  all_goals with_reducible repeat' first
    | intro _ | apply Kept.refl | apply Kept.after (kept_recvFrame ?_) | apply Kept.after (kept_partnerDoorbell)

theorem kept_partnerInterrupt {p : Nat} {f : Frame} {s : State} : Kept s (partnerInterrupt p f s) := by
  unfold partnerInterrupt
  all_goals with_reducible repeat' first
    | apply Kept.refl | assumption | apply Kept.after (kept_offer) | apply Kept.after (kept_outsideMap) | split
    | (apply Kept.of_eq <;> rfl)

theorem kept_execPartnerInterruptMessage {p : Fin 8} {f : Frame} {s : State} : KeptBy s (execPartnerInterruptMessage p f s) := by
  unfold execPartnerInterruptMessage
  refine kept_live ?_
  all_goals with_reducible repeat' first
    | intro _ | apply Kept.refl | apply Kept.after (kept_recvFrame ?_) | apply Kept.after (kept_partnerInterrupt)

theorem kept_partnerUnit {p : Nat} {f : Frame} {s : State} : Kept s (partnerUnit p f s) := by
  unfold partnerUnit
  revert s
  all_goals with_reducible repeat' first
    | (intro x; refine Kept.viaVar y x ?_ ?_; (on_goal 1 => try dsimp -zeta only [x]); (on_goal 2 => clear_value x; intro _))
    | (intro x; clear_value x) | (intro y; try dsimp -zeta only) | lift_lets | apply Kept.refl | assumption
    | apply Kept.after (kept_violFrame) | apply Kept.after (kept_offer) | split | (apply Kept.of_eq <;> rfl)
    | dsimp -zeta only | dsimp only

theorem kept_execPartnerUnitMessage {p : Fin 8} {f : Frame} {s : State} : KeptBy s (execPartnerUnitMessage p f s) := by
  unfold execPartnerUnitMessage
  refine kept_live ?_
  all_goals with_reducible repeat' first
    | intro _ | apply Kept.refl | apply Kept.after (kept_recvFrame ?_) | apply Kept.after (kept_partnerUnit)

theorem kept_partnerTunnel {p : Nat} {f : Frame} {s : State} : Kept s (partnerTunnel p f s) := by
  unfold partnerTunnel
  revert s
  all_goals with_reducible repeat' first
    | (intro x; refine Kept.viaVar y x ?_ ?_; (on_goal 1 => try dsimp -zeta only [x]); (on_goal 2 => clear_value x; intro _))
    | (intro x; clear_value x) | (intro y; try dsimp -zeta only) | lift_lets
    | (apply Kept.set_fn <;> first | assumption | apply Kept.refl) | apply Kept.refl | assumption
    | apply Kept.after (kept_outsideMap) | apply Kept.after (kept_violFrame) | apply Kept.after (kept_offer) | split
    | (apply Kept.of_eq <;> rfl) | dsimp -zeta only | dsimp only

theorem kept_execPartnerTunnelledMessage {p : Fin 8} {f : Frame} {s : State} : KeptBy s (execPartnerTunnelledMessage p f s) := by
  unfold execPartnerTunnelledMessage
  refine kept_live ?_
  all_goals with_reducible repeat' first
    | intro _ | apply Kept.refl | apply Kept.after (kept_recvFrame ?_) | apply Kept.after (kept_partnerTunnel)

theorem kept_execPartnerLockTransaction {p : Fin 8} {f : Frame} {s : State} : KeptBy s (execPartnerLockTransaction p f s) := by
  unfold execPartnerLockTransaction
  refine kept_live ?_
  all_goals with_reducible repeat' first
    | intro _ | apply Kept.refl | apply Kept.after (kept_recvFrame ?_) | apply Kept.after (kept_when ?_)
    | apply Kept.after (kept_answerFrame) | apply Kept.after (kept_violFrame)

theorem kept_portResponse {p i : Nat} {s : State} : Kept s (portResponse p i s) := by
  unfold portResponse
  revert s
  all_goals with_reducible repeat' first
    | (intro x; refine Kept.viaVar y x ?_ ?_; (on_goal 1 => try dsimp -zeta only [x]); (on_goal 2 => clear_value x; intro _))
    | (intro x; clear_value x) | (intro y; try dsimp -zeta only) | lift_lets | apply Kept.refl | assumption
    | apply Kept.after (kept_takeArrived _ _ (by assumption)) | apply Kept.after (kept_lpiPush)
    | apply Kept.after (Kept.of_pair (by assumption) (kept_checkParity)) | apply Kept.after (kept_checkParity) | split
    | (apply Kept.of_eq <;> rfl) | dsimp -zeta only | dsimp only

theorem kept_execPortResponseArrive {p : Fin 8} {i : Nat} {s : State} : KeptBy s (execPortResponseArrive p i s) :=
  kept_live (fun _ => kept_portResponse)

/-! ## Irt -/

theorem kept_msixSend {fn p : Nat} {s : State} : Kept s (msixSend fn p s) := by
  unfold msixSend
  revert s
  all_goals with_reducible repeat' first
    | (intro x; refine Kept.viaVar y x ?_ ?_; (on_goal 1 => try dsimp -zeta only [x]); (on_goal 2 => clear_value x; intro _))
    | (intro x; clear_value x) | (intro y; try dsimp -zeta only) | lift_lets
    | (apply Kept.set_fn <;> first | assumption | apply Kept.refl) | apply Kept.refl | assumption
    | apply Kept.after (kept_setVec) | (apply Kept.of_eq <;> rfl) | dsimp -zeta only

theorem kept_deliver {fn p : Nat} {s : State} : Kept s (deliver fn p s) := by
  unfold deliver
  revert s
  all_goals with_reducible repeat' first
    | (intro x; refine Kept.viaVar y x ?_ ?_; (on_goal 1 => try dsimp -zeta only [x]); (on_goal 2 => clear_value x; intro _))
    | (intro x; clear_value x) | (intro y; try dsimp -zeta only) | lift_lets | apply Kept.refl | assumption
    | apply Kept.after (kept_msixSend) | apply Kept.after (kept_setVec) | split | (apply Kept.of_eq <;> rfl)
    | dsimp -zeta only

theorem kept_signalPme {fn : Nat} {s : State} : Kept s (signalPme fn s) := by
  unfold signalPme
  all_goals with_reducible repeat' first
    | intro _ | apply Kept.refl | apply Kept.after (kept_when ?_) | apply Kept.after (kept_cfgPut)
    | apply Kept.after (kept_emit)

theorem kept_irtRequest {q : Packet} {s : State} : Kept s (irtRequest q s) := by
  unfold irtRequest
  revert s
  all_goals with_reducible repeat' first
    | (intro x; refine Kept.viaVar y x ?_ ?_; (on_goal 1 => try dsimp -zeta only [x]); (on_goal 2 => clear_value x; intro _))
    | (intro x; clear_value x) | (intro y; try dsimp -zeta only) | lift_lets
    | (apply Kept.set_fn <;> first | assumption | apply Kept.refl) | apply Kept.refl | assumption
    | apply Kept.after (kept_fsat) | apply Kept.after (kept_violPkt) | apply Kept.after (kept_setVec)
    | apply Kept.after (kept_deliver) | apply Kept.after (kept_signalPme) | split | (apply Kept.of_eq <;> rfl)
    | dsimp -zeta only

theorem kept_interruptRequest {i : Nat} {s : State} : Kept s (interruptRequest i s) := by
  unfold interruptRequest
  all_goals with_reducible repeat' first
    | apply Kept.refl | assumption | apply Kept.after (kept_takeSound _ _ (by assumption))
    | apply Kept.after (kept_irtRequest) | split

theorem kept_execInterruptRequest {i : Nat} {s : State} : KeptBy s (execInterruptRequest i s) :=
  kept_live (fun _ => kept_interruptRequest)

theorem kept_msixStamp {i : Nat} {s : State} : Kept s (msixStamp i s) := by
  unfold msixStamp
  revert s
  all_goals with_reducible repeat' first
    | (intro x; refine Kept.viaVar y x ?_ ?_; (on_goal 1 => try dsimp -zeta only [x]); (on_goal 2 => clear_value x; intro _))
    | (intro x; clear_value x) | (intro y; try dsimp -zeta only) | lift_lets
    | (apply Kept.set_fn <;> first | assumption | apply Kept.refl) | apply Kept.refl | assumption
    | apply Kept.after (kept_offer) | apply Kept.after (kept_fsat) | split | (apply Kept.of_eq <;> rfl)
    | dsimp -zeta only | dsimp only

theorem kept_execMsixWriteStamp {i : Nat} {s : State} : KeptBy s (execMsixWriteStamp i s) :=
  kept_live (fun _ => kept_msixStamp)

theorem kept_modExpire {p : Nat} {s : State} : Kept s (modExpire p s) := by
  unfold modExpire
  revert s
  all_goals with_reducible repeat' first
    | (intro x; refine Kept.viaVar y x ?_ ?_; (on_goal 1 => try dsimp -zeta only [x]); (on_goal 2 => clear_value x; intro _))
    | (intro x; clear_value x) | (intro y; try dsimp -zeta only) | lift_lets | apply Kept.refl | assumption
    | apply Kept.after (kept_msixSend) | split | (apply Kept.of_eq <;> rfl) | dsimp -zeta only | dsimp only

theorem kept_execModIntervalExpire {entry : Fin 32768} {s : State} : KeptBy s (execModIntervalExpire entry s) :=
  kept_live (fun _ => kept_modExpire)

theorem kept_pendingDeliver {fn v : Nat} {s : State} : Kept s (pendingDeliver fn v s) := by
  unfold pendingDeliver
  revert s
  all_goals with_reducible repeat' first
    | (intro x; refine Kept.viaVar y x ?_ ?_; (on_goal 1 => try dsimp -zeta only [x]); (on_goal 2 => clear_value x; intro _))
    | (intro x; clear_value x) | (intro y; try dsimp -zeta only) | lift_lets | apply Kept.refl | assumption
    | apply Kept.after (kept_deliver) | apply Kept.after (kept_setVec) | split | (apply Kept.of_eq <;> rfl)
    | dsimp -zeta only

theorem kept_execPendingVectorDeliver {fn : Fin 2048} {v : Fin 1024} {s : State} : KeptBy s (execPendingVectorDeliver fn v s) :=
  kept_live (fun _ => kept_pendingDeliver)

theorem kept_irtCheck {fn : Nat} {s : State} : Kept s (irtCheck fn s) := by
  unfold irtCheck
  revert s
  all_goals with_reducible repeat' first
    | (intro x; refine Kept.viaVar y x ?_ ?_; (on_goal 1 => try dsimp -zeta only [x]); (on_goal 2 => clear_value x; intro _))
    | (intro x; clear_value x) | (intro y; try dsimp -zeta only) | lift_lets | apply Kept.refl | assumption
    | apply Kept.after (kept_forN ?_) | apply Kept.after (kept_setVec) | split | (apply Kept.of_eq <;> rfl)
    | dsimp -zeta only

theorem kept_tableWordPut {fn off x : Nat} {s : State} : Kept s (tableWordPut fn off x s) := by
  unfold tableWordPut
  revert s
  all_goals with_reducible repeat' first
    | (intro x; refine Kept.viaVar y x ?_ ?_; (on_goal 1 => try dsimp -zeta only [x]); (on_goal 2 => clear_value x; intro _))
    | (intro x; clear_value x) | (intro y; try dsimp -zeta only) | lift_lets | apply Kept.refl | assumption
    | apply Kept.after (kept_setVec) | split | dsimp -zeta only

theorem kept_tableWrite {fn off width value : Nat} {s : State} : Kept s (tableWrite fn off width value s) := by
  unfold tableWrite
  revert s
  all_goals with_reducible repeat' first
    | (intro x; refine Kept.viaVar y x ?_ ?_; (on_goal 1 => try dsimp -zeta only [x]); (on_goal 2 => clear_value x; intro _))
    | (intro x; clear_value x) | (intro y; try dsimp -zeta only) | lift_lets | apply Kept.refl | assumption
    | apply Kept.after (kept_tableWordPut) | apply Kept.after (kept_irtCheck) | split | dsimp -zeta only

theorem kept_execMsixTableWrite {fn : Fin 2048} {off width : Nat} {value : BitVec 64} {s : State} : KeptBy s (execMsixTableWrite fn off width value s) := by
  unfold execMsixTableWrite
  refine kept_live ?_
  all_goals with_reducible repeat' first
    | intro _ | apply Kept.refl | assumption | apply Kept.after (kept_tableWrite) | split

theorem kept_fVecWrite {w : Writer} {p : Packet} {fn : Nat} {value : Word} {s : State} : Kept s (fVecWrite w p fn value s) := by
  unfold fVecWrite
  revert s
  all_goals with_reducible repeat' first
    | (intro x; refine Kept.viaVar y x ?_ ?_; (on_goal 1 => try dsimp -zeta only [x]); (on_goal 2 => clear_value x; intro _))
    | (intro x; clear_value x) | (intro y; try dsimp -zeta only) | lift_lets | apply Kept.refl | assumption
    | apply Kept.after (kept_busyWrite) | apply Kept.after (kept_violSource) | apply Kept.after (kept_fset) | split
    | dsimp -zeta only

theorem kept_execFVecWrite {w : Writer} {fn : Fin 2048} {value : BitVec 32} {s : State} : KeptBy s (execFVecWrite w fn value s) := by
  unfold execFVecWrite
  refine kept_live ?_
  all_goals with_reducible repeat' first
    | intro _ | apply Kept.refl | apply Kept.after (kept_guardedP ?_) | apply Kept.after (kept_fVecWrite)

theorem kept_fSvcWrite {fn : Nat} {value : Word} {s : State} : Kept s (fSvcWrite fn value s) := by
  unfold fSvcWrite
  all_goals with_reducible repeat' first | apply Kept.refl | apply Kept.after (kept_fset)

theorem kept_execFSvcWrite {w : Writer} {fn : Fin 2048} {value : BitVec 32} {s : State} : KeptBy s (execFSvcWrite w fn value s) := by
  unfold execFSvcWrite
  refine kept_live ?_
  all_goals with_reducible repeat' first
    | intro _ | apply Kept.refl | apply Kept.after (kept_guarded ?_) | apply Kept.after (kept_fSvcWrite)

theorem kept_execSvcLvCommit {w : Writer} {s : State} : KeptBy s (execSvcLvCommit w s) := by
  unfold execSvcLvCommit
  refine kept_live ?_
  all_goals with_reducible repeat' first
    | intro _ | apply Kept.refl | apply Kept.after (kept_guarded ?_) | apply Kept.after (kept_commitRws)

end Sys2Proof.Machine
end

