-- ==== Sys2Proof/Laws/KeptControl.lean ====
section
/-!
SUPPORT. What the operations and commands of resets, errors, power, boot, control registers and arrival keep (Laws/Kept.lean),
one lemma for each.
-/
set_option linter.all false
set_option linter.unusedTactic false
set_option linter.unreachableTactic false
namespace Sys2Proof.Machine

/-! ## Resets -/

theorem kept_cutRecord {a : Nat} {g : Grant} {s : State} : Kept s (cutRecord a g s) := by
  unfold cutRecord
  revert s
  all_goals with_reducible repeat' first
    | (intro x; refine Kept.viaVar y x ?_ ?_; (on_goal 1 => try dsimp -zeta only [x]); (on_goal 2 => clear_value x; intro _))
    | (intro x; clear_value x) | (intro y; try dsimp -zeta only) | lift_lets | apply Kept.refl | assumption
    | apply Kept.after (kept_fset) | apply Kept.after (kept_offer) | apply Kept.after (kept_pushAbort)
    | apply Kept.after (kept_trace) | apply Kept.after (kept_violPkt) | split | (apply Kept.of_eq <;> rfl)
    | dsimp -zeta only | dsimp only

theorem kept_cutBelay {a : Nat} {g : Grant} {s : State} : Kept s (cutBelay a g s) := by
  unfold cutBelay
  revert s
  all_goals with_reducible repeat' first
    | (intro x; refine Kept.viaVar y x ?_ ?_; (on_goal 1 => try dsimp -zeta only [x]); (on_goal 2 => clear_value x; intro _))
    | (intro x; clear_value x) | (intro y; try dsimp -zeta only) | lift_lets | apply Kept.refl | assumption
    | apply Kept.after (kept_cutRecord) | apply Kept.after (kept_setArbiter) | (apply Kept.of_eq <;> rfl)
    | dsimp -zeta only

theorem kept_cutGrant {a : Nat} {g : Grant} {s : State} : Kept s (cutGrant a g s) := by
  unfold cutGrant
  revert s
  all_goals with_reducible repeat' first
    | (intro x; refine Kept.viaVar y x ?_ ?_; (on_goal 1 => try dsimp -zeta only [x]); (on_goal 2 => clear_value x; intro _))
    | (intro x; clear_value x) | (intro y; try dsimp -zeta only) | lift_lets | apply Kept.refl | assumption
    | apply Kept.after (kept_cutRecord) | apply Kept.after (kept_setArbiter) | apply Kept.after (kept_offer)
    | apply Kept.after (kept_reply) | apply Kept.after (kept_pfr) | split | (apply Kept.of_eq <;> rfl)
    | dsimp -zeta only

theorem kept_holdCut {a : Nat} {s : State} : Kept s (holdCut a s) := by
  unfold holdCut
  revert s
  all_goals with_reducible repeat' first
    | (intro x; refine Kept.viaVar y x ?_ ?_; (on_goal 1 => try dsimp -zeta only [x]); (on_goal 2 => clear_value x; intro _))
    | (intro x; clear_value x) | (intro y; try dsimp -zeta only) | lift_lets | apply Kept.refl | assumption
    | apply Kept.after (kept_cutBelay) | apply Kept.after (kept_cutGrant) | split | (apply Kept.of_eq <;> rfl)
    | dsimp -zeta only | dsimp only

theorem kept_execArbHoldCut {a : Fin 29} {s : State} : KeptBy s (execArbHoldCut a s) :=
  kept_live (fun _ => kept_holdCut)

theorem kept_fenceBelay {a : Nat} {mine : Nat → Bool} {s : State} : Kept s (fenceBelay a mine s) := by
  unfold fenceBelay
  all_goals with_reducible repeat' first
    | apply Kept.refl | assumption | apply Kept.after (kept_cutBelay) | split

theorem kept_coolQuiet {key : Nat} {s : State} : Kept s (coolQuiet key s) := by
  unfold coolQuiet
  all_goals with_reducible repeat' first
    | apply Kept.refl | apply Kept.after (kept_setTag) | (apply Kept.of_eq <;> rfl)

theorem kept_fenceHpi {k : Nat} {mine : Nat → Bool} {s : State} : Kept s (fenceHpi k mine s) := by
  unfold fenceHpi
  revert s
  all_goals with_reducible repeat' first
    | (intro x; refine Kept.viaVar y x ?_ ?_; (on_goal 1 => try dsimp -zeta only [x]); (on_goal 2 => clear_value x; intro _))
    | (intro x; dsimp -zeta only [x]; clear x) | (intro x; clear_value x) | (intro y; try dsimp -zeta only)
    | lift_lets | apply Kept.refl | assumption | apply Kept.after (kept_forL ?_) | apply Kept.after (kept_coolQuiet)
    | apply Kept.after (kept_setHpi) | apply Kept.after (kept_offer) | apply Kept.after (kept_reply)
    | apply Kept.after (kept_setGate) | (apply Kept.of_eq <;> rfl) | dsimp -zeta only

theorem kept_fenceLpi {p : Nat} {mine : Nat → Bool} {s : State} : Kept s (fenceLpi p mine s) := by
  unfold fenceLpi
  revert s
  all_goals with_reducible repeat' first
    | (intro x; refine Kept.viaVar y x ?_ ?_; (on_goal 1 => try dsimp -zeta only [x]); (on_goal 2 => clear_value x; intro _))
    | (intro x; clear_value x) | (intro y; try dsimp -zeta only) | lift_lets | apply Kept.refl | assumption
    | apply Kept.after (kept_forL ?_) | apply Kept.after (kept_tagFailed) | apply Kept.after (kept_coolQuiet)
    | apply Kept.after (kept_pushAbort) | dsimp -zeta only

theorem kept_fenceCluster {c : Nat} {mine : Nat → Bool} {s : State} : Kept s (fenceCluster c mine s) := by
  unfold fenceCluster
  revert s
  all_goals with_reducible repeat' first
    | (intro x; refine Kept.viaVar y x ?_ ?_; (on_goal 1 => try dsimp -zeta only [x]); (on_goal 2 => clear_value x; intro _))
    | (intro x; clear_value x) | (intro y; try dsimp -zeta only) | lift_lets | apply Kept.refl | assumption
    | apply Kept.after (kept_forN ?_) | apply Kept.after (kept_when ?_) | apply Kept.after (kept_setEvt)
    | apply Kept.after (kept_forL ?_) | apply Kept.after (kept_setCtx) | split | (apply Kept.of_eq <;> rfl)
    | dsimp -zeta only

theorem kept_fenceIrt {mine : Nat → Bool} {s : State} : Kept s (fenceIrt mine s) := by
  unfold fenceIrt
  revert s
  all_goals with_reducible repeat' first
    | (intro x; refine Kept.viaVar y x ?_ ?_; (on_goal 1 => try dsimp -zeta only [x]); (on_goal 2 => clear_value x; intro _))
    | (intro x; clear_value x) | (intro y; try dsimp -zeta only) | lift_lets
    | (apply Kept.set_fn <;> first | assumption | apply Kept.refl) | apply Kept.refl | assumption
    | apply Kept.after (kept_forN ?_) | apply Kept.after (kept_setVec) | split | (apply Kept.of_eq <;> rfl)
    | dsimp -zeta only

theorem kept_fenceQm {mine : Nat → Bool} {s : State} : Kept s (fenceQm mine s) := by
  unfold fenceQm
  all_goals with_reducible repeat' first
    | intro _ | apply Kept.refl | apply Kept.after (kept_forL ?_) | apply Kept.after (kept_queueDisable)

theorem kept_fenceBlock {ni x : Nat} {s : State} : Kept s (fenceBlock ni x s) := by
  unfold fenceBlock
  revert s
  all_goals with_reducible repeat' first
    | (intro x; refine Kept.viaVar y x ?_ ?_; (on_goal 1 => try dsimp -zeta only [x]); (on_goal 2 => clear_value x; intro _))
    | (intro x; clear_value x) | (intro y; try dsimp -zeta only) | lift_lets | apply Kept.refl | assumption
    | apply Kept.after (kept_fenceHpi) | apply Kept.after (kept_fenceLpi) | apply Kept.after (kept_fenceBelay)
    | apply Kept.after (kept_fenceCluster) | apply Kept.after (kept_bumpOwned) | apply Kept.after (kept_fenceQm)
    | apply Kept.after (kept_fenceIrt) | apply Kept.after (kept_setSemFence) | split | dsimp -zeta only

theorem kept_applyFence {ni x : Nat} {s : State} : Kept s (applyFence ni x s) := by
  unfold applyFence
  all_goals with_reducible repeat' first
    | apply Kept.refl | apply Kept.after (kept_fenceBlock) | apply Kept.after (kept_setFenced)

theorem kept_stampFence {k x why : Nat} {perst : Bool} {fns : List Nat} {s : State} : Kept s (stampFence k x why perst fns s) := by
  unfold stampFence
  revert s
  all_goals with_reducible repeat' first
    | (intro x; refine Kept.viaVar y x ?_ ?_; (on_goal 1 => try dsimp -zeta only [x]); (on_goal 2 => clear_value x; intro _))
    | (intro x; clear_value x) | (intro y; try dsimp -zeta only) | lift_lets | apply Kept.refl | assumption
    | apply Kept.after (kept_forL ?_) | apply Kept.after (kept_trace) | apply Kept.after (kept_stamped)
    | apply Kept.after (kept_setFnReset) | apply Kept.after (kept_applyFence) | apply Kept.after (kept_setNotices)
    | dsimp -zeta only

theorem kept_startFnReset {why fn : Nat} {s : State} : Kept s (startFnReset why fn s) := by
  unfold startFnReset
  all_goals with_reducible repeat' first
    | apply Kept.refl | assumption | apply Kept.after (kept_stampFence) | split

theorem kept_clearVfs {k : Nat} {s : State} : Kept s (clearVfs k s) := by
  unfold clearVfs
  revert s
  all_goals with_reducible repeat' first
    | (intro x; refine Kept.viaVar y x ?_ ?_; (on_goal 1 => try dsimp -zeta only [x]); (on_goal 2 => clear_value x; intro _))
    | (intro x; clear_value x) | (intro y; try dsimp -zeta only) | lift_lets | apply Kept.refl | assumption
    | apply Kept.after (kept_forL ?_) | apply Kept.after (kept_startFnReset) | apply Kept.after (kept_cfgPut)
    | dsimp -zeta only

theorem kept_initiateFlr {fn : Nat} {s : State} : Kept s (initiateFlr fn s) := by
  unfold initiateFlr
  all_goals with_reducible repeat' first
    | intro _ | apply Kept.refl | assumption | apply Kept.after (kept_when ?_) | apply Kept.after (kept_clearVfs)
    | apply Kept.after (kept_startFnReset) | split

theorem kept_hostFlushAnswer {k : Nat} {r : Packet} {s : State} : Kept s (hostFlushAnswer k r s) := by
  unfold hostFlushAnswer
  all_goals with_reducible repeat' first
    | apply Kept.refl | assumption | apply Kept.after (kept_offer) | apply Kept.after (kept_reply) | split
    | (apply Kept.of_eq <;> rfl)

theorem kept_hostFlushOne {k : Nat} {p : Packet} {s : State} : Kept s (hostFlushOne k p s) := by
  unfold hostFlushOne
  all_goals with_reducible repeat' first
    | apply Kept.refl | assumption | apply Kept.after (kept_flushPosted) | apply Kept.after (kept_hostFlushAnswer)
    | split

theorem kept_hostFlush {k cause : Nat} {s : State} : Kept s (hostFlush k cause s) := by
  unfold hostFlush
  revert s
  all_goals with_reducible repeat' first
    | (intro x; refine Kept.viaVar y x ?_ ?_; (on_goal 1 => try dsimp -zeta only [x]); (on_goal 2 => clear_value x; intro _))
    | (intro x; clear_value x) | (intro y; try dsimp -zeta only) | lift_lets | apply Kept.refl | assumption
    | apply Kept.after (kept_parkNi) | apply Kept.after (kept_trace) | apply Kept.after (kept_freeTags)
    | apply Kept.after (kept_gateDrop ?_) | apply Kept.after (kept_hostFlushOne) | apply Kept.after (kept_setHpi)
    | apply Kept.after (kept_forL ?_) | apply Kept.after (kept_hostFlushAnswer) | apply Kept.after (kept_forN ?_)
    | apply Kept.after (kept_when ?_) | apply Kept.after (kept_setArbiter) | apply Kept.after (kept_sput)
    | apply Kept.after (kept_stampFence) | (apply Kept.of_eq <;> rfl) | dsimp -zeta only

theorem kept_startFlush {k cause : Nat} {s : State} : Kept s (startFlush k cause s) := by
  unfold startFlush
  all_goals with_reducible repeat' first
    | intro _ | apply Kept.refl | assumption | apply Kept.after (kept_when ?_) | apply Kept.after (kept_setFnReset)
    | apply Kept.after (kept_startWake) | apply Kept.after (kept_hostFlush) | split | (apply Kept.of_eq <;> rfl)

theorem kept_noLink {k : Nat} {x : LinkState} {s : State} : Kept s (noLink k x s) := by
  unfold noLink
  all_goals with_reducible repeat' first
    | apply Kept.refl | apply Kept.after (kept_setHostLink) | apply Kept.after (kept_fset)

theorem kept_hostTrain {k : Nat} {s : State} : Kept s (hostTrain k s) := by
  unfold hostTrain
  revert s
  all_goals with_reducible repeat' first
    | (intro x; refine Kept.viaVar y x ?_ ?_; (on_goal 1 => try dsimp -zeta only [x]); (on_goal 2 => clear_value x; intro _))
    | (intro x; clear_value x) | (intro y; try dsimp -zeta only) | lift_lets | apply Kept.refl | assumption
    | apply Kept.after (kept_setHostLink) | split | dsimp -zeta only

theorem kept_dropEntry {k : Nat} {s : State} : Kept s (dropEntry k s) := by
  unfold dropEntry
  all_goals with_reducible repeat' first
    | intro _ | apply Kept.refl | apply Kept.after (kept_when ?_) | apply Kept.after (kept_cancelEntry)

theorem kept_perstAssert {k : Nat} {s : State} : Kept s (perstAssert k s) := by
  unfold perstAssert
  revert s
  all_goals with_reducible repeat' first
    | (intro x; refine Kept.viaVar y x ?_ ?_; (on_goal 1 => try dsimp -zeta only [x]); (on_goal 2 => clear_value x; intro _))
    | (intro x; clear_value x) | (intro y; try dsimp -zeta only) | lift_lets | apply Kept.refl | assumption
    | apply Kept.after (kept_noLink) | apply Kept.after (kept_dropEntry) | apply Kept.after (kept_setHpi)
    | apply Kept.after (kept_startFlush) | apply Kept.after (kept_startWake) | split | (apply Kept.of_eq <;> rfl)
    | dsimp -zeta only

theorem kept_execPerstAssert {k : Fin 2} {s : State} : KeptBy s (execPerstAssert k s) :=
  kept_live (fun _ => kept_perstAssert)

theorem kept_perstDeassert {k : Nat} {s : State} : Kept s (perstDeassert k s) := by
  unfold perstDeassert
  revert s
  all_goals with_reducible repeat' first
    | (intro x; refine Kept.viaVar y x ?_ ?_; (on_goal 1 => try dsimp -zeta only [x]); (on_goal 2 => clear_value x; intro _))
    | (intro x; clear_value x) | (intro y; try dsimp -zeta only) | lift_lets | apply Kept.refl | assumption
    | apply Kept.after (kept_dropEntry) | apply Kept.after (kept_setHpi) | apply Kept.after (kept_startWake)
    | apply Kept.after (kept_hostTrain) | split | (apply Kept.of_eq <;> rfl) | dsimp -zeta only

theorem kept_execPerstDeassert {k : Fin 2} {s : State} : KeptBy s (execPerstDeassert k s) :=
  kept_live (fun _ => kept_perstDeassert)

theorem kept_linkReset {k : Nat} {x : LinkState} {s : State} : Kept s (linkReset k x s) := by
  unfold linkReset
  all_goals with_reducible repeat' first
    | apply Kept.refl | assumption | apply Kept.after (kept_startFlush) | apply Kept.after (kept_noLink) | split

theorem kept_execHotResetReceived {k : Fin 2} {s : State} : KeptBy s (execHotResetReceived k s) :=
  kept_live (fun _ => kept_linkReset)

theorem kept_execLinkDisableReceived {k : Fin 2} {s : State} : KeptBy s (execLinkDisableReceived k s) :=
  kept_live (fun _ => kept_linkReset)

theorem kept_surpriseRemoval {k : Nat} {s : State} : Kept s (surpriseRemoval k s) := by
  unfold surpriseRemoval
  revert s
  all_goals with_reducible repeat' first
    | (intro x; refine Kept.viaVar y x ?_ ?_; (on_goal 1 => try dsimp -zeta only [x]); (on_goal 2 => clear_value x; intro _))
    | (intro x; clear_value x) | (intro y; try dsimp -zeta only) | lift_lets | apply Kept.refl | assumption
    | apply Kept.after (kept_fset) | apply Kept.after (kept_fsat) | apply Kept.after (kept_startFlush)
    | apply Kept.after (kept_noLink) | apply Kept.after (kept_viol) | apply Kept.after (kept_aerCorrectedAt)
    | apply Kept.after (kept_emit) | split | dsimp -zeta only

theorem kept_execSurpriseRemoval {k : Fin 2} {s : State} : KeptBy s (execSurpriseRemoval k s) :=
  kept_live (fun _ => kept_surpriseRemoval)

theorem kept_execDlDown {k : Fin 2} {s : State} : KeptBy s (execDlDown k s) := by
  unfold execDlDown
  refine kept_live ?_
  all_goals with_reducible repeat' first
    | intro _ | apply Kept.refl | assumption | apply Kept.after (kept_startFlush) | apply Kept.after (kept_noLink)
    | split

theorem kept_hostLinkUp {k speed width : Nat} {flit : Bool} {s : State} : Kept s (hostLinkUp k speed width flit s) := by
  unfold hostLinkUp
  revert s
  all_goals with_reducible repeat' first
    | (intro x; refine Kept.viaVar y x ?_ ?_; (on_goal 1 => try dsimp -zeta only [x]); (on_goal 2 => clear_value x; intro _))
    | (intro x; clear_value x) | (intro y; try dsimp -zeta only) | lift_lets | apply Kept.refl | assumption
    | apply Kept.after (kept_setHpi) | apply Kept.after (kept_fset) | apply Kept.after (kept_setHostLink)
    | apply Kept.after (kept_when ?_) | apply Kept.after (kept_unparkNi) | split | (apply Kept.of_eq <;> rfl)
    | dsimp -zeta only | dsimp only

theorem kept_execHostLinkUp {k : Fin 2} {speed : Fin 7} {width : Nat} {flit : Bool} {s : State} : KeptBy s (execHostLinkUp k speed width flit s) :=
  kept_live (fun _ => kept_hostLinkUp)

theorem kept_noteApplied {ni x : Nat} {s : State} : Kept s (noteApplied ni x s) := by
  unfold noteApplied
  all_goals with_reducible repeat' first
    | intro _ | apply Kept.refl | assumption | apply Kept.after (kept_setFnReset) | split | (apply Kept.of_eq <;> rfl)

theorem kept_perstOff {k : Nat} {s : State} : Kept s (perstOff k s) := by
  unfold perstOff
  all_goals with_reducible repeat' first
    | intro _ | apply Kept.refl | apply Kept.after (kept_when ?_) | apply Kept.after (kept_beginEntry)

theorem kept_flushOver {x : Nat} {s : State} : Kept s (flushOver x s) := by
  unfold flushOver
  all_goals with_reducible repeat' first
    | apply Kept.refl | assumption | apply Kept.after (kept_perstOff) | apply Kept.after (kept_hostTrain)
    | apply Kept.after (kept_setHostLink) | split

theorem kept_fenceApply {ni i : Nat} {s : State} : Kept s (fenceApply ni i s) := by
  unfold fenceApply
  revert s
  all_goals with_reducible repeat' first
    | (intro x; refine Kept.viaVar y x ?_ ?_; (on_goal 1 => try dsimp -zeta only [x]); (on_goal 2 => clear_value x; intro _))
    | (intro x; clear_value x) | (intro y; try dsimp -zeta only) | lift_lets | apply Kept.refl | assumption
    | apply Kept.after (kept_setNotices) | apply Kept.after (kept_flushOver) | apply Kept.after (kept_noteApplied)
    | apply Kept.after (kept_applyFence) | split | (apply Kept.of_eq <;> rfl) | dsimp -zeta only | dsimp only

theorem kept_execFenceApply {ni : Fin 46} {i : Nat} {s : State} : KeptBy s (execFenceApply ni i s) :=
  kept_live (fun _ => kept_fenceApply)

theorem kept_dropMailbox {k : Nat} {s : State} : Kept s (dropMailbox k s) := by
  unfold dropMailbox
  exact Kept.set_boot _ (.after kept_setTranscript kept_setSpdmAt) ⟨le_rfl, le_rfl, id, fun _ => ⟨fun _ => rfl, id, id⟩⟩

theorem kept_clearFn {keep : Bool} {fn : Nat} {s : State} : Kept s (clearFn keep fn s) := by
  unfold clearFn
  revert s
  all_goals with_reducible repeat' first
    | (intro x; refine Kept.viaVar y x ?_ ?_; (on_goal 1 => try dsimp -zeta only [x]); (on_goal 2 => clear_value x; intro _))
    | (intro x; clear_value x) | (intro y; try dsimp -zeta only) | lift_lets
    | (apply Kept.set_port <;> first | assumption | apply Kept.refl) | apply Kept.refl | assumption
    | apply Kept.after (kept_fset) | apply Kept.after (kept_forN ?_) | apply Kept.after (kept_rput)
    | apply Kept.after (kept_sput) | apply Kept.after (kept_setQueue) | apply Kept.after (kept_when ?_)
    | apply Kept.after (kept_dropMailbox) | apply Kept.after (kept_stgPut) | apply Kept.after (kept_setRingOver)
    | apply Kept.after (kept_foldl _ _ ?_) | split | (apply Kept.of_eq <;> rfl) | dsimp -zeta only

theorem kept_endReset {keep : Bool} {stamp fn : Nat} {s : State} : Kept s (endReset keep stamp fn s) := by
  unfold endReset
  revert s
  all_goals with_reducible repeat' first
    | (intro x; refine Kept.viaVar y x ?_ ?_; (on_goal 1 => try dsimp -zeta only [x]); (on_goal 2 => clear_value x; intro _))
    | (intro x; clear_value x) | (intro y; try dsimp -zeta only) | lift_lets | apply Kept.refl | assumption
    | apply Kept.after (kept_clearFn) | apply Kept.after (kept_fset) | apply Kept.after (kept_trace)
    | dsimp -zeta only

theorem kept_liftFences {x : Nat} {s : State} : Kept s (liftFences x s) := by
  unfold liftFences
  all_goals with_reducible repeat' first
    | intro _ | apply Kept.refl | apply Kept.after (kept_forN ?_) | apply Kept.after (kept_setFenced)

theorem kept_resetDone {fn : Nat} {s : State} : Kept s (resetDone fn s) := by
  unfold resetDone
  revert s
  all_goals with_reducible repeat' first
    | (intro x; refine Kept.viaVar y x ?_ ?_; (on_goal 1 => try dsimp -zeta only [x]); (on_goal 2 => clear_value x; intro _))
    | (intro x; clear_value x) | (intro y; try dsimp -zeta only) | lift_lets | apply Kept.refl | assumption
    | apply Kept.after (kept_forL ?_) | apply Kept.after (kept_liftFences) | apply Kept.after (kept_setSemFence)
    | apply Kept.after (kept_setFnReset) | apply Kept.after (kept_endReset) | split | (apply Kept.of_eq <;> rfl)
    | dsimp -zeta only | dsimp only

theorem kept_execFnResetDrainDone {fn : Fin 2048} {s : State} : KeptBy s (execFnResetDrainDone fn s) :=
  kept_live (fun _ => kept_resetDone)

theorem kept_cfgField {fn : Nat} {f : CfgField} {v : Nat} {s : State} : Kept s (cfgField fn f v s) := by
  unfold cfgField
  revert s
  all_goals with_reducible repeat' first
    | (intro x; refine Kept.viaVar y x ?_ ?_; (on_goal 1 => try dsimp -zeta only [x]); (on_goal 2 => clear_value x; intro _))
    | (intro x; clear_value x) | (intro y; try dsimp -zeta only) | lift_lets | apply Kept.refl | assumption
    | apply Kept.after (kept_initiateFlr) | apply Kept.after (kept_when ?_) | apply Kept.after (kept_cfgPut)
    | apply Kept.after (kept_clearVfs) | split | (apply Kept.of_eq <;> rfl) | dsimp -zeta only | dsimp only

theorem kept_cfgWrite {fn : Nat} {f : CfgField} {v : Nat} {s : State} : Kept s (cfgWrite fn f v s) := by
  unfold cfgWrite
  all_goals with_reducible repeat' first
    | apply Kept.refl | apply Kept.after (kept_irtCheck) | apply Kept.after (kept_cfgField)

theorem kept_configRequest {k rid : Nat} {r : CfgReq} {s : State} : Kept s (configRequest k rid r s) := by
  unfold configRequest
  revert s
  all_goals with_reducible repeat' first
    | (intro x; refine Kept.viaVar y x ?_ ?_; (on_goal 1 => try dsimp -zeta only [x]); (on_goal 2 => clear_value x; intro _))
    | (intro x; clear_value x) | (intro y; try dsimp -zeta only) | lift_lets
    | (apply Kept.set_fn <;> first | assumption | apply Kept.refl) | apply Kept.refl | assumption
    | apply Kept.after (kept_emit) | apply Kept.after (kept_cfgWrite) | split | (apply Kept.of_eq <;> rfl)
    | dsimp -zeta only | dsimp only

theorem kept_execHostConfigRequest {k : Fin 2} {rid : Nat} {r : CfgReq} {s : State} : KeptBy s (execHostConfigRequest k rid r s) :=
  kept_live (fun _ => kept_configRequest)

theorem kept_execFlrInitiate {fn : Fin 2048} {s : State} : KeptBy s (execFlrInitiate fn s) := by
  unfold execFlrInitiate
  refine kept_live ?_
  all_goals with_reducible repeat' first
    | intro _ | apply Kept.refl | assumption | apply Kept.after (kept_initiateFlr) | split

theorem kept_execVfEnableClear {k : Fin 2} {s : State} : KeptBy s (execVfEnableClear k s) := by
  unfold execVfEnableClear
  refine kept_live ?_
  all_goals with_reducible repeat' first
    | intro _ | apply Kept.refl | assumption | apply Kept.after (kept_cfgWrite) | split

/-! ## Errors -/

theorem kept_takeNotice {ni i kind : Nat} {s : State} : ∀ a t, takeNotice ni i kind s = some (a, t) → Kept s t := by
  intro a t h
  unfold takeNotice at h
  split at h
  · cases h
  · split at h
    · cases h; exact kept_takeArrived _ _ ‹_›
    · cases h

theorem kept_execCountQuery {ni : Fin 46} {i : Nat} {s : State} : KeptBy s (execCountQuery ni i s) := by
  unfold execCountQuery
  refine kept_live ?_
  all_goals with_reducible repeat' first
    | intro _ | apply Kept.refl | assumption | apply Kept.after (kept_takeNotice _ _ (by assumption))
    | apply Kept.after (kept_offer) | split

theorem kept_execCountAnswer {ni : Fin 46} {i : Nat} {s : State} : KeptBy s (execCountAnswer ni i s) := by
  unfold execCountAnswer
  refine kept_live ?_
  all_goals with_reducible repeat' first
    | (intro x; refine Kept.viaVar y x ?_ ?_; (on_goal 1 => try dsimp -zeta only [x]); (on_goal 2 => clear_value x; intro _))
    | (intro x; clear_value x) | (intro y; try dsimp -zeta only) | lift_lets | apply Kept.refl | assumption
    | apply Kept.after (kept_takeNotice _ _ (by assumption)) | apply Kept.after (kept_resolveCounts) | split
    | (apply Kept.of_eq <;> rfl) | dsimp -zeta only | dsimp only

theorem kept_execDamagedRequestNotice {ni : Fin 46} {i : Nat} {s : State} : KeptBy s (execDamagedRequestNotice ni i s) := by
  unfold execDamagedRequestNotice
  refine kept_live ?_
  all_goals with_reducible repeat' first
    | (intro x; refine Kept.viaVar y x ?_ ?_; (on_goal 1 => try dsimp -zeta only [x]); (on_goal 2 => clear_value x; intro _))
    | (intro x; clear_value x) | (intro y; try dsimp -zeta only) | lift_lets
    | (apply Kept.set_fn <;> first | assumption | apply Kept.refl) | apply Kept.refl | assumption
    | apply Kept.after (kept_takeNotice _ _ (by assumption)) | apply Kept.after (kept_setArrived) | split
    | (apply Kept.of_eq <;> rfl) | dsimp -zeta only | dsimp only

theorem kept_execDamagedPostedNotice {ni : Fin 46} {i : Nat} {s : State} : KeptBy s (execDamagedPostedNotice ni i s) := by
  unfold execDamagedPostedNotice
  refine kept_live ?_
  all_goals with_reducible repeat' first
    | intro _ | apply Kept.refl | assumption | apply Kept.after (kept_takeNotice _ _ (by assumption)) | split

theorem kept_trcWrite {f : State → State} {s : State} (h0 : ∀ y, Kept y (f y)) : Kept s (trcWrite f s) := by
  unfold trcWrite
  all_goals with_reducible repeat' first
    | intro _ | apply Kept.refl | assumption | apply Kept.after (kept_fsat) | apply Kept.after (h0 _) | split

theorem kept_vlogWrite {rec_ : List Byte} {s : State} : Kept s (vlogWrite rec_ s) := by
  unfold vlogWrite
  revert s
  all_goals with_reducible repeat' first
    | (intro x; refine Kept.viaVar y x ?_ ?_; (on_goal 1 => try dsimp -zeta only [x]); (on_goal 2 => clear_value x; intro _))
    | (intro x; clear_value x) | (intro y; try dsimp -zeta only) | lift_lets | apply Kept.refl | assumption
    | apply Kept.after (kept_when ?_) | apply Kept.after (kept_fsat) | apply Kept.after (kept_stgPut)
    | apply Kept.after (kept_setUnread) | apply Kept.after (kept_fwrap) | dsimp -zeta only

theorem kept_execViolationRecord {i : Nat} {s : State} : KeptBy s (execViolationRecord i s) := by
  unfold execViolationRecord
  refine kept_live ?_
  all_goals with_reducible repeat' first
    | intro _ | apply Kept.refl | assumption | apply Kept.after (kept_takeNotice _ _ (by assumption))
    | apply Kept.after (kept_trcWrite ?_) | apply Kept.after (kept_vlogWrite) | split

theorem kept_aerPosted {fn cause : Nat} {hdr : List Nat} {s : State} : Kept s (aerPosted fn cause hdr s) := by
  unfold aerPosted
  revert s
  all_goals with_reducible repeat' first
    | (intro x; refine Kept.viaVar y x ?_ ?_; (on_goal 1 => try dsimp -zeta only [x]); (on_goal 2 => clear_value x; intro _))
    | (intro x; clear_value x) | (intro y; try dsimp -zeta only) | lift_lets | apply Kept.refl | assumption
    | apply Kept.after (kept_cfgPut) | apply Kept.after (kept_emit) | split | dsimp -zeta only

theorem kept_ringWrite {fn : Nat} {rec_ : List Byte} {s : State} : Kept s (ringWrite fn rec_ s) := by
  unfold ringWrite
  revert s
  all_goals with_reducible repeat' first
    | (intro x; refine Kept.viaVar y x ?_ ?_; (on_goal 1 => try dsimp -zeta only [x]); (on_goal 2 => clear_value x; intro _))
    | (intro x; clear_value x) | (intro y; try dsimp -zeta only) | lift_lets | apply Kept.refl | assumption
    | apply Kept.after (kept_fwrap) | apply Kept.after (kept_when ?_) | apply Kept.after (kept_setRingOver)
    | apply Kept.after (kept_stgPut) | apply Kept.after (kept_aerPosted) | apply Kept.after (kept_offer) | split
    | (apply Kept.of_eq <;> rfl) | dsimp -zeta only

theorem kept_execPostedFaultRecord {i : Nat} {s : State} : KeptBy s (execPostedFaultRecord i s) := by
  unfold execPostedFaultRecord
  refine kept_live ?_
  all_goals with_reducible repeat' first
    | intro _ | apply Kept.refl | assumption | apply Kept.after (kept_takeNotice _ _ (by assumption))
    | apply Kept.after (kept_trcWrite ?_) | apply Kept.after (kept_ringWrite) | split

theorem kept_traceWrite {rec_ : List Byte} {s : State} : Kept s (traceWrite rec_ s) := by
  unfold traceWrite
  revert s
  all_goals with_reducible repeat' first
    | (intro x; refine Kept.viaVar y x ?_ ?_; (on_goal 1 => try dsimp -zeta only [x]); (on_goal 2 => clear_value x; intro _))
    | (intro x; clear_value x) | (intro y; try dsimp -zeta only) | lift_lets | apply Kept.refl | assumption
    | apply Kept.after (kept_fsat) | apply Kept.after (kept_stgPut) | apply Kept.after (kept_fset)
    | apply Kept.after (kept_when ?_) | split | dsimp -zeta only

theorem kept_traceEvent {rec_ : List Byte} {s : State} : Kept s (traceEvent rec_ s) := by
  unfold traceEvent
  all_goals with_reducible repeat' first
    | intro _ | apply Kept.refl | apply Kept.after (kept_when ?_) | apply Kept.after (kept_trcWrite ?_)
    | apply Kept.after (kept_traceWrite)

theorem kept_execTraceRecord {i : Nat} {s : State} : KeptBy s (execTraceRecord i s) := by
  unfold execTraceRecord
  refine kept_live ?_
  all_goals with_reducible repeat' first
    | intro _ | apply Kept.refl | assumption | apply Kept.after (kept_takeNotice _ _ (by assumption))
    | apply Kept.after (kept_traceEvent) | split

theorem kept_markWrite {fn : Nat} {value : Word} {s : State} : Kept s (markWrite fn value s) := by
  unfold markWrite
  all_goals with_reducible repeat' first | apply Kept.refl | apply Kept.after (kept_traceEvent)

theorem kept_execTrcMark {w : Writer} {value : BitVec 64} {s : State} : KeptBy s (execTrcMark w value s) := by
  unfold execTrcMark
  refine kept_live ?_
  all_goals with_reducible repeat' first
    | intro _ | apply Kept.refl | apply Kept.after (kept_guarded ?_) | apply Kept.after (kept_markWrite)

theorem kept_fullClear {s : State} : Kept s (fullClear s) := by
  unfold fullClear
  all_goals with_reducible repeat' first
    | intro _ | apply Kept.refl | apply Kept.after (kept_when ?_) | apply Kept.after (kept_fset)

theorem kept_execTrcFullClear {w : Writer} {s : State} : KeptBy s (execTrcFullClear w s) := by
  unfold execTrcFullClear
  refine kept_live ?_
  all_goals with_reducible repeat' first
    | intro _ | apply Kept.refl | apply Kept.after (kept_guarded ?_) | apply Kept.after (kept_fullClear)

theorem kept_logRead {k : Nat} {s : State} : Kept s (logRead k s).2 := by
  unfold logRead
  revert s
  all_goals with_reducible repeat' first
    | (intro x; refine Kept.viaVar y x ?_ ?_; (on_goal 1 => try dsimp -zeta only [x]); (on_goal 2 => clear_value x; intro _))
    | (intro x; clear_value x) | (intro y; try dsimp -zeta only) | lift_lets | apply Kept.refl | assumption
    | apply Kept.after (kept_stgCheckRange) | apply Kept.after (kept_setUnread) | apply Kept.after (kept_fset)
    | apply Kept.after (Kept.of_pair (by assumption) (kept_takeFree)) | apply Kept.after (kept_takeFree) | split
    | (apply Kept.of_eq <;> rfl) | dsimp -zeta only | dsimp only

theorem kept_execLogDataRead {w : Writer} {s : State} : KeptBy s (execLogDataRead w s) := by
  unfold execLogDataRead
  refine kept_live ?_
  all_goals with_reducible repeat' first
    | (intro x; refine Kept.viaVar y x ?_ ?_; (on_goal 1 => try dsimp -zeta only [x]); (on_goal 2 => clear_value x; intro _))
    | (intro x; clear_value x) | (intro y; try dsimp -zeta only) | lift_lets | apply Kept.refl | assumption
    | apply Kept.after (kept_emit) | apply Kept.after (Kept.of_pair (by assumption) (kept_logRead))
    | apply Kept.after (kept_logRead) | split | dsimp -zeta only

theorem kept_resolveWindow {w : Nat} {s : State} : Kept s (resolveWindow w s) := by
  unfold resolveWindow
  revert s
  all_goals with_reducible repeat' first
    | (intro x; refine Kept.viaVar y x ?_ ?_; (on_goal 1 => try dsimp -zeta only [x]); (on_goal 2 => clear_value x; intro _))
    | (intro x; clear_value x) | (intro y; try dsimp -zeta only) | lift_lets | apply Kept.refl | assumption
    | apply Kept.after (kept_enqueue) | split | (apply Kept.of_eq <;> rfl) | dsimp -zeta only | dsimp only

theorem kept_resolveEntry {e : Nat} {s : State} : Kept s (resolveEntry e s) := by
  unfold resolveEntry
  revert s
  all_goals with_reducible repeat' first
    | (intro x; refine Kept.viaVar y x ?_ ?_; (on_goal 1 => try dsimp -zeta only [x]); (on_goal 2 => clear_value x; intro _))
    | (intro x; clear_value x) | (intro y; try dsimp -zeta only) | lift_lets | apply Kept.refl | assumption
    | apply Kept.after (kept_enqueue) | split | (apply Kept.of_eq <;> rfl) | dsimp -zeta only | dsimp only

theorem kept_resolveLine {a : Nat} {s : State} : Kept s (resolveLine a s) := by
  unfold resolveLine
  revert s
  all_goals with_reducible repeat' first
    | (intro x; refine Kept.viaVar y x ?_ ?_; (on_goal 1 => try dsimp -zeta only [x]); (on_goal 2 => clear_value x; intro _))
    | (intro x; clear_value x) | (intro y; try dsimp -zeta only) | lift_lets | apply Kept.refl | assumption
    | apply Kept.after (kept_forN ?_) | apply Kept.after (kept_when ?_) | apply Kept.after (kept_resolveWindow)
    | apply Kept.after (kept_resolveEntry) | dsimp -zeta only

theorem kept_scrubLine {a : Nat} {s : State} : Kept s (scrubLine a s) := by
  unfold scrubLine
  revert s
  all_goals with_reducible repeat' first
    | (intro x; refine Kept.viaVar y x ?_ ?_; (on_goal 1 => try dsimp -zeta only [x]); (on_goal 2 => clear_value x; intro _))
    | (intro x; clear_value x) | (intro y; try dsimp -zeta only) | lift_lets | apply Kept.refl | assumption
    | apply Kept.after (kept_resolveLine) | apply Kept.after (kept_stgCheckRange) | apply Kept.after (kept_fsat)
    | dsimp -zeta only

theorem kept_scrubRead {b : Nat} {s : State} : Kept s (scrubRead b s) := by
  unfold scrubRead
  revert s
  all_goals with_reducible repeat' first
    | (intro x; refine Kept.viaVar y x ?_ ?_; (on_goal 1 => try dsimp -zeta only [x]); (on_goal 2 => clear_value x; intro _))
    | (intro x; clear_value x) | (intro y; try dsimp -zeta only) | lift_lets | apply Kept.refl | assumption
    | apply Kept.after (kept_scrubLine) | apply Kept.after (kept_setScrubAt) | apply Kept.after (kept_setArbiter)
    | apply Kept.after (kept_request) | split | (apply Kept.of_eq <;> rfl) | dsimp -zeta only | dsimp only

theorem kept_execScrubRead {bank : Fin 16} {s : State} : KeptBy s (execScrubRead bank s) :=
  kept_live (fun _ => kept_scrubRead)

theorem kept_psScrub {c : Nat} {s : State} : Kept s (psScrub c s) := by
  unfold psScrub
  revert s
  all_goals with_reducible repeat' first
    | (intro x; refine Kept.viaVar y x ?_ ?_; (on_goal 1 => try dsimp -zeta only [x]); (on_goal 2 => clear_value x; intro _))
    | (intro x; clear_value x) | (intro y; try dsimp -zeta only) | lift_lets | apply Kept.refl | assumption
    | apply Kept.after (kept_psUeRecord) | apply Kept.after (kept_when ?_) | apply Kept.after (kept_psCorrect)
    | apply Kept.after (kept_fsat) | apply Kept.after (kept_setPsScrubAt) | split | dsimp -zeta only

theorem kept_execPsScrubRead {c : Fin 8} {s : State} : KeptBy s (execPsScrubRead c s) :=
  kept_live (fun _ => kept_psScrub)

theorem kept_injStaging {w n : Nat} {s : State} : Kept s (injStaging w n s) := by
  unfold injStaging
  revert s
  all_goals with_reducible repeat' first
    | (intro x; refine Kept.viaVar y x ?_ ?_; (on_goal 1 => try dsimp -zeta only [x]); (on_goal 2 => clear_value x; intro _))
    | (intro x; clear_value x) | (intro y; try dsimp -zeta only) | lift_lets | apply Kept.refl | assumption
    | apply Kept.after (kept_setEccAt) | apply Kept.after (kept_forN ?_) | apply Kept.after (kept_setByte)
    | apply Kept.after (Kept.of_pair (by assumption) (kept_takeFree)) | apply Kept.after (kept_takeFree) | split
    | dsimp -zeta only

theorem kept_injStore {k n : Nat} {s : State} : Kept s (injStore k n s) := by
  unfold injStore
  revert s
  all_goals with_reducible repeat' first
    | (intro x; refine Kept.viaVar y x ?_ ?_; (on_goal 1 => try dsimp -zeta only [x]); (on_goal 2 => clear_value x; intro _))
    | (intro x; clear_value x) | (intro y; try dsimp -zeta only) | lift_lets | apply Kept.refl | assumption
    | apply Kept.after (kept_setPsEccAt) | apply Kept.after (kept_setPsWord)
    | apply Kept.after (Kept.of_pair (by assumption) (kept_takeFree)) | apply Kept.after (kept_takeFree) | split
    | dsimp -zeta only

theorem kept_inject {kind ni addr : Nat} {s : State} : Kept s (inject kind ni addr s) := by
  unfold inject
  all_goals with_reducible repeat' first
    | apply Kept.refl | assumption | apply Kept.after (kept_setPktInj) | apply Kept.after (kept_injStaging)
    | apply Kept.after (kept_injStore) | apply Kept.after (kept_linkRepeat) | apply Kept.after (kept_setHpi) | split
    | (apply Kept.of_eq <;> rfl)

theorem kept_errInjWrite {v : Word} {s : State} : Kept s (errInjWrite v s) := by
  unfold errInjWrite
  revert s
  all_goals with_reducible repeat' first
    | (intro x; refine Kept.viaVar y x ?_ ?_; (on_goal 1 => try dsimp -zeta only [x]); (on_goal 2 => clear_value x; intro _))
    | (intro x; clear_value x) | (intro y; try dsimp -zeta only) | lift_lets | apply Kept.refl | assumption
    | apply Kept.after (kept_fset) | apply Kept.after (kept_inject) | split | dsimp -zeta only

theorem kept_goWrite {w : Writer} {kind ni addr : Nat} {s : State} : Kept s (goWrite w kind ni addr s) := by
  unfold goWrite
  all_goals with_reducible repeat' first
    | intro _ | apply Kept.refl | apply Kept.after (kept_guarded ?_) | apply Kept.after (kept_errInjWrite)

theorem kept_execErrInjPayloadParity {w : Writer} {ni : BitVec 6} {s : State} : KeptBy s (execErrInjPayloadParity w ni s) :=
  kept_live (fun _ => kept_goWrite)

theorem kept_execErrInjHeaderParity {w : Writer} {ni : BitVec 6} {s : State} : KeptBy s (execErrInjHeaderParity w ni s) :=
  kept_live (fun _ => kept_goWrite)

theorem kept_execErrInjStampParity {w : Writer} {ni : BitVec 6} {s : State} : KeptBy s (execErrInjStampParity w ni s) :=
  kept_live (fun _ => kept_goWrite)

theorem kept_execErrInjStagingSingle {w : Writer} {addr : BitVec 26} {s : State} : KeptBy s (execErrInjStagingSingle w addr s) :=
  kept_live (fun _ => kept_goWrite)

theorem kept_execErrInjStagingDouble {w : Writer} {addr : BitVec 26} {s : State} : KeptBy s (execErrInjStagingDouble w addr s) :=
  kept_live (fun _ => kept_goWrite)

theorem kept_execErrInjPsSingle {w : Writer} {ni : BitVec 6} {addr : BitVec 26} {s : State} : KeptBy s (execErrInjPsSingle w ni addr s) :=
  kept_live (fun _ => kept_goWrite)

theorem kept_execErrInjPsDouble {w : Writer} {ni : BitVec 6} {addr : BitVec 26} {s : State} : KeptBy s (execErrInjPsDouble w ni addr s) :=
  kept_live (fun _ => kept_goWrite)

theorem kept_execErrInjControlCode {w : Writer} {addr : BitVec 26} {s : State} : KeptBy s (execErrInjControlCode w addr s) :=
  kept_live (fun _ => kept_goWrite)

theorem kept_execErrInjEcrc {w : Writer} {ni : BitVec 6} {s : State} : KeptBy s (execErrInjEcrc w ni s) :=
  kept_live (fun _ => kept_goWrite)

/-! ## Maintenance -/

theorem kept_claimOne {m : Nat} {s : State} : Kept s (claimOne m s) := by
  unfold claimOne
  all_goals with_reducible repeat' first | apply Kept.refl | apply Kept.after (kept_setSem)

theorem kept_unclaimOne {m : Nat} {s : State} : Kept s (unclaimOne m s) := by
  unfold unclaimOne
  all_goals with_reducible repeat' first | apply Kept.refl | apply Kept.after (kept_setSem)

theorem kept_claim {ms : List Nat} {s : State} : Kept s (claim ms s) := by
  unfold claim
  revert s
  all_goals with_reducible repeat' first
    | (intro x; refine Kept.viaVar y x ?_ ?_; (on_goal 1 => try dsimp -zeta only [x]); (on_goal 2 => clear_value x; intro _))
    | (intro x; clear_value x) | (intro y; try dsimp -zeta only) | lift_lets | apply Kept.refl | assumption
    | apply Kept.after (kept_forL ?_) | apply Kept.after (kept_unclaimOne) | apply Kept.after (kept_claimOne)
    | apply Kept.after (kept_emit) | split | dsimp -zeta only

theorem kept_execMaintenanceClaim {act : Activity} {src : Writer} {s : State} : KeptBy s (execMaintenanceClaim act src s) := by
  unfold execMaintenanceClaim
  refine kept_live ?_
  all_goals with_reducible repeat' first
    | intro _ | apply Kept.refl | assumption | apply Kept.after (kept_claim) | split

/-! ## Power -/

theorem kept_idleExpire {d : Nat} {s : State} : Kept s (idleExpire d s) := by
  unfold idleExpire
  revert s
  all_goals with_reducible repeat' first
    | (intro x; refine Kept.viaVar y x ?_ ?_; (on_goal 1 => try dsimp -zeta only [x]); (on_goal 2 => clear_value x; intro _))
    | (intro x; clear_value x) | (intro y; try dsimp -zeta only) | lift_lets | apply Kept.refl | assumption
    | apply Kept.after (kept_pwrRefuse) | apply Kept.after (kept_sleepExit) | apply Kept.after (kept_sendMl)
    | apply Kept.after (kept_setLpi) | apply Kept.after (kept_beginEntry) | split | (apply Kept.of_eq <;> rfl)
    | dsimp -zeta only | dsimp only

theorem kept_execIdleTimerExpire {d : Fin 24} {s : State} : KeptBy s (execIdleTimerExpire d s) :=
  kept_live (fun _ => kept_idleExpire)

theorem kept_sleepTimeout {d : Nat} {s : State} : Kept s (sleepTimeout d s) := by
  unfold sleepTimeout
  revert s
  all_goals with_reducible repeat' first
    | (intro x; refine Kept.viaVar y x ?_ ?_; (on_goal 1 => try dsimp -zeta only [x]); (on_goal 2 => clear_value x; intro _))
    | (intro x; clear_value x) | (intro y; try dsimp -zeta only) | lift_lets | apply Kept.refl | assumption
    | apply Kept.after (kept_pwrRefuse) | apply Kept.after (kept_setLpi) | split | (apply Kept.of_eq <;> rfl)
    | dsimp -zeta only

theorem kept_execPartnerSleepTimeout {d : Fin 24} {s : State} : KeptBy s (execPartnerSleepTimeout d s) :=
  kept_live (fun _ => kept_sleepTimeout)

theorem kept_abortEntry {d src : Nat} {s : State} : Kept s (abortEntry d src s) := by
  unfold abortEntry
  revert s
  all_goals with_reducible repeat' first
    | (intro x; refine Kept.viaVar y x ?_ ?_; (on_goal 1 => try dsimp -zeta only [x]); (on_goal 2 => clear_value x; intro _))
    | (intro x; clear_value x) | (intro y; try dsimp -zeta only) | lift_lets | apply Kept.refl | assumption
    | apply Kept.after (kept_pwrRefuse) | apply Kept.after (kept_cancelEntry) | apply Kept.after (kept_when ?_)
    | apply Kept.after (kept_leaveSleep) | split | dsimp -zeta only

theorem kept_execDomainEntryAbort {d : Fin 24} {src : Fin 46} {s : State} : KeptBy s (execDomainEntryAbort d src s) :=
  kept_live (fun _ => kept_abortEntry)

theorem kept_dropRegs {d : Nat} {s : State} : Kept s (dropRegs d s) := by
  refine Kept.set_reg _ (.refl s) (fun h => ?_)
  rw [RegFile.wf_iff] at *; exact ⟨mwf_mclear _ _ _ h.1, mwf_mclear _ _ _ h.2⟩

theorem kept_dropPd {c : Nat} {s : State} : Kept s (dropPd c s) := by
  refine ⟨rfl, rfl, le_rfl, List.suffix_refl _, fun h => ?_, id, fusesKept_refl _⟩
  rw [Memory.wf_iff] at *
  unfold dropPd; dsimp only
  exact ⟨h.1, h.2.1, h.2.2.1, mwf_mclear _ _ _ h.2.2.2.1, mwf_mclear _ _ _ h.2.2.2.2.1, mwf_mclear _ _ _ h.2.2.2.2.2.1,
    mwf_mclear _ _ _ h.2.2.2.2.2.2⟩

theorem kept_dropHd {k : Nat} {s : State} : Kept s (dropHd k s) := by
  unfold dropHd
  revert s
  all_goals with_reducible repeat' first
    | (intro x; refine Kept.viaVar y x ?_ ?_; (on_goal 1 => try dsimp -zeta only [x]); (on_goal 2 => clear_value x; intro _))
    | (intro x; clear_value x) | (intro y; try dsimp -zeta only) | lift_lets
    | (apply Kept.set_port <;> first | assumption | apply Kept.refl) | apply Kept.refl | assumption
    | apply Kept.after (kept_freeTags) | apply Kept.after (kept_setHpi) | apply Kept.after (kept_loadImage)
    | (apply Kept.of_eq <;> rfl) | dsimp -zeta only

theorem kept_dropLd {p v : Nat} {s : State} : Kept s (dropLd p v s) := by
  unfold dropLd
  revert s
  all_goals with_reducible repeat' first
    | (intro x; refine Kept.viaVar y x ?_ ?_; (on_goal 1 => try dsimp -zeta only [x]); (on_goal 2 => clear_value x; intro _))
    | (intro x; clear_value x) | (intro y; try dsimp -zeta only) | lift_lets | apply Kept.refl | assumption
    | apply Kept.after (kept_loadImage) | apply Kept.after (kept_freeTags) | apply Kept.after (kept_setLpi)
    | apply Kept.after (kept_fset) | apply Kept.after (kept_changeWidth) | split | dsimp -zeta only

theorem kept_dropDomain {d : Nat} {s : State} : Kept s (dropDomain d s) := by
  unfold dropDomain
  revert s
  all_goals with_reducible repeat' first
    | (intro x; refine Kept.viaVar y x ?_ ?_; (on_goal 1 => try dsimp -zeta only [x]); (on_goal 2 => clear_value x; intro _))
    | (intro x; clear_value x) | (intro y; try dsimp -zeta only) | lift_lets | apply Kept.refl | assumption
    | apply Kept.after (kept_dropRegs) | apply Kept.after (kept_dropPd) | apply Kept.after (kept_dropHd)
    | apply Kept.after (kept_dropLd) | split | dsimp -zeta only

theorem kept_isolate {d : Nat} {s : State} : Kept s (isolate d s) := by
  unfold isolate
  revert s
  all_goals with_reducible repeat' first
    | (intro x; refine Kept.viaVar y x ?_ ?_; (on_goal 1 => try dsimp -zeta only [x]); (on_goal 2 => clear_value x; intro _))
    | (intro x; clear_value x) | (intro y; try dsimp -zeta only) | lift_lets | apply Kept.refl | assumption
    | apply Kept.after (kept_setDom) | apply Kept.after (kept_when ?_) | apply Kept.after (kept_dropDomain)
    | apply Kept.after (kept_pwrTrace) | split | (apply Kept.of_eq <;> rfl) | dsimp -zeta only

theorem kept_execDomainIsolation {d : Fin 24} {s : State} : KeptBy s (execDomainIsolation d s) :=
  kept_live (fun _ => kept_isolate)

theorem kept_afterWake {d : Nat} {s : State} : Kept s (afterWake d s) := by
  unfold afterWake
  revert s
  all_goals with_reducible repeat' first
    | (intro x; refine Kept.viaVar y x ?_ ?_; (on_goal 1 => try dsimp -zeta only [x]); (on_goal 2 => clear_value x; intro _))
    | (intro x; clear_value x) | (intro y; try dsimp -zeta only) | lift_lets | apply Kept.refl | assumption
    | apply Kept.after (kept_startFlush) | apply Kept.after (kept_hostTrain) | apply Kept.after (kept_leaveSleep)
    | apply Kept.after (kept_when ?_) | apply Kept.after (kept_restartPort) | split | dsimp -zeta only

theorem kept_wakeDone {d : Nat} {s : State} : Kept s (wakeDone d s) := by
  unfold wakeDone
  revert s
  all_goals with_reducible repeat' first
    | (intro x; refine Kept.viaVar y x ?_ ?_; (on_goal 1 => try dsimp -zeta only [x]); (on_goal 2 => clear_value x; intro _))
    | (intro x; clear_value x) | (intro y; try dsimp -zeta only) | lift_lets | apply Kept.refl | assumption
    | apply Kept.after (kept_setDom) | apply Kept.after (kept_fset) | apply Kept.after (kept_afterWake)
    | apply Kept.after (kept_forL ?_) | apply Kept.after (kept_setUntimed) | apply Kept.after (kept_pwrTrace)
    | apply Kept.after (kept_touch) | split | (apply Kept.of_eq <;> rfl) | dsimp -zeta only

theorem kept_powerGood {d : Nat} {s : State} : Kept s (powerGood d s) := by
  unfold powerGood
  all_goals with_reducible repeat' first
    | apply Kept.refl | assumption | apply Kept.after (kept_setDom) | apply Kept.after (kept_wakeDone) | split
    | (apply Kept.of_eq <;> rfl)

theorem kept_execPowerGood {d : Fin 24} {s : State} : KeptBy s (execPowerGood d s) :=
  kept_live (fun _ => kept_powerGood)

theorem kept_domFail {d cause : Nat} {s : State} : Kept s (domFail d cause s) := by
  unfold domFail
  revert s
  all_goals with_reducible repeat' first
    | (intro x; refine Kept.viaVar y x ?_ ?_; (on_goal 1 => try dsimp -zeta only [x]); (on_goal 2 => clear_value x; intro _))
    | (intro x; clear_value x) | (intro y; try dsimp -zeta only) | lift_lets | apply Kept.refl | assumption
    | apply Kept.after (kept_pwrRefuse) | apply Kept.after (kept_setDom) | apply Kept.after (kept_viol)
    | apply Kept.after (kept_fset) | apply Kept.after (kept_pwrTrace) | apply Kept.after (kept_when ?_)
    | apply Kept.after (kept_setTrain) | apply Kept.after (kept_lpiFlush) | split | (apply Kept.of_eq <;> rfl)
    | dsimp -zeta only

theorem kept_attemptFail {d cause : Nat} {s : State} : Kept s (attemptFail d cause s) := by
  unfold attemptFail
  all_goals with_reducible repeat' first
    | apply Kept.refl | assumption | apply Kept.after (kept_setDom) | apply Kept.after (kept_domFail) | split
    | (apply Kept.of_eq <;> rfl)

theorem kept_execWakePowerTimeout {d : Fin 24} {s : State} : KeptBy s (execWakePowerTimeout d s) := by
  unfold execWakePowerTimeout
  refine kept_live ?_
  all_goals with_reducible repeat' first
    | intro _ | apply Kept.refl | assumption | apply Kept.after (kept_attemptFail) | split

theorem kept_execWakePllLock {d : Fin 24} {s : State} : KeptBy s (execWakePllLock d s) := by
  unfold execWakePllLock
  refine kept_live ?_
  all_goals with_reducible repeat' first
    | intro _ | apply Kept.refl | assumption | apply Kept.after (kept_wakeDone) | split

theorem kept_execWakePllTimeout {d : Fin 24} {s : State} : KeptBy s (execWakePllTimeout d s) := by
  unfold execWakePllTimeout
  refine kept_live ?_
  all_goals with_reducible repeat' first
    | intro _ | apply Kept.refl | assumption | apply Kept.after (kept_attemptFail) | split

theorem kept_execWakeRetryDelayExpire {d : Fin 24} {s : State} : KeptBy s (execWakeRetryDelayExpire d s) := by
  unfold execWakeRetryDelayExpire
  refine kept_live ?_
  all_goals with_reducible repeat' first
    | (intro x; refine Kept.viaVar y x ?_ ?_; (on_goal 1 => try dsimp -zeta only [x]); (on_goal 2 => clear_value x; intro _))
    | (intro x; clear_value x) | (intro y; try dsimp -zeta only) | lift_lets | apply Kept.refl | assumption
    | apply Kept.after (kept_setDom) | split | (apply Kept.of_eq <;> rfl) | dsimp -zeta only

theorem kept_wakeRequest {d : Nat} {src : WakeSource} {s : State} : Kept s (wakeRequest d src s) := by
  unfold wakeRequest
  all_goals with_reducible repeat' first
    | intro _ | apply Kept.refl | assumption | apply Kept.after (kept_when ?_) | apply Kept.after (kept_emit)
    | apply Kept.after (kept_startWake) | split

theorem kept_execDomainWakeRequest {d : Fin 24} {src : WakeSource} {s : State} : KeptBy s (execDomainWakeRequest d src s) :=
  kept_live (fun _ => kept_wakeRequest)

theorem kept_execPdTimerLead {c : Fin 8} {s : State} : KeptBy s (execPdTimerLead c s) := by
  unfold execPdTimerLead
  refine kept_live ?_
  all_goals with_reducible repeat' first | intro _ | apply Kept.refl | apply Kept.after (kept_wakeRequest)

theorem kept_execClkreqAssert {k : Fin 2} {s : State} : KeptBy s (execClkreqAssert k s) := by
  unfold execClkreqAssert
  refine kept_live ?_
  all_goals with_reducible repeat' first | intro _ | apply Kept.refl | apply Kept.after (kept_wakeRequest)

theorem kept_wakeSense {s : State} : Kept s (wakeSense s) := by
  unfold wakeSense
  revert s
  all_goals with_reducible repeat' first
    | (intro x; refine Kept.viaVar y x ?_ ?_; (on_goal 1 => try dsimp -zeta only [x]); (on_goal 2 => clear_value x; intro _))
    | (intro x; clear_value x) | (intro y; try dsimp -zeta only) | lift_lets
    | (apply Kept.set_pwr <;> first | assumption | apply Kept.refl) | apply Kept.refl | assumption
    | apply Kept.after (kept_forL ?_) | apply Kept.after (kept_wakeFailed) | apply Kept.after (kept_when ?_)
    | apply Kept.after (kept_startWake) | apply Kept.after (kept_fset) | split | (apply Kept.of_eq <;> rfl)
    | dsimp -zeta only

theorem kept_execWakeSenseTrigger {s : State} : KeptBy s (execWakeSenseTrigger s) :=
  kept_live (fun _ => kept_wakeSense)

theorem kept_retryWrite {d : Nat} {s : State} : Kept s (retryWrite d s) := by
  unfold retryWrite
  all_goals with_reducible repeat' first | apply Kept.refl | apply Kept.after (kept_wakeFailed)

theorem kept_execDomainRetry {w : Writer} {d : Fin 24} {s : State} : KeptBy s (execDomainRetry w d s) := by
  unfold execDomainRetry
  refine kept_live ?_
  all_goals with_reducible repeat' first
    | intro _ | apply Kept.refl | apply Kept.after (kept_guarded ?_) | apply Kept.after (kept_retryWrite)

theorem kept_forceOn {ni d : Nat} {s : State} : Kept s (forceOn ni d s) := by
  unfold forceOn
  all_goals with_reducible repeat' first
    | apply Kept.refl | assumption | apply Kept.after (kept_startWake) | apply Kept.after (kept_abortEntry)
    | apply Kept.after (kept_fset) | split

theorem kept_execDomainForceOn {w : Writer} {d : Fin 24} {s : State} : KeptBy s (execDomainForceOn w d s) := by
  unfold execDomainForceOn
  refine kept_live ?_
  all_goals with_reducible repeat' first
    | intro _ | apply Kept.refl | apply Kept.after (kept_guarded ?_) | apply Kept.after (kept_forceOn)

theorem kept_mgcSrc {src : Bool} {s : State} : Kept s (mgcSrc src s) := by
  unfold mgcSrc
  all_goals with_reducible repeat' first
    | intro _ | apply Kept.refl | assumption | apply Kept.after (kept_fset) | apply Kept.after (kept_when ?_) | split

theorem kept_execMgcSrcWrite {w : Writer} {src : Bool} {s : State} : KeptBy s (execMgcSrcWrite w src s) := by
  unfold execMgcSrcWrite
  refine kept_live ?_
  all_goals with_reducible repeat' first
    | intro _ | apply Kept.refl | apply Kept.after (kept_guarded ?_) | apply Kept.after (kept_mgcSrc)

theorem kept_execMgcPllLock {s : State} : KeptBy s (execMgcPllLock s) := by
  unfold execMgcPllLock
  refine kept_live ?_
  all_goals with_reducible repeat' first
    | (intro x; refine Kept.viaVar y x ?_ ?_; (on_goal 1 => try dsimp -zeta only [x]); (on_goal 2 => clear_value x; intro _))
    | (intro x; clear_value x) | (intro y; try dsimp -zeta only) | lift_lets
    | (apply Kept.set_tb <;> first | assumption | apply Kept.refl) | apply Kept.refl | assumption
    | apply Kept.after (kept_fset) | split | (apply Kept.of_eq <;> rfl) | dsimp -zeta only

theorem kept_deepEnter {s : State} : Kept s (deepEnter s) := by
  unfold deepEnter
  revert s
  all_goals with_reducible repeat' first
    | (intro x; refine Kept.viaVar y x ?_ ?_; (on_goal 1 => try dsimp -zeta only [x]); (on_goal 2 => clear_value x; intro _))
    | (intro x; clear_value x) | (intro y; try dsimp -zeta only) | lift_lets
    | (apply Kept.set_pwr <;> first | assumption | apply Kept.refl)
    | (apply Kept.set_tb <;> first | assumption | apply Kept.refl) | apply Kept.refl | assumption
    | apply Kept.after (kept_pwrTrace) | apply Kept.after (kept_fset) | split | (apply Kept.of_eq <;> rfl)
    | dsimp -zeta only

theorem kept_execDeepIdleEnter {s : State} : KeptBy s (execDeepIdleEnter s) := kept_live (fun _ => kept_deepEnter)

/-! ## BootCmd -/

theorem kept_bootResult {r : Nat} {s : State} : Kept s (bootResult r s) := by
  unfold bootResult
  all_goals with_reducible repeat' first | apply Kept.refl | apply Kept.after (kept_fset)

theorem kept_unlessBusy {f : State → State} {s : State} (h0 : ∀ y, Kept y (f y)) : Kept s (unlessBusy f s) := by
  unfold unlessBusy
  all_goals with_reducible repeat' first
    | intro _ | apply Kept.refl | assumption | apply Kept.after (kept_bootResult) | apply Kept.after (h0 _) | split

theorem kept_showCounts {s : State} : Kept s (showCounts s) := by
  unfold showCounts
  all_goals with_reducible repeat' first | apply Kept.refl | apply Kept.after (kept_fset)

theorem kept_commitOwner {s : State} : Kept s (commitOwner s) := by
  unfold commitOwner
  exact .after kept_bootResult (.after kept_showCounts (Kept.set_boot _ (.refl s)
    ⟨le_max_left _ _, le_rfl, id, fun _ => ⟨fun _ => rfl, id, id⟩⟩))

theorem kept_commitVendor {s : State} : Kept s (commitVendor s) := by
  unfold commitVendor
  exact .after kept_bootResult (.after kept_showCounts (Kept.set_boot _ (.refl s)
    ⟨le_rfl, le_max_left _ _, id, fun _ => ⟨fun _ => rfl, id, id⟩⟩))

theorem kept_flashStart {write : Bool} {s : State} : Kept s (flashStart write s) := by
  unfold flashStart
  revert s
  all_goals with_reducible repeat' first
    | (intro x; refine Kept.viaVar y x ?_ ?_; (on_goal 1 => try dsimp -zeta only [x]); (on_goal 2 => clear_value x; intro _))
    | (intro x; dsimp -zeta only [x]; clear x) | (intro x; clear_value x) | (intro y; try dsimp -zeta only)
    | lift_lets
    | (apply Kept.set_boot <;> first | assumption | apply Kept.refl | exact ⟨le_rfl, le_rfl, id, fun _ => ⟨fun _ => rfl, id, id⟩⟩)
    | apply Kept.refl | assumption | apply Kept.after (kept_bootResult) | apply Kept.after (kept_fset) | split
    | (apply Kept.of_eq <;> rfl) | dsimp -zeta only

theorem kept_putFlash {a : Nat} {data : List Byte} {s : State} : Kept s (putFlash a data s) := by
  unfold putFlash
  all_goals with_reducible repeat' first
    | intro _ | apply Kept.refl | apply Kept.after (kept_forN ?_) | apply Kept.after (kept_setFlashByte)

theorem kept_freeFlash {a n : Nat} {s : State} : Kept s (freeFlash a n s) := by
  unfold freeFlash
  revert s
  all_goals with_reducible repeat' first
    | (intro x; refine Kept.viaVar y x ?_ ?_; (on_goal 1 => try dsimp -zeta only [x]); (on_goal 2 => clear_value x; intro _))
    | (intro x; clear_value x) | (intro y; try dsimp -zeta only) | lift_lets | apply Kept.refl | assumption
    | apply Kept.after (kept_putFlash) | apply Kept.after (Kept.of_pair (by assumption) (kept_takeFree))
    | apply Kept.after (kept_takeFree) | dsimp -zeta only

theorem kept_flashEnd {ok : Bool} {s : State} : Kept s (flashEnd ok s) := by
  unfold flashEnd
  revert s
  all_goals with_reducible repeat' first
    | (intro x; refine Kept.viaVar y x ?_ ?_; (on_goal 1 => try dsimp -zeta only [x]); (on_goal 2 => clear_value x; intro _))
    | (intro x; dsimp -zeta only [x]; clear x) | (intro x; clear_value x) | (intro y; try dsimp -zeta only)
    | lift_lets
    | (apply Kept.set_boot <;> first | assumption | apply Kept.refl | exact ⟨le_rfl, le_rfl, id, fun _ => ⟨fun _ => rfl, id, id⟩⟩)
    | apply Kept.refl | assumption | apply Kept.after (kept_fset) | apply Kept.after (kept_stgCheckRange)
    | apply Kept.after (kept_putFlash) | apply Kept.after (kept_bootResult) | apply Kept.after (kept_setTornSlot)
    | apply Kept.after (kept_freeFlash) | split | (apply Kept.of_eq <;> rfl) | dsimp -zeta only | dsimp only

theorem kept_bootCmd {op : Nat} {s : State} : Kept s (bootCmd op s) := by
  unfold bootCmd
  all_goals with_reducible repeat' first
    | intro _ | apply Kept.refl | assumption | apply Kept.after (kept_unlessBusy ?_)
    | apply Kept.after (kept_commitOwner) | apply Kept.after (kept_commitVendor) | apply Kept.after (kept_flashStart)
    | split

theorem kept_execCommitOwnerCount {w : Writer} {s : State} : KeptBy s (execCommitOwnerCount w s) := by
  unfold execCommitOwnerCount
  refine kept_live ?_
  all_goals with_reducible repeat' first
    | intro _ | apply Kept.refl | apply Kept.after (kept_guarded ?_) | apply Kept.after (kept_bootCmd)

theorem kept_execCommitVendorCount {w : Writer} {s : State} : KeptBy s (execCommitVendorCount w s) := by
  unfold execCommitVendorCount
  refine kept_live ?_
  all_goals with_reducible repeat' first
    | intro _ | apply Kept.refl | apply Kept.after (kept_guarded ?_) | apply Kept.after (kept_bootCmd)

theorem kept_execFlashErase {w : Writer} {s : State} : KeptBy s (execFlashErase w s) := by
  unfold execFlashErase
  refine kept_live ?_
  all_goals with_reducible repeat' first
    | intro _ | apply Kept.refl | apply Kept.after (kept_guarded ?_) | apply Kept.after (kept_bootCmd)

theorem kept_execFlashWr {w : Writer} {s : State} : KeptBy s (execFlashWr w s) := by
  unfold execFlashWr
  refine kept_live ?_
  all_goals with_reducible repeat' first
    | intro _ | apply Kept.refl | apply Kept.after (kept_guarded ?_) | apply Kept.after (kept_bootCmd)

theorem kept_execFlashOpComplete {ok : Bool} {s : State} : KeptBy s (execFlashOpComplete ok s) :=
  kept_live (fun _ => kept_flashEnd)

/-! ## Control -/

theorem kept_writeField {r : RegId} {i : Nat} {v : Word} {f : Field} {s : State} : Kept s (writeField r i v f s) := by
  unfold writeField
  revert s
  all_goals with_reducible repeat' first
    | (intro x; refine Kept.viaVar y x ?_ ?_; (on_goal 1 => try dsimp -zeta only [x]); (on_goal 2 => clear_value x; intro _))
    | (intro x; clear_value x) | (intro y; try dsimp -zeta only) | lift_lets | apply Kept.refl | assumption
    | apply Kept.after (kept_fset) | apply Kept.after (kept_when ?_) | apply Kept.after (kept_fsetS) | split
    | (apply Kept.of_eq <;> rfl) | dsimp -zeta only | dsimp only

theorem kept_writeFields {r : RegId} {i : Nat} {v : Word} {skip : List Nat} {s : State} : Kept s (writeFields r i v skip s) := by
  unfold writeFields
  all_goals with_reducible repeat' first
    | intro _ | apply Kept.refl | apply Kept.after (kept_forL ?_) | apply Kept.after (kept_writeField)

theorem kept_plain {r : RegId} {i : Nat} {v : Word} {s : State} : Kept s (plain r i v s) := by
  unfold plain
  all_goals with_reducible repeat' first | apply Kept.refl | apply Kept.after (kept_writeFields)

theorem kept_rwlWrite {busy : Bool} {w : Writer} {p : Packet} {r : RegId} {i : Nat} {v : Word} {s : State} : Kept s (rwlWrite busy w p r i v s) := by
  unfold rwlWrite
  revert s
  all_goals with_reducible repeat' first
    | (intro x; refine Kept.viaVar y x ?_ ?_; (on_goal 1 => try dsimp -zeta only [x]); (on_goal 2 => clear_value x; intro _))
    | (intro x; clear_value x) | (intro y; try dsimp -zeta only) | lift_lets | apply Kept.refl | assumption
    | apply Kept.after (kept_busyWrite) | apply Kept.after (kept_writeFields) | apply Kept.after (kept_plain) | split
    | dsimp -zeta only

theorem kept_lnkCtlWrite {w : Writer} {x : Packet} {p : Nat} {v : Word} {s : State} : Kept s (lnkCtlWrite w x p v s) := by
  unfold lnkCtlWrite
  revert s
  all_goals with_reducible repeat' first
    | (intro x; refine Kept.viaVar y x ?_ ?_; (on_goal 1 => try dsimp -zeta only [x]); (on_goal 2 => clear_value x; intro _))
    | (intro x; clear_value x) | (intro y; try dsimp -zeta only) | lift_lets | apply Kept.refl | assumption
    | apply Kept.after (kept_fset) | apply Kept.after (kept_when ?_) | apply Kept.after (kept_widthWrite)
    | apply Kept.after (kept_busyWrite) | apply Kept.after (kept_linkMode) | apply Kept.after (kept_linkEnable)
    | apply Kept.after (kept_linkDisable) | apply Kept.after (kept_startRetrain) | split | dsimp -zeta only

theorem kept_pwrDomWrite {w : Writer} {d : Nat} {v : Word} {s : State} : Kept s (pwrDomWrite w d v s) := by
  unfold pwrDomWrite
  revert s
  all_goals with_reducible repeat' first
    | (intro x; refine Kept.viaVar y x ?_ ?_; (on_goal 1 => try dsimp -zeta only [x]); (on_goal 2 => clear_value x; intro _))
    | (intro x; clear_value x) | (intro y; try dsimp -zeta only) | lift_lets | apply Kept.refl | assumption
    | apply Kept.after (kept_when ?_) | apply Kept.after (kept_fset) | apply Kept.after (kept_retryWrite)
    | apply Kept.after (kept_forceOn) | apply Kept.after (kept_touch) | split | dsimp -zeta only

theorem kept_pwcClkWrite {v : Word} {s : State} : Kept s (pwcClkWrite v s) := by
  unfold pwcClkWrite
  revert s
  all_goals with_reducible repeat' first
    | (intro x; refine Kept.viaVar y x ?_ ?_; (on_goal 1 => try dsimp -zeta only [x]); (on_goal 2 => clear_value x; intro _))
    | (intro x; clear_value x) | (intro y; try dsimp -zeta only) | lift_lets
    | (apply Kept.set_tb <;> first | assumption | apply Kept.refl) | apply Kept.refl | assumption
    | apply Kept.after (kept_fset) | apply Kept.after (kept_when ?_) | apply Kept.after (kept_mgcSrc)
    | (apply Kept.of_eq <;> rfl) | dsimp -zeta only

theorem kept_tbCtlWrite {v : Word} {s : State} : Kept s (tbCtlWrite v s) := by
  unfold tbCtlWrite
  revert s
  all_goals with_reducible repeat' first
    | (intro x; refine Kept.viaVar y x ?_ ?_; (on_goal 1 => try dsimp -zeta only [x]); (on_goal 2 => clear_value x; intro _))
    | (intro x; clear_value x) | (intro y; try dsimp -zeta only) | lift_lets
    | (apply Kept.set_tb <;> first | assumption | apply Kept.refl) | apply Kept.refl | assumption
    | apply Kept.after (kept_srcWrite) | apply Kept.after (kept_when ?_) | apply Kept.after (kept_fset) | split
    | (apply Kept.of_eq <;> rfl) | dsimp -zeta only

theorem kept_qCtlWrite {q : Nat} {v : Word} {s : State} : Kept s (qCtlWrite q v s) := by
  unfold qCtlWrite
  revert s
  all_goals with_reducible repeat' first
    | (intro x; refine Kept.viaVar y x ?_ ?_; (on_goal 1 => try dsimp -zeta only [x]); (on_goal 2 => clear_value x; intro _))
    | (intro x; clear_value x) | (intro y; try dsimp -zeta only) | lift_lets | apply Kept.refl | assumption
    | apply Kept.after (kept_queueEnable) | apply Kept.after (kept_queueDisable) | apply Kept.after (kept_when ?_)
    | apply Kept.after (kept_queueSkip) | split | dsimp -zeta only

theorem kept_irtModWrite {v : Word} {s : State} : Kept s (irtModWrite v s) := by
  unfold irtModWrite
  revert s
  all_goals with_reducible repeat' first
    | (intro x; refine Kept.viaVar y x ?_ ?_; (on_goal 1 => try dsimp -zeta only [x]); (on_goal 2 => clear_value x; intro _))
    | (intro x; clear_value x) | (intro y; try dsimp -zeta only) | lift_lets | apply Kept.refl | assumption
    | apply Kept.after (kept_setVec) | (apply Kept.of_eq <;> rfl) | dsimp -zeta only

theorem kept_teCmdWrite {w : Writer} {op : Nat} {s : State} : Kept s (teCmdWrite w op s) := by
  unfold teCmdWrite
  all_goals with_reducible repeat' first
    | intro _ | apply Kept.refl | assumption | apply Kept.after (kept_teCmd ?_) | apply Kept.after (kept_teWrite)
    | apply Kept.after (kept_teRead) | split

theorem kept_doorbellWrite {w : Writer} {kind q : Nat} {v : Word} {s : State} : Kept s (doorbellWrite w kind q v s) := by
  unfold doorbellWrite
  all_goals with_reducible repeat' first | apply Kept.refl | apply Kept.after (kept_offer)

theorem kept_regWrite {w : Writer} {p : Packet} {r : RegId} {i : Nat} {v : Word} {s : State} : Kept s (regWrite w p r i v s) := by
  unfold regWrite
  revert s
  all_goals with_reducible repeat' first
    | (intro x; refine Kept.viaVar y x ?_ ?_; (on_goal 1 => try dsimp -zeta only [x]); (on_goal 2 => clear_value x; intro _))
    | (intro x; clear_value x) | (intro y; try dsimp -zeta only) | lift_lets
    | (apply Kept.set_tb <;> first | assumption | apply Kept.refl) | apply Kept.refl | assumption
    | apply Kept.after (kept_when ?_) | apply Kept.after (kept_arbCommit) | apply Kept.after (kept_plain)
    | apply Kept.after (kept_writeFields) | apply Kept.after (kept_bootCmd) | apply Kept.after (kept_c52Write)
    | apply Kept.after (kept_fset) | apply Kept.after (kept_doorbellWrite) | apply Kept.after (kept_errInjWrite)
    | apply Kept.after (kept_fSvcWrite) | apply Kept.after (kept_fVecWrite) | apply Kept.after (kept_fWinWrite)
    | apply Kept.after (kept_fabCommit) | apply Kept.after (kept_gateCommit) | apply Kept.after (kept_irtModWrite)
    | apply Kept.after (kept_laneGo) | apply Kept.after (kept_checkerEnable) | apply Kept.after (kept_forceOut)
    | apply Kept.after (kept_lnkCtlWrite) | apply Kept.after (kept_runStart) | apply Kept.after (kept_restart)
    | apply Kept.after (kept_setEvt) | apply Kept.after (kept_commitRws) | apply Kept.after (kept_rwlWrite)
    | apply Kept.after (kept_psWrite) | apply Kept.after (kept_pwcClkWrite) | apply Kept.after (kept_pwrDomWrite)
    | apply Kept.after (kept_qCtlWrite) | apply Kept.after (kept_errWrite) | apply Kept.after (kept_headWrite)
    | apply Kept.after (kept_rtWrite) | apply Kept.after (kept_semCmd) | apply Kept.after (kept_slotCommit)
    | apply Kept.after (kept_stepMonWrite) | apply Kept.after (kept_tbCtlWrite) | apply Kept.after (kept_step)
    | apply Kept.after (kept_teCmd ?_) | apply Kept.after (kept_teCmdWrite) | apply Kept.after (kept_markWrite)
    | apply Kept.after (kept_fullClear) | apply Kept.after (kept_winCmd) | apply Kept.after (kept_winSelWrite) | split
    | (apply Kept.of_eq <;> rfl) | dsimp -zeta only | dsimp only

theorem kept_badWidth {p : Packet} {s : State} : Kept s (badWidth p s) := by
  unfold badWidth
  all_goals with_reducible repeat' first | apply Kept.refl | apply Kept.after (kept_violPkt)

theorem kept_regAccept {w : Writer} {p : Packet} {r : RegId} {i : Nat} {v : Word} {s : State} : Kept s (regAccept w p r i v s) := by
  unfold regAccept
  all_goals with_reducible repeat' first
    | apply Kept.refl | assumption | apply Kept.after (kept_regWrite) | apply Kept.after (kept_violSource) | split

theorem kept_ctlWrite {w : Writer} {p : Packet} {fa : Bool} {fn off width : Nat} {v : Word} {s : State} : Kept s (ctlWrite w p fa fn off width v s) := by
  unfold ctlWrite
  all_goals with_reducible repeat' first
    | intro _ | apply Kept.refl | assumption | apply Kept.after (kept_when ?_) | apply Kept.after (kept_tableWrite)
    | apply Kept.after (kept_badWidth) | apply Kept.after (kept_violSource) | apply Kept.after (kept_regAccept)
    | split

theorem kept_regRead {w : Writer} {r : RegId} {i : Nat} {s : State} : Kept s (regRead w r i s).2 := by
  unfold regRead
  revert s
  all_goals with_reducible repeat' first
    | (intro x; refine Kept.viaVar y x ?_ ?_; (on_goal 1 => try dsimp -zeta only [x]); (on_goal 2 => clear_value x; intro _))
    | (intro x; clear_value x) | (intro y; try dsimp -zeta only) | lift_lets | apply Kept.refl | assumption
    | apply Kept.after (kept_psUeRecord) | apply Kept.after (kept_psCorrect)
    | apply Kept.after (Kept.of_pair (by assumption) (kept_logRead)) | apply Kept.after (kept_logRead) | split
    | (apply Kept.of_eq <;> rfl) | dsimp -zeta only | dsimp only

theorem kept_ctlRead {w : Writer} {fa : Bool} {fn off width : Nat} {s : State} : Kept s (ctlRead w fa fn off width s).2 := by
  unfold ctlRead
  revert s
  all_goals with_reducible repeat' first
    | (intro x; refine Kept.viaVar y x ?_ ?_; (on_goal 1 => try dsimp -zeta only [x]); (on_goal 2 => clear_value x; intro _))
    | (intro x; clear_value x) | (intro y; try dsimp -zeta only) | lift_lets | apply Kept.refl | assumption
    | apply Kept.after (kept_stgCheckRange) | apply Kept.after (Kept.of_pair (by assumption) (kept_regRead))
    | apply Kept.after (kept_regRead) | split | (apply Kept.of_eq <;> rfl) | dsimp -zeta only | dsimp only

theorem kept_registerWrite {w : Writer} {off width : Nat} {v : Word} {s : State} : Kept s (registerWrite w off width v s) := by
  unfold registerWrite
  revert s
  all_goals with_reducible repeat' first
    | (intro x; refine Kept.viaVar y x ?_ ?_; (on_goal 1 => try dsimp -zeta only [x]); (on_goal 2 => clear_value x; intro _))
    | (intro x; clear_value x) | (intro y; try dsimp -zeta only) | lift_lets | apply Kept.refl | assumption
    | apply Kept.after (kept_ctlWrite) | split | (apply Kept.of_eq <;> rfl) | dsimp -zeta only | dsimp only

theorem kept_execRegisterWrite {w : Writer} {off width : Nat} {value : BitVec 64} {s : State} : KeptBy s (execRegisterWrite w off width value s) :=
  kept_live (fun _ => kept_registerWrite)

/-! ## Boot -/

theorem kept_setStage {n : Nat} {s : State} : Kept s (setStage n s) := by
  unfold setStage
  all_goals with_reducible repeat' first | apply Kept.refl | apply Kept.after (kept_fset)

theorem kept_atStage {n : Nat} {f : State → State} {s : State} (h0 : ∀ y, Kept y (f y)) : KeptBy s (atStage n f s) := by
  unfold atStage
  refine kept_live ?_
  all_goals with_reducible repeat' first
    | intro _ | apply Kept.refl | assumption | apply Kept.after (kept_when ?_) | apply Kept.after (h0 _)

theorem kept_cutFlash {s : State} : Kept s (cutFlash s) := by
  unfold cutFlash
  all_goals with_reducible repeat' first
    | apply Kept.refl | assumption | apply Kept.after (kept_freeFlash) | apply Kept.after (kept_setTornSlot) | split

theorem kept_powerOn {por : PorGrp} {s : State} : KeptButPor s (powerOn por s) := by
  have k : Kept s (cutFlash s) := kept_cutFlash
  exact ⟨k.pending, rfl, k.free, k.out, fun _ => rfl, fun _ => rfl, k.fuses⟩

theorem kept_release {s : State} : Kept s (release s) := by
  unfold release
  all_goals with_reducible repeat' first
    | intro _ | apply Kept.refl | assumption | apply Kept.after (kept_forN ?_) | apply Kept.after (kept_when ?_)
    | apply Kept.after (kept_perstDeassert) | split

theorem kept_execPorstNAssert {s t : State} (h : execPorstNAssert s = .next t) : KeptButPor s t := by
  cases h
  split
  · exact (Kept.refl s).butPor
  · exact kept_powerOn

theorem kept_execPorstNDeassert {a b : Bool} {s t : State} (h : execPorstNDeassert a b s = .next t) : KeptButPor s t := by
  cases h
  split
  · refine KeptButPor.trans ?_ kept_release
    exact ⟨rfl, rfl, le_rfl, List.suffix_refl _, id, id, fusesKept_refl _⟩
  · exact (Kept.refl s).butPor

theorem kept_execVauxBelowThreshold {s t : State} (h : execVauxBelowThreshold s = .next t) : KeptButPor s t := by
  cases h
  split
  · exact (Kept.refl s).butPor
  · exact kept_powerOn

theorem kept_execVauxAboveThreshold {s t : State} (h : execVauxAboveThreshold s = .next t) : KeptButPor s t := by
  cases h
  split
  · refine KeptButPor.trans ?_ kept_release
    exact ⟨rfl, rfl, le_rfl, List.suffix_refl _, id, id, fusesKept_refl _⟩
  · exact (Kept.refl s).butPor

theorem kept_showKeys {s : State} : Kept s (showKeys s) := by
  unfold showKeys
  revert s
  all_goals with_reducible repeat' first
    | (intro x; refine Kept.viaVar y x ?_ ?_; (on_goal 1 => try dsimp -zeta only [x]); (on_goal 2 => clear_value x; intro _))
    | (intro x; dsimp -zeta only [x]; clear x) | (intro x; clear_value x) | (intro y; try dsimp -zeta only)
    | lift_lets | apply Kept.refl | assumption | apply Kept.after (kept_fset) | dsimp -zeta only

theorem kept_execBootFuseStage {s : State} : KeptBy s (execBootFuseStage s) := by
  unfold execBootFuseStage
  refine kept_atStage ?_
  all_goals with_reducible repeat' first
    | intro _ | apply Kept.refl | apply Kept.after (kept_setStage) | apply Kept.after (kept_showCounts)
    | apply Kept.after (kept_showKeys)

theorem kept_zeroStaging {s : State} : Kept s (zeroStaging s) := by
  refine Kept.set_mem _ (.refl s) (fun h => ?_)
  rw [Memory.wf_iff] at *; exact ⟨rfl, rfl, rfl, h.2.2.2⟩

theorem kept_execBootRomStage {s : State} : KeptBy s (execBootRomStage s) := by
  unfold execBootRomStage
  refine kept_atStage ?_
  all_goals with_reducible repeat' first
    | intro _ | apply Kept.refl | apply Kept.after (kept_setStage) | apply Kept.after (kept_zeroStaging)

theorem kept_slotFails {cause : Nat} {s : State} : Kept s (slotFails cause s) := by
  unfold slotFails
  refine Kept.after kept_setStage ?_
  have k : Kept s (s.fset (if s.boot.trySlot = 0 then F.bootStsFailA else F.bootStsFailB) 0 cause) := kept_fset
  exact ⟨k.pending, k.por, k.free, k.out, k.mem, k.reg, ⟨le_rfl, le_rfl, id, fun _ => ⟨fun _ => rfl, id, id⟩⟩⟩

theorem kept_execBootReadSlot {b : Bool} {s : State} : KeptBy s (execBootReadSlot b s) := by
  unfold execBootReadSlot
  refine kept_atStage ?_
  all_goals with_reducible repeat' first
    | (intro x; refine Kept.viaVar y x ?_ ?_; (on_goal 1 => try dsimp -zeta only [x]); (on_goal 2 => clear_value x; intro _))
    | (intro x; dsimp -zeta only [x]; clear x) | (intro x; clear_value x) | (intro y; try dsimp -zeta only)
    | lift_lets
    | (apply Kept.set_boot <;> first | assumption | apply Kept.refl | exact ⟨le_rfl, le_rfl, id, fun _ => ⟨fun _ => rfl, id, id⟩⟩)
    | apply Kept.refl | assumption | apply Kept.after (kept_slotFails) | apply Kept.after (kept_setStage) | split
    | (apply Kept.of_eq <;> rfl) | dsimp -zeta only

theorem kept_execBootVerifySlot {s : State} : KeptBy s (execBootVerifySlot s) := by
  unfold execBootVerifySlot
  refine kept_atStage ?_
  all_goals with_reducible repeat' first
    | (intro x; refine Kept.viaVar y x ?_ ?_; (on_goal 1 => try dsimp -zeta only [x]); (on_goal 2 => clear_value x; intro _))
    | (intro x; clear_value x) | (intro y; try dsimp -zeta only) | lift_lets | apply Kept.refl | assumption
    | apply Kept.after (kept_setStage) | apply Kept.after (kept_slotFails) | split | dsimp -zeta only

theorem kept_setKey {k : Nat} {x : KeySlot} {s : State} (h0 : (s.keySlot k).hash ≠ 0 → x.hash = (s.keySlot k).hash)
    (h1 : (s.keySlot k).enrolled = true → x.enrolled = true) (h2 : (s.keySlot k).revoked = true → x.revoked = true) :
    Kept s (setKey k x s) := kept_setKeySlot h0 h1 h2

theorem kept_keyRecord {okey : Nat} {r : List Byte} {s : State} : Kept s (keyRecord okey r s) := by
  unfold keyRecord
  dsimp only
  split
  · exact kept_fset
  · split
    · split
      · exact .refl s
      · refine Kept.ite (fun h => ?_) kept_fset
        have h0 : (s.keySlot (partNat r 4 4)).hash = 0 := by
          simp only [Bool.and_eq_true, beq_iff_eq] at h; exact h.1.1
        have k : Kept s (setKey (partNat r 4 4) { s.keySlot (partNat r 4 4) with hash := partNat r 8 64, enrolled := true } s) :=
          kept_setKey (fun e => absurd h0 e) (fun _ => rfl) id
        exact Kept.set_boot _ k ⟨le_rfl, le_rfl, fun _ => rfl, fun _ => ⟨fun _ => rfl, id, id⟩⟩
    · split
      · split
        · exact .refl s
        · split
          · exact kept_setKey (fun _ => rfl) id (fun _ => rfl)
          · exact kept_fset
      · exact kept_fset

theorem kept_execBootKeyRecords {s : State} : KeptBy s (execBootKeyRecords s) := by
  unfold execBootKeyRecords
  refine kept_atStage ?_
  all_goals with_reducible repeat' first
    | (intro x; refine Kept.viaVar y x ?_ ?_; (on_goal 1 => try dsimp -zeta only [x]); (on_goal 2 => clear_value x; intro _))
    | (intro x; clear_value x) | (intro y; try dsimp -zeta only) | lift_lets | apply Kept.refl | assumption
    | apply Kept.after (kept_setStage) | apply Kept.after (kept_showKeys) | apply Kept.after (kept_forL ?_)
    | apply Kept.after (kept_keyRecord) | dsimp -zeta only

theorem kept_preset {e : List Byte} {s : State} : Kept s (preset e s) := by
  unfold preset
  dsimp only
  split
  · split
    · exact kept_registerWrite
    · exact kept_setImageVal
  · exact kept_registerWrite

theorem kept_calEntry {e : List Byte} {s : State} : Kept s (calEntry e s) := by
  unfold calEntry
  revert s
  all_goals with_reducible repeat' first
    | (intro x; refine Kept.viaVar y x ?_ ?_; (on_goal 1 => try dsimp -zeta only [x]); (on_goal 2 => clear_value x; intro _))
    | (intro x; clear_value x) | (intro y; try dsimp -zeta only) | lift_lets | apply Kept.refl | assumption
    | apply Kept.after (kept_setCalOffset) | apply Kept.after (kept_fset) | split | (apply Kept.of_eq <;> rfl)
    | dsimp -zeta only | dsimp only

theorem kept_windowEntry {e : List Byte} {s : State} : Kept s (windowEntry e s) := by
  unfold windowEntry
  revert s
  all_goals with_reducible repeat' first
    | (intro x; refine Kept.viaVar y x ?_ ?_; (on_goal 1 => try dsimp -zeta only [x]); (on_goal 2 => clear_value x; intro _))
    | (intro x; clear_value x) | (intro y; try dsimp -zeta only) | lift_lets | apply Kept.refl | assumption
    | apply Kept.after (kept_forN ?_) | apply Kept.after (kept_putDesc) | dsimp -zeta only

theorem kept_translationEntry {e : List Byte} {s : State} : Kept s (translationEntry e s) := by
  unfold translationEntry
  all_goals with_reducible repeat' first
    | intro _ | apply Kept.refl | apply Kept.after (kept_forN ?_) | apply Kept.after (kept_putEnt)

theorem kept_loadProgram {d : List Byte} {c : Nat} {s : State} : Kept s (loadProgram d c s) := by
  unfold loadProgram
  refine Kept.after kept_unclaimOne (.after kept_fset (.after kept_fset (.after kept_setClu
    (.after (kept_forN (fun _ _ => kept_scrWrite)) (.after (kept_forN (fun _ _ => kept_setPsWord)) ?_)))))
  refine Kept.set_mem _ (.after kept_fset kept_claimOne) (fun h => ?_)
  rw [Memory.wf_iff] at *
  dsimp only
  exact ⟨h.1, h.2.1, h.2.2.1, h.2.2.2.1, h.2.2.2.2.1, mwf_mclear _ _ _ h.2.2.2.2.2.1, mwf_mclear _ _ _ h.2.2.2.2.2.2⟩

theorem kept_measure {s : State} : Kept s (measure s) := by
  unfold measure
  revert s
  all_goals with_reducible repeat' first
    | (intro x; refine Kept.viaVar y x ?_ ?_; (on_goal 1 => try dsimp -zeta only [x]); (on_goal 2 => clear_value x; intro _))
    | (intro x; clear_value x) | (intro y; try dsimp -zeta only) | lift_lets | apply Kept.refl | assumption
    | apply Kept.after (kept_setMeasAt) | apply Kept.after (kept_forN ?_) | dsimp -zeta only

theorem kept_loadAll {s : State} : Kept s (loadAll s) := by
  unfold loadAll
  revert s
  all_goals with_reducible repeat' first
    | (intro x; refine Kept.viaVar y x ?_ ?_; (on_goal 1 => try dsimp -zeta only [x]); (on_goal 2 => clear_value x; intro _))
    | (intro x; dsimp -zeta only [x]; clear x) | (intro x; clear_value x) | (intro y; try dsimp -zeta only)
    | lift_lets
    | (apply Kept.set_boot <;> first | assumption | apply Kept.refl | exact ⟨le_rfl, le_rfl, id, fun _ => ⟨fun _ => rfl, id, id⟩⟩)
    | apply Kept.refl | assumption | apply Kept.after (kept_forL ?_) | apply Kept.after (kept_fset)
    | apply Kept.after (kept_preset) | apply Kept.after (kept_setEqWord) | apply Kept.after (kept_calEntry)
    | apply Kept.after (kept_translationEntry) | apply Kept.after (kept_windowEntry)
    | apply Kept.after (kept_loadProgram) | apply Kept.after (kept_measure) | (apply Kept.of_eq <;> rfl)
    | dsimp -zeta only

theorem kept_execBootLoad {s : State} : KeptBy s (execBootLoad s) := by
  unfold execBootLoad
  refine kept_atStage ?_
  all_goals with_reducible repeat' first
    | intro _ | apply Kept.refl | apply Kept.after (kept_setStage) | apply Kept.after (kept_loadAll)

theorem kept_execBootStart {s : State} : KeptBy s (execBootStart s) := by
  refine kept_atStage (fun y => ?_)
  split
  · exact .refl y
  · exact Kept.set_boot _ (.after kept_fset kept_fset) ⟨le_rfl, le_rfl, id, fun _ => ⟨fun _ => rfl, id, id⟩⟩

theorem kept_settleClocks {s : State} : Kept s (settleClocks s) := by
  unfold settleClocks
  all_goals with_reducible repeat' first
    | intro _
    | (apply Kept.set_boot <;> first | assumption | apply Kept.refl | exact ⟨le_rfl, le_rfl, id, fun _ => ⟨fun _ => rfl, id, id⟩⟩)
    | apply Kept.refl | apply Kept.after (kept_forL ?_) | apply Kept.after (kept_runStart)
    | (apply Kept.of_eq <;> rfl)

theorem kept_noTbclk {s : State} : Kept s (noTbclk s) := by
  unfold noTbclk
  all_goals with_reducible repeat' first
    | apply Kept.refl | apply Kept.after (kept_settleClocks) | apply Kept.after (kept_fset)

theorem kept_clockHold {s : State} : Kept s (clockHold s) := by
  unfold clockHold
  revert s
  all_goals with_reducible repeat' first
    | (intro x; refine Kept.viaVar y x ?_ ?_; (on_goal 1 => try dsimp -zeta only [x]); (on_goal 2 => clear_value x; intro _))
    | (intro x; clear_value x) | (intro y; try dsimp -zeta only) | lift_lets | apply Kept.refl | assumption
    | apply Kept.after (kept_settleClocks) | apply Kept.after (kept_mgcSrc) | apply Kept.after (kept_srcWrite)
    | apply Kept.after (kept_noTbclk) | apply Kept.after (kept_when ?_) | split | dsimp -zeta only

theorem kept_execClockLockHoldExpire {s : State} : KeptBy s (execClockLockHoldExpire s) :=
  kept_live (fun _ => kept_clockHold)

theorem kept_lockDrop {tbu : Bool} {s : State} : Kept s (lockDrop tbu s) := by
  unfold lockDrop
  revert s
  all_goals with_reducible repeat' first
    | (intro x; refine Kept.viaVar y x ?_ ?_; (on_goal 1 => try dsimp -zeta only [x]); (on_goal 2 => clear_value x; intro _))
    | (intro x; clear_value x) | (intro y; try dsimp -zeta only) | lift_lets
    | (apply Kept.set_tb <;> first | assumption | apply Kept.refl) | apply Kept.refl | assumption
    | apply Kept.after (kept_fset) | apply Kept.after (kept_when ?_) | apply Kept.after (kept_noTbclk) | split
    | (apply Kept.of_eq <;> rfl) | dsimp -zeta only

theorem kept_execPllLockDrop {tbu : Bool} {s : State} : KeptBy s (execPllLockDrop tbu s) :=
  kept_live (fun _ => kept_lockDrop)

theorem kept_execInitTimeout {c : Fin 8} {s : State} : KeptBy s (execInitTimeout c s) := by
  unfold execInitTimeout
  refine kept_atStage ?_
  all_goals with_reducible repeat' first
    | intro _ | apply Kept.refl | assumption | apply Kept.after (kept_fset) | split

theorem kept_imageWidths {s : State} : Kept s (imageWidths s) := by
  unfold imageWidths
  all_goals with_reducible repeat' first
    | intro _ | apply Kept.refl | apply Kept.after (kept_forN ?_) | apply Kept.after (kept_when ?_)
    | apply Kept.after (kept_widthWrite)

theorem kept_becomeReady {stage : Nat} {s : State} : Kept s (becomeReady stage s) := by
  unfold becomeReady
  revert s
  all_goals with_reducible repeat' first
    | (intro x; refine Kept.viaVar y x ?_ ?_; (on_goal 1 => try dsimp -zeta only [x]); (on_goal 2 => clear_value x; intro _))
    | (intro x; clear_value x) | (intro y; try dsimp -zeta only) | lift_lets | apply Kept.refl | assumption
    | apply Kept.after (kept_loadImages) | apply Kept.after (kept_imageWidths) | apply Kept.after (kept_setImageVal)
    | apply Kept.after (kept_forN ?_) | apply Kept.after (kept_when ?_) | apply Kept.after (kept_linkEnable)
    | apply Kept.after (kept_forL ?_) | apply Kept.after (kept_touch) | apply Kept.after (kept_setStage)
    | dsimp -zeta only

theorem kept_execBootReady {s : State} : KeptBy s (execBootReady s) := by
  unfold execBootReady
  refine kept_atStage ?_
  all_goals with_reducible repeat' first
    | intro _ | apply Kept.refl | assumption | apply Kept.after (kept_becomeReady) | split

theorem kept_execBootRecovery {s : State} : KeptBy s (execBootRecovery s) := by
  unfold execBootRecovery
  refine kept_atStage ?_
  all_goals with_reducible repeat' first
    | intro _
    | (apply Kept.set_boot <;> first | assumption | apply Kept.refl | exact ⟨le_rfl, le_rfl, id, fun _ => ⟨fun _ => rfl, id, id⟩⟩)
    | apply Kept.refl | assumption | apply Kept.after (kept_becomeReady) | split | (apply Kept.of_eq <;> rfl)

/-! ## Attest -/

theorem kept_doeReq {k : Nat} {f : State → State} {s : State} (h0 : ∀ y, Kept y (f y)) : KeptBy s (doeReq k f s) := by
  unfold doeReq
  refine kept_live ?_
  all_goals with_reducible repeat' first
    | intro _ | apply Kept.refl | assumption | apply Kept.after (kept_when ?_) | apply Kept.after (h0 _)

theorem kept_note {k : Nat} {m : List Nat} {s : State} : Kept s (note k m s) := by
  unfold note
  all_goals with_reducible repeat' first | apply Kept.refl | apply Kept.after (kept_setTranscript)

theorem kept_respond {k : Nat} {kind : String} {data : List Nat} {s : State} : Kept s (respond k kind data s) := by
  unfold respond
  all_goals with_reducible repeat' first
    | apply Kept.refl | apply Kept.after (kept_note) | apply Kept.after (kept_emit)

theorem kept_spdmError {k : Nat} {err : String} {code : Nat} {s : State} : Kept s (spdmError k err code s) := by
  unfold spdmError
  all_goals with_reducible repeat' first | apply Kept.refl | apply Kept.after (kept_emit)

theorem kept_inTurn {k code : Nat} {ok : Bool} {f : State → State} {s : State} (h0 : ∀ y, Kept y (f y)) : Kept s (inTurn k code ok f s) := by
  unfold inTurn
  all_goals with_reducible repeat' first
    | intro _ | apply Kept.refl | assumption | apply Kept.after (kept_spdmError) | apply Kept.after (h0 _) | split

theorem kept_withChain {k code slot : Nat} {f : List Byte → State → State} {s : State} (h0 : ∀ a0 y, Kept y (f a0 y)) : Kept s (withChain k code slot f s) := by
  unfold withChain
  all_goals with_reducible repeat' first
    | intro _ | apply Kept.refl | assumption | apply Kept.after (kept_spdmError) | apply Kept.after (h0 _ _) | split

theorem kept_execDoeDiscovery {k : Fin 2} {index : BitVec 8} {s : State} : KeptBy s (execDoeDiscovery k index s) := by
  unfold execDoeDiscovery
  refine kept_doeReq ?_
  all_goals with_reducible repeat' first
    | intro _ | apply Kept.refl | assumption | apply Kept.after (kept_emit) | split

theorem kept_execGetVersion {k : Fin 2} {s : State} : KeptBy s (execGetVersion k s) := by
  unfold execGetVersion
  refine kept_doeReq ?_
  all_goals with_reducible repeat' first
    | intro _ | apply Kept.refl | apply Kept.after (kept_respond) | apply Kept.after (kept_note)
    | apply Kept.after (kept_setTranscript) | apply Kept.after (kept_setSpdmAt)

theorem kept_execGetCapabilities {k : Fin 2} {s : State} : KeptBy s (execGetCapabilities k s) := by
  unfold execGetCapabilities
  refine kept_doeReq ?_
  all_goals with_reducible repeat' first
    | intro _ | apply Kept.refl | apply Kept.after (kept_inTurn ?_) | apply Kept.after (kept_respond)
    | apply Kept.after (kept_note) | apply Kept.after (kept_setSpdmAt)

theorem kept_execNegotiateAlgorithms {k : Fin 2} {s : State} : KeptBy s (execNegotiateAlgorithms k s) := by
  unfold execNegotiateAlgorithms
  refine kept_doeReq ?_
  all_goals with_reducible repeat' first
    | intro _ | apply Kept.refl | apply Kept.after (kept_inTurn ?_) | apply Kept.after (kept_respond)
    | apply Kept.after (kept_note) | apply Kept.after (kept_setSpdmAt)

theorem kept_negotiated {k code : Nat} {f : State → State} {s : State} (h0 : ∀ y, Kept y (f y)) : KeptBy s (negotiated k code f s) := by
  unfold negotiated
  refine kept_doeReq ?_
  all_goals with_reducible repeat' first
    | intro _ | apply Kept.refl | assumption | apply Kept.after (kept_inTurn ?_) | apply Kept.after (h0 _)

theorem kept_execGetDigests {k : Fin 2} {s : State} : KeptBy s (execGetDigests k s) := by
  unfold execGetDigests
  refine kept_negotiated ?_
  all_goals with_reducible repeat' first
    | (intro x; refine Kept.viaVar y x ?_ ?_; (on_goal 1 => try dsimp -zeta only [x]); (on_goal 2 => clear_value x; intro _))
    | (intro x; clear_value x) | (intro y; try dsimp -zeta only) | lift_lets | apply Kept.refl | assumption
    | apply Kept.after (kept_respond) | apply Kept.after (kept_note) | split | dsimp -zeta only

theorem kept_execGetCertificate {k : Fin 2} {slot : BitVec 8} {off len : BitVec 16} {s : State} : KeptBy s (execGetCertificate k slot off len s) := by
  unfold execGetCertificate
  refine kept_negotiated ?_
  all_goals with_reducible repeat' first
    | (intro x; refine Kept.viaVar y x ?_ ?_; (on_goal 1 => try dsimp -zeta only [x]); (on_goal 2 => clear_value x; intro _))
    | (intro x; clear_value x) | (intro y; try dsimp -zeta only) | lift_lets | apply Kept.refl | assumption
    | apply Kept.after (kept_withChain ?_) | apply Kept.after (kept_spdmError) | apply Kept.after (kept_respond)
    | apply Kept.after (kept_note) | split | dsimp -zeta only

theorem kept_toSec {k : Nat} {r : SpdmReq} {s : State} : Kept s (toSec k r s) := by
  unfold toSec
  all_goals with_reducible repeat' first
    | (apply Kept.set_boot <;> first | assumption | apply Kept.refl | exact ⟨le_rfl, le_rfl, id, fun _ => ⟨fun _ => rfl, id, id⟩⟩)
    | apply Kept.refl | (apply Kept.of_eq <;> rfl)

theorem kept_execChallenge {k : Fin 2} {slot : BitVec 8} {nonce : BitVec 256} {s : State} : KeptBy s (execChallenge k slot nonce s) := by
  unfold execChallenge
  refine kept_negotiated ?_
  all_goals with_reducible repeat' first
    | intro _ | apply Kept.refl | apply Kept.after (kept_withChain ?_) | apply Kept.after (kept_toSec)
    | apply Kept.after (kept_note)

theorem kept_execGetMeasurements {k : Fin 2} {index : BitVec 8} {sign : Bool} {nonce : BitVec 256} {s : State} : KeptBy s (execGetMeasurements k index sign nonce s) := by
  unfold execGetMeasurements
  refine kept_negotiated ?_
  all_goals with_reducible repeat' first
    | (intro x; refine Kept.viaVar y x ?_ ?_; (on_goal 1 => try dsimp -zeta only [x]); (on_goal 2 => clear_value x; intro _))
    | (intro x; clear_value x) | (intro y; try dsimp -zeta only) | lift_lets | apply Kept.refl | assumption
    | apply Kept.after (kept_spdmError) | apply Kept.after (kept_note) | apply Kept.after (kept_toSec)
    | apply Kept.after (kept_respond) | split | dsimp -zeta only

theorem kept_execSpdmUnsupportedRequest {k : Fin 2} {code : BitVec 8} {s : State} : KeptBy s (execSpdmUnsupportedRequest k code s) := by
  unfold execSpdmUnsupportedRequest
  refine kept_doeReq ?_
  all_goals with_reducible repeat' first | intro _ | apply Kept.refl | apply Kept.after (kept_spdmError)

theorem kept_signed {k : Nat} {kind : String} {data : List Nat} {s : State} : Kept s (signed k kind data s) := by
  unfold signed
  revert s
  all_goals with_reducible repeat' first
    | (intro x; refine Kept.viaVar y x ?_ ?_; (on_goal 1 => try dsimp -zeta only [x]); (on_goal 2 => clear_value x; intro _))
    | (intro x; clear_value x) | (intro y; try dsimp -zeta only) | lift_lets | apply Kept.refl | assumption
    | apply Kept.after (kept_note) | apply Kept.after (kept_setTranscript) | apply Kept.after (kept_emit)
    | apply Kept.after (Kept.of_pair (by assumption) (kept_takeFree)) | apply Kept.after (kept_takeFree)
    | dsimp -zeta only

theorem kept_signHead {s : State} : Kept s (signHead s) := by
  unfold signHead
  revert s
  all_goals with_reducible repeat' first
    | (intro x; refine Kept.viaVar y x ?_ ?_; (on_goal 1 => try dsimp -zeta only [x]); (on_goal 2 => clear_value x; intro _))
    | (intro x; dsimp -zeta only [x]; clear x) | (intro x; clear_value x) | (intro y; try dsimp -zeta only)
    | lift_lets
    | (apply Kept.set_boot <;> first | assumption | apply Kept.refl | exact ⟨le_rfl, le_rfl, id, fun _ => ⟨fun _ => rfl, id, id⟩⟩)
    | apply Kept.refl | assumption | apply Kept.after (kept_signed) | split | (apply Kept.of_eq <;> rfl)
    | dsimp -zeta only | dsimp only

theorem kept_execSpdmSignComplete {s : State} : KeptBy s (execSpdmSignComplete s) :=
  kept_live (fun _ => kept_signHead)

theorem kept_execDoeAbort {k : Fin 2} {s : State} : KeptBy s (execDoeAbort k s) := by
  unfold execDoeAbort
  refine kept_live ?_
  all_goals with_reducible repeat' first
    | intro _ | apply Kept.refl | apply Kept.after (kept_when ?_) | apply Kept.after (kept_dropMailbox)

/-! ## Thermal -/

theorem kept_putTemp {i : Nat} {t : BitVec 16} {s : State} : Kept s (putTemp i t s) := by
  unfold putTemp
  all_goals with_reducible repeat' first | apply Kept.refl | apply Kept.after (kept_fset)

theorem kept_execThermUpdate {t0 t1 t2 t3 : BitVec 16} {s : State} : KeptBy s (execThermUpdate t0 t1 t2 t3 s) := by
  unfold execThermUpdate
  refine kept_live ?_
  all_goals with_reducible repeat' first
    | (intro x; refine Kept.viaVar y x ?_ ?_; (on_goal 1 => try dsimp -zeta only [x]); (on_goal 2 => clear_value x; intro _))
    | (intro x; clear_value x) | (intro y; try dsimp -zeta only) | lift_lets | apply Kept.refl | assumption
    | apply Kept.after (kept_putTemp) | apply Kept.after (kept_when ?_) | apply Kept.after (kept_fset)
    | dsimp -zeta only

theorem kept_tripNow {s : State} : Kept s (tripNow s) := by
  unfold tripNow
  all_goals with_reducible repeat' first
    | apply Kept.refl | assumption | apply Kept.after (kept_fset) | apply Kept.after (kept_emit) | split

theorem kept_execThermtripAssert {sensor : Fin 4} {t : BitVec 16} {s : State} : KeptBy s (execThermtripAssert sensor t s) := by
  unfold execThermtripAssert
  refine kept_live ?_
  all_goals with_reducible repeat' first
    | (intro x; refine Kept.viaVar y x ?_ ?_; (on_goal 1 => try dsimp -zeta only [x]); (on_goal 2 => clear_value x; intro _))
    | (intro x; clear_value x) | (intro y; try dsimp -zeta only) | lift_lets | apply Kept.refl | assumption
    | apply Kept.after (kept_when ?_) | apply Kept.after (kept_tripNow)
    | apply Kept.after (Kept.of_pair (by assumption) (kept_takeFree)) | apply Kept.after (kept_takeFree)
    | dsimp -zeta only

theorem kept_execLrefclkLoss {s : State} : KeptBy s (execLrefclkLoss s) := by
  unfold execLrefclkLoss
  refine kept_live ?_
  all_goals with_reducible repeat' first
    | intro _ | apply Kept.refl | apply Kept.after (kept_forN ?_) | apply Kept.after (kept_when ?_)
    | apply Kept.after (kept_startRetrain) | apply Kept.after (kept_setLpi) | (apply Kept.of_eq <;> rfl)

/-! ## Arrive -/

theorem kept_lockRefuse {ni : Nat} {p : Packet} {s : State} : Kept s (lockRefuse ni p s) := by
  unfold lockRefuse
  revert s
  all_goals with_reducible repeat' first
    | (intro x; refine Kept.viaVar y x ?_ ?_; (on_goal 1 => try dsimp -zeta only [x]); (on_goal 2 => clear_value x; intro _))
    | (intro x; clear_value x) | (intro y; try dsimp -zeta only) | lift_lets | apply Kept.refl | assumption
    | apply Kept.after (kept_violPkt) | apply Kept.after (kept_fset) | apply Kept.after (kept_offer)
    | apply Kept.after (kept_reply) | split | (apply Kept.of_eq <;> rfl) | dsimp -zeta only

theorem kept_completeCa {ni : Nat} {p : Packet} {s : State} : Kept s (completeCa ni p s) := by
  unfold completeCa
  all_goals with_reducible repeat' first
    | apply Kept.refl | apply Kept.after (kept_setArrived) | (apply Kept.of_eq <;> rfl)

theorem kept_completeOpen {ni : Nat} {p : Packet} {s : State} : Kept s (completeOpen ni p s) := by
  unfold completeOpen
  all_goals with_reducible repeat' first
    | intro _ | apply Kept.refl | apply Kept.after (kept_when ?_) | apply Kept.after (kept_completeCa)

theorem kept_malformed {ni : Nat} {p : Packet} {s : State} : Kept s (malformed ni p s) := by
  unfold malformed
  revert s
  all_goals with_reducible repeat' first
    | (intro x; refine Kept.viaVar y x ?_ ?_; (on_goal 1 => try dsimp -zeta only [x]); (on_goal 2 => clear_value x; intro _))
    | (intro x; clear_value x) | (intro y; try dsimp -zeta only) | lift_lets | apply Kept.refl | assumption
    | apply Kept.after (kept_violPkt) | apply Kept.after (kept_offer) | apply Kept.after (kept_reply)
    | apply Kept.after (kept_pfr) | apply Kept.after (kept_completeOpen) | split | (apply Kept.of_eq <;> rfl)
    | dsimp -zeta only | dsimp only

theorem kept_hold {g : Nat} {p : Packet} {s : State} : Kept s (hold g p s) := by
  unfold hold
  all_goals with_reducible repeat' first
    | apply Kept.refl | apply Kept.after (kept_setGate) | (apply Kept.of_eq <;> rfl)

theorem kept_discard {g : Nat} {p : Packet} {s : State} : Kept s (discard g p s) := by
  unfold discard
  revert s
  all_goals with_reducible repeat' first
    | (intro x; refine Kept.viaVar y x ?_ ?_; (on_goal 1 => try dsimp -zeta only [x]); (on_goal 2 => clear_value x; intro _))
    | (intro x; clear_value x) | (intro y; try dsimp -zeta only) | lift_lets | apply Kept.refl | assumption
    | apply Kept.after (kept_offer) | apply Kept.after (kept_hostFlushOne) | apply Kept.after (kept_flushOne) | split
    | dsimp -zeta only

theorem kept_gateTake {g : Nat} {p : Packet} {s : State} : Kept s (gateTake g p s) := by
  unfold gateTake
  all_goals with_reducible repeat' first
    | apply Kept.refl | assumption | apply Kept.after (kept_discard) | apply Kept.after (kept_offer)
    | apply Kept.after (kept_lockRefuse) | apply Kept.after (kept_malformed) | apply Kept.after (kept_hold) | split

theorem kept_gateArrive {g i : Nat} {s : State} : Kept s (gateArrive g i s) := by
  unfold gateArrive
  revert s
  all_goals with_reducible repeat' first
    | (intro x; refine Kept.viaVar y x ?_ ?_; (on_goal 1 => try dsimp -zeta only [x]); (on_goal 2 => clear_value x; intro _))
    | (intro x; clear_value x) | (intro y; try dsimp -zeta only) | lift_lets | apply Kept.refl | assumption
    | apply Kept.after (kept_takeArrived _ _ (by assumption)) | apply Kept.after (kept_setFeeder)
    | apply Kept.after (kept_noteDamaged) | apply Kept.after (kept_gateTake) | apply Kept.after (kept_setSeenCnt)
    | apply Kept.after (kept_resolveCounts) | apply Kept.after (Kept.of_pair (by assumption) (kept_checkParity))
    | apply Kept.after (kept_checkParity) | split | (apply Kept.of_eq <;> rfl) | dsimp -zeta only | dsimp only

theorem kept_execGatePacketArrive {g : Fin 10} {i : Nat} {s : State} : KeptBy s (execGatePacketArrive g i s) :=
  kept_live (fun _ => kept_gateArrive)

theorem kept_gateRelease {g : Nat} {s : State} : Kept s (gateRelease g s) := by
  unfold gateRelease
  revert s
  all_goals with_reducible repeat' first
    | (intro x; refine Kept.viaVar y x ?_ ?_; (on_goal 1 => try dsimp -zeta only [x]); (on_goal 2 => clear_value x; intro _))
    | (intro x; clear_value x) | (intro y; try dsimp -zeta only) | lift_lets | apply Kept.refl | assumption
    | apply Kept.after (kept_leaveGate) | apply Kept.after (kept_egressPush) | apply Kept.after (kept_lpiRelease)
    | split | (apply Kept.of_eq <;> rfl) | dsimp -zeta only | dsimp only

theorem kept_execGateRelease {g : Fin 10} {s : State} : KeptBy s (execGateRelease g s) :=
  kept_live (fun _ => kept_gateRelease)

theorem kept_allowanceArrive {ni i : Nat} {s : State} : Kept s (allowanceArrive ni i s) := by
  unfold allowanceArrive
  revert s
  all_goals with_reducible repeat' first
    | (intro x; refine Kept.viaVar y x ?_ ?_; (on_goal 1 => try dsimp -zeta only [x]); (on_goal 2 => clear_value x; intro _))
    | (intro x; clear_value x) | (intro y; try dsimp -zeta only) | lift_lets | apply Kept.refl | assumption
    | apply Kept.after (kept_takeArrived _ _ (by assumption)) | apply Kept.after (kept_setUsedUnits)
    | apply Kept.after (kept_when ?_) | apply Kept.after (kept_ctxReleased) | split | (apply Kept.of_eq <;> rfl)
    | dsimp -zeta only | dsimp only

theorem kept_execAllowanceReturn {ni : Fin 46} {i : Nat} {s : State} : KeptBy s (execAllowanceReturn ni i s) :=
  kept_live (fun _ => kept_allowanceArrive)

theorem kept_controlAccess {ni : Nat} {p : Packet} {s : State} : Kept s (controlAccess ni p s) := by
  unfold controlAccess
  revert s
  all_goals with_reducible repeat' first
    | (intro x; refine Kept.viaVar y x ?_ ?_; (on_goal 1 => try dsimp -zeta only [x]); (on_goal 2 => clear_value x; intro _))
    | (intro x; clear_value x) | (intro y; try dsimp -zeta only) | lift_lets
    | (apply Kept.set_fn <;> first | assumption | apply Kept.refl | apply kept_ctlRead) | apply Kept.refl | assumption
    | apply Kept.after (kept_offer) | apply Kept.after (kept_reply) | apply Kept.after (kept_violSource)
    | apply Kept.after (kept_ctlWrite) | apply Kept.after (Kept.of_pair (by assumption) (kept_ctlRead))
    | apply Kept.after (kept_ctlRead) | split | (apply Kept.of_eq <;> rfl) | dsimp -zeta only | dsimp only

theorem kept_poisonRefuse {ni : Nat} {p : Packet} {s : State} : Kept s (poisonRefuse ni p s) := by
  unfold poisonRefuse
  all_goals with_reducible repeat' first
    | apply Kept.refl | assumption | apply Kept.after (kept_offer) | apply Kept.after (kept_reply)
    | apply Kept.after (kept_pfr) | split | (apply Kept.of_eq <;> rfl)

theorem kept_blockTake {ni : Nat} {p : Packet} {s : State} : Kept s (blockTake ni p s) := by
  unfold blockTake
  all_goals with_reducible repeat' first
    | apply Kept.refl | assumption | apply Kept.after (kept_request) | apply Kept.after (kept_zeroAnswer)
    | apply Kept.after (kept_emit) | apply Kept.after (kept_poisonRefuse) | apply Kept.after (kept_controlAccess)
    | split

theorem kept_damagedResponse {ni : Nat} {p : Packet} {s s0 t : State} (h : Kept t s) (h0 : Kept t s0) :
    Kept t (damagedResponse ni p s s0) := by
  unfold damagedResponse
  dsimp only
  split
  · exact .after kept_completeOpen h0
  · exact h

theorem kept_damagedArrive {ni : Nat} {p : Packet} {s : State} : Kept s (damagedArrive ni p s) := by
  unfold damagedArrive
  all_goals with_reducible repeat' first
    | apply Kept.refl | assumption | apply Kept.after (kept_dispose) | apply Kept.after (kept_fsat)
    | apply Kept.after (kept_noteDamaged) | split | (apply Kept.of_eq <;> rfl)

theorem kept_strayAnswer {ni : Nat} {p : Packet} {s : State} : Kept s (strayAnswer ni p s) := by
  unfold strayAnswer
  all_goals with_reducible repeat' first
    | apply Kept.refl | assumption | apply Kept.after (kept_hostAnswer) | split

theorem kept_wholeArrive {ni : Nat} {p : Packet} {s : State} : Kept s (wholeArrive ni p s) := by
  unfold wholeArrive
  all_goals with_reducible repeat' first
    | apply Kept.refl | assumption | apply Kept.after (kept_lockRefuse) | apply Kept.after (kept_malformed)
    | apply Kept.after (kept_blockTake) | split

theorem kept_destArrive {ni i : Nat} {s : State} : Kept s (destArrive ni i s) := by
  unfold destArrive
  split
  · exact .refl s
  · have k := kept_takeArrived _ _ ‹_›
    dsimp only
    repeat' split
    all_goals with_reducible first
      | exact .refl s
      | exact k
      | (apply kept_damagedResponse (.refl s) k)
      | exact .after kept_damagedArrive k
      | exact .after kept_malformed k
      | exact .after kept_strayAnswer (.after kept_checkParity k)
      | exact .after kept_wholeArrive (.after kept_checkParity k)

theorem kept_execDestNiPacketArrive {ni : Fin 46} {i : Nat} {s : State} : KeptBy s (execDestNiPacketArrive ni i s) :=
  kept_live (fun _ => kept_destArrive)

end Sys2Proof.Machine
end

