-- ==== Sys2Proof/WellFormed.lean ====
section
/-!
DEFINITION. Which commands are well formed: a register write is 4 or 8 bytes wide, a write carries exactly the
bytes it covers, an AtomicOp has the operands its width asks for, a frame's payload and fields fit its layout.
-/
namespace Sys2Proof

/-- A memory TLP carries `n` bytes, starts in a 64-bit space and crosses no 4 KiB boundary. -/
def Tlp.wf (t : Tlp) (n : Nat) : Bool :=
  t.data.length == n && t.addr + t.len ≤ 2 ^ 64 && t.len ≤ 4096 && t.addr % 4096 + t.len ≤ 4096 && t.tag < 2 ^ 14

/-- The width of an AtomicOp is one the port completes (R294), and its operands are of that width. -/
def AtomOp.wf (op : AtomOp) (t : Tlp) : Bool :=
  match op with
  | .fetchAdd w => (w == 4 || w == 8) && t.wf w && t.len == w
  | .swap w => (w == 4 || w == 8) && t.wf w && t.len == w
  | .cas w => (w == 4 || w == 8 || w == 16) && t.wf (2 * w) && t.len == w

/-- The fields of a frame fit the layouts of Tables 14-2 and 14-3. -/
def Frame.wf (f : Frame) : Bool :=
  f.seq < 4096 && f.cls < 4 && f.nblk < 1024 && f.tt < 64 && f.fn < 2048 && f.tag < 4096 && f.addr < 2 ^ 64
    && f.len ≤ 4096 && f.sts < 8 && f.data.length ≤ 4096

/-- The check of a command's operands. -/
def Instr.wf : Instr → Bool
  | .registerWrite _ _ w _ => w == 4 || w == 8
  | .msixTableWrite _ _ w _ => w == 4 || w == 8
  | .hostMemWrite _ t => t.wf t.len && 1 ≤ t.len
  | .hostMemRead _ t => t.wf 0
  | .hostAtomicop _ op t => op.wf t
  | .hostCompletionArrive _ c => c.tag < 2 ^ 14 && c.data.length ≤ 4096
  | .hostVdmArrive _ _ _ _ m => m.length ≤ 4096
  | .hostLinkUp _ _ w _ => w == 1 || w == 2 || w == 4 || w == 8 || w == 16
  | .erroredFrame _ f => f.wf
  | .partnerRead _ f => f.wf
  | .partnerWrite _ f => f.wf
  | .partnerDoorbellMessage _ f => f.wf
  | .partnerInterruptMessage _ f => f.wf
  | .partnerUnitMessage _ f => f.wf
  | .partnerTunnelledMessage _ f => f.wf
  | .partnerCompletion _ f => f.wf
  | .partnerLockTransaction _ f => f.wf
  | .undefinedTtFrame _ f => f.wf
  | _ => true

end Sys2Proof
end

