-- ==== Sys2Proof/Tests/Slice0.lean ====
section
/-!
SUPPORT. The tests of this sitting: an ill-formed term for each check of WellFormed, words of the Soref tables, steps
on small states, and for every statement with premises a state and operands that meet them. Expected values come from
the spec's tables, as each test's name or comment says.
-/
open Sys2Proof Sys2Proof.Machine Sys2Proof.Claims

namespace Sys2Proof.Tests

-- One theorem after another: the kernel's evaluations side by side ask for a thread (and a stack) each.
set_option Elab.async false

/-! ## Small states -/

/-- Engine 0 in RUN at word 1 of its program store, which holds `i`, with the given engine state and registers. -/
def about (i : Soref) (x : Eng := {}) (g : SMap Word := []) : State :=
  { State.reset with
    mem := { ps := mput 0 (mput 0 [] 1 (BitVec.ofNat 32 (encodeSoref i).1)) 2 (BitVec.ofNat 32 (encodeSoref i).2) }
    pcl := { engs := [(0, { x with st := .run, pc := 1 })], gregs := g } }

/-- The reset state with one packet arrived at an NI. -/
def arriving (ni : Nat) (p : Packet) (s : State := State.reset) : State := s.setArrived ni [p]

/-- The reset state in the given stage of bring-up. -/
def inStage (n : Nat) : State := State.reset.fset F.bootStsStage 0 n

/-- What a statement says of the next state, on one run. -/
def after (o : Host.Outcome State Fault Refusal) (p : State → Bool) : Bool :=
  match o with
  | .next t => p t
  | _ => false

/-! ## WellFormed refuses -/

/-- A frame whose fields fit. -/
def aFrame : Frame :=
  { errored := false, seq := 0, cls := 1, nblk := 1, tt := 0x10, fn := 0, tag := 0, addr := 0, len := 8, fbe := 0xFF,
    lbe := 0xFF, sts := 0, ro := false, ns := false, ep := false, ido := false, last := true, data := List.replicate 8 0 }

/-- A TLP of 8 bytes. -/
def aTlp : Tlp :=
  { addr := 0, len := 8, fbe := 0xFF, lbe := 0xFF, data := List.replicate 8 0, ro := false, ido := false, ns := false,
    ep := false, tag := 0, requester := 0, ecrcErr := false }

/-- A completion without data. -/
def aCpl : Cpl := { tag := 0, rid := 0, status := 0, data := [], ep := false, ecrcErr := false }

theorem test_wf_takes : [Instr.registerWrite .mgc 0 4 0, .hostMemWrite 0 aTlp, .hostMemRead 0 { aTlp with data := [] },
    .hostAtomicop 0 (.fetchAdd 8) aTlp, .partnerWrite 0 aFrame, .hostLinkUp 0 1 16 false].all Instr.wf = true := by decide

theorem test_wf_refuses_widths : [Instr.registerWrite .mgc 0 2 0, .msixTableWrite 0 0 16 0, .hostLinkUp 0 1 3 false].any
    Instr.wf = false := by decide

theorem test_wf_refuses_tlps : [Instr.hostMemWrite 0 { aTlp with len := 4 }, .hostMemWrite 0 { aTlp with len := 0, data := [] },
    .hostMemWrite 0 { aTlp with addr := 4092 }, .hostMemWrite 0 { aTlp with addr := 2 ^ 64 - 4 },
    .hostMemWrite 0 { aTlp with tag := 2 ^ 14 }, .hostMemRead 0 aTlp, .hostMemRead 0 { aTlp with data := [], len := 4097 }].any
    Instr.wf = false := by decide

theorem test_wf_refuses_atomics : [Instr.hostAtomicop 0 (.fetchAdd 16) aTlp, .hostAtomicop 0 (.swap 4) aTlp,
    .hostAtomicop 0 (.cas 8) aTlp, .hostAtomicop 0 (.cas 2) aTlp].any Instr.wf = false := by decide

theorem test_wf_refuses_messages : [Instr.hostCompletionArrive 0 { aCpl with tag := 2 ^ 14 },
    .hostCompletionArrive 0 { aCpl with data := List.replicate 4097 0 }, .hostVdmArrive 0 0 0 0 (List.replicate 4097 0)].any Instr.wf = false := by decide +kernel

/-- Frames with one field past its layout each. -/
def badFrames : List Frame :=
  [{ aFrame with seq := 4096 }, { aFrame with cls := 4 }, { aFrame with nblk := 1024 }, { aFrame with tt := 64 },
    { aFrame with fn := 2048 }, { aFrame with tag := 4096 }, { aFrame with addr := 2 ^ 64 }, { aFrame with len := 4097 },
    { aFrame with sts := 8 }, { aFrame with data := List.replicate 4097 0 }]

theorem test_wf_refuses_frames : (badFrames.flatMap (fun f => [Instr.erroredFrame 0 f, .partnerRead 0 f, .partnerWrite 0 f,
    .partnerDoorbellMessage 0 f, .partnerInterruptMessage 0 f, .partnerUnitMessage 0 f, .partnerTunnelledMessage 0 f,
    .partnerCompletion 0 f, .partnerLockTransaction 0 f, .undefinedTtFrame 0 f])).any Instr.wf = false := by decide +kernel

/-! ## Words of Tables 7-1 to 7-6 -/

/-- ADD g3, g1, g2: MAJ 1, RD 3, RA 1, RB 2, MINOR 0. -/
theorem test_word_add : decodeSoref 0b00001000110000100010000000000000 0 = some (.add 3 1 2) := by decide

/-- B.NE -1: MAJ 7, COND 2, MINOR 0, OFF all ones. -/
theorem test_word_b : decodeSoref 0b00111001000011111111111111111111 0 = some (.bCc .ne (-1)) := by decide

/-- LI g10, #-2: MAJ 3, RD 10, IMMH all ones, IMML 0xFFFFFFFE. -/
theorem test_word_li : decodeSoref 0b00011010100000000000111111111111 0xFFFFFFFE = some (.li 10 (-2)) := by decide

/-- LOCK.Q of an odd register is reserved (R166). -/
theorem test_word_lock_odd : decodeSoref 0b10011010010100100000011000000000 0 = none := by decide

/-- The table gives no row bits, so no word spells a command. -/
theorem test_no_word_is_a_command : (decodeTableWord 32 0).isNone = true
    ∧ (State.reset.withFetchWord 32 0).pending.isEmpty = true := by decide

/-! ## Power-on reset -/

theorem test_reset_runs : up State.reset := by decide

/-- `VauxMonitorHoldsPowerOnReset`, `PowerOnResetFreezesTheBlock`: a device held, and a command that is none of the four. -/
theorem test_held_device : ({ State.reset with por := { vaux := true } } : State).inPor = true
    ∧ Instr.vnowUpdate ≠ .porstNAssert ∧ (∀ a b, Instr.vnowUpdate ≠ .porstNDeassert a b) ∧ Instr.vnowUpdate ≠ .vauxBelowThreshold
    ∧ Instr.vnowUpdate ≠ .vauxAboveThreshold :=
  ⟨by decide, by decide, fun a b => by rintro ⟨⟩, by decide, by decide⟩

theorem test_reset_without_flash_operation : State.reset.por.porst = false ∧ State.reset.por.vaux = false
    ∧ State.reset.boot.cmd = none ∧ State.reset.pending = [] ∧ State.reset.wf = true := by decide

theorem test_porst_deassert_needs_both : ({ State.reset with por := { porst := true, vaux := true } } : State).por.porst = true := by
  decide

/-- `StepRunsTheFrontCommand`, `EmptyQueueTicks`: the queue's front runs; an empty queue ticks. -/
theorem test_step_front : after (step { State.reset with pending := [.vauxBelowThreshold, .vnowUpdate] })
    (fun t => t.por.vaux && decide (t.pending = [.vnowUpdate])) = true := by decide +kernel

theorem test_step_tick : after (step State.reset) (fun t => t.tb.count == 1) = true := by decide +kernel

/-! ## Soref: every instruction can run -/

/-- One of each Soref instruction. -/
def oneOfEach : List Soref :=
  [.add 3 1 2, .sub 3 1 2, .and 3 1 2, .or 3 1 2, .xor 3 1 2, .andn 3 1 2, .sll 3 1 2, .srl 3 1 2, .sra 3 1 2, .mul 3 1 2,
    .mulhu 3 1 2, .cmp 1 2, .tst 1 2, .clz 3 1, .addi 3 1 5, .andi 3 1 5, .ori 3 1 5, .xori 3 1 5, .slli 3 1 5, .srli 3 1 5,
    .srai 3 1 5, .cmpi 1 5, .tsti 1 5, .li 3 5, .addl 3 1 5, .orh 3 1 5, .cmpl 1 5]
  ++ [.ldx .d 3 1 0, .ldg .d 3 1 0, .ldc .w 3 1 0, .stx .d 3 1 0, .stg .d 3 1 0, .stc .w 3 1 0, .fadd true 3 1 2, .swp true 3 1 2,
    .cas true 3 1 2, .bCc .ne 1, .callCc .ne 1, .jr 1, .callr 1, .ret, .srd 3 8, .swr 1 8, .sbis 1 8, .sbic 1 8, .nop, .wait, .end_,
    .tdiff 3 1 2, .tcmp 1 2]
  ++ [.move 3, .ctxack 3, .xlt 3 1 0, .xltDrain 3 1, .fmark, .fenceP 3, .lock .d .stg 3 1, .unlock .d .stg 3 1, .acq 3 7, .rel 3 7,
    .acqr 3 1, .relr 3 1, .umsg 0, .raise 0, .raiser 1]

/-- The premise `runs` of every statement about a Soref instruction, for each of them. -/
theorem test_each_runs : oneOfEach.all (fun i => decide (runs (about i) 0 i)) = true := by decide +kernel

/-- The command of an instruction, as `FetchAndItsFaultsComeFirst` pairs them. -/
theorem test_sorefOf : sorefOf (.add 0 3 1 2) = some (0, some (.add 3 1 2)) ∧ sorefOf (.reservedEncoding 0) = some (0, none) := by
  decide

/-- Decoding gives back what was encoded, for each of them. -/
theorem test_each_decodes_back :
    oneOfEach.all (fun i => decodeSoref (encodeSoref i).1 (encodeSoref i).2 == some i) = true := by decide +kernel

/-- Table 8-1, hand calculation: 2^63 + 2^63 is 0 with carry and overflow. -/
theorem test_add_wraps : after (exec (.add 0 3 1 2) (about (.add 3 1 2) {} [(1, 2 ^ 63), (2, 2 ^ 63)]))
    (fun t => t.gr 0 3 == 0 && (t.eng 0).flags == 7 && (t.eng 0).pc == 2) = true := by decide +kernel

/-- 0 - 1 borrows and is negative. -/
theorem test_sub_borrows : after (exec (.sub 0 3 1 2) (about (.sub 3 1 2) {} [(2, 1)]))
    (fun t => t.gr 0 3 == BitVec.allOnes 64 && (t.eng 0).flags == 10) = true := by decide +kernel

/-- g0 discards what is written to it (R164). -/
theorem test_g0 : after (exec (.addi 0 0 0 5) (about (.addi 0 0 5))) (fun t => t.gr 0 0 == 0) = true := by decide +kernel

/-- SRA of -2 by 1 is -1, and the bit shifted out was 0. -/
theorem test_sra : after (exec (.sra 0 3 1 2) (about (.sra 3 1 2) {} [(1, -2), (2, 1)]))
    (fun t => t.gr 0 3 == BitVec.allOnes 64 && (t.eng 0).flags == 8) = true := by decide +kernel

/-- MULHU of 2^63 and 4 is 2. -/
theorem test_mulhu : after (exec (.mulhu 0 3 1 2) (about (.mulhu 3 1 2) {} [(1, 2 ^ 63), (2, 4)])) (fun t => t.gr 0 3 == 2) = true := by
  decide +kernel

/-- LDX.SB of a byte 0x80 that lies in scratch is -128. -/
theorem test_ldx_sign : after (exec (.ldx 0 .sb 3 1 0)
    (let s := about (.ldx .sb 3 1 0) {} [(1, 16)]
     { s with mem := { s.mem with scratch := [(16, 0x80)] } })) (fun t => t.gr 0 3 == -128) = true := by decide +kernel

/-- STX.H stores two bytes, the low one first, and leaves the next. -/
theorem test_stx : after (exec (.stx 0 .h 3 1 0) (about (.stx .h 3 1 0) {} [(1, 16), (3, 0x0102)]))
    (fun t => t.scrByte 16 == 2 && t.scrByte 17 == 1 && t.scrByte 18 == 0) = true := by decide +kernel

/-- B.EQ with Z clear goes on at the next word; CALL pushes it. -/
theorem test_branches : after (exec (.bCc 0 .eq 5) (about (.bCc .eq 5))) (fun t => (t.eng 0).pc == 2) = true
    ∧ after (exec (.callCc 0 .al 5) (about (.callCc .al 5))) (fun t => (t.eng 0).pc == 6 && decide ((t.eng 0).stack = [2])) = true := by
  decide +kernel

/-- ALIGN is fault 3 and enters the trailhead in word 0 of the store (Table 6-5, R141). -/
theorem test_align : after (exec (.ldx 0 .d 3 1 0) (about (.ldx .d 3 1 0) {} [(1, 4)]))
    (fun t => (t.eng 0).fault == 3 && (t.eng 0).fpc == 1 && (t.eng 0).pc == 0) = true := by decide +kernel

/-! ## Soref: the clauses of the statements about it -/

/-- Both sides of the carry rules: an operand pair that carries and one that does not, at the edge of 2^64. -/
theorem test_flag_edges : sumFlags (BitVec.allOnes 64) 1 = 6 ∧ sumFlags (BitVec.allOnes 64) 0 = 8 ∧ diffFlags 0 0 = 4
    ∧ sumFlags (BitVec.ofNat 64 (2 ^ 63 - 1)) 1 = 9 ∧ diffFlags (BitVec.ofNat 64 (2 ^ 63)) 1 = 1 := by decide

/-- `LongImmediateResults`, last part: a word of format L in the last place of the store. -/
theorem test_long_at_the_end :
    let s : State := { State.reset with
      mem := { ps := [(131071, BitVec.ofNat 32 (encodeSoref (.li 3 5)).1)] }
      pcl := { engs := [(0, { st := .run, pc := 131071 })] } }
    up s ∧ s.ready 0 = true ∧ overBudget (s.eng 0) = false ∧ s.psEccAt (psKey (clOf 0) (s.eng 0).pc) = 0
      ∧ isLong (wordAt s 0 0) = true ∧ (s.eng 0).pc = 131071 ∧ decodeSoref (wordAt s 0 0) 0 = some (.li 3 0) := by decide +kernel

/-- `BranchesCallsAndReturns`: taken and not, targets at both edges of the store, a full and an empty stack. -/
theorem test_branch_clauses : takes .ne (about (.bCc .ne 1)) 0 = true ∧ takes .eq (about (.bCc .eq 1)) 0 = false
    ∧ runs (about (.bCc .al (-1))) 0 (.bCc .al (-1)) ∧ ((about (.bCc .al (-1))).eng 0).pc + (-1 : BitVec 20).toInt = 0
    ∧ runs (about (.bCc .al (-2))) 0 (.bCc .al (-2)) ∧ ((about (.bCc .al (-2))).eng 0).pc + (-2 : BitVec 20).toInt < 0
 := by decide +kernel

theorem test_call_clauses : runs (about (.callCc .al 131070)) 0 (.callCc .al 131070)
    ∧ ((about (.callCc .al 131070)).eng 0).pc + (131070 : BitVec 20).toInt = 131071
    ∧ runs (about .ret { stack := [4] }) 0 .ret ∧ runs (about .ret) 0 .ret
    ∧ runs (about (.callr 1) { stack := List.replicate 16 0 }) 0 (.callr 1)
    ∧ runs (about (.jr 1) {} [(1, 2 ^ 17)]) 0 (.jr 1) ∧ ((about (.jr 1) {} [(1, 2 ^ 17)]).gr 0 1).toNat = 2 ^ 17 := by decide +kernel

/-- `SpecialRegisterAccess`: an RW number, s.evt, a read-only one and a reserved one. -/
theorem test_sreg_clauses : (swrTo {} 0x08 5).isSome = true ∧ (swrTo {} 0x05 5).isNone = true ∧ (swrTo {} 0x09 5).isNone = true
    ∧ (swrTo {} 0xFF 5).isNone = true ∧ runs (about (.swr 1 5)) 0 (.swr 1 5) ∧ runs (about (.srd 3 0xFF)) 0 (.srd 3 0xFF) := by
  decide +kernel

/-- The state with the reset fence of FN 0 at cluster 0's NI. -/
def fencedAbout (i : Soref) : State := (about i).setFenced (2048 * 10) true

/-- `LoadsAndAtomicsStallForTheirReply`, `TranslationsSemaphoresAndLocksStall`, `PostedInstructionsGoOn`: outside and under the
fence. -/
theorem test_fence_clauses : open_ (about (.ldg .d 3 1 0)) 0 ∧ shut (fencedAbout (.ldg .d 3 1 0)) 0
    ∧ runs (fencedAbout (.ldg .d 3 1 0)) 0 (.ldg .d 3 1 0) ∧ runs (fencedAbout (.acq 3 7)) 0 (.acq 3 7)
    ∧ runs (fencedAbout (.raise 0)) 0 (.raise 0) := by decide +kernel

/-- The checks of an access, each at its boundary: the last aligned double word of staging memory, one past it, a misaligned
one; a control register a program reaches, one that it does not, a width that control space has not. -/
theorem test_access_clauses : ¬0x4000000 < 0x3FFFFF8 + 8 ∧ 0x4000000 < 0x3FFFFF9 + 8 ∧ 0x3FFFFF4 % 8 ≠ 0
    ∧ (∃ a, a < 0x2000000 ∧ progReach false a = true) ∧ progReach false 0 = false := by
  refine ⟨by decide, by decide, by decide, ⟨regOffset .winSel 0, by decide +kernel, by decide +kernel⟩, by decide +kernel⟩

/-- Local addresses: covered by g20 and not (R218). -/
theorem test_lock_clauses : lockAstray (about (.lock .d .loc 3 1) {} [(1, 2 ^ 24)]) 0 .loc (2 ^ 24)
    ∧ ¬lockAstray (about (.lock .d .loc 3 1) {} [(1, 8)]) 0 .loc 8
    ∧ closes (about (.unlock .d .stg 3 1) { belay := true, belayTarget := 18 }) 0 .stg 0
    ∧ ¬closes (about (.unlock .d .stg 3 1)) 0 .stg 0 := by
  unfold lockAstray
  decide +kernel

/-- The FN of the engine in and not in the cluster's belay record. -/
theorem test_belay_record : ((about (.lock .d .stg 3 1)).clu 0).belays.contains 0 = false
    ∧ (((about (.lock .d .stg 3 1)).setClu 0 { belays := [0] }).clu 0).belays.contains 0 = true
    ∧ runs ((about (.lock .d .stg 3 1)).setClu 0 { belays := [0] }) 0 (.lock .d .stg 3 1) := by decide +kernel

/-- Units of Table 9-6: an engine, a cluster, the MGC, a port and a reserved number. -/
theorem test_units : unitAt (about (.umsg 0)) 0 0x3F = some 17 ∧ unitAt (about (.umsg 0)) 0 0x40 = some 10
    ∧ unitAt (about (.umsg 0)) 0 0x48 = some 42 ∧ (unitAt (about (.umsg 0)) 0 0x87).isSome = true
    ∧ unitAt (about (.umsg 0)) 0 0x49 = none ∧ runs (about (.umsg 0x49)) 0 (.umsg 0x49) := by decide +kernel

/-- `ScratchLoadsAndStores`: a poisoned word and one without poison. -/
theorem test_scratch_poison :
    let s := about (.ldx .d 3 1 0)
    let q : State := { s with mem := { s.mem with scrPoison := [(0, true)] } }
    runs q 0 (.ldx .d 3 1 0) ∧ q.scrPoisonAt 0 = true ∧ s.scrPoisonAt 0 = false := by decide +kernel

/-- `FetchAndItsFaultsComeFirst`: not ready, over the budget, an uncorrectable word, a reserved word, another instruction. -/
theorem test_fetch_clauses : State.reset.ready 0 = false
    ∧ ((about .nop { budget := 1, icnt := 1 }).ready 0 = true ∧ overBudget ((about .nop { budget := 1, icnt := 1 }).eng 0) = true)
    ∧ overBudget ((about .nop { budget := 2, icnt := 1 }).eng 0) = false
    ∧ (let s := about .nop
       let q : State := { s with mem := { s.mem with psEcc := [(1, 2)] } }
       q.ready 0 = true ∧ overBudget (q.eng 0) = false ∧ q.psUe 0 (q.eng 0).pc = true)
    ∧ (let q : State := { State.reset with pcl := { engs := [(0, { st := .run })] } }
       q.ready 0 = true ∧ isLong (wordAt q 0 0) = false ∧ decodeSoref (wordAt q 0 0) (wordAt q 0 1) = none)
    ∧ decodeSoref (wordAt (about .nop) 0 0) 0 ≠ some .wait := by decide +kernel

/-- `FaultEntryAndHalt`: an engine without and with a fault. -/
theorem test_fault_clauses : (State.reset.eng 0).fault = 0 ∧ ((about .nop { fault := 3 }).eng 0).fault ≠ 0 := by decide +kernel

/-- `WaitFaultsOrWaits`: its six cases. -/
theorem test_wait_clauses :
    (runs (about .wait) 0 .wait ∧ ((about .wait).eng 0).emask = 0 ∧ ((about .wait).eng 0).evt / 32 % 2 ≠ 1)
    ∧ (runs (about .wait { emask := 1, belay := true }) 0 .wait)
    ∧ (runs (about .wait { evt := 32 }) 0 .wait ∧ ((about .wait { evt := 32 }).eng 0).evt / 32 % 2 = 1)
    ∧ (runs (about .wait { emask := 1, evt := 1 }) 0 .wait ∧ (1 : Nat) &&& 1 ≠ 0)
    ∧ (runs (about .wait { emask := 1, evt := 2 }) 0 .wait ∧ (2 : Nat) &&& 1 = 0) := by decide +kernel

/-- `MarkerOfDispatchAndFmark`: a DISPATCH that changes an engine. -/
theorem test_dispatch_starts : after (exec (.dispatch 0) ((State.reset.fset F.pclCtlRun 0 1).setClu 0 { initPend := true }))
    (fun t => (t.eng 0).st == .run && t.eng 0 != State.reset.eng 0) = true := by decide +kernel

/-- A descriptor of 64 bytes in g16 to g21 (Table 9-1), from staging memory to scratch: LEN 64, SASP 3, DASP 5. -/
def aMove (x : Eng := {}) (ctl : Word := 64 + 3 * 2 ^ 25 + 5 * 2 ^ 28) (sxlt : Word := 0) : State :=
  about (.move 3) x [(16, 0x1000), (17, 0x40), (18, ctl), (19, sxlt)]

/-- `MoveAndCtxack`: valid, at CTX_CAP, under the fence, without length, with a local side that has no translation. -/
theorem test_move_clauses :
    (runs aMove 0 (.move 3) ∧ aMove.fencedAt 0 0 = false ∧ (aMove.desc 0).valid 0 = true ∧ (aMove.desc 0).xlate = false
      ∧ aMove.freeCtx 0 = some 0 ∧ aMove.ctxn 0 < (aMove.eng 0).ctxCap)
    ∧ ((aMove { ctxCap := 0 }).eng 0).ctxCap ≤ (aMove { ctxCap := 0 }).ctxn 0
    ∧ (aMove.setFenced (2048 * 10) true).fencedAt 0 0 = true ∧ ((aMove {} (3 * 2 ^ 25 + 5 * 2 ^ 28)).desc 0).valid 0 = false
    ∧ (let s := aMove {} (64 + 2 * 2 ^ 25 + 5 * 2 ^ 28) (2 ^ 60)
       (s.desc 0).valid 0 = true ∧ (s.desc 0).xlate = true) := by decide +kernel

/-- `MoveAndCtxack`: its cases (the descriptor's own validity is tested below). -/
theorem test_ctxack_clauses : runs (about (.ctxack 3)) 0 (.ctxack 3) ∧ ((about (.ctxack 3)).eng 0).ctx = 0x3FF
    ∧ runs (about (.ctxack 3) { ctx := 1 }) 0 (.ctxack 3) ∧ ((about (.ctxack 3) { ctx := 1 }).eng 0).ctx ≠ 0x3FF := by
  decide +kernel

/-- `NopEndAndPostedFences`: END held back, at once, and waiting; FENCE.P with and without posted packets. -/
theorem test_end_clauses : runs (about .end_ { belay := true }) 0 .end_ ∧ (about .end_).semn 0 = 0
    ∧ (about .end_).drained 0 = true ∧ ((about .end_).setCtx 1 { used := true, eng := 0 }).drained 0 = false
    ∧ (((about .nop).setEng 0 { ending := true }).eng 0).ending = true ∧ ((about .nop).setEng 0 { ending := true }).drained 0 = true
    ∧ runs (about (.fenceP 3) { posted := [18] }) 0 (.fenceP 3) ∧ ((about (.fenceP 3)).eng 0).posted = [] := by decide +kernel

theorem test_fence_done_clause :
    let s := State.reset.setEng 0 { st := .run, stall := .fence 3 [] false true }
    up s ∧ (s.eng 0).cutPend = none ∧ (s.eng 0).stall = .fence 3 [] false true := by decide +kernel

/-! ## Replies and slots -/

/-- Engine 0 stalled on `st` for tag 16's reply of NI 18, with that reply arrived. -/
def replied (st : Stall) (p : Packet) : State :=
  arriving 10 p (State.reset.setEng 0 { st := .run, stall := st, stallTag := 16, stallDst := 18 })

/-- A good reply of 8 bytes. -/
def good : Packet := { cls := 2, ty := 0x20, src := 18, dst := 10, tag := 16, data := [1, 2, 3, 4, 5, 6, 7, 8] }

/-- The premises of `RepliesEndStalls` for one stall and reply, with what its check must find. -/
def answered (st : Stall) (p : Packet) (ok : Packet → Bool) : Bool :=
  let s := replied st p
  decide (replyAt s 10 0 p) && (s.eng 0).cutPend == none && p.tag == (s.eng 0).stallTag && p.src == (s.eng 0).stallDst
    && ok (got 10 0 p s).1

theorem test_reply_clauses :
    [Stall.load 3 .d, .atomic 3 true, .drain 3, .sem 3, .xlt 3, .lock 3 .d false 18 0].all (fun st =>
      answered st good (fun p => p.csts == 0 && !p.ep && p.xv != 5)
        && answered st { good with csts := 2, xv := 5 } (fun p => p.csts == 2 && p.xv == 5)
        && answered st { good with csts := 4 } (fun p => p.csts == 4)
        && answered st { good with ep := true } (fun p => p.csts == 0 && p.ep)
        && answered st { good with csts := 1 } (fun p => p.csts != 0 && p.xv != 5)) = true := by decide +kernel

/-- The answer of NI 18 to a FENCE.P of engine 0. -/
theorem test_fence_answer_clause :
    let p : Packet := { good with tag := 2048 + 18 }
    let s := replied (.fence 3 [18, 19] false false) p
    replyAt s 10 0 p ∧ p.tag = 2048 + 64 * 0 + p.src ∧ p.src ∈ [18, 19] := by decide +kernel

/-- A little-endian word lands in the register. -/
theorem test_load_lands : after (exec (.engineReplyArrive 0 0) (replied (.load 3 .d) good))
    (fun t => t.gr 0 3 == 0x0807060504030201 && (t.eng 0).stall == .none) = true := by decide +kernel

theorem test_slot_clauses :
    let s (q : List Packet) := State.reset.setEng 0 { st := .run, stall := .egress, outq := q }
    up (s []) ∧ ((s []).eng 0).stall = .egress ∧ (s []).entryFree 0 = true ∧ ((s [good]).eng 0).outq = [good]
      ∧ good.ty ≠ 0x12 ∧ (s [{ good with ty := 0x12 }]).raiseClear 0 { good with ty := 0x12 } = true := by decide +kernel

/-! ## Monitors, time base, gates -/

theorem test_monitor_clauses : (600000 : Nat) < 635000 + (Config.floorThr 0).val ∧ 635000 + (Config.floorThr 0).val ≤ 645001
    ∧ (0 : Nat) < 570000 + (Config.uvThr 0).val ∧ State.reset.fget F.coreVmonStsCoreUv 0 ≠ 1
    ∧ writerOk .mgc .coreVmonSts 0 = true ∧ writerOk .mgc .stepMonCtl 0 = true := by
  refine ⟨by omega, by omega, by omega, by decide +kernel, by decide, by decide⟩

theorem test_window_clause :
    let s : State := { State.reset with tb := { count := 1000 }, pwr := { winStart := some 0 } }
    up s ∧ s.pwr.winStart = some 0 ∧ 0 + windowNs s.pwr.winFor ≤ s.tb.count := by decide

theorem test_time_base_clauses :
    (State.reset.fset F.tbCtlPllEn 0 1).fget F.tbCtlPllEn 0 = 1 ∧ (State.reset.fset F.tbCtlPllLock 0 1).fget F.tbCtlPllLock 0 = 1
      ∧ State.reset.fget F.tbCtlPllLock 0 ≠ 1 ∧ writerOk (.host 1) .tbCtl 0 = true ∧ writerOk (.host 0) .tbStep 0 = true
      ∧ writerOk .mgc .tbSlew 0 = true ∧ State.reset.tb.count % 256 = 0 := by decide +kernel

theorem test_switch_clauses :
    let s := ((State.reset.fset F.tbCtlSrc 0 1).fset F.tbCtlCoarse 0 1).fset F.tbCtlPllLock 0 1
    s.fget F.tbCtlSrc 0 = 1 ∧ s.fget F.tbCtlCoarse 0 = 1 ∧ s.fget F.tbCtlPllLock 0 = 1
      ∧ (s.fset F.tbCtlCoarse 0 0).fget F.tbCtlCoarse 0 ≠ 1 := by decide +kernel

theorem test_slew_clauses :
    10000000 ≤ ({ State.reset with tb := { slewAcc := 10000000 } } : State).tb.slewAcc
      ∧ ({ State.reset with tb := { slewAcc := -10000000 } } : State).tb.slewAcc ≤ -10000000
      ∧ ({ State.reset with tb := { count := 2 ^ 32 } } : State).tb.count / 2 ^ 32 ≠ State.reset.tb.anchor
      ∧ ({ State.reset with tb := { count := 256 } } : State).tb.count / 256 ≠ State.reset.tb.loaded := by decide

/-- SLEW of 5,000 is taken, of 5,001 not (R42). -/
theorem test_slew_range : after (exec (.tbSlewWrite .mgc 5000) State.reset) (fun t => t.fget F.tbSlewSlew 0 == 5000) = true
    ∧ after (exec (.tbSlewWrite .mgc 5001) State.reset) (fun t => t.fget F.tbSlewSlew 0 == 0) = true := by decide +kernel

theorem test_feeder_clauses :
    let s : State := { State.reset with tb := { count := 32 } }
    up s ∧ s.feeds 2 0 = true ∧ s.niParked 2 = false ∧ s.untimed 2 = false ∧ s.lastSent 20 + 32 ≤ s.tb.count
      ∧ s.holdTill 2 ≤ s.tb.count ∧ s.tb.count < (s.setHoldTill 2 33).holdTill 2 := by decide +kernel

/-- A milestone on its way whose count is reached, one whose count is not, and an unpark. -/
theorem test_milestone_clauses :
    let s (m : Milestone) : State := { State.reset with ord := { miles := [m] } }
    (s { src := 2 }).ord.miles[0]? = some { src := 2 } ∧ reached ((s { src := 2 }).feeder 2).recv 0 = true
      ∧ reached ((s { src := 2, count := 1 }).feeder 2).recv 1 = false
      ∧ (s { src := 2, unpark := true }).ord.miles[0]? = some { src := 2, unpark := true } := by decide +kernel

/-- Host port 0 in L0 with its domain ON. -/
def hostOn (s : State := State.reset) : State := s.setHpi 0 { link := .l0, perst := false, width := 16 }

/-- A read toward host 0 from cluster 0. -/
def toHost : Packet := { cls := 0, ty := 0, src := 10, dst := 0, asp := 0, len := 8, addr := 0x1000, icnt := 1, stamp := { time := 1 } }

theorem test_gate_clauses :
    let s := arriving 0 toHost hostOn
    up s ∧ (s.arrived 0)[0]? = some toHost ∧ passesGate 0 toHost = true ∧ toHost.icnt ≠ 4096 ∧ toHost.hdrBad = false
      ∧ toHost.bad = [] ∧ s.gateOpen 0 = true := by decide +kernel

theorem test_gate_serves : formOk toHost = true ∧ gateServes 0 toHost = true ∧ writerOk .mgc .gateCtl 0 = true
    ∧ writerOk (.host 0) .gateLag 0 = true ∧ State.reset.allowOk 0 = true ∧ State.reset.takesReleases 0 = false := by decide +kernel

/-- A held packet that every feeder has passed. -/
def releasing : State :=
  { (hostOn.setGate 0 { held := [{ pkt := toHost }] }) with
    tb := { count := 1000 }
    ord := { gates := [(0, { held := [{ pkt := toHost }] })], feeders := (List.range 46).map (fun i => (i, { w := 500, recv := 1 })) } }

theorem test_release_clause : releasing.takesReleases 0 = true ∧ (releasing.pickRelease 0).isSome = true
    ∧ State.reset.pickRelease 0 = none := by decide +kernel

theorem test_return_clause :
    let p : Packet := { cls := 3, ty := 0x31, src := 0, dst := 10 }
    let s := arriving 18 p
    (s.arrived 18)[0]? = some p ∧ p.cls = 3 ∧ p.ty = 0x31 ∧ p.hdrBad = false ∧ p.src < 10 := by decide +kernel

/-! ## Fabric and arbiters -/

/-- A read of staging memory that waits at cluster 0's NI. -/
def aRead : Packet := { cls := 0, ty := 0, src := 10, dst := 18, asp := 3, len := 8, icnt := 1 }

theorem test_inject_clauses :
    let s := State.reset.setInq 250 [aRead]
    let u := s.setInq 250 []
    s.inq (25 * 10 + 0) = [aRead] ∧ s.niAwake 10 = true ∧ ¬(aRead.cls < 2 ∧ s.under 10 aRead.fn = true)
      ∧ agreed s 30 18 (s.routeOf 30 18 0) ∧ u.routeOk 10 aRead = true ∧ u.allowed 10 aRead = true ∧ u.admits 10 aRead = true := by
  decide +kernel

theorem test_inject_clauses_2 :
    let u := State.reset.setInq 250 []
    u.queueFree 10 aRead = true ∧ u.untimed 10 = false ∧ u.postedAhead 10 aRead = false
      ∧ (u.niParked 10 && passesGate aRead.dst aRead) = false
      ∧ ((State.reset.setInq 250 [aRead]).setFenced (2048 * 10) true).under 10 aRead.fn = true := by decide +kernel

/-- A flit of flight 1 in channel 0 of link 0, whose receiver on the way down is a router. -/
def inChan (c : Chan) : State :=
  { State.reset with fab := { flights := [(1, some { pkt := aRead, nfl := 2 })], chans := [(0, c)] } }

theorem test_router_clauses :
    let s := inChan { buf := [{ pid := 1 }] }
    let x := receiverOf 0 false
    (s.chan 0).buf = [{ pid := 1 }] ∧ agreed s x aRead.dst (s.routeOf x aRead.dst 0) ∧ (s.chan 0).seen = false ∧ x < 20
      ∧ (s.pktOf 1).dst = 18 ∧ ((inChan { buf := [{ pid := 1 }], seen := true, req := [3] }).chan 0).req ≠ [] := by decide +kernel

theorem test_detour_clauses : (List.range 20).any (fun x => decide (6 ≤ x) && niRouter 18 != x) = true
    ∧ State.reset.fget F.fabCtlDetourWait 0 ≠ 0 ∧ aRead.dt = false := by decide +kernel

theorem test_link_clauses :
    let s := { State.reset with fab := { flights := [(1, some { pkt := aRead, nfl := 2 })], dirs := [(0, { wire := some (0, { pid := 1 }) })] } }
    (State.reset.dir 0).wire = none ∧ (State.reset.link 0).failed = false ∧ nextOut State.reset 0 false = none
      ∧ (s.dir 0).wire = some (0, { pid := 1 }) ∧ (s.dir 0).tries ≠ 63 ∧ (s.flight 1).isSome = true
      ∧ ((State.reset.setDir 0 { owed := [3] }).dir 0).owed = [3] := by decide +kernel

/-- A flit that its injecting channel offers to the link of NI 10. -/
def offering : State := match exec (.niInject 10 0) (State.reset.setInq 250 [aRead]) with
  | .next t => t
  | _ => State.reset

theorem test_arbitration_clause : (List.range 352).any (fun l => (nextOut (allocate l true offering) l true).isSome
    || (nextOut (allocate l false offering) l false).isSome) = true := by decide +kernel

theorem test_bank_arrival_clause :
    let s := arriving 18 aRead
    (s.arrived 18)[0]? = some aRead ∧ aRead.len ≠ 0 ∧ aRead.len ≤ 4096 ∧ aRead.bad = [] ∧ (s.setArrived 18 []).inOrder 18 aRead = true := by
  decide +kernel

theorem test_limiter_clauses :
    (State.reset.fset F.injLimEn 80 1).fget F.injLimEn 80 = 1
      ∧ State.reset.tokenTime 80 + 64 ≤ ({ State.reset with tb := { count := 64 } } : State).tb.count
      ∧ writerOk .mgc .fabCtl 0 = true := by decide +kernel

theorem test_limits_wrong : ((State.reset.fsetS F.injLimEn 80 1).fsetS F.injLimRate 80 0).limitsOk = false :=
  List.all_eq_false.mpr ⟨80, by decide, by decide +kernel⟩

theorem test_limits_ok : State.reset.limitsOk = true := by decide +kernel

theorem test_force_clauses : writerOk (.host 0) .linkSts 0 = true ∧ (State.reset.link 0).forced = false
    ∧ writerOk .mgc .rtData 0 = true ∧ writerOk .mgc .arbCtl 28 = true ∧ writerOk .mgc .c52PrioLo 0 = true := by decide +kernel

theorem test_last_of_group : (List.range 352).any (fun l => State.reset.lastOfGroup l) = true
    ∧ (List.range 352).any (fun l => !State.reset.lastOfGroup l) = true := by decide +kernel

/-- The reset priorities are consistent; a repeated one is not (R104). -/
theorem test_c52_clauses : consistent 0x76543210 (State.reset.rget .c52PrioHi 0) = true
    ∧ consistent 0x76543211 (State.reset.rget .c52PrioHi 0) = false ∧ State.reset.fget F.c52StsPairSkew 0 ≠ 1 := by decide +kernel

/-- Arbiter 0 with the request of NI 10 delivered, in its slot, in a contest, granted. -/
def asked : State := State.reset.setArbiter 0 { waiting := [(10, aRead)] }
def slotted : State := State.reset.setArbiter 0 { slots := [(10, some { pkt := aRead })] }
def contested : State := State.reset.setArbiter 0 { slots := [(10, some { pkt := aRead })], contest := some { map := (List.range 47).map (slotted.inputOf 0) } }
def granted : State := State.reset.setArbiter 0 { grant := some { idx := 10, pkt := aRead, limit := 100 } }

theorem test_arbiter_clauses : (asked.arbiter 0).waiting = [(10, aRead)] ∧ mget none (asked.arbiter 0).slots 10 = none
    ∧ (slotted.arbiter 0).contest = none ∧ (slotted.arbiter 0).grant = none ∧ slotted.presenting 0 = [10]
    ∧ contested.winner 0 { map := (List.range 47).map (slotted.inputOf 0) } = some 10 := by decide +kernel

theorem test_grant_clauses : ((granted.arbiter 0).grant.map (·.idx)) = some 10 ∧ closesBelay 0 aRead = false
    ∧ (granted.arbiter 0).belay = none ∧ granted.tb.count ≤ 0 + 100 ∧ 0 + 100 < ({ granted with tb := { count := 101 } } : State).tb.count
    ∧ aRead.ty ≠ 0x11 := by decide +kernel

/-! ## Semaphores -/

/-- SEM's arbiter has granted an operation of engine 0 on semaphore 7. -/
def semGrant (op : Nat) (s : State := State.reset) (src : Nat := 10) : State :=
  s.setArbiter 28 { grant := some { idx := 1, pkt := { ty := 5, src := src, dst := 40, asp := 6, tag := 0, addr := 4096 * op + 7 } } }

theorem test_sem_clauses :
    let g : Grant := { idx := 1, pkt := { ty := 5, src := 10, dst := 40, asp := 6, addr := 4096 + 7 } }
    let s := semGrant 1
    (s.arbiter 28).grant = some g ∧ g.serving = true ∧ (10 ≤ g.pkt.src ∧ g.pkt.src < 18) ∧ s.semFenced g.pkt = false
      ∧ g.pkt.addr % 2048 < 1024 ∧ g.pkt.addr / 4096 % 4 = 1 := by decide +kernel

theorem test_sem_owner_clauses :
    let o : Sem := { held := true, okind := 2, engine := 0, fn := 0 }
    sameOwner o o = true ∧ (State.reset.setSem 8 o).holdsAbove o 7 = true ∧ State.reset.holdsAbove o 7 = false
      ∧ sameOwner { o with engine := 1 } o = false ∧ ((semGrant 3 State.reset 0).arbiter 28).grant.isSome = true := by decide +kernel

/-- A free semaphore is acquired with the next generation (R110). -/
theorem test_sem_acquire : after (exec .semExecAcquire (semGrant 1)) (fun t => (t.sem 7).held && (t.sem 7).gen == 1) = true := by
  decide +kernel

theorem test_sem_fence_clause :
    let s := State.reset.setSemFence 5 true
    s.semFence 5 = true ∧ s.semFence 2048 = false ∧ s.semPending (fun f => f == 5) = false := by decide +kernel

/-! ## Clusters and movers -/

/-- Packets toward cluster 0: a queue wake, a message wake, a cut notice, a message for engine 0. -/
def aWake : Packet := { cls := 3, ty := 0x30, src := 38, dst := 10, addr := 5, len := 64 }
def aMsg : Packet := { cls := 1, ty := 0x14, src := 11, dst := 10, asp := 6, addr := 0x40, len := 56 }
def aCut : Packet := { cls := 3, ty := 0x33, src := 18, dst := 10, addr := 0, tag := 0 }

theorem test_wake_clauses : whole (arriving 10 aWake) 10 0 aWake ∧ whole (arriving 10 aMsg) 10 0 aMsg
    ∧ State.reset.msgWakes 0 < 8 ∧ (State.reset.clu 0).hold.any (fun x => x.1 == 8) = false
    ∧ whole (arriving 10 aCut) 10 0 aCut ∧ aCut.addr % 16 = 0 ∧ aCut.tag / 16 % 8 = 0 := by decide +kernel

/-- A wake list with one queue wake, INIT done, RUN set. -/
def woken : State := ((State.reset.fset F.pclCtlRun 0 1).fset F.pclStsInitDone 0 1).setClu 0 { wakes := [{ lv := 5, pkt := aWake }] }

theorem test_dispatch_clauses : woken.fget F.pclCtlRun 0 = 1 ∧ (woken.clu 0).initPend = false ∧ woken.idleEngine 0 = some 0
    ∧ (woken.bestWake 0).isSome = true ∧ ((State.reset.setClu 0 { initPend := true }).clu 0).initPend = true
    ∧ (State.reset.eng 0).st = .idle := by decide +kernel

/-- A queue's task starts on engine 0 and its wake leaves the list. -/
theorem test_dispatch_queue : after (exec (.dispatch 0) woken) (fun t => (t.eng 0).st == .run && (t.clu 0).wakes.isEmpty) = true := by
  decide +kernel

theorem test_credit_clause :
    let p : Packet := { cls := 3, ty := 0x32, src := 10, dst := 38, addr := 3 }
    whole (arriving 38 p) 38 0 p ∧ p.addr / 2 ^ 17 % 2 = 0 := by decide +kernel

/-- Engine 0 waiting for TIME 5, at TIME 10000. -/
def timed : State := { State.reset.setEng 0 { st := .wait, tmr := 5, evt := 1, emask := 1 } with tb := { count := 10000 } }

theorem test_timer_clauses : timed.domOn 6 = true ∧ timed.hasTask 0 = true ∧ (timed.eng 0).tmr ≠ 0 ∧ (timed.eng 0).st = .wait
    ∧ (timed.eng 0).ending = false ∧ released (timed.eng 0) = true := by decide +kernel

theorem test_timer_expired : timeLe (timed.eng 0).tmr (timed.engNow 0) = true :=
  (by decide +kernel : ∀ lag : Fin 3, timeLe 5 ((10000 + 2 ^ 48 - lag.val) % 2 ^ 48) = true) (Config.niLag 10)

theorem test_message_clauses :
    let p : Packet := { aMsg with addr := 0 }
    let s := State.reset.setEng 0 { st := .run }
    whole (arriving 10 p) 10 0 p ∧ s.hasTask 0 = true ∧ (s.setEng 0 { st := .run, slots := [false, true, true] }).slotOpen 0 = false
      ∧ ((s.setClu 0 { hold := [(0, p)] }).clu 0).hold = [(0, p)] ∧ whole (arriving 42 { p with dst := 42, addr := 0x48 }) 42 0 { p with dst := 42, addr := 0x48 } := by
  decide +kernel

/-- s.now starts past the slot that engine 0 has open. -/
theorem test_slot_open : (List.range 3).any (fun k => (State.reset.setEng 0 { st := .run, nextSlot := k }).slotOpen 0) = true := by decide +kernel

theorem test_pacer_register_clauses : writerOk .mgc .pclCtl 0 = true ∧ State.reset.fget F.pclCtlRun 0 ≠ 1
    ∧ ((State.reset.setClu 0 { loaded := true }).clu 0).loaded = true ∧ writerOk .mgc .pclLimits 7 = true
    ∧ writerOk (.host 0) .pclEng 63 = true ∧ ((State.reset.setEng 63 { st := .halted }).eng 63).st = .halted
    ∧ writerOk .mgc .pclPsData 0 = true ∧ State.reset.stopped 0 = true ∧ (State.reset.fset F.pclCtlRun 0 1).stopped 0 = false := by
  decide +kernel

theorem test_store_word_clause : State.reset.psWord (131072 * 0 + State.reset.fget F.pclPsAddrWord 0) ≠ 1
    ∧ State.reset.psEccAt (131072 * 7 + State.reset.fget F.pclPsAddrWord 7) = 0 := by decide +kernel

/-- Context 0 of cluster 0, copying 64 bytes from staging memory to scratch or the other way. -/
def aCtx (x : Ctx) : State := State.reset.setCtx 0 { x with used := true, len := 64 }

theorem test_mover_read_clauses :
    let s := aCtx { sasp := 3, dasp := 5 }
    (s.ctx 0).used = true ∧ (s.ctx 0).done = false ∧ (s.ctx 0).fail = 0 ∧ (s.ctx 0).stopped = false ∧ (s.ctx 0).rdOff < (s.ctx 0).len
      ∧ (s.ctx 0).blocks < 128 ∧ s.blocksIn 0 < 512 ∧ ((aCtx { sasp := 5, dasp := 3 }).ctx 0).sasp = 5 := by decide +kernel

theorem test_mover_complete_clauses :
    let p : Packet := { cls := 2, ty := 0x20, src := 18, dst := 10, tag := 5, data := List.replicate 64 7 }
    let s := arriving 10 p (aCtx { sasp := 3, dasp := 5, rdOff := 64, reads := [{ tag := 5, off := 0, len := 64 }] })
    whole s 10 0 p ∧ p.tag < 0x3000 ∧ ((s.ctxsOf 0).find? (fun y => y.2.reads.any (fun r => r.tag == 5))).isSome = true
      ∧ (s.ctx 0).reads.find? (fun r => r.tag == 5) = some { tag := 5, off := 0, len := 64 } ∧ p.data.length = 64
      ∧ whole (arriving 10 { p with csts := 1, data := [] } s) 10 0 { p with csts := 1, data := [] } := by decide +kernel

theorem test_mover_write_clauses :
    let s := aCtx { sasp := 3, dasp := 5, rdOff := 64, got := [(0, List.replicate 64 7, false)] }
    let q := aCtx { sasp := 5, dasp := 3, rdOff := 64, banks := [18], got := [(0, List.replicate 64 7, true)] }
    (bytesIn (s.ctx 0).got (s.ctx 0).wrOff (s.ctx 0).writeLen).isSome = true ∧ (s.ctx 0).wrOff < (s.ctx 0).len
      ∧ (bytesIn (q.ctx 0).got (q.ctx 0).wrOff (q.ctx 0).writeLen).isSome = true
      ∧ (q.ctx 0).banks.contains (bankNi ((q.ctx 0).daddr + (q.ctx 0).wrOff)) = true := by decide +kernel

theorem test_context_complete_clause :
    let s := aCtx { sasp := 3, dasp := 5, rdOff := 64, wrOff := 64 }
    s.ctxReady 0 = true ∧ (s.ctx 0).fail = 0 ∧ (s.eng (s.ctx 0).eng).st ≠ .halted ∧ (s.eng (s.ctx 0).eng).ctx = 0x3FF := by decide +kernel

/-! ## Queues -/

/-- Queue 0 with rings of 16 entries that the driver has described, bound to trailhead 16 of cluster 0. -/
def described : State :=
  ((State.reset.fset F.qCfgSqLog2 0 4).fset F.qCfgCqLog2 0 4).fset F.qmQbindTrail 0 16

theorem test_enable_clauses : (described.queue 0).en = false ∧ described.enableOk 0 = true ∧ State.reset.enableOk 0 = false
    ∧ (described.fset F.qStsErr 0 1).fget F.qStsErr 0 = 1 := by decide +kernel

/-- The same queue enabled, with 3 entries. -/
def enabled (x : Queue := {}) : State := State.reset.setQueue 0 { x with en := true, sqmask := 15, cqmask := 15 }

theorem test_skip_clause : ((enabled { sqtail := 3 }).queue 0).sqhead ≠ ((enabled { sqtail := 3 }).queue 0).sqtail := by decide +kernel

/-- Doorbells at the edges of the ring: the last place, and the one that the ring's content allows. -/
theorem test_doorbell_clauses :
    let p : Packet := { cls := 1, ty := 0x13, src := 0, dst := 38, addr := 15, icnt := 1 }
    let q : Packet := { p with addr := 2 ^ 29 }
    let s := arriving 38 p enabled
    sound s 38 0 p ∧ p.addr / 65536 % 8192 = 0 ∧ (s.queue 0).en = true ∧ (s.queue 0).held = false
      ∧ ringDist 0 15 15 ≤ 15 - ringDist 0 0 15 ∧ sound (arriving 38 q enabled) 38 0 q ∧ q.addr / 2 ^ 29 % 2 = 1
      ∧ ringDist 0 0 15 ≤ ringDist 0 0 15 := by decide +kernel

theorem test_head_write_clauses :
    let p : Packet := { cls := 1, ty := 0x10, src := 10, dst := 38, asp := 4, len := 4, addr := 0x300000, data := [3, 0, 0, 0], icnt := 1 }
    let s := arriving 38 p (enabled { held := true, sqtail := 3 })
    sound s 38 0 p ∧ (s.queue 0).held = true ∧ p.src = 10 + (s.queue 0).cluster ∧ leNat p.data % 65536 = 3
      ∧ ringDist 0 3 15 ≤ ringDist 0 3 15 ∧ 0 + ringDist 0 3 15 ≤ 15 ∧ sound (arriving 38 { p with addr := 0x300004 } s) 38 0 { p with addr := 0x300004 } := by
  decide +kernel

theorem test_qid_clause :
    let p : Packet := { cls := 3, ty := 0x32, src := 10, dst := 38, addr := 2 ^ 17, icnt := 1 }
    sound (arriving 38 p enabled) 38 0 p ∧ isQidReturn p = true := by decide +kernel

theorem test_wake_send_clauses :
    let s := enabled { sqtail := 3 }
    s.wantsWake 0 = true ∧ s.wakesAhead 0 < s.wakeCredits (s.queue 0).cluster ∧ s.niFailed (10 + (s.queue 0).cluster) = false := by
  decide +kernel

theorem test_pointer_read_clauses :
    let p : Packet := { cls := 0, ty := 0, src := 10, dst := 38, asp := 4, len := 4, addr := 0x1FF0000 + regOffset .qSqPtr 0, icnt := 1 }
    sound (arriving 38 p enabled) 38 0 p ∧ 0x1FF0000 ≤ p.addr % 2 ^ 25
      ∧ regAt regRows true (p.addr % 2 ^ 25 - 0x1FF0000) p.len = .reg .qSqPtr 0 32
      ∧ (State.setArrived (arriving 38 p enabled) 38 []).pointerReady 0 = true := by decide +kernel

/-! ## Translation -/

/-- XU 0 has granted a lookup in window 0, whose descriptor and entry it holds. -/
def looking (d v : List Nat) : State :=
  let s := State.reset.setArbiter 16 { grant := some { idx := 1, pkt := { ty := 6, src := 10, dst := 34, addr := 0 } } }
  s.setXcache 0 [{ idx := 0, words := d }, { entry := true, idx := 0, words := v }]

/-- The descriptor of an enabled window with entry base 0 that every function of the port may use. -/
def openDesc : List Nat := [1, 2047 * 2 ^ 16, 0]

theorem test_lookup_clauses :
    let s := looking openDesc [2 ^ 22, 0]
    (s.arbiter 16).grant.isSome = true ∧ isDrainReq { ty := 6, src := 10, dst := 34, addr := 0 } = false ∧ s.under 34 0 = false
      ∧ s.quarAt (reqWin { ty := 6, src := 10, dst := 34, addr := 0 }) = false ∧ s.cached 0 false 0 = some openDesc
      ∧ s.quarAt 4096 = false ∧ s.cached 0 true 0 = some [2 ^ 22, 0] := by decide +kernel

theorem test_desc_check : (match descCheck openDesc 0 0 with | .inr e => e == 0 | _ => false) = true := by decide +kernel

/-- A miss at XU 0 whose first entry copy has been read; staging memory holds zeros, which are intact. -/
theorem test_miss_clauses :
    let m : Miss := { desc := some openDesc, ent := some 0, eGot := [(0, some [0, 0])] }
    let s := State.reset.setMissList 0 [m]
    (s.missList 0)[0]? = some m ∧ m.readD = false ∧ m.replied = false ∧ s.entCopy 1 0 = some [0, 0] ∧ s.epochAt 4096 = m.eEpoch := by
  decide +kernel

theorem test_sequencer_clauses :
    let s := seqIs State.reset [.rewrite false 5 0 none []] none
    atHead s (.rewrite false 5 (s.epochAt 5) none []) [] ∧ s.quarAt 5 = false
      ∧ atHead (seqIs State.reset [.commit 0 5 openDesc] none) (.commit 0 5 openDesc) []
      ∧ (State.reset.activeDesc 5).isSome = true := by decide +kernel

/-- A window of 2^24 bytes passes a commit's checks; SIZE 0 does not. -/
theorem test_commit_error_clauses : (∃ ws : List Nat, commitError ws 0 0 = 0) ∧ (∃ ws : List Nat, commitError ws 0 0 ≠ 0) :=
  ⟨⟨[24 * 2 ^ 16, 0], by decide +kernel⟩, ⟨[0, 0], by decide +kernel⟩⟩

theorem test_bump_clauses :
    let s := seqIs State.reset [.bump 0 5 false] none
    atHead s (.bump 0 5 false) [] ∧ s.bumpDrain 5 = false ∧ (dXv [0, 0, 0] + 1 + 256 - dDxv [0, 0, 0]) % 256 < 128
      ∧ (seqIs State.reset [] (some (.commit 0 5 openDesc))).xlt.cur = some (.commit 0 5 openDesc)
      ∧ atHead (seqIs State.reset [.entry 0 7 1] none) (.entry 0 7 1) []
      ∧ State.reset.entCopy 0 7 = some [0, 0] ∧ State.reset.entCopy 1 7 = some [0, 0] := by decide +kernel

theorem test_dxv_clauses :
    let s := { seqIs State.reset [.dxv 5 1 9] none with xlt := { seq := [.dxv 5 1 9], drains := [{ tag := 9, x := 1, win := 5, set := some 0 }] } }
    atHead s (.dxv 5 1 9) [] ∧ s.xlt.drains.find? (fun y => y.tag == 9) = some { tag := 9, x := 1, win := 5, set := some 0 } := by
  decide +kernel

theorem test_window_command_clauses :
    (State.reset.winBusy 0 || State.reset.winDraining 0) = false
      ∧ ((seqIs State.reset [.commit 0 5 openDesc] none).winBusy 0 || (seqIs State.reset [.commit 0 5 openDesc] none).winDraining 0) = true
      ∧ State.reset.teBusy 0 = false ∧ (seqIs State.reset [.entry 0 7 1] none).teBusy 0 = true
      ∧ writerOk (.host 0) .winCmd 0 = true ∧ writerOk (.prog 0) .teCmd 2 = true ∧ writerOk .mgc .xltLoc 0 = true
      ∧ writerOk (.host 1) .fWin 2047 = true := by decide +kernel

/-- Window 5 with the given XV in its copies, and drain job 9 for it at XU 1. -/
def draining (xv : Nat) (st : Bool) : State :=
  let d : Drain := { tag := 9, x := 1, win := 5, set := some 0, started := st }
  let d8 := withXv (List.replicate 8 0) xv
  let s := putDesc 5 d8 2 (putDesc 5 d8 1 (putDesc 5 d8 0 State.reset))
  { s with xlt := { s.xlt with drains := [d] } }

/-- A drain that has not started, of a window with XV = DXV and of one with XV past DXV. -/
theorem test_drain_clauses : [0, 1].all (fun v => (draining v false).drainAt 1 0 == some { tag := 9, x := 1, win := 5, set := some 0 }
    && !(draining v false).inSeq 5 && (draining v false).activeDesc 5 == some (withXv (List.replicate 8 0) v)) = true
    ∧ dXv (withXv (List.replicate 8 0) 1) ≠ dDxv (withXv (List.replicate 8 0) 1)
    ∧ dXv (List.replicate 8 0) = dDxv (List.replicate 8 0) := by decide +kernel

/-- A started drain all of whose ten probes are answered. -/
theorem test_drain_answers_clause :
    let s := (draining 1 true).setArrived 35 (probeNis.map (fun n => { cls := 2, ty := 0x21, src := n, dst := 35, tag := 9 }))
    let d : Drain := { tag := 9, x := 1, win := 5, set := some 0, started := true }
    s.drainAt 1 0 = some d ∧ probeNis.all (fun n => (s.arrived 35).any (probeAnswerOf d n)) = true := by decide +kernel

theorem test_probe_clauses :
    let p : Packet := { cls := 0, ty := 0, src := 34, dst := 0, asp := 6 }
    whole (arriving 0 p) 0 0 p ∧ p.len = 0 ∧ ((State.reset.setProbesAt 0 [{ pkt := p }]).probesAt 0)[0]? = some { pkt := p }
      ∧ State.reset.probeReady 0 { pkt := p } = true := by decide +kernel

/-! ## Host links, host requests -/

theorem test_perst_clauses : up hostOn ∧ (hostOn.hpi 0).perst = false ∧ (hostOn.dom 14).trans = 0 ∧ hostOn.domOn 14 = true
    ∧ (hostOn.setDom 14 { st := 2 }).domOn 14 = false ∧ ((hostOn.setDom 14 { st := 2 }).dom 14).st = 2
    ∧ (State.reset.hpi 0).link = .down ∧ State.reset.domOn 14 = true := by decide +kernel

theorem test_host_link_clauses : hostOn.hasLink 0 = true ∧ hostOn.hostUp 0 = true
    ∧ ((State.reset.setHpi 0 { link := .training, perst := false }).hpi 0).link = .training
    ∧ State.reset.fnReset 2048 = none ∧ State.reset.niParked 0 = false
    ∧ (hostOn.hpi 0).link = .l0 ∧ (8 : Nat) < (hostOn.hpi 0).width := by decide +kernel

/-- Host port 0 up in a device that is READY, with one VF. -/
def configured : State :=
  (((hostOn (inStage 7)).cfgPut 0 .vfEnable 1).cfgPut 0 .numVfs 1).cfgPut 0 .bar2 (2 ^ 45)

theorem test_config_clauses : hostOn.hostLive 0 = true ∧ hostOn.booted = false ∧ configured.booted = true ∧ configured.hostLive 0 = true
    ∧ configured.inReset 0 = false ∧ configured.configurable 1 = true ∧ configured.configurable 0 = true
    ∧ configured.cfgGet 0 .vfEnable = 1 := by decide +kernel

theorem test_fence_notice_clauses : ((State.reset.setNotices 18 [1]).notices 18)[0]? = some 1 ∧ State.reset.niAwake 18 = true
    ∧ (State.reset.setFnReset 1 (some {})).fnReset 2048 = none ∧ (State.reset.setFnReset 1 (some {})).fnReset 1 = some {}
    ∧ (State.reset.setFnReset 1 (some {})).drainLeft (fenceOf 1) = false ∧ State.reset.semFence 1 = false := by decide +kernel

/-- Memory space of PF 0 is on and its F_WIN is enabled. -/
def mapped : State := ((configured.cfgPut 0 .memorySpaceEnable 1).fset F.fWinEn 0 1).fset F.hpiCfgPfBar2Log2 0 42

theorem test_host_access_clauses : reaches mapped 0 0 { aTlp with addr := 2 ^ 45 + 8 } 0 true 8 ∧ mapped.fget F.fWinEn 0 = 1
    ∧ mapped.cacheHit 0 0 (mapped.fget F.fWinWin 0) 8 = none := by decide +kernel

theorem test_host_access_clauses_2 : reaches mapped 0 1 { aTlp with addr := 2 ^ 45 + 8, data := [] } 0 true 8
    ∧ reaches mapped 0 (atomKind (.fetchAdd 8)) { aTlp with addr := 2 ^ 45 + 8 } 0 true 8 := by decide +kernel

theorem test_translation_reply_clause :
    let p : Packet := { cls := 2, ty := 0x22, src := 34, dst := 0, tag := 8192, data := List.replicate 8 0 }
    let r : HostReq := { kind := 1, tlp := aTlp, xltTag := 8192, nocache := true }
    let s := arriving 0 p (State.reset.setHpi 0 { link := .l0, perst := false, reqs := [r] })
    whole s 0 0 p ∧ (s.hpi 0).reqs.find? (fun r => r.xltTag == p.tag) = some r ∧ r.nocache = true
      ∧ xwXst (BitVec.ofNat 64 (leNat p.data)) = 0 := by decide +kernel

/-- A read of host memory that waits for a tag. -/
def issuing (bme : Nat) : State :=
  (State.reset.setHpi 0 { link := .l0, perst := false, np := [{ pkt := { toHost with fn := 1024 * 0 } }] }).cfgPut 0 .busMasterEnable bme

theorem test_issue_clauses : ((issuing 0).hpi 0).np[0]?.isSome = true ∧ (issuing 0).hostLive 0 = true ∧ (issuing 0).bme 0 = false
    ∧ (issuing 1).bme 0 = true ∧ (issuing 1).freeTag 0 = some 0 ∧ (issuing 1).underCap 0 0 = true := by decide +kernel

/-- A read of host memory whose TLP waits for its completion. -/
def outstanding (t : Tag) : State := { hostOn.setTag 3 t with tb := { count := 10 ^ 9 } }

theorem test_completion_clauses :
    let t : Tag := { out := true, len := 8, req := toHost, limit := 50000000 }
    let c : Tag := { cooled := true, limit := 1000, req := toHost }
    (outstanding t).hostLive 0 = true ∧ (outstanding t).tag (4096 * 0 + 3) = t ∧ t.got + (List.replicate 8 (0 : Byte)).length = t.len
      ∧ (outstanding t).cfgGet 0 .ctoDisable = 0 ∧ t.at_ + t.limit < (outstanding t).now
      ∧ ((outstanding c).tag (4096 * 0 + 3)).cooled = true ∧ c.coolAt + 4 * c.limit ≤ (outstanding c).now := by decide +kernel

theorem test_vdm_clause :
    let s := (hostOn.fset F.lbTunEn 5 1).fset F.lbTunKind 5 0
    s.hostLive 0 = true ∧ s.under 0 0 = false ∧ s.leadOf 0 * 64 + 5 = 5 ∧ s.fget F.lbTunEn 5 = 1 ∧ s.fget F.lbTunKind 5 = 0
      ∧ s.fget F.lbTunFn 5 = 0 ∧ (5 : BitVec 32).toNat / 64 % 8 = 0 ∧ (5 : BitVec 32).toNat % 64 = 5 := by decide +kernel

theorem test_ltr_clause :
    let s := (hostOn.cfgPut 0 .ltrEnable 1).cfgPut 0 .busMasterEnable 1
    s.hostLive 0 = true ∧ s.cfgGet 0 .ltrEnable = 1 ∧ s.ltrValue 0 ≠ (s.hpi 0).ltr := by decide +kernel

theorem test_egress_clauses :
    let e : Egress := { pkt := { toHost with fn := 0 } }
    let s := (State.reset.setHpi 0 { link := .l0, perst := false, egress := [e] }).rput .slot 0 0
    s.hostLive 0 = true ∧ s.slotAt 0 (s.hpi 0).slot < 8
      ∧ (s.heads 0).find? (fun e => e.pkt.qc == s.slotAt 0 (s.hpi 0).slot) = some e ∧ (s.heads 0).isEmpty = false
      ∧ writerOk .mgc .slotCtl 0 = true := by decide +kernel

/-! ## Drevlink training, lanes -/

/-- LPI 0 in the given training. -/
def port0 (l : Lpi) (s : State := State.reset) : State := s.setLpi 0 l

theorem test_training_clauses : State.reset.leads 0 = true ∧ writerOk .mgc .lnkCtl 0 = true ∧ (State.reset.lpi 0).st = 0
    ∧ (State.reset.dom 16).st ≠ 2 ∧ ((port0 { st := 5 }).lpi 0).st = 5 ∧ State.reset.fget F.lnkCtlWidth 0 ≠ 1
    ∧ State.reset.widthBusy 0 1 = false ∧ ((port0 { st := 5 }).setLpi 1 { st := 5 }).widthBusy 0 1 = true
    ∧ (State.reset.ldOn 0) = true := by decide +kernel

theorem test_training_clauses_2 :
    let s := (port0 { st := 2, partnerRate := 1 }).fset F.lnkCtlMaxRate 0 3
    s.targetRate 0 = 1 ∧ (State.reset.fset F.lnkCtlFarLoopOk 0 1).fget F.lnkCtlFarLoopOk 0 = 1
      ∧ State.reset.fget F.lnkCtlFarLoopOk 0 = 0 ∧ (0 : Nat) < 4 * State.reset.groupLen 0
      ∧ ({ port0 { st := 3 } with tb := { count := 100000 } } : State).now = 100000
      ∧ ((port0 { gone := some (5, true), holdEnd := some 0, lst := 2 }).lpi 0).gone = some (5, true) := by decide +kernel

theorem test_lane_clauses :
    let s := port0 { st := 4, locks := [1, 2, 3] }
    s.leads 0 = true ∧ (s.lanesOf 0).all (0 :: ((s.lpi 0).locks.filter (fun x => x != 0))).contains = true
      ∧ writerOk .mgc .laneInj 0 = true ∧ (port0 { st := 5 }).laneRuns 0 = true ∧ writerOk .mgc .laneTst 0 = true
      ∧ State.reset.fget F.laneTstChkEn 0 = 0
      ∧ (((port0 { st := 7 }).fset F.laneTstChkEn 0 1).fset F.laneTstChkLock 0 1).checking 0 0 = true
      ∧ (((port0 { st := 7 }).fset F.laneTstChkEn 0 1).fset F.laneTstChkLock 0 1).fget F.laneTstChkLock 0 = 1 := by decide +kernel

/-- LPI 0 in ACTIVE with credits for nothing and these packets waiting, at 1 ms. -/
def starving (eg : List Egress) : State := { port0 { st := 5, lst := 1, po := { init := true, hInit := 1, hUsed := 1 }, np := { init := true }, egress := eg } with tb := { count := 10 ^ 6 } }

theorem test_stall_clauses :
    let s := starving [{ pkt := { toHost with cls := 1, ty := 0x10 } }]
    s.portUp 0 = true ∧ 1000 ≤ s.now ∧ (s.lpi 0).stallAt ≠ s.now / 1000 ∧ (s.lpi 0).up ≤ 1000 * (s.now / 1000 - 1)
      ∧ (s.lpi 0).starved 1 (1000 * (s.now / 1000 - 1)) = true ∧ (s.lpi 0).epoch ≠ s.now / 1000000 := by decide +kernel

theorem test_leak_clause : (starving []).portUp 0 = true ∧ ((starving []).lpi 0).emptyAt + 10000 ≤ (starving []).now
    ∧ ((starving []).lpi 0).replay = [] ∧ ((starving []).lpi 0).egress = [] := by decide +kernel

/-- The drought count reaches its threshold with this microsecond, or does not. -/
theorem test_stall_thresholds : let u := fun t => (((starving []).fset F.llCtlDrRetrain 0 0).fset F.llDrDrTh 0 t).fsat F.llDrDrCnt 0 1
    (u 1).fget F.llDrDrCnt 0 = (u 1).fget F.llDrDrTh 0 ∧ (u 1).fget F.llCtlDrRetrain 0 = 0
      ∧ (u 2).fget F.llDrDrCnt 0 ≠ (u 2).fget F.llDrDrTh 0 := by decide +kernel

/-- A reading of 200 °C is above every trip threshold, one of 0 °C below, whatever the calibration before boot. -/
theorem test_trip_clauses : 4 * 123 ≤ State.reset.junction 0 800 ∧ State.reset.junction 0 0 < 4 * 117
    ∧ State.reset.fget F.thermCtlTrip 0 = 0 := by
  have h : ∀ x : Int, -128 ≤ clampInt x (-128) 127 ∧ clampInt x (-128) 127 ≤ 127 := fun x => by unfold clampInt; omega
  have e : ∀ (t : BitVec 16), ∃ x : Int, State.reset.junction 0 t = t.toInt + clampInt x (-128) 127 := fun t => ⟨_, rfl⟩
  obtain ⟨x, hx⟩ := e 800
  obtain ⟨y, hy⟩ := e 0
  have h8 : (800 : BitVec 16).toInt = 800 := by decide
  have h0 : (0 : BitVec 16).toInt = 0 := by decide
  refine ⟨?_, ?_, by decide +kernel⟩
  · rw [hx, h8]; have := h x; omega
  · rw [hy, h0]; have := h y; omega

/-! ## Frames -/

/-- LPI 0 in ACTIVE with its link layer up. -/
def linked (l : Lpi) (s : State := State.reset) : State := s.setLpi 0 { l with st := 5, lst := 1, initSent := 2 }

/-- A frame in the replay buffer. -/
def aTx : TxFrame := { frame := aFrame, pkt := toHost }

theorem test_control_slot_clauses : (linked {}).portUp 0 = true ∧ ((linked {}).lpi 0).initSent = 2 ∧ (linked { nakDue := true }).nakNow 0 = true
    ∧ (linked { lcbNp := true }).nakNow 0 = false ∧ ((State.reset.setLpi 0 { st := 5, lst := 1 }).lpi 0).initSent = 0
    ∧ (State.reset.setLpi 0 { st := 5, lst := 1 }).portUp 0 = true := by decide +kernel

theorem test_credit_clauses :
    let s := linked { po := { init := true, hInit := 4, dInit := 4, hUsed := 1, dUsed := 1 }, replay := [aTx] }
    let u := applyAck 0 0 s
    (u.lpi 0).po.init = true ∧ ((u.lpi 0).po.count 1 1 u.now).2 = false
      ∧ ((applyAck 0 0 (s.fsat F.llCntNakRx 0 1)).lpi 0).replay.any (·.again) = false
      ∧ ((State.reset.setLpi 0 { st := 5, lst := 3 }).lpi 0).lst = 3 := by decide +kernel

theorem test_replay_clause :
    let s := { linked { replay := [aTx] } with tb := { count := 10 ^ 9 } }
    (s.lpi 0).replay = aTx :: [] ∧ max aTx.at_ (s.lpi 0).purgeAt + s.replayTo 0 ≤ s.now := by decide +kernel

/-- A packet that waits in port 0's egress, with the credits for its frame. -/
def leaving (x : Packet) : State :=
  linked { po := { init := true, hInit := 4, dInit := 4 }, np := { init := true, hInit := 4, dInit := 4 }, egress := [{ pkt := x }] }

/-- A posted write and an AtomicOp for port 0. -/
def outWrite : Packet := { cls := 1, ty := 0x10, src := 10, dst := 2, asp := 2, len := 8, fbe := 0xFF, lbe := 0xFF, data := List.replicate 8 0 }
def outAtomic : Packet := { cls := 0, ty := 1, src := 0, dst := 2, asp := 2, len := 8, fbe := 0xFF, lbe := 0xFF, data := List.replicate 8 0 }

theorem test_frame_clauses : ((leaving outWrite).lpi 0).replay.find? (·.again) = none
    ∧ (leaving outWrite).nextEntry 0 = some { pkt := outWrite } ∧ (leaving outAtomic).nextEntry 0 = some { pkt := outAtomic }
    ∧ (leaving outAtomic).lpiTag 0 = some 0 ∧ ((leaving outWrite).lpi 0).replay.length < 2047 := by decide +kernel

theorem test_drev_tag_clauses :
    let t : Tag := { out := true, len := 8, req := { toHost with dst := 2, asp := 2 }, limit := 1000 }
    let s := { (linked { pf := [{ arrived := true }] }).setTag (4096 * 2 + 3) t with tb := { count := 10 ^ 9 } }
    s.tag (4096 * 2 + 3) = t ∧ t.at_ + t.limit ≤ s.now ∧ (s.lpi 0).pf[0]? = some { arrived := true }
      ∧ 0 + 1000 * s.fget F.lbPfLife 0 ≤ s.now ∧ s.leads 0 = true := by decide +kernel

theorem test_port_response_clause :
    let x : Packet := { cls := 2, ty := 0x20, src := 18, dst := 2, tag := 3, data := List.replicate 8 0 }
    whole (arriving 2 x) 2 0 x ∧ passesGate 2 x = false ∧ x.cls = 2 := by decide +kernel

/-- Port 0 up, with credits announced, every function allowed, and the next SEQ 0. -/
def taking (s : State := State.reset) : State :=
  ((linked { gaveP := {}, gaveN := {}, np := { init := true } } s).fset F.lbFnFnFirst 0 0).fset F.lbFnFnLast 0 2047

/-- Frames of the partner, of each kind that is bridged. -/
def pWrite : Frame := { aFrame with nblk := 3, lbe := 0 }
def pRead : Frame := { aFrame with cls := 0, tt := 0x00, nblk := 2, data := [], lbe := 0 }
def pBell : Frame := { aFrame with tt := 0x13, nblk := 2, len := 0, fbe := 0, lbe := 0, data := [], addr := 3 }
def pInt : Frame := { pBell with tt := 0x14 }
def pUnit : Frame := { aFrame with tt := 0x15, fbe := 0, lbe := 0, nblk := 9, len := 56, data := List.replicate 56 0, addr := 0x48 }
def pTun : Frame := { aFrame with tt := 0x16, nblk := 3, len := 8, fbe := 0, lbe := 0 }
def pCpl : Frame := { aFrame with cls := 2, tt := 0x20, nblk := 10, len := 64, tag := 3, last := false, data := List.replicate 64 0 }
def pLock : Frame := { pRead with tt := 0x04 }
def pBad : Frame := { aFrame with tt := 0x3F }

theorem test_frames_taken : [pWrite, pRead, pBell, pInt, pUnit, pTun, pCpl, pLock, pBad].all (fun f => decide (getsFrame taking 0 f)) = true := by
  decide +kernel
theorem test_frames_ok : [pWrite, pRead, pBell, pInt, pUnit, pTun, pCpl, pLock].all frameOk = true ∧ frameOk pBad = false := by
  decide +kernel

theorem test_bridge_clauses :
    let u := tookFrame taking 0 pRead
    taking.fnAllowed 0 0 = true ∧ (u.lpi 0).parts.length < 1024 * taking.groupLen 0 ∧ (u.lpi 0).parts.any (fun r => !r.dead && r.frame.tag == 0) = false
      ∧ (u.lpi 0).crossing 0 = false ∧ (makeRoom 0 u).isSome = true ∧ (tookFrame taking 0 pUnit).unitNi (pUnit.addr % 4096) = some 42 := by
  decide +kernel

theorem test_bridge_clauses_2 :
    let s := (taking.fset F.lbTunEn 0 1).fset F.lbTunKind 0 1
    let t : Tag := { out := true, len := 128, req := { toHost with dst := 2, asp := 2, addr := 0, len := 128, fbe := 0xFF, lbe := 0xFF } }
    s.fget F.lbTunEn 0 = 1 ∧ s.fget F.lbTunKind 0 = 1 ∧ (taking.setTag (4096 * 2 + 3) t).tag (4096 * 2 + 3) = t
      ∧ continues (tagRange t) t.got pCpl = true := by decide +kernel

/-! ## Interrupts -/

/-- PF 0's vectors at 0 of the pool, four of them. -/
def vectored (x : Vec) (s : State := State.reset) : State :=
  ((s.fset F.fVecEn 0 1).fset F.irtPortPfVec 0 4).setVec 0 x

/-- The same with MSI-X enabled and Bus Master Enable. -/
def ringing (x : Vec) (s : State := State.reset) : State := (vectored x ((s.cfgPut 0 .msixEnable 1).cfgPut 0 .busMasterEnable 1))

/-- An interrupt request of PF 0's vector 0. -/
def aRaise : Packet := { cls := 1, ty := 0x12, src := 10, dst := 39, icnt := 1 }

theorem test_interrupt_clauses :
    let s := arriving 39 aRaise
    let open_ : Vec := { mask := false }
    sound s 39 0 aRaise ∧ s.under 39 0 = false ∧ s.fget F.fVecEn 0 = 0 ∧ sound (arriving 39 aRaise (ringing open_)) 39 0 aRaise
      ∧ (0 : Nat) < (ringing open_).vectorsOf 0 ∧ (ringing open_).deliverable 0 0 = true ∧ (vectored {}).deliverable 0 0 = false
      ∧ (ringing { open_ with modInt := 4, last := some 0 }).vec 0 = { open_ with modInt := 4, last := some 0 } := by decide +kernel

theorem test_msix_clause :
    let s := { State.reset with tb := { count := 1000 }, fn := { msix := [(0, 0x1000, 7, 0)] } }
    s.fn.msix[0]? = some (0, 0x1000, 7, 0) ∧ (s.fn.msix.take 0).any (fun x => x.1 == 0) = false := by decide

theorem test_msix_time : timeBefore (0 + 5) (({ State.reset with tb := { count := 1000 } } : State).niTime 39) = true :=
  (by decide +kernel : ∀ lag : Fin 3, timeBefore 5 ((1000 + 2 ^ 48 - lag.val) % 2 ^ 48) = true) (Config.niLag 39)

theorem test_moderation_clauses :
    let x : Vec := { mask := false, held := 1, modInt := 1, last := some 0 }
    let s := { vectored x with tb := { count := 256 } }
    s.entryOwner 0 = some (0, 0) ∧ 0 < (s.vec 0).held ∧ (s.vec 0).last = some 0 ∧ 0 + 256 * (s.vec 0).modInt ≤ s.now
      ∧ (ringing { mask := false, pending := true }).deliverable 0 0 = true ∧ (vectored {}).fget F.fVecEn 0 = 1
      ∧ (0xBFFF : Nat) < 0xC000 ∧ (0x8000 - 0x8000) / 16 < (vectored {}).vectorsOf 0 := by decide +kernel

theorem test_binding_clauses :
    let s := State.reset.fset F.irtPortPfVec 0 4
    writerOk .mgc .fVec 0 = true ∧ s.cfgGet 0 .msixEnable = 0 ∧ 32764 + s.vectorsOf 0 ≤ 32768 ∧ s.overlaps 0 32764 = false
      ∧ 32768 < 32765 + s.vectorsOf 0 ∧ writerOk (.host 0) .fSvc 5 = true ∧ writerOk .mgc .svcCtl 0 = true := by decide +kernel

/-! ## Logs and errors -/

theorem test_notice_clauses :
    let p (kind : Nat) : Packet := { cls := 3, ty := 0x33, src := 18, dst := 10, addr := kind + 16 * 1 }
    let s := ((arriving 10 (p 4)).setRecvCnt (46 * 10 + 18) 2).setDamagedAt 10 [{ src := 18, hdrBad := true }]
    [1, 2, 3, 4].all (fun k => decide (tellsOf (arriving 10 (p k)) 10 0 (p k) k)) = true ∧ tellsOf s 10 0 (p 4) 4 ∧ s.seenCnt (46 * 10 + 18) = []
      ∧ reached (s.recvCnt (46 * 10 + 18)) 1 = true ∧ (1 + 4096 - s.confirmed (46 * 10 + 18) % 4096) % 4096 = 1
      ∧ 1 ≤ ((s.damagedAt 10).filter (fun x => x.src == 18)).length := by decide +kernel

theorem test_record_clauses :
    let p (kind n : Nat) : Packet := { cls := 3, ty := 0x33, src := 18, dst := 41, addr := kind, data := List.replicate n 6 }
    (State.reset.dom 5).st ≠ 3 ∧ tellsOf (arriving 41 (p 5 64)) 41 0 (p 5 64) 5 ∧ tellsOf (arriving 41 (p 6 32)) 41 0 (p 6 32) 6
      ∧ tellsOf (arriving 41 (p 7 32)) 41 0 (p 7 32) 7 ∧ State.reset.inReset 0 = false
      ∧ (State.reset.fset F.pfrCtlEn 0 1).fget F.pfrCtlEn 0 = 1 ∧ State.reset.traced 6 = false
      ∧ (((State.reset.fset F.trcCtlEn 0 1).fset F.trcCtlMask 0 64).traced 6) = true := by decide +kernel

theorem test_trace_clauses : writerOk .mgc .trcMark 0 = true ∧ writerOk .mgc .trcSts 0 = true
    ∧ ¬(State.reset.fget F.trcStsFull 0 = 1 ∧ State.reset.fget F.trcCtlStop 0 = 1)
    ∧ (State.reset.fset F.trcStsFull 0 1).fget F.trcStsFull 0 = 1 := by decide +kernel

theorem test_scrub_clauses :
    let g : Grant := { idx := 46, pkt := { src := 46, dst := 18, asp := 3, len := 64 }, serving := true }
    let s := State.reset.fset F.scrubCtlGrpEn 0 1
    ((State.reset.setArbiter 0 { grant := some g }).arbiter 0).grant = some g ∧ (s.arbiter 0).grant = none
      ∧ natBit (s.fget F.scrubCtlGrpEn 0) 0 = true ∧ s.domOn 2 = true ∧ s.scrubAt 16 ≤ s.now ∧ mget none (s.arbiter 0).slots 46 = none
      ∧ natBit ((State.reset.fset F.scrubCtlPsEn 0 255).fget F.scrubCtlPsEn 0) 7 = true ∧ State.reset.psScrubAt 15 ≤ State.reset.now
      ∧ State.reset.psEccAt (131072 * 7) = 0 := by decide +kernel

theorem test_log_clauses :
    let s := State.reset.fset F.logSelLog 2 1
    State.reset.fget F.logSelLog 2 = 0 ∧ State.reset.fget F.logSelIndex 2 < 4096 ∧ State.reset.fget F.logSelWord 2 < 7 ∧ s.fget F.logSelLog 2 = 1
      ∧ (s.fset F.logSelWord 2 3).fget F.logSelWord 2 = 3 ∧ Writer.prog 0 ≠ .mgc := by decide +kernel

theorem test_injection_clauses : writerOk .mgc .errInj 0 = true ∧ State.reset.eccAt (0x3FFFFFF / 8) = 0
    ∧ State.reset.psEccAt (131072 * 7 + 131071) = 0 ∧ (State.reset.sem 1024).held = false
    ∧ ((State.reset.setSem 1024 { held := true }).sem 1024).held = true := by decide +kernel

/-- Every activity needs a mark, so both clauses of a claim are met. -/
theorem test_claims_have_marks : ∃ act : Activity, claimSet act ≠ [] ∧ ∀ m ∈ claimSet act, (State.reset.sem (1024 + m)).held = false :=
  ⟨.traceDump, by decide +kernel⟩

/-! ## Power -/

/-- Domain d with its idle time over, at 1 s. -/
def idling (d : Nat) (s : State := State.reset) : State :=
  { (s.setDom d { limit := 1 }).fset F.pwrDomIdleT d 1 with tb := { count := 10 ^ 9 } }

/-- Cluster 0 has an engine that runs; LPI 0 is in ACTIVE. -/
theorem test_idle_clauses : (idling 6).idleOver 6 = true ∧ (idling 6).refuser 6 = none
    ∧ ((idling 6).setEng 0 { st := .run }).idleOver 6 = true ∧ (((idling 6).setEng 0 { st := .run }).refuser 6).isSome = true
    ∧ (idling 16 (State.reset.setLpi 0 { st := 5 })).idleOver 16 = true ∧ (idling 16 (State.reset.setLpi 0 { st := 5 })).refuser 16 = none
    ∧ (idling 16 (State.reset.setLpi 0 { st := 5 })).portQuiet 0 = false ∧ (idling 16).portQuiet 0 = true := by decide +kernel

theorem test_entry_clauses :
    let l : Lpi := { st := 5, sleepSent := true }
    let s := { (State.reset.setLpi 0 l).setDom 6 { trans := 1 } with tb := { count := 100000 } }
    (s.lpi 0).st = 5 ∧ (s.lpi 0).sleepSent = true ∧ (s.lpi 0).sleepRecv = false ∧ (s.lpi 0).sleepAt + 100000 ≤ s.now
      ∧ (s.dom 6).trans = 1 ∧ s.mayIsolate 6 = true ∧ (s.setDom 6 { trans := 1, toOff := true }).mayIsolate 6 = true := by decide +kernel

theorem test_wake_step_clauses :
    let s (st : Nat) (n : Nat) := { State.reset.setDom 20 { st := 1, trans := 2, stage := st, attempts := n } with tb := { count := 2000000 } }
    ((s 0 1).dom 20).trans = 2 ∧ ((s 0 1).dom 20).at_ + 2000000 ≤ (s 0 1).now ∧ ((s 1 4).dom 20).at_ + 200000 ≤ (s 1 4).now
      ∧ ((s 2 1).dom 20).at_ + 10000 ≤ (s 2 1).now ∧ ((s 0 4).dom 20).attempts = 4 ∧ (10 : Nat) ∈ nisOf 6 := by decide +kernel

theorem test_wake_request_clauses :
    let s (d : Nat) := (State.reset.setDom d { st := 1 }).fset F.pwrDomForceOn d 1
    let h := (State.reset.setDom 14 { st := 1 }).setNotices 0 [1]
    (s 6).wakeAsked 6 .forceOn = true ∧ (s 14).wakeAsked 14 .forceOn = true ∧ (s 16).wakeAsked 16 .forceOn = true
      ∧ ((s 6).dom 6).st = 1 ∧ h.wakeAsked 14 .packet = true ∧ (h.dom 14).trans = 0 ∧ writerOk .mgc .pwrDom 6 = true
      ∧ (((State.reset.setDom 6 { st := 3 }).dom 6).st = 3) := by decide +kernel

theorem test_sense_clauses : State.reset.fget F.wsCtlArm 0 = 0 ∧ (State.reset.fset F.wsCtlArm 0 1).fget F.wsCtlArm 0 = 1
    ∧ writerOk .mgc .pwcClk 0 = true ∧ State.reset.pwr.deep = false
    ∧ (State.reset.fset F.pwcClkMgcPllEn 0 1).fget F.pwcClkMgcPllEn 0 = 1 := by decide +kernel

theorem test_deep_clause :
    let s := { (forN 22 (fun i s => s.setDom (2 + i) { st := 1 }) State.reset).fset F.pwrCtlDeepEn 0 1 with tb := { count := 10 ^ 12 } }
    s.fget F.pwrCtlDeepEn 0 = 1 ∧ s.allDown = true ∧ s.pwr.deep = false := by decide +kernel

/-- Cluster 0 asleep, its engine 0 waiting for TIME 5, at TIME 10000. -/
def dozing : State := { (State.reset.setEng 0 { st := .wait, tmr := 5 }).setDom 6 { st := 1 } with tb := { count := 10000 } }

theorem test_timer_lead_clause : (dozing.dom 6).st = 1 ∧ (dozing.dom 6).trans = 0 ∧ dozing.timerDue 0 = true := by
  refine ⟨by decide +kernel, by decide +kernel, ?_⟩
  have h1 : (dozing.eng 0).tmr = 5 := by decide +kernel
  have h2 : dozing.engNow 0 = (dozing.tb.count + 2 ^ 48 - (Config.niLag 10).val) % 2 ^ 48 := rfl
  have h3 : dozing.tb.count = 10000 := rfl
  have h : timeLe (dozing.eng 0).tmr ((dozing.engNow 0 + 2000) % 2 ^ 48) = true := by
    rw [h1, h2, h3]
    exact (by decide +kernel : ∀ lag : Fin 3, timeLe 5 (((10000 + 2 ^ 48 - lag.val) % 2 ^ 48 + 2000) % 2 ^ 48) = true) (Config.niLag 10)
  unfold State.timerDue
  rw [List.any_eq_true]
  exact ⟨0, by decide, by rw [Bool.and_eq_true]; exact ⟨by decide +kernel, h⟩⟩

/-! ## Bring-up, flash, attestation -/

theorem test_stage_clauses : (List.range 7).all (fun n => decide ((inStage n).fget F.bootStsStage 0 = n)) = true
    ∧ (inStage 2).boot.trySlot = 0 ∧ (((inStage 2).readSlot 0).take 4).all (· == 0xFF) = true := by decide +kernel

/-- A flash whose slot A begins with a zero; a device with damaged fuses. -/
theorem test_slot_read_clauses :
    let s := (inStage 2).setFlashByte 0 0
    let d := { inStage 3 with boot := { fuseBad := true } }
    ((s.readSlot 0).take 4).all (· == 0xFF) = false ∧ d.slotCause d.boot.container ≠ 0 ∧ d.slotCause d.boot.container ≤ 3 := by decide +kernel

theorem test_clock_clauses :
    let s := { inStage 6 with tb := { count := 10 ^ 9, lockSince := some 0, mgcLockSince := some 0 } }
    let u := { s with boot := { clocked := true } }
    s.clockStep = true ∧ s.tb.lockSince = some 0 ∧ s.tb.mgcLockSince = some 0 ∧ 0 + 1000000 ≤ s.now ∧ u.clockStep = false
      ∧ (State.reset.fset F.pwcClkMgcPllLock 0 1).fget F.pwcClkMgcPllLock 0 = 1 ∧ State.reset.fget F.pwcClkMgcSrc 0 = 0 := by decide +kernel

theorem test_init_clauses :
    let s := { inStage 6 with tb := { count := 10 ^ 9 }, boot := { clocked := true, named := [3] } }
    s.boot.named.contains 3 = true ∧ s.initOver 3 = false ∧ s.boot.startAt + 100000000 ≤ s.now
      ∧ (s.fset F.pclStsInitDone 3 1).boot.named.all (s.fset F.pclStsInitDone 3 1).initOver = true
      ∧ (s.fget F.tbCtlSrc 0 = 0 ∨ s.fget F.tbCtlCoarse 0 = 0) ∧ ({ s with boot := { container := [0] } } : State).boot.container ≠ [] := by
  decide +kernel

/-- Commands of FLASH: the last page of slot A, a range past slot A, and a write. -/
theorem test_flash_clauses :
    let e (dst len : Nat) : FlashCmd := { write := false, dst := dst, src := 0, len := len }
    writerOk .mgc .bootCmd 0 = true ∧ State.reset.boot.cmd = none ∧ State.reset.flashRangeOk (e (2 ^ 24 - 4096) 4096) = true
      ∧ State.reset.flashRangeOk (e (2 ^ 24 - 4096) 8192) = false ∧ State.reset.fget F.bootStsSlot 0 ≠ (e 0 0).dst / 2 ^ 24 + 1
      ∧ (State.reset.fset F.bootStsSlot 0 1).fget F.bootStsSlot 0 = (e 0 0).dst / 2 ^ 24 + 1
      ∧ ({ State.reset with boot := { cmd := some (e 0 4096) } } : State).boot.cmd = some (e 0 4096) := by decide +kernel

/-- The count that an image proposes raises the fuse count, and a lower one does not lower it (R479). -/
theorem test_commit_raises : after (exec (.commitOwnerCount .mgc) (State.reset.fset F.bootSvnOsvnImg 0 5)) (fun t => t.boot.ownerCount == 5) = true
    ∧ after (exec (.commitOwnerCount .mgc) { State.reset with boot := { ownerCount := 7 } }) (fun t => t.boot.ownerCount == 7) = true := by
  decide +kernel

/-- Host 0's mailbox, up, with an SPDM session at `n` and an owner chain of one byte. -/
def asking (n : Nat) (q : List (Nat × SpdmReq) := []) : State :=
  let s := hostOn (inStage 7)
  { s with boot := { spdm := mput 0 [] 0 n, chain := [1], signQ := q } }

theorem test_mailbox_clauses : (asking 0).mailbox 0 = true ∧ (asking 3).spdmAt 0 = 3 ∧ (asking 3).certChain 1 = some [1]
    ∧ (∀ c, (asking 3).certChain 2 = some c → c.length ≤ 0) ∧ (asking 3).certChain 2 = none ∧ (asking 3).hostLive 0 = true
    ∧ (asking 3).booted = true :=
  ⟨by decide +kernel, by decide +kernel, by decide +kernel, fun c h => (nomatch (show (none : Option (List Byte)) = some c from h)),
    by decide +kernel, by decide +kernel, by decide +kernel⟩

theorem test_signing_clauses : (asking 3 [(0, .challenge 1)]).boot.signQ = (0, .challenge 1) :: []
    ∧ (asking 3 [(0, .measurements 2)]).boot.signQ = (0, .measurements 2) :: [] := by decide +kernel

theorem test_measurements_clause : ({ asking 3 with boot := { (asking 3).boot with meas := [(5, 7)] } } : State).blocks 5 ≠ [] := by
  decide +kernel

/-! ## Register writes -/

/-- The last register of the map, a plain register, one that a host may not write, one of a unit that is off, a hole and
a misaligned access. -/
theorem test_register_clauses : hitsReg false (regOffset .bootDst 0) 4 .bootDst 0 ∧ State.reset.deadReg .bootDst 0 = false
    ∧ writerOk .mgc .bootDst 0 = true ∧ RegId.bootDst ∈ plainRegs
    ∧ hitsReg false (regOffset .pclLimits 0) 4 .pclLimits 0 ∧ writerOk (.host 0) .pclLimits 0 = false
    ∧ regAt regRows false (regOffset .bootDst 0 + 2) 4 = .misaligned ∧ regAt regRows false 0x1FEFFFC 4 = .none
    ∧ progReach true 0x2000000 = false :=
  ⟨⟨32, by decide +kernel⟩, by decide +kernel, by decide, by decide, ⟨32, by decide +kernel⟩, by decide +kernel, by decide +kernel,
    by decide +kernel, by decide +kernel⟩

theorem test_wrong_writer_clause : registerOf (.rtDataWrite (.host 0) 0) = some (.host 0, .rtData, 0, 0)
    ∧ writerOk (.host 0) .rtData 0 = false := by decide +kernel

/-- `SorefWordsDecodeBack`, `SorefReservedWordsDoNotDecode`: an instruction of each format with edge operands. -/
theorem test_soref_clauses : [Soref.addi 31 31 (-2048), .li 31 (-(2 ^ 43)), .cmpl 0 (2 ^ 43 - 1), .lock .q .loc 30 31].all (fun i => i.wf
    && decodeSoref (encodeSoref i).1 (encodeSoref i).2 == some i && decide ((encodeSoref i).1 < 2 ^ 32)) = true := by decide +kernel

end Sys2Proof.Tests
end

section
/-!
SUPPORT. One instruction of an engine: what its fetch leaves, what its completion writes, and the engine's own state
after a fault (R141, R143). An obligation about an instruction is settled through these rules.
-/
namespace Sys2Proof.Machine

open Sys2Proof.Claims

/-! ## Folds -/

/-- What every round of a fold leaves as it was, the fold does. -/
theorem forL_unchanged {α β : Type} (g : State → β) {f : α → State → State} (h : ∀ a x, g (f a x) = g x)
    (l : List α) (s : State) : g (forL l f s) = g s := by
  induction l generalizing s with
  | nil => rfl
  | cons a t ih => exact (ih (f a s)).trans (h a s)

/-! ## The fetch -/

theorem pcl_aerCorrectedAt (k : Nat) (s : State) : (aerCorrectedAt k s).pcl = s.pcl := by
  unfold aerCorrectedAt when
  dsimp only
  repeat' split
  all_goals rfl

@[simp] theorem pcl_aerCorrected (s : State) : (aerCorrected s).pcl = s.pcl :=
  (pcl_aerCorrectedAt 1 _).trans (pcl_aerCorrectedAt 0 s)

@[simp] theorem pcl_psCorrect (c w : Nat) (s : State) : (psCorrect c w s).pcl = s.pcl := by
  unfold psCorrect
  split
  · exact pcl_aerCorrected _
  · rfl

/-- A fetch leaves the pacers' state. -/
@[simp] theorem pcl_fetched (s : State) (e : Nat) : (fetched s e).pcl = s.pcl := by
  unfold fetched touch
  split <;> simp

@[simp] theorem eng_fetched (s : State) (e e' : Nat) : (fetched s e).eng e' = s.eng e' := by
  simp only [State.eng, pcl_fetched]

/-- An instruction that the engine is about to run has its effect on what the fetch leaves. -/
theorem soref_of_runs {s : State} {e : Fin 64} {i : Soref} (h : runs s e i) (f : Nat → State → State) :
    soref e i f s = .next (f e (fetched s e)) := by
  obtain ⟨hup, hready, hbudget, -, hword, hlong, hdecode⟩ := h
  have hrun : runInsn e (some i) (f e) s = f e (fetched s e) := by
    simp only [wordAt, Nat.add_zero] at hlong hdecode
    by_cases long : isLong (s.psWord (psKey (clOf e) (s.eng e).pc)).toNat = true
    · obtain ⟨hstore, hword2⟩ := hlong long
      have hin : ¬ 131071 ≤ (s.eng e).pc := by omega
      simp [runInsn, fetched, wordAt, hready, hbudget, hword, long, hin, hword2, hdecode]
    · simp [runInsn, fetched, wordAt, hready, hbudget, hword, long, hdecode]
  simp only [soref, live, show s.inPor = false from hup, Bool.false_eq_true, if_false, hrun]

theorem stall_of_ready {s : State} {e : Nat} (h : s.ready e = true) : (s.eng e).stall = .none := by
  simp only [State.ready, Bool.and_eq_true, beq_iff_eq] at h
  exact h.2

/-! ## Changes of one engine -/

theorem onlyEngine_refl (s : State) (e : Nat) : onlyEngine s s e := ⟨rfl, rfl, rfl, fun _ _ => rfl, fun _ _ => rfl⟩

theorem onlyEngine_setEng {u t : State} {e : Nat} (h : onlyEngine u t e) (x : Eng) : onlyEngine u (t.setEng e x) e := by
  obtain ⟨hrest, hclus, hctxs, heng, hgreg⟩ := h
  exact ⟨hrest, hclus, hctxs, fun e' he => (State.eng_setEng_of_ne _ _ _ _ he).trans (heng e' he), hgreg⟩

theorem keepsRegs_of_gregs {s t : State} (e : Fin 64) (h : t.pcl.gregs = s.pcl.gregs) : keepsRegs s t e := by
  intro r _
  simp only [State.gr, State.greg, h]

/-! ## Completion -/

/-- Without a cut to take, completion writes s.icnt and s.pc and ends the stall. -/
theorem finishAt_of_no_cut {s : State} {e : Nat} (npc : Nat) (h : (s.eng e).cutPend = none) :
    finishAt e npc s
      = s.setEng e { s.eng e with icnt := min ((s.eng e).icnt + 1) 0xFFFFFFFF, pc := npc % 2 ^ 17, stall := .none } := by
  simp only [finishAt, checkCut, State.eng_setEng, h]

/-- An instruction that leaves its engine in state `x`, without a stall or a cut, completes. -/
theorem completed_finishAt (s : State) (e npc : Nat) {x : Eng} (hstall : x.stall = .none) (hcut : x.cutPend = none) :
    completed s (finishAt e npc ((fetched s e).setEng e x)) e npc x := by
  rw [finishAt_of_no_cut npc (by simpa using hcut)]
  refine ⟨?_, onlyEngine_setEng (onlyEngine_setEng (onlyEngine_refl _ e) _) _⟩
  simp [← hstall]

theorem finish_setEng (s : State) (e : Nat) (x : Eng) :
    finish e (s.setEng e x) = finishAt e (x.pc + 1) (s.setEng e x) := by
  rw [finish, State.eng_setEng]

/-- What has completed and then enters another state of R120 has completed in that state. -/
theorem completed_setSt {s t : State} {e npc : Nat} {x : Eng} (h : completed s t e npc x) (st : EngSt) :
    completed s (t.setEng e { t.eng e with st := st }) e npc { x with st := st } := by
  obtain ⟨heng, honly⟩ := h
  exact ⟨by rw [State.eng_setEng, heng], onlyEngine_setEng honly _⟩

/-- Completion leaves the general registers. -/
theorem gregs_finishAt_of_no_cut {s : State} {e : Nat} (npc : Nat) (h : (s.eng e).cutPend = none) :
    (finishAt e npc s).pcl.gregs = s.pcl.gregs := by
  rw [finishAt_of_no_cut npc h, State.pcl_gregs_setEng]

/-! ## The engine after a fault -/

@[simp] theorem eng_fsat (f : Fld) (i k e : Nat) (s : State) : (s.fsat f i k).eng e = s.eng e := rfl

@[simp] theorem eng_viol (v : Viol) (e : Nat) (s : State) : (viol v s).eng e = s.eng e := rfl

@[simp] theorem eng_trace (ni cls event fn e : Nat) (data : List Byte) (inj : Bool) (s : State) :
    (trace ni cls event fn data inj s).eng e = s.eng e := rfl

theorem engs_freeSems (e : Nat) (s : State) : (freeSems e s).pcl.engs = s.pcl.engs := by
  unfold freeSems
  refine forL_unchanged (fun x => x.pcl.engs) (fun n x => ?_) _ s
  rfl

theorem engs_returnDone (e : Nat) (s : State) : (returnDone e s).pcl.engs = s.pcl.engs := by
  unfold returnDone
  refine forL_unchanged (fun x => x.pcl.engs) (fun k x => ?_) _ s
  split <;> rfl

theorem engs_discardHeld (e : Nat) (s : State) : (discardHeld e s).pcl.engs = s.pcl.engs := by
  unfold discardHeld
  refine (forL_unchanged (fun x => x.pcl.engs) (fun m x => ?_) _ _).trans (State.pcl_engs_setClu s _ _)
  rfl

theorem st_engSend (e : Nat) (p : Packet) (s : State) : ((engSend e p s).eng e).st = (s.eng e).st := by
  unfold engSend
  split
  · rfl
  · rw [State.eng_setEng]

theorem st_returnQid (e : Nat) (db : Bool) (s : State) : ((returnQid e db s).eng e).st = (s.eng e).st := by
  unfold returnQid
  dsimp only
  split
  · rfl
  · rw [State.eng_setEng, st_engSend]

/-- A second fault halts the engine (R143). -/
theorem st_haltEngine (e code addr info : Nat) (s : State) : ((haltEngine e code addr info s).eng e).st = .halted := by
  have hkeeps (u : State) : ((discardHeld e (returnDone e (freeSems e u))).eng e).st = (u.eng e).st := by
    simp only [State.eng, engs_discardHeld, engs_returnDone, engs_freeSems]
  simp only [haltEngine, eng_trace, eng_viol, eng_fsat]
  split
  · rw [st_returnQid, hkeeps, State.eng_setEng]
  · rw [hkeeps, State.eng_setEng]

/-- A first fault leaves the engine in RUN at the FAULT trailhead (R141). -/
theorem eng_raiseFault_of_no_fault {e : Nat} {s : State} (code addr info : Nat) (h : (s.eng e).fault = 0) :
    (raiseFault e code addr info s).eng e = { s.eng e with
      st := .run, stall := .none, fault := code, fpc := (s.eng e).pc, pc := s.vector (clOf e) 0, hold := false
      lastFault := code } := by
  rw [raiseFault, if_neg (not_not.mpr h), eng_trace, eng_fsat, State.eng_setEng]

/-- No fault leaves the engine in WAIT. -/
theorem st_raiseFault_ne_wait (e code addr info : Nat) (s : State) :
    ((raiseFault e code addr info s).eng e).st ≠ .wait := by
  by_cases h : (s.eng e).fault = 0
  · simp [eng_raiseFault_of_no_fault code addr info h]
  · rw [raiseFault, if_pos h, st_haltEngine]
    decide

end Sys2Proof.Machine
end

section
/-!
PROOF. WAIT (R135, R136): its faults, its end at once and its entry into WAIT.
-/
namespace Sys2Proof.Machine

open Sys2Proof.Claims

/-! ## The effect of WAIT, by case -/

theorem natBit_fnrst (evt : Nat) : natBit evt 5 = true ↔ evt / 32 % 2 = 1 := by
  simp [natBit]

theorem released_iff (x : Eng) : released x = true ↔ x.evt &&& x.emask ≠ 0 ∨ x.evt / 32 % 2 = 1 := by
  simp only [released, Bool.or_eq_true, bne_iff_ne, natBit_fnrst]

/-- WAIT ends: it clears the translation hold (R268) and completes. -/
def endWait (e : Nat) (s : State) : State := finish e (s.setEng e { s.eng e with hold := false })

/-- With s.emask zero only FNRST releases WAIT, so a WAIT that is released raises no WAIT_NOEVT. -/
theorem not_noevt_of_released {x : Eng} (h : released x = true) : ¬(x.emask = 0 ∧ (!natBit x.evt 5) = true) := by
  rintro ⟨hmask, hfnrst⟩
  have hclear : natBit x.evt 5 = false := by simpa using hfnrst
  simp [released, hmask, hclear] at h

theorem waitInsn_noevt {s : State} {e : Nat} (hmask : (s.eng e).emask = 0) (hfnrst : ¬(s.eng e).evt / 32 % 2 = 1) :
    waitInsn e s = raiseFault e 8 0 0 s :=
  if_pos ⟨hmask, by simpa [← natBit_fnrst] using hfnrst⟩

theorem waitInsn_belay {s : State} {e : Nat} (hsome : ¬((s.eng e).emask = 0 ∧ ¬(s.eng e).evt / 32 % 2 = 1))
    (hbelay : (s.eng e).belay = true) : waitInsn e s = raiseFault e 7 0 0 s := by
  simp only [← natBit_fnrst, Bool.not_eq_true] at hsome
  simp only [waitInsn, Bool.not_eq_true', hsome, hbelay, if_false, if_true]

theorem waitInsn_of_released {s : State} {e : Nat} (hbelay : (s.eng e).belay = false)
    (hreleased : released (s.eng e) = true) : waitInsn e s = endWait e s := by
  simp only [waitInsn, if_neg (not_noevt_of_released hreleased), hbelay, hreleased, Bool.false_eq_true, if_false, if_true,
    endWait]

theorem waitInsn_of_not_released {s : State} {e : Nat} (hbelay : (s.eng e).belay = false)
    (hmask : (s.eng e).emask ≠ 0) (hreleased : released (s.eng e) = false) :
    waitInsn e s = (endWait e s).setEng e { (endWait e s).eng e with st := .wait } := by
  simp only [waitInsn, hmask, false_and, hbelay, hreleased, Bool.false_eq_true, if_false, endWait]

/-! ## The command -/

theorem exec_wait_of_runs {s : State} {e : Fin 64} (h : runs s e .wait) :
    exec (.wait e) s = .next (waitInsn e (fetched s e)) := soref_of_runs h waitInsn

section
variable {s : State} {e : Fin 64} (h : runs s e .wait)
include h

theorem traps_wait {code : Nat} (hfault : waitInsn e (fetched s e) = raiseFault e code 0 0 (fetched s e)) :
    traps (.wait e) s e code 0 0 := by
  rw [traps, exec_wait_of_runs h, hfault]

theorem completed_endWait :
    completed s (endWait e (fetched s e)) e ((s.eng e).pc + 1) { s.eng e with hold := false } := by
  obtain ⟨-, hready, -, hcut, -⟩ := h
  rw [endWait, finish_setEng, eng_fetched]
  exact completed_finishAt s e _ (stall_of_ready hready) hcut

theorem gregs_endWait : (endWait e (fetched s e)).pcl.gregs = s.pcl.gregs := by
  obtain ⟨-, -, -, hcut, -⟩ := h
  rw [endWait, finish_setEng, gregs_finishAt_of_no_cut _ (by simpa using hcut), State.pcl_gregs_setEng, pcl_fetched]

theorem goesTo_wait_of_released (hbelay : (s.eng e).belay = false) (hreleased : released (s.eng e) = true) :
    goesTo (.wait e) s e ((s.eng e).pc + 1) { s.eng e with hold := false } := by
  refine ⟨_, exec_wait_of_runs h, ?_⟩
  rw [waitInsn_of_released (by simpa using hbelay) (by simpa using hreleased)]
  exact ⟨keepsRegs_of_gregs e (gregs_endWait h), completed_endWait h⟩

theorem goesTo_wait_of_not_released (hbelay : (s.eng e).belay = false) (hmask : (s.eng e).emask ≠ 0)
    (hreleased : released (s.eng e) = false) :
    goesTo (.wait e) s e ((s.eng e).pc + 1) { s.eng e with hold := false, st := .wait } := by
  refine ⟨_, exec_wait_of_runs h, ?_⟩
  rw [waitInsn_of_not_released (by simpa using hbelay) (by simpa using hmask) (by simpa using hreleased)]
  refine ⟨keepsRegs_of_gregs e ?_, completed_setSt (completed_endWait h) .wait⟩
  rw [State.pcl_gregs_setEng, gregs_endWait h]

end

end Sys2Proof.Machine

open Sys2Proof Sys2Proof.Machine Sys2Proof.Claims

/-- Settles O23, by the cases of WAIT: its two faults (R136), its release (R135) and its entry into WAIT. -/
theorem waitFaultsOrWaits : Obligations.WaitFaultsOrWaits := by
  unfold Obligations.WaitFaultsOrWaits
  intro s e h
  refine ⟨?noevt, ?belay, ?faultsStay, ?fnrst, ?pending, ?waits⟩
  case noevt =>
    rintro ⟨hmask, hfnrst⟩
    exact traps_wait h (waitInsn_noevt (by simpa using hmask) (by simpa using hfnrst))
  case belay =>
    rintro ⟨hsome, hbelay⟩
    exact traps_wait h (waitInsn_belay (by simpa using hsome) (by simpa using hbelay))
  case faultsStay => exact fun code => st_raiseFault_ne_wait e code 0 0 (fetched s e)
  case fnrst =>
    rintro ⟨hbelay, hfnrst⟩
    exact goesTo_wait_of_released h hbelay ((released_iff _).mpr (.inr hfnrst))
  case pending =>
    rintro ⟨hbelay, -, hevent⟩
    exact goesTo_wait_of_released h hbelay ((released_iff _).mpr (.inl hevent))
  case waits =>
    rintro ⟨hbelay, hfnrst, hmask, hnone⟩
    refine goesTo_wait_of_not_released h hbelay hmask (Bool.eq_false_iff.mpr fun hreleased => ?_)
    exact ((released_iff _).mp hreleased).elim (· hnone) hfnrst
end

section
/-!
PROOF. The marker (R216): a dispatch sets it to the TIME of s.stamp, FMARK to s.now.
-/
namespace Sys2Proof.Machine

open Sys2Proof.Claims

/-! ## The engines after the operations of a dispatch -/

theorem eng_forN_setGreg (key : Nat → Nat) (n e : Nat) (s : State) :
    (forN n (fun i s => s.setGreg (key i) 0) s).eng e = s.eng e :=
  forL_unchanged (fun x => x.eng e) (f := fun i x => x.setGreg (key i) 0) (fun _ _ => rfl) (List.range n) s

@[simp] theorem pcl_scrWrite (e off : Nat) (data : List Byte) (ep : Bool) (s : State) :
    (scrWrite e off data ep s).pcl = s.pcl := by
  unfold scrWrite
  dsimp only
  refine (forL_unchanged State.pcl (fun w x => ?_) _ _).trans (forL_unchanged State.pcl (fun b x => ?_) _ s)
  · split
    · rfl
    · split <;> rfl
  · rfl

@[simp] theorem eng_scrWrite (e off e' : Nat) (data : List Byte) (ep : Bool) (s : State) :
    (scrWrite e off data ep s).eng e' = s.eng e' := by
  simp only [State.eng, pcl_scrWrite]

@[simp] theorem eng_setClu (c e : Nat) (k : Cluster) (s : State) : (s.setClu c k).eng e = s.eng e := rfl

@[simp] theorem eng_offer (p : Packet) (e : Nat) (s : State) : (offer p s).eng e = s.eng e := rfl

@[simp] theorem eng_refillWakes (c e : Nat) (s : State) : (refillWakes c s).eng e = s.eng e := by
  unfold refillWakes
  dsimp only
  split
  · rfl
  · split
    · rfl
    · rfl

theorem eng_setEvt_of_ne {e e' : Nat} (bit : Nat) (s : State) (h : e' ≠ e) : (setEvt e bit s).eng e' = s.eng e' := by
  unfold setEvt
  dsimp only
  split
  · rfl
  · exact State.eng_setEng_of_ne _ _ _ _ h

/-! ## Engines whose marker is the TIME of their stamp -/

/-- The marker is the TIME of s.stamp, its bits 63 to 16 (Table 3-1). -/
def markedByStamp (x : Eng) : Prop := x.marker = x.stamp.toNat / 2 ^ 16

/-- Between `s` and `t` only engine `e` can have changed, and its marker is the TIME of its stamp. -/
def startsMarked (e : Nat) (s t : State) : Prop := markedByStamp (t.eng e) ∧ ∀ e', e' ≠ e → t.eng e' = s.eng e'

/-- What leaves the engines as they are can precede and follow a start. -/
theorem startsMarked_of_eng_eq {e : Nat} {s s' t t' : State} (h : startsMarked e s' t) (hbefore : ∀ e', s'.eng e' = s.eng e')
    (hafter : ∀ e', t'.eng e' = t.eng e') : startsMarked e s t' := by
  obtain ⟨hmark, hothers⟩ := h
  exact ⟨by rwa [hafter], fun e' he => ((hafter e').trans (hothers e' he)).trans (hbefore e')⟩

theorem markedByStamp_setEvt {e : Nat} (bit : Nat) {s : State} (h : markedByStamp (s.eng e)) :
    markedByStamp ((setEvt e bit s).eng e) := by
  unfold setEvt
  dsimp only
  split
  · exact h
  · rwa [State.eng_setEng]

/-- A message that lands changes slots and events of its engine, neither marker nor stamp. -/
theorem startsMarked_landMsg {e : Nat} {s t : State} (p : Packet) (h : startsMarked e s t) :
    startsMarked e s (landMsg e p t) := by
  obtain ⟨hmark, hothers⟩ := h
  refine ⟨markedByStamp_setEvt 2 (by rwa [State.eng_setEng]), fun e' he => ?_⟩
  rw [landMsg, eng_setEvt_of_ne 2 _ he, State.eng_setEng_of_ne _ _ _ _ he, eng_scrWrite, hothers e' he]

/-- Every task starts with the TIME of its stamp as its marker (R216). -/
theorem startsMarked_startTask (e trail fn qid stamp : Nat) (s : State) :
    startsMarked e s (startTask e trail fn qid stamp s) := by
  refine ⟨?_, fun e' he => ?_⟩
  · simp only [startTask, State.eng_setEng, markedByStamp, BitVec.toNat_ofNat]
    omega
  · rw [startTask, State.eng_setEng_of_ne _ _ _ _ he]
    exact eng_forN_setGreg (fun i => 32 * e + i + 1) 31 e' s

/-! ## DISPATCH -/

theorem startsMarked_startInit (c : Nat) (s : State) : startsMarked (8 * c) s (startInit c s) := by
  rw [startInit]
  exact startsMarked_of_eng_eq (startsMarked_startTask ..) (fun _ => rfl) (fun _ => eng_setClu ..)

theorem startsMarked_startQueueTask (e : Nat) (w : Wake) (s : State) : startsMarked e s (startQueueTask e w s) :=
  startsMarked_of_eng_eq (startsMarked_startTask ..) (fun _ => rfl) (fun _ => (eng_offer ..).trans (eng_scrWrite ..))

theorem startsMarked_startMsgTask (e : Nat) (w : Wake) (s : State) : startsMarked e s (startMsgTask e w s) :=
  startsMarked_landMsg w.pkt (startsMarked_startTask ..)

/-- A dispatch does nothing or starts one engine: by INIT, by a message wake or by a queue wake (R131). -/
theorem dispatch_eq_or_startsMarked (c : Nat) (s : State) : dispatch c s = s ∨ ∃ e, startsMarked e s (dispatch c s) := by
  unfold dispatch
  dsimp only
  split
  case isTrue => exact .inl rfl
  case isFalse =>
    split
    case isTrue => exact .inr ⟨8 * c, startsMarked_startInit c s⟩
    case isFalse =>
      split
      case h_1 e _ w _ _ =>
        refine .inr ⟨e, ?_⟩
        split
        case isTrue =>
          exact startsMarked_of_eng_eq (startsMarked_startMsgTask e w _)
            (fun _ => (eng_refillWakes ..).trans (eng_setClu ..)) (fun _ => rfl)
        case isFalse =>
          exact startsMarked_of_eng_eq (startsMarked_startQueueTask e w _) (fun _ => eng_setClu ..) (fun _ => rfl)
      case h_2 => exact .inl rfl

theorem exec_dispatch (c : Fin 8) (s : State) : exec (.dispatch c) s = live s (dispatch c) := rfl

theorem exec_dispatch_eq_or_startsMarked {s t : State} {c : Fin 8} (h : exec (.dispatch c) s = .next t) :
    t = s ∨ ∃ e, startsMarked e s t := by
  rw [exec_dispatch, live] at h
  split at h
  · cases h
    exact .inl rfl
  · cases h
    exact dispatch_eq_or_startsMarked c s

theorem markedByStamp_of_exec_dispatch {s t : State} {c : Fin 8} {e : Nat} (h : exec (.dispatch c) s = .next t)
    (hchanged : t.eng e ≠ s.eng e) : markedByStamp (t.eng e) := by
  obtain rfl | ⟨started, hmark, hothers⟩ := exec_dispatch_eq_or_startsMarked h
  · exact absurd rfl hchanged
  · have he : e = started := by_contra fun hne => hchanged (hothers e hne)
    rwa [he]

/-! ## FMARK -/

theorem tb_aerCorrectedAt (k : Nat) (s : State) : (aerCorrectedAt k s).tb = s.tb := by
  unfold aerCorrectedAt when
  dsimp only
  repeat' split
  all_goals rfl

@[simp] theorem tb_psCorrect (c w : Nat) (s : State) : (psCorrect c w s).tb = s.tb := by
  unfold psCorrect
  split
  · exact (tb_aerCorrectedAt 1 _).trans (tb_aerCorrectedAt 0 _)
  · rfl

/-- A fetch leaves the time base. -/
@[simp] theorem tb_fetched (s : State) (e : Nat) : (fetched s e).tb = s.tb := by
  unfold fetched touch
  split <;> simp

@[simp] theorem engNow_fetched (s : State) (e : Nat) : (fetched s e).engNow e = s.engNow e := by
  simp only [State.engNow, State.niTime, State.now, tb_fetched]

/-- An instruction whose whole effect is a new state of its engine completes with its registers as they were. -/
theorem goesTo_of_exec_eq_finish_setEng {c : Instr} {s : State} {e : Fin 64} {x : Eng}
    (hexec : exec c s = .next (finish e ((fetched s e).setEng e x))) (hstall : x.stall = .none)
    (hcut : x.cutPend = none) : goesTo c s e (x.pc + 1) x := by
  rw [finish_setEng] at hexec
  refine ⟨_, hexec, keepsRegs_of_gregs e ?_, completed_finishAt s e _ hstall hcut⟩
  rw [gregs_finishAt_of_no_cut _ (by simpa using hcut), State.pcl_gregs_setEng, pcl_fetched]

theorem exec_fmark_of_runs {s : State} {e : Fin 64} (h : runs s e .fmark) :
    exec (.fmark e) s = .next (finish e ((fetched s e).setEng e { s.eng e with marker := s.engNow e })) := by
  have hexec : exec (.fmark e) s = .next (fmarkOp e (fetched s e)) := soref_of_runs h fmarkOp
  rwa [fmarkOp, eng_fetched, engNow_fetched] at hexec

end Sys2Proof.Machine

open Sys2Proof Sys2Proof.Machine Sys2Proof.Claims

/-- Settles O24: a dispatch starts at most one engine, with the marker of its stamp, and FMARK's whole effect is the
marker of its engine (R216). -/
theorem markerOfDispatchAndFmark : Obligations.MarkerOfDispatchAndFmark := by
  unfold Obligations.MarkerOfDispatchAndFmark
  refine ⟨fun s t c e hexec hchanged => markedByStamp_of_exec_dispatch hexec hchanged, fun s e h => ?_⟩
  obtain ⟨-, hready, -, hcut, -⟩ := id h
  exact goesTo_of_exec_eq_finish_setEng (exec_fmark_of_runs h) (stall_of_ready hready) hcut
end

section
/-!
PROOF. Power-on reset (R456, R479): the rows that act in it, and its two causes after each of them.
-/
namespace Sys2Proof.Machine

/-! ## Commands in power-on reset -/

/-- The four rows that move PORST_N or VAUX: no other row acts in power-on reset (log 3). -/
def movesReset : Instr → Bool
  | .porstNAssert | .porstNDeassert .. | .vauxBelowThreshold | .vauxAboveThreshold => true
  | _ => false

/-- The meaning of every other row is `live`, whose first branch is the state unchanged. -/
theorem exec_of_inPor {c : Instr} {s : State} (hmoves : movesReset c = false) (h : s.inPor = true) :
    exec c s = .next s := by
  cases c with
  | porstNAssert | porstNDeassert | vauxBelowThreshold | vauxAboveThreshold => cases hmoves
  | _ => exact if_pos h

/-! ## The causes of the reset -/

theorem inPor_eq (s : State) : s.inPor = (s.por.porst || s.por.vaux) := rfl

theorem inPor_of_vaux {s : State} (h : s.por.vaux = true) : s.inPor = true := by
  rw [inPor_eq, h, Bool.or_true]

theorem por_powerOn (por : PorGrp) (s : State) : (powerOn por s).por = por := rfl

theorem por_execPorstNAssert {s t : State} (h : execPorstNAssert s = .next t) :
    t.por = { s.por with porst := true } := by
  cases h
  split
  case isTrue hporst => rw [← hporst]
  case isFalse => exact por_powerOn _ _

theorem por_execPorstNDeassert {a b : Bool} {s t : State} (h : execPorstNDeassert a b s = .next t) :
    t.por = { s.por with porst := false } := by
  cases h
  split
  case isTrue => exact kept_release.por
  case isFalse hporst => rw [← Bool.eq_false_iff.mpr hporst]

theorem por_execVauxBelowThreshold {s t : State} (h : execVauxBelowThreshold s = .next t) :
    t.por = { s.por with vaux := true } := by
  cases h
  split
  case isTrue hvaux => rw [← hvaux]
  case isFalse => exact por_powerOn _ _

theorem por_execVauxAboveThreshold {s t : State} (h : execVauxAboveThreshold s = .next t) :
    t.por = { s.por with vaux := false } := by
  cases h
  split
  case isTrue => exact kept_release.por
  case isFalse hvaux => rw [← Bool.eq_false_iff.mpr hvaux]

/-! ## The monitor's hold -/

/-- A device that the monitor holds stays held until VAUX rises: of the rows that act, PORST_N's leave VAUX as it is and
VAUX_BELOW_THRESHOLD finds it low. -/
theorem vaux_of_exec {c : Instr} {s t : State} (hheld : s.por.vaux = true) (hrise : c ≠ .vauxAboveThreshold)
    (h : exec c s = .next t) : t.por.vaux = true := by
  cases hmoves : movesReset c with
  | false =>
    rw [exec_of_inPor hmoves (inPor_of_vaux hheld)] at h
    cases h
    exact hheld
  | true =>
    cases c with
    | porstNAssert => rwa [por_execPorstNAssert h]
    | porstNDeassert => rwa [por_execPorstNDeassert h]
    | vauxBelowThreshold => rw [por_execVauxBelowThreshold h]
    | vauxAboveThreshold => exact absurd rfl hrise
    | _ => cases hmoves

end Sys2Proof.Machine

open Sys2Proof Sys2Proof.Machine

/-- Settles O7: in power-on reset only the four rows of PORST_N and VAUX act, and of these only the rise of VAUX ends
the monitor's hold (R479). -/
theorem vauxMonitorHoldsPowerOnReset : Obligations.VauxMonitorHoldsPowerOnReset := by
  unfold Obligations.VauxMonitorHoldsPowerOnReset
  refine ⟨fun s => ⟨_, rfl, ?falls⟩, fun s => inPor_of_vaux, fun c s t => vaux_of_exec, fun s _ => ⟨_, rfl, ?rises⟩⟩
  case falls => rw [por_execVauxBelowThreshold rfl]
  case rises =>
    rw [inPor_eq, por_execVauxAboveThreshold rfl]
    exact ⟨rfl, Bool.or_false _⟩
end

section
/-!
PROOF. What every command and every step keep, from the lemma of each command (Laws/Kept*.lean): the queue, the count of
free values, the record of outputs, the canonical forms and the fuses.
-/
namespace Sys2Proof.Machine

/-! ## Commands -/

/-- The rows of PORST_N and VAUX keep all but the cause of the reset. -/
theorem keptButPor_of_movesReset {c : Instr} {s t : State} (hmoves : movesReset c = true) (h : exec c s = .next t) :
    KeptButPor s t := by
  cases c with
  | porstNAssert => exact kept_execPorstNAssert h
  | porstNDeassert => exact kept_execPorstNDeassert h
  | vauxBelowThreshold => exact kept_execVauxBelowThreshold h
  | vauxAboveThreshold => exact kept_execVauxAboveThreshold h
  | _ => cases hmoves

/-- Every other row has its lemma of its own. -/
theorem keptBy_exec {c : Instr} {s : State} (hmoves : movesReset c = false) : KeptBy s (exec c s) := by
  cases c with
  | porstNAssert | porstNDeassert | vauxBelowThreshold | vauxAboveThreshold => cases hmoves
  | registerWrite => exact kept_execRegisterWrite
  | vmon100nsAverage => exact kept_execVmon100nsAverage
  | vmon50nsAverage => exact kept_execVmon50nsAverage
  | vnowUpdate => exact kept_execVnowUpdate
  | vminClr => exact kept_execVminClr
  | stepMonCtlWrite => exact kept_execStepMonCtlWrite
  | stepMonWindowEnd => exact kept_execStepMonWindowEnd
  | tbPllLock => exact kept_execTbPllLock
  | tbSrcWrite => exact kept_execTbSrcWrite
  | tbSwitchOver => exact kept_execTbSwitchOver
  | tbFallback => exact kept_execTbFallback
  | tbStepWrite => exact kept_execTbStepWrite
  | tbStepApply => exact kept_execTbStepApply
  | tbSlewWrite => exact kept_execTbSlewWrite
  | tbSlewAdjust => exact kept_execTbSlewAdjust
  | timeSerialLoad => exact kept_execTimeSerialLoad
  | milestoneSend => exact kept_execMilestoneSend
  | milestoneArrive => exact kept_execMilestoneArrive
  | unparkHoldExpire => exact kept_execUnparkHoldExpire
  | gatePacketArrive => exact kept_execGatePacketArrive
  | gateRelease => exact kept_execGateRelease
  | allowanceReturn => exact kept_execAllowanceReturn
  | gateCommit => exact kept_execGateCommit
  | gateLatClr => exact kept_execGateLatClr
  | anchorRecord => exact kept_execAnchorRecord
  | niInject => exact kept_execNiInject
  | routerHeadArrive => exact kept_execRouterHeadArrive
  | routeSwitchbackRequest => exact kept_execRouteSwitchbackRequest
  | routeDetourRequest => exact kept_execRouteDetourRequest
  | linkOutputArbitration => exact kept_execLinkOutputArbitration
  | flitArrive => exact kept_execFlitArrive
  | creditReturn => exact kept_execCreditReturn
  | limiterTokenAdd => exact kept_execLimiterTokenAdd
  | fabCommit => exact kept_execFabCommit
  | forceOutWrite => exact kept_execForceOutWrite
  | rtDataWrite => exact kept_execRtDataWrite
  | destNiPacketArrive => exact kept_execDestNiPacketArrive
  | arbRequestDeliver => exact kept_execArbRequestDeliver
  | arbContestOpen => exact kept_execArbContestOpen
  | arbContestDecide => exact kept_execArbContestDecide
  | arbBackoffExpire => exact kept_execArbBackoffExpire
  | arbGrantEnd => exact kept_execArbGrantEnd
  | arbHoldCut => exact kept_execArbHoldCut
  | arbCommit => exact kept_execArbCommit
  | c52PrioWrite => exact kept_execC52PrioWrite
  | semExecAcquire => exact kept_execSemExecAcquire
  | semExecRelease => exact kept_execSemExecRelease
  | semExecForceRelease => exact kept_execSemExecForceRelease
  | semExecNoOp => exact kept_execSemExecNoOp
  | semCmdAcquire => exact kept_execSemCmdAcquire
  | semCmdRelease => exact kept_execSemCmdRelease
  | semCmdForceRelease => exact kept_execSemCmdForceRelease
  | semResetFree => exact kept_execSemResetFree
  | clusterWakeArrive => exact kept_execClusterWakeArrive
  | dispatch => exact kept_execDispatch
  | wakeCreditReturn => exact kept_execWakeCreditReturn
  | timerExpire => exact kept_execTimerExpire
  | waitRelease => exact kept_execWaitRelease
  | faultNoticeArrive => exact kept_execFaultNoticeArrive
  | endContextsDrained => exact kept_execEndContextsDrained
  | pclRunStart => exact kept_execPclRunStart
  | pclRunStop => exact kept_execPclRunStop
  | pclLimitsCommit => exact kept_execPclLimitsCommit
  | engineRestart => exact kept_execEngineRestart
  | engineKick => exact kept_execEngineKick
  | psDataWrite => exact kept_execPsDataWrite
  | psDataRead => exact kept_execPsDataRead
  | reservedEncoding => exact kept_execReservedEncoding
  | add => exact kept_execAdd
  | sub => exact kept_execSub
  | and => exact kept_execAnd
  | or => exact kept_execOr
  | xor => exact kept_execXor
  | andn => exact kept_execAndn
  | cmp => exact kept_execCmp
  | tst => exact kept_execTst
  | sll => exact kept_execSll
  | srl => exact kept_execSrl
  | sra => exact kept_execSra
  | mul => exact kept_execMul
  | mulhu => exact kept_execMulhu
  | clz => exact kept_execClz
  | addi => exact kept_execAddi
  | andi => exact kept_execAndi
  | ori => exact kept_execOri
  | xori => exact kept_execXori
  | slli => exact kept_execSlli
  | srli => exact kept_execSrli
  | srai => exact kept_execSrai
  | cmpi => exact kept_execCmpi
  | tsti => exact kept_execTsti
  | li => exact kept_execLi
  | addl => exact kept_execAddl
  | orh => exact kept_execOrh
  | cmpl => exact kept_execCmpl
  | ldx => exact kept_execLdx
  | ldg => exact kept_execLdg
  | ldc => exact kept_execLdc
  | stx => exact kept_execStx
  | stg => exact kept_execStg
  | stc => exact kept_execStc
  | fadd => exact kept_execFadd
  | swp => exact kept_execSwp
  | cas => exact kept_execCas
  | bCc => exact kept_execBCc
  | callCc => exact kept_execCallCc
  | jr => exact kept_execJr
  | callr => exact kept_execCallr
  | ret => exact kept_execRet
  | srd => exact kept_execSrd
  | swr => exact kept_execSwr
  | sbis => exact kept_execSbis
  | sbic => exact kept_execSbic
  | nop => exact kept_execNop
  | wait => exact kept_execWait
  | end_ => exact kept_execEnd
  | tdiff => exact kept_execTdiff
  | tcmp => exact kept_execTcmp
  | move => exact kept_execMove
  | ctxack => exact kept_execCtxack
  | xlt => exact kept_execXlt
  | xltDrain => exact kept_execXltDrain
  | fmark => exact kept_execFmark
  | fenceP => exact kept_execFenceP
  | lock => exact kept_execLock
  | unlock => exact kept_execUnlock
  | acq => exact kept_execAcq
  | rel => exact kept_execRel
  | acqr => exact kept_execAcqr
  | relr => exact kept_execRelr
  | umsg => exact kept_execUmsg
  | raise => exact kept_execRaise
  | raiser => exact kept_execRaiser
  | engineReplyArrive => exact kept_execEngineReplyArrive
  | fencePAnswersDone => exact kept_execFencePAnswersDone
  | engineStallResume => exact kept_execEngineStallResume
  | moverReadIssue => exact kept_execMoverReadIssue
  | moverReadComplete => exact kept_execMoverReadComplete
  | moverWriteSend => exact kept_execMoverWriteSend
  | contextComplete => exact kept_execContextComplete
  | raiseRequestPresent => exact kept_execRaiseRequestPresent
  | unitMessageArrive => exact kept_execUnitMessageArrive
  | unitMessageLandFromHold => exact kept_execUnitMessageLandFromHold
  | sqTailDb => exact kept_execSqTailDb
  | cqHeadDb => exact kept_execCqHeadDb
  | doorbellSqTail => exact kept_execDoorbellSqTail
  | doorbellCqHead => exact kept_execDoorbellCqHead
  | queueWakeSend => exact kept_execQueueWakeSend
  | qmQheadWrite => exact kept_execQmQheadWrite
  | qmQerrWrite => exact kept_execQmQerrWrite
  | qidReturn => exact kept_execQidReturn
  | qPointerRead => exact kept_execQPointerRead
  | queueEnable => exact kept_execQueueEnable
  | queueDisable => exact kept_execQueueDisable
  | queueSkip => exact kept_execQueueSkip
  | queueErrClear => exact kept_execQueueErrClear
  | xltLookup => exact kept_execXltLookup
  | xuMissCopyArrive => exact kept_execXuMissCopyArrive
  | copyRewriteExecute => exact kept_execCopyRewriteExecute
  | hpiTranslationReply => exact kept_execHpiTranslationReply
  | winCmdCommit => exact kept_execWinCmdCommit
  | commitExecute => exact kept_execCommitExecute
  | commitAcksDone => exact kept_execCommitAcksDone
  | winCmdBump => exact kept_execWinCmdBump
  | bumpExecute => exact kept_execBumpExecute
  | winCmdDrain => exact kept_execWinCmdDrain
  | drainStart => exact kept_execDrainStart
  | probeArrive => exact kept_execProbeArrive
  | probeAnswer => exact kept_execProbeAnswer
  | drainProbesDone => exact kept_execDrainProbesDone
  | dxvWriteExecute => exact kept_execDxvWriteExecute
  | teCmdWrite => exact kept_execTeCmdWrite
  | teCmdRead => exact kept_execTeCmdRead
  | entryWriteExecute => exact kept_execEntryWriteExecute
  | winSelWrite => exact kept_execWinSelWrite
  | fWinWrite => exact kept_execFWinWrite
  | xltLocWrite => exact kept_execXltLocWrite
  | perstAssert => exact kept_execPerstAssert
  | perstDeassert => exact kept_execPerstDeassert
  | hotResetReceived => exact kept_execHotResetReceived
  | linkDisableReceived => exact kept_execLinkDisableReceived
  | surpriseRemoval => exact kept_execSurpriseRemoval
  | dlDown => exact kept_execDlDown
  | hostLinkUp => exact kept_execHostLinkUp
  | hostLinkStateChange => exact kept_execHostLinkStateChange
  | hostMemWrite => exact kept_execHostMemWrite
  | hostMemRead => exact kept_execHostMemRead
  | hostAtomicop => exact kept_execHostAtomicop
  | hostConfigRequest => exact kept_execHostConfigRequest
  | hostCompletionArrive => exact kept_execHostCompletionArrive
  | hostVdmArrive => exact kept_execHostVdmArrive
  | hostRequestIssue => exact kept_execHostRequestIssue
  | hostCompletionTimeout => exact kept_execHostCompletionTimeout
  | tagCoolExpire => exact kept_execTagCoolExpire
  | flrInitiate => exact kept_execFlrInitiate
  | vfEnableClear => exact kept_execVfEnableClear
  | ltrSend => exact kept_execLtrSend
  | hostEgressSend => exact kept_execHostEgressSend
  | lnkEnable => exact kept_execLnkEnable
  | lnkDisable => exact kept_execLnkDisable
  | lnkModeWrite => exact kept_execLnkModeWrite
  | lnkCtlRetrain => exact kept_execLnkCtlRetrain
  | widthChange => exact kept_execWidthChange
  | helloSend => exact kept_execHelloSend
  | hello p rate loopOk => exact kept_execHello (loopOk := loopOk)
  | rate => exact kept_execRate
  | eqReq => exact kept_execEqReq
  | eqAck p lane pre main post clamped =>
    exact kept_execEqAck (lane := lane) (pre := pre) (main := main) (post := post) (clamped := clamped)
  | eqDone => exact kept_execEqDone
  | locked => exact kept_execLocked
  | retrain => exact kept_execRetrain
  | linkDown => exact kept_execLinkDown
  | sleep => exact kept_execSleep
  | loopReq => exact kept_execLoopReq
  | loopAck p done => exact kept_execLoopAck (done := done)
  | mlInvalidMessage => exact kept_execMlInvalidMessage
  | trainingTimeout => exact kept_execTrainingTimeout
  | eqCheckPass => exact kept_execEqCheckPass
  | codewordReceive p lane => exact kept_execCodewordReceive (lane := lane)
  | codewordLockGain => exact kept_execCodewordLockGain
  | codewordLockLoss => exact kept_execCodewordLockLoss
  | wakePatternDetect => exact kept_execWakePatternDetect
  | laneInjSingle => exact kept_execLaneInjSingle
  | laneInjBurst => exact kept_execLaneInjBurst
  | laneInjRate => exact kept_execLaneInjRate
  | laneInjStop => exact kept_execLaneInjStop
  | laneCheckerEnable => exact kept_execLaneCheckerEnable
  | checkerLock => exact kept_execCheckerLock
  | checkerLoss => exact kept_execCheckerLoss
  | controlSlotSend => exact kept_execControlSlotSend
  | lcb => exact kept_execLcb
  | nak => exact kept_execNak
  | init => exact kept_execInit
  | resume => exact kept_execResume
  | erroredFrame => exact kept_execErroredFrame
  | partnerRead => exact kept_execPartnerRead
  | partnerWrite => exact kept_execPartnerWrite
  | partnerDoorbellMessage => exact kept_execPartnerDoorbellMessage
  | partnerInterruptMessage => exact kept_execPartnerInterruptMessage
  | partnerUnitMessage => exact kept_execPartnerUnitMessage
  | partnerTunnelledMessage => exact kept_execPartnerTunnelledMessage
  | partnerCompletion => exact kept_execPartnerCompletion
  | partnerLockTransaction => exact kept_execPartnerLockTransaction
  | frameSend => exact kept_execFrameSend
  | replayTimeout => exact kept_execReplayTimeout
  | stallMicrosecond => exact kept_execStallMicrosecond
  | droughtEpochEnd => exact kept_execDroughtEpochEnd
  | leakSnapshot => exact kept_execLeakSnapshot
  | linkDeparture => exact kept_execLinkDeparture
  | graceExpire => exact kept_execGraceExpire
  | llCompletionTimeout => exact kept_execLlCompletionTimeout
  | prefetchExpire => exact kept_execPrefetchExpire
  | farLockOpen => exact kept_execFarLockOpen
  | portResponseArrive => exact kept_execPortResponseArrive
  | interruptRequest => exact kept_execInterruptRequest
  | msixWriteStamp => exact kept_execMsixWriteStamp
  | modIntervalExpire => exact kept_execModIntervalExpire
  | pendingVectorDeliver => exact kept_execPendingVectorDeliver
  | msixTableWrite => exact kept_execMsixTableWrite
  | fVecWrite => exact kept_execFVecWrite
  | fSvcWrite => exact kept_execFSvcWrite
  | svcLvCommit => exact kept_execSvcLvCommit
  | slotCommit => exact kept_execSlotCommit
  | fenceApply => exact kept_execFenceApply
  | fnResetDrainDone => exact kept_execFnResetDrainDone
  | countQuery => exact kept_execCountQuery
  | countAnswer => exact kept_execCountAnswer
  | damagedRequestNotice => exact kept_execDamagedRequestNotice
  | damagedPostedNotice => exact kept_execDamagedPostedNotice
  | violationRecord => exact kept_execViolationRecord
  | postedFaultRecord => exact kept_execPostedFaultRecord
  | traceRecord => exact kept_execTraceRecord
  | scrubRead => exact kept_execScrubRead
  | psScrubRead => exact kept_execPsScrubRead
  | trcMark => exact kept_execTrcMark
  | trcFullClear => exact kept_execTrcFullClear
  | logDataRead => exact kept_execLogDataRead
  | errInjPayloadParity => exact kept_execErrInjPayloadParity
  | errInjHeaderParity => exact kept_execErrInjHeaderParity
  | errInjStampParity => exact kept_execErrInjStampParity
  | errInjStagingSingle => exact kept_execErrInjStagingSingle
  | errInjStagingDouble => exact kept_execErrInjStagingDouble
  | errInjPsSingle => exact kept_execErrInjPsSingle
  | errInjPsDouble => exact kept_execErrInjPsDouble
  | errInjControlCode => exact kept_execErrInjControlCode
  | errInjEcrc => exact kept_execErrInjEcrc
  | maintenanceClaim => exact kept_execMaintenanceClaim
  | idleTimerExpire => exact kept_execIdleTimerExpire
  | domainEntryAbort => exact kept_execDomainEntryAbort
  | domainWakeRequest => exact kept_execDomainWakeRequest
  | powerGood => exact kept_execPowerGood
  | wakePowerTimeout => exact kept_execWakePowerTimeout
  | wakePllLock => exact kept_execWakePllLock
  | wakePllTimeout => exact kept_execWakePllTimeout
  | wakeRetryDelayExpire => exact kept_execWakeRetryDelayExpire
  | pdTimerLead => exact kept_execPdTimerLead
  | wakeSenseTrigger => exact kept_execWakeSenseTrigger
  | deepIdleEnter => exact kept_execDeepIdleEnter
  | domainRetry => exact kept_execDomainRetry
  | domainForceOn => exact kept_execDomainForceOn
  | mgcSrcWrite => exact kept_execMgcSrcWrite
  | clkreqAssert => exact kept_execClkreqAssert
  | bootFuseStage => exact kept_execBootFuseStage
  | bootRomStage => exact kept_execBootRomStage
  | bootReadSlot => exact kept_execBootReadSlot
  | bootVerifySlot => exact kept_execBootVerifySlot
  | bootKeyRecords => exact kept_execBootKeyRecords
  | bootLoad => exact kept_execBootLoad
  | bootStart => exact kept_execBootStart
  | clockLockHoldExpire => exact kept_execClockLockHoldExpire
  | initTimeout => exact kept_execInitTimeout
  | bootReady => exact kept_execBootReady
  | bootRecovery => exact kept_execBootRecovery
  | commitOwnerCount => exact kept_execCommitOwnerCount
  | commitVendorCount => exact kept_execCommitVendorCount
  | flashErase => exact kept_execFlashErase
  | flashWr => exact kept_execFlashWr
  | flashOpComplete => exact kept_execFlashOpComplete
  | doeDiscovery => exact kept_execDoeDiscovery
  | getVersion => exact kept_execGetVersion
  | getCapabilities => exact kept_execGetCapabilities
  | negotiateAlgorithms => exact kept_execNegotiateAlgorithms
  | getDigests => exact kept_execGetDigests
  | getCertificate => exact kept_execGetCertificate
  | challenge => exact kept_execChallenge
  | getMeasurements => exact kept_execGetMeasurements
  | spdmUnsupportedRequest => exact kept_execSpdmUnsupportedRequest
  | spdmSignComplete => exact kept_execSpdmSignComplete
  | doeAbort => exact kept_execDoeAbort
  | thermUpdate => exact kept_execThermUpdate
  | thermtripAssert => exact kept_execThermtripAssert
  | lrefclkLoss => exact kept_execLrefclkLoss
  | mgmtMessageCrcError => exact kept_execMgmtMessageCrcError
  | undefinedTtFrame => exact kept_execUndefinedTtFrame
  | domainIsolation => exact kept_execDomainIsolation
  | partnerSleepTimeout => exact kept_execPartnerSleepTimeout
  | mgcPllLock => exact kept_execMgcPllLock
  | pllLockDrop => exact kept_execPllLockDrop

theorem keptButPor_exec {c : Instr} {s t : State} (h : exec c s = .next t) : KeptButPor s t := by
  cases hmoves : movesReset c with
  | false => exact (keptBy_exec hmoves t h).butPor
  | true => exact keptButPor_of_movesReset hmoves h

/-! ## Steps -/

theorem step_nil {s : State} (h : s.pending = []) : step s = .next (tick s) := by
  rw [step, h]

theorem step_cons {s : State} {c : Instr} {rest : List Instr} (h : s.pending = c :: rest) :
    step s = exec c { s with pending := rest } := by
  rw [step, h]

/-- A step is one tick, or the command at the front of the queue. -/
theorem step_cases {s t : State} (h : step s = .next t) :
    (s.pending = [] ∧ t = tick s) ∨ ∃ c rest, s.pending = c :: rest ∧ exec c { s with pending := rest } = .next t := by
  cases hq : s.pending with
  | nil =>
    rw [step_nil hq] at h
    cases h
    exact .inl ⟨rfl, rfl⟩
  | cons c rest => exact .inr ⟨c, rest, rfl, (step_cons hq).symm.trans h⟩

theorem tick_of_inPor {s : State} (h : s.inPor = true) : tick s = s := if_pos h

theorem tick_of_up {s : State} (h : s.inPor = false) : tick s = { s with tb := { s.tb with
    count := (s.tb.count + 1) % 2 ^ 64
    slewAcc := s.tb.slewAcc + signedOf 16 (s.fget F.tbSlewSlew 0) } } := if_neg (by simp [h])

/-- A step keeps the canonical forms and the fuses. -/
theorem step_keeps {s t : State} (h : step s = .next t) :
    (Memory.wf s.mem = true → Memory.wf t.mem = true) ∧ (RegFile.wf s.reg = true → RegFile.wf t.reg = true)
      ∧ fusesKept s.boot t.boot := by
  obtain ⟨-, rfl⟩ | ⟨c, rest, -, hexec⟩ := step_cases h
  · exact ⟨kept_tick.mem, kept_tick.reg, kept_tick.fuses⟩
  · have hkept := keptButPor_exec hexec
    exact ⟨hkept.mem, hkept.reg, hkept.fuses⟩

end Sys2Proof.Machine

open Sys2Proof Sys2Proof.Machine

/-- Settles O4: each command keeps the canonical forms, and so does a tick. -/
theorem stepKeepsCanonicalForm : Obligations.StepKeepsCanonicalForm := by
  unfold Obligations.StepKeepsCanonicalForm
  intro s t hwf hstep
  obtain ⟨hmem, hreg, -⟩ := step_keeps hstep
  rw [State.wf, Bool.and_eq_true] at hwf ⊢
  exact hwf.imp hmem hreg

/-- Settles O5: each command keeps the fuses (R464, R465), and so does a tick. -/
theorem fusesNeverFall : Obligations.FusesNeverFall := by
  unfold Obligations.FusesNeverFall
  intro s t hstep
  obtain ⟨-, -, hfuses⟩ := step_keeps hstep
  exact hfuses

/-- Settles O6, by the lemma of each command. -/
theorem execLeavesTheQueue : Obligations.ExecLeavesTheQueue := by
  unfold Obligations.ExecLeavesTheQueue
  intro c s t hexec
  have hkept := keptButPor_exec hexec
  exact ⟨hkept.pending, hkept.free, hkept.out⟩

/-- Settles O1: the queue is the step's only use of `pending`. -/
theorem stepRunsTheFrontCommand : Obligations.StepRunsTheFrontCommand := by
  unfold Obligations.StepRunsTheFrontCommand
  exact fun c rest s => step_cons rfl

/-- Settles O2: an empty queue ticks (log 2), in power-on reset without effect. -/
theorem emptyQueueTicks : Obligations.EmptyQueueTicks := by
  unfold Obligations.EmptyQueueTicks
  refine fun s hq => ⟨fun hpor => ?inReset, fun hup => ?up⟩
  case inReset => rw [step_nil hq, tick_of_inPor hpor]
  case up => rw [step_nil hq, tick_of_up hup]

/-- Settles O3: every part of the reset state lists nothing. -/
theorem resetIsWellFormed : Obligations.ResetIsWellFormed := by
  unfold Obligations.ResetIsWellFormed
  exact ⟨rfl, rfl, rfl, fun _ => rfl, fun _ => rfl, fun _ => rfl⟩
end

section
/-!
PROOF. Power-on reset (R456, R457, R479): what it freezes, what it clears, and the pins that its release samples.
-/
namespace Sys2Proof.Machine

open Sys2Proof.Claims

/-- Of the rows that act in power-on reset there are four. -/
theorem movesReset_eq_false {c : Instr} (hassert : c ≠ .porstNAssert) (hdeassert : ∀ a b, c ≠ .porstNDeassert a b)
    (hfall : c ≠ .vauxBelowThreshold) (hrise : c ≠ .vauxAboveThreshold) : movesReset c = false := by
  cases c with
  | porstNAssert => exact absurd rfl hassert
  | porstNDeassert a b => exact absurd rfl (hdeassert a b)
  | vauxBelowThreshold => exact absurd rfl hfall
  | vauxAboveThreshold => exact absurd rfl hrise
  | _ => rfl

/-- With no flash operation running a reset tears no slot. -/
theorem cutFlash_of_idle {s : State} (h : s.boot.cmd = none) : cutFlash s = s := by
  rw [cutFlash, h]

/-- Each host port keeps the level of its PERST pin and nothing else. -/
theorem hpi_powerOn {por : PorGrp} {s : State} {k : Nat} (h : s.boot.cmd = none) (hk : k < 2) :
    (powerOn por s).hpi k = { perst := (s.hpi k).perst } := by
  rw [powerOn, cutFlash_of_idle h]
  match k, hk with
  | 0, _ => rw [State.hpi_setHpi_of_ne _ _ _ _ (by decide), State.hpi_setHpi]
  | 1, _ => rw [State.hpi_setHpi]

theorem clearedByReset_powerOn {por : PorGrp} {s : State} (h : s.boot.cmd = none) :
    clearedByReset s (powerOn por s) := by
  refine ⟨rfl, rfl, rfl, rfl, rfl, rfl, rfl, rfl, rfl, rfl, rfl, rfl, rfl, rfl, rfl, rfl, fun k => hpi_powerOn h, ?_⟩
  rw [powerOn, cutFlash_of_idle h]
  rfl

theorem exec_porstNAssert_of_high {s : State} (h : s.por.porst = false) :
    exec .porstNAssert s = .next (powerOn { s.por with porst := true } s) :=
  congrArg _ (if_neg (by simp [h]))

theorem exec_vauxBelowThreshold_of_high {s : State} (h : s.por.vaux = false) :
    exec .vauxBelowThreshold s = .next (powerOn { s.por with vaux := true } s) :=
  congrArg _ (if_neg (by simp [h]))

/-- The state with the two PERST pins at the given levels (R457). -/
def withPins (a b : Bool) (s : State) : State :=
  (s.setHpi 0 { s.hpi 0 with perst := a }).setHpi 1 { s.hpi 1 with perst := b }

theorem release_of_inPor {s : State} (h : s.inPor = true) : release s = s := if_pos h

/-- While VAUX holds the reset, the release of PORST_N only samples the pins. -/
theorem exec_porstNDeassert_of_vaux {s : State} (a b : Bool) (hporst : s.por.porst = true) (hvaux : s.por.vaux = true) :
    exec (.porstNDeassert a b) s = .next (withPins a b { s with por := { s.por with porst := false } }) := by
  refine congrArg _ ((if_pos hporst).trans (release_of_inPor (inPor_of_vaux ?_)))
  exact hvaux

end Sys2Proof.Machine

open Sys2Proof Sys2Proof.Machine

/-- Settles O8: only the rows of PORST_N and VAUX act in power-on reset (log 3). -/
theorem powerOnResetFreezesTheBlock : Obligations.PowerOnResetFreezesTheBlock := by
  unfold Obligations.PowerOnResetFreezesTheBlock
  exact fun c s hpor hassert hdeassert hfall hrise =>
    exec_of_inPor (movesReset_eq_false hassert hdeassert hfall hrise) hpor

/-- Settles O9: both causes of the reset run the same clearing (R456, R479), and a PORST_N that VAUX outlasts only
samples the pins. -/
theorem powerOnResetClearsAllButFusesAndFlash : Obligations.PowerOnResetClearsAllButFusesAndFlash := by
  unfold Obligations.PowerOnResetClearsAllButFusesAndFlash
  refine ⟨fun s hporst hcmd => ?asserts, fun s hvaux hcmd => ?falls, fun s a b hporst hvaux => ?samples⟩
  case asserts => exact ⟨_, exec_porstNAssert_of_high hporst, por_powerOn _ _, clearedByReset_powerOn hcmd⟩
  case falls => exact ⟨_, exec_vauxBelowThreshold_of_high hvaux, por_powerOn _ _, clearedByReset_powerOn hcmd⟩
  case samples =>
    refine ⟨_, exec_porstNDeassert_of_vaux a b hporst hvaux, ?_, ?_, ?_, rfl, rfl, rfl, rfl⟩
    · simp [withPins, hvaux]
    · rw [withPins, State.hpi_setHpi_of_ne _ _ _ _ (by decide), State.hpi_setHpi]
    · rw [withPins, State.hpi_setHpi]
end

section
/-!
PROOF. Soref words (Tables 7-1 to 7-7): each format's fields read back from the word they make up, so that decoding and
encoding are inverse.
-/
namespace Sys2Proof.Machine

/-! ## Registers and reserved encodings -/

@[simp] theorem regNo_val (r : Fin 32) : regNo r.val = r := Fin.ofNat_val_eq_self r

theorem val_regNo {n : Nat} (h : n < 32) : (regNo n).val = n := Nat.mod_eq_of_lt h

@[simp] theorem need_true (i : Soref) : need true i = some i := rfl

@[simp] theorem need_eq_some {c : Bool} {i j : Soref} : need c i = some j ↔ c = true ∧ i = j := by
  cases c <;> simp [need]

theorem toNat_ofNat_of_lt {w n : Nat} (h : n < 2 ^ w) : (BitVec.ofNat w n).toNat = n := by
  rw [BitVec.toNat_ofNat, Nat.mod_eq_of_lt h]

/-! ## The fields of a word -/

/-- A word of formats I, L, M and S has its five fields. -/
theorem fields_wordI {maj minor rd ra low : Nat} (hmaj : maj < 32) (hminor : minor < 32) (hd : rd < 32) (ha : ra < 32)
    (hlow : low < 4096) :
    wordI maj minor rd ra low < 2 ^ 32 ∧ wordI maj minor rd ra low / 2 ^ 27 % 32 = maj
      ∧ wordI maj minor rd ra low / 2 ^ 22 % 32 = rd ∧ wordI maj minor rd ra low / 2 ^ 17 % 32 = ra
      ∧ wordI maj minor rd ra low / 2 ^ 12 % 32 = minor ∧ wordI maj minor rd ra low % 2 ^ 12 = low := by
  unfold wordI
  omega

/-- A word of format A is one of format I with RB in place of MINOR and MINOR above four zeros. -/
theorem wordA_eq_wordI (maj minor rd ra rb : Nat) : wordA maj minor rd ra rb = wordI maj rb rd ra (minor * 16) := rfl

theorem fields_wordB {cond minor off : Nat} (hc : cond < 16) (hminor : minor < 8) (hoff : off < 2 ^ 20) :
    wordB cond minor off < 2 ^ 32 ∧ wordB cond minor off / 2 ^ 27 % 32 = 7 ∧ wordB cond minor off / 2 ^ 23 % 16 = cond
      ∧ wordB cond minor off / 2 ^ 20 % 8 = minor ∧ wordB cond minor off % 2 ^ 20 = off := by
  unfold wordB
  omega

/-- Every word is made of its fields. -/
theorem wordI_fields {w : Nat} (h : w < 2 ^ 32) :
    wordI (w / 2 ^ 27 % 32) (w / 2 ^ 12 % 32) (w / 2 ^ 22 % 32) (w / 2 ^ 17 % 32) (w % 2 ^ 12) = w := by
  unfold wordI
  omega

theorem wordA_fields {w : Nat} (h : w < 2 ^ 32) (hzero : w % 2 ^ 12 % 16 = 0) :
    wordA (w / 2 ^ 27 % 32) (w % 2 ^ 12 / 16) (w / 2 ^ 22 % 32) (w / 2 ^ 17 % 32) (w / 2 ^ 12 % 32) = w := by
  unfold wordA
  omega

theorem wordB_fields {w : Nat} (h : w < 2 ^ 32) (hmaj : w / 2 ^ 27 % 32 = 7) :
    wordB (w / 2 ^ 23 % 16) (w / 2 ^ 20 % 8) (w % 2 ^ 20) = w := by
  unfold wordB
  omega

/-! ## Each format decodes -/

/-- The word is not of format L and is `i` whatever follows it. -/
def spells (w : Nat) (i : Soref) : Prop := w < 2 ^ 32 ∧ isLong w = false ∧ ∀ w2, decodeSoref w w2 = some i

/-- The two words are of format L and spell `i`. -/
def spellsLong (w w2 : Nat) (i : Soref) : Prop :=
  w < 2 ^ 32 ∧ w2 < 2 ^ 32 ∧ isLong w = true ∧ decodeSoref w w2 = some i

/-- MAJ of formats I and S. -/
def majI : List Nat := [2, 4, 5, 9]
/-- MAJ of format M. -/
def majM : List Nat := [16, 17, 18, 19, 20, 21, 22]
/-- MAJ of format A. -/
def majA : List Nat := [1, 6, 8, 10]

theorem bounds_majI : ∀ maj ∈ majI, maj < 32 ∧ (maj == 3) = false := by decide
theorem bounds_majM : ∀ maj ∈ majM, maj < 32 ∧ (maj == 3) = false := by decide
theorem bounds_majA : ∀ maj ∈ majA, maj < 32 ∧ (maj == 3) = false := by decide

section
variable {maj minor rd ra rb low : Nat} {i : Soref} (hd : rd < 32) (ha : ra < 32)
include hd ha

theorem spells_wordI (hmaj : maj ∈ majI) (hminor : minor < 32) (hlow : low < 4096)
    (h : decodeI maj minor rd ra low = some i) : spells (wordI maj minor rd ra low) i := by
  obtain ⟨hlt, hshort⟩ := bounds_majI maj hmaj
  obtain ⟨hw, hm, hrd, hra, hmid, hl⟩ := fields_wordI hlt hminor hd ha hlow
  refine ⟨hw, by rw [isLong, hm, hshort], fun w2 => ?_⟩
  simp only [decodeSoref, hm, hrd, hra, hmid, hl]
  fin_cases hmaj <;> exact h

theorem spells_wordM (hmaj : maj ∈ majM) (hminor : minor < 32) (hlow : low < 4096)
    (h : decodeM maj minor rd ra low = some i) : spells (wordI maj minor rd ra low) i := by
  obtain ⟨hlt, hshort⟩ := bounds_majM maj hmaj
  obtain ⟨hw, hm, hrd, hra, hmid, hl⟩ := fields_wordI hlt hminor hd ha hlow
  refine ⟨hw, by rw [isLong, hm, hshort], fun w2 => ?_⟩
  simp only [decodeSoref, hm, hrd, hra, hmid, hl]
  fin_cases hmaj <;> exact h

theorem spells_wordA (hmaj : maj ∈ majA) (hminor : minor < 256) (hb : rb < 32)
    (h : decodeA maj minor rd ra rb = some i) : spells (wordA maj minor rd ra rb) i := by
  obtain ⟨hlt, hshort⟩ := bounds_majA maj hmaj
  obtain ⟨hw, hm, hrd, hra, hmid, hl⟩ := fields_wordI hlt hb hd ha (low := minor * 16) (by omega)
  rw [wordA_eq_wordI]
  refine ⟨hw, by rw [isLong, hm, hshort], fun w2 => ?_⟩
  have hzero : minor * 16 % 16 = 0 := by omega
  have hquot : minor * 16 / 16 = minor := by omega
  simp only [decodeSoref, hm, hrd, hra, hmid, hl, hzero, hquot]
  fin_cases hmaj <;> exact h

theorem spellsLong_wordL {w2 : Nat} (hminor : minor < 32) (hlow : low < 4096) (hw2 : w2 < 2 ^ 32)
    (h : decodeL minor rd ra low w2 = some i) : spellsLong (wordI 3 minor rd ra low) w2 i := by
  obtain ⟨hw, hm, hrd, hra, hmid, hl⟩ := fields_wordI (maj := 3) (by decide) hminor hd ha hlow
  refine ⟨hw, hw2, by rw [isLong, hm]; rfl, ?_⟩
  simp only [decodeSoref, hm, hrd, hra, hmid, hl]
  exact h

end

theorem spells_wordB {cond minor off : Nat} {i : Soref} (hc : cond < 16) (hminor : minor < 8) (hoff : off < 2 ^ 20)
    (h : decodeB cond minor off = some i) : spells (wordB cond minor off) i := by
  obtain ⟨hw, hm, hcond, hmin, ho⟩ := fields_wordB hc hminor hoff
  refine ⟨hw, by rw [isLong, hm]; rfl, fun w2 => ?_⟩
  simp only [decodeSoref, hm, hcond, hmin, ho]
  exact h

/-! ## The codes of widths, spaces and conditions -/

@[simp] theorem ldWidth_ldCode (width : LdWidth) : ldWidth (ldCode width) = some width := by cases width <;> rfl
@[simp] theorem stWidth_stCode (width : StWidth) : stWidth (stCode width) = some width := by cases width <;> rfl
@[simp] theorem condOf_condCode (c : Cond) : condOf (condCode c) = some c := by cases c <;> rfl

theorem ldCode_lt (width : LdWidth) : ldCode width < 8 := by cases width <;> decide
theorem stCode_lt (width : StWidth) : stCode width < 8 := by cases width <;> decide
theorem condCode_lt (c : Cond) : condCode c < 16 := by cases c <;> decide
theorem lockArg_lt (width : LockWidth) (sp : LockSpace) : lockArg width sp < 4096 := by cases width <;> cases sp <;> decide

/-- ARG of LOCK and UNLOCK gives its space, its width and eight zeros (R171). -/
theorem fields_lockArg (width : LockWidth) (sp : LockSpace) : lockSpace (lockArg width sp / 1024) = some sp
    ∧ lockWidth (lockArg width sp / 256 % 4) = some width ∧ lockArg width sp % 256 = 0 := by
  cases width <;> cases sp <;> decide

/-! ## Each instruction decodes -/

/-- The instructions of format L (R159). -/
def Soref.long : Soref → Bool
  | .li .. | .addl .. | .orh .. | .cmpl .. => true
  | _ => false

theorem long_iff (i : Soref) : i.long = true ↔ (∃ d v, i = .li d v) ∨ (∃ d a v, i = .addl d a v) ∨
    (∃ d a v, i = .orh d a v) ∨ ∃ a v, i = .cmpl a v := by
  cases i <;> simp [Soref.long]

/-- The 44 bits of a long immediate from its two parts. -/
theorem ofNat_halves (v : BitVec 44) : BitVec.ofNat 44 (v.toNat / 2 ^ 32 * 2 ^ 32 + v.toNat % 2 ^ 32) = v := by
  rw [Nat.div_add_mod', BitVec.ofNat_toNat, BitVec.setWidth_eq]

theorem spellsLong_encode {i : Soref} (h : i.long = true) : spellsLong (encodeSoref i).1 (encodeSoref i).2 i := by
  cases i with
  | li | addl | cmpl =>
    refine spellsLong_wordL (by omega) (by omega) (by omega) (by omega) (Nat.mod_lt _ (by decide)) ?_
    simp only [decodeL, encodeSoref, ofNat_halves, regNo_val, beq_self_eq_true, need_true]
  | orh _ _ imm =>
    refine spellsLong_wordL (by omega) (by omega) (by omega) (by omega) imm.isLt ?_
    simp [decodeL, encodeSoref]
  | _ => cases h

theorem encodeSoref_snd_of_short {i : Soref} (h : i.long = false) : (encodeSoref i).2 = 0 := by
  cases i with
  | li | addl | orh | cmpl => cases h
  | _ => rfl

theorem spells_encode {i : Soref} (h : i.long = false) (hwf : i.wf = true) : spells (encodeSoref i).1 i := by
  cases i with
  | li | addl | orh | cmpl => cases h
  | add | sub | and | or | xor | andn | sll | srl | sra | mul | mulhu | cmp | tst | clz | jr | callr | ret | nop | wait
  | end_ | tdiff | tcmp =>
    refine spells_wordA (by omega) (by omega) (by decide) (by omega) (by omega) ?_
    unfold decodeA
    simp
  | fadd d | swp d | cas d =>
    cases d <;>
    · refine spells_wordA (by omega) (by omega) (by decide) (by decide) (by omega) ?_
      unfold decodeA
      simp
  | addi | andi | ori | xori | cmpi | tsti | srd | swr | sbis | sbic =>
    exact spells_wordI (by omega) (by omega) (by decide) (by omega) (by omega) (by simp [decodeI])
  | slli _ _ n | srli _ _ n | srai _ _ n =>
    have hfits : n.toNat / 64 = 0 := by omega
    exact spells_wordI (by omega) (by omega) (by decide) (by omega) (by omega) (by simp [decodeI, hfits])
  | ldx width | ldg width | ldc width =>
    have := ldCode_lt width
    refine spells_wordI (by omega) (by omega) (by decide) (by omega) (by omega) ?_
    cases width <;> simp [decodeI, ldWidth, ldCode]
  | stx width | stg width | stc width =>
    have := stCode_lt width
    refine spells_wordI (by omega) (by omega) (by decide) (by omega) (by omega) ?_
    cases width <;> simp [decodeI, stWidth, stCode]
  | bCc c | callCc c =>
    exact spells_wordB (condCode_lt c) (by omega) (by omega) (by simp [decodeB])
  | xlt _ _ xu =>
    have hfits : xu.val / 4 = 0 := by omega
    refine spells_wordM (by omega) (by omega) (by decide) (by omega) (by omega) ?_
    unfold decodeM
    simp [hfits]
  | move | ctxack | xltDrain | fmark | fenceP | acq | rel | acqr | relr | umsg | raise | raiser =>
    refine spells_wordM (by omega) (by omega) (by decide) (by omega) (by omega) ?_
    unfold decodeM
    simp <;> omega
  | lock width sp | unlock width sp =>
    obtain ⟨hspace, hwidth, hzero⟩ := fields_lockArg width sp
    refine spells_wordM (by omega) (by omega) (by decide) (by omega) (lockArg_lt width sp) ?_
    unfold decodeM
    simpa [Soref.wf, hspace, hwidth, hzero] using hwf

/-! ## Each decoding is of an encoded word -/

/-- The instruction is well-formed and its first word is `w`. -/
def encodesTo (i : Soref) (w : Nat) : Prop := i.wf = true ∧ (encodeSoref i).1 = w

/-! The code of each MAJ and MINOR has one instruction at most, whose fields are those of the word. -/

theorem ldCode_of_ldWidth {n : Nat} {width : LdWidth} (h : ldWidth n = some width) : ldCode width = n := by
  unfold ldWidth at h
  split at h <;> cases h <;> rfl

theorem stCode_of_stWidth {n : Nat} {width : StWidth} (h : stWidth n = some width) : stCode width = n := by
  unfold stWidth at h
  split at h <;> cases h <;> rfl

theorem condCode_of_condOf {n : Nat} {c : Cond} (h : condOf n = some c) : condCode c = n := by
  unfold condOf at h
  split at h <;> cases h <;> rfl

theorem lockSpCode_of_lockSpace {n : Nat} {sp : LockSpace} (h : lockSpace n = some sp) : lockSpCode sp = n := by
  unfold lockSpace at h
  split at h <;> cases h <;> rfl

theorem lockWCode_of_lockWidth {n : Nat} {width : LockWidth} (h : lockWidth n = some width) : lockWCode width = n := by
  unfold lockWidth at h
  split at h <;> cases h <;> rfl

section
variable {maj minor rd ra rb low : Nat} {i : Soref} (hd : rd < 32) (ha : ra < 32)
include hd ha

theorem encodesTo_of_decodeA (hmaj : maj ∈ majA) (hb : rb < 32) (h : decodeA maj minor rd ra rb = some i) :
    encodesTo i (wordA maj minor rd ra rb) := by
  unfold decodeA at h
  fin_cases hmaj <;> simp at h
  all_goals
    split at h
    all_goals simp at h
    all_goals grind [encodesTo, Soref.wf, encodeSoref, val_regNo]

theorem encodesTo_of_decodeI (hmaj : maj ∈ majI) (hlow : low < 4096) (h : decodeI maj minor rd ra low = some i) :
    encodesTo i (wordI maj minor rd ra low) := by
  unfold decodeI at h
  have himm : low % 4096 = low := Nat.mod_eq_of_lt hlow
  fin_cases hmaj <;> simp at h
  · split at h <;> simp at h
    all_goals grind [encodesTo, Soref.wf, encodeSoref, val_regNo]
  · split at h
    · cases h
    next width hwidth =>
      have := ldCode_of_ldWidth hwidth
      split at h <;> simp at h
      all_goals grind [encodesTo, Soref.wf, encodeSoref, val_regNo]
  · split at h
    · cases h
    next width hwidth =>
      have := stCode_of_stWidth hwidth
      split at h <;> simp at h
      all_goals grind [encodesTo, Soref.wf, encodeSoref, val_regNo]
  · obtain ⟨hzero, h⟩ := h
    split at h <;> simp at h
    all_goals grind [encodesTo, Soref.wf, encodeSoref, val_regNo]

theorem encodesTo_of_decodeM (hmaj : maj ∈ majM) (hlow : low < 4096) (h : decodeM maj minor rd ra low = some i) :
    encodesTo i (wordI maj minor rd ra low) := by
  unfold decodeM at h
  have himm : low % 4096 = low := Nat.mod_eq_of_lt hlow
  have hxu : low < 4 → (Fin.ofNat 4 low).val = low := Nat.mod_eq_of_lt
  by_cases hlock : maj = 19
  case pos =>
    subst hlock
    simp at h
    split at h
    next sp width hspace hwidth =>
      have hsp := lockSpCode_of_lockSpace hspace
      have hw := lockWCode_of_lockWidth hwidth
      split at h <;> simp at h
      all_goals grind [encodesTo, Soref.wf, encodeSoref, val_regNo, lockArg]
    · cases h
  case neg =>
    fin_cases hmaj <;> simp [-Fin.ofNat_eq_cast] at h hlock
    all_goals
      split at h
      all_goals simp [-Fin.ofNat_eq_cast] at h
      all_goals grind [encodesTo, Soref.wf, encodeSoref, val_regNo]

theorem encodesTo_of_decodeL {w2 : Nat} (hlow : low < 4096) (hw2 : w2 < 2 ^ 32)
    (h : decodeL minor rd ra low w2 = some i) :
    encodesTo i (wordI 3 minor rd ra low) ∧ (encodeSoref i).2 = w2 := by
  have himm : (BitVec.ofNat 44 (low * 2 ^ 32 + w2)).toNat = low * 2 ^ 32 + w2 :=
    toNat_ofNat_of_lt (by omega)
  have himml : (BitVec.ofNat 32 w2).toNat = w2 := toNat_ofNat_of_lt hw2
  unfold decodeL at h
  split at h <;> simp at h
  all_goals grind [encodesTo, Soref.wf, encodeSoref, val_regNo]

end

theorem encodesTo_of_decodeB {cond minor off : Nat} {i : Soref} (hoff : off < 2 ^ 20)
    (h : decodeB cond minor off = some i) : encodesTo i (wordB cond minor off) := by
  have hval : (BitVec.ofNat 20 off).toNat = off := toNat_ofNat_of_lt hoff
  unfold decodeB at h
  split at h
  · cases h
  next c hc =>
    have := condCode_of_condOf hc
    split at h <;> simp at h
    all_goals grind [encodesTo, Soref.wf, encodeSoref]

theorem not_isLong {w maj : Nat} (hmaj : w / 2 ^ 27 % 32 = maj) (hshort : (maj == 3) = false) : isLong w = false := by
  rw [isLong, hmaj, hshort]

/-- The word of every decoding is the encoding of what it decodes to, and so is the second word in format L. -/
theorem encodesTo_of_decodeSoref {w w2 : Nat} {i : Soref} (hw : w < 2 ^ 32) (hw2 : w2 < 2 ^ 32)
    (h : decodeSoref w w2 = some i) : encodesTo i w ∧ (isLong w = true → (encodeSoref i).2 = w2) := by
  have hd : w / 2 ^ 22 % 32 < 32 := Nat.mod_lt _ (by decide)
  have ha : w / 2 ^ 17 % 32 < 32 := Nat.mod_lt _ (by decide)
  have hb : w / 2 ^ 12 % 32 < 32 := Nat.mod_lt _ (by decide)
  have hlow : w % 2 ^ 12 < 4096 := Nat.mod_lt _ (by decide)
  have hI := wordI_fields hw
  unfold decodeSoref at h
  dsimp only at h
  split at h
  case h_3 hmaj =>
    obtain ⟨hfirst, hsecond⟩ := encodesTo_of_decodeL hd ha hlow hw2 h
    rw [hmaj] at hI
    exact ⟨hI ▸ hfirst, fun _ => hsecond⟩
  case h_7 hmaj =>
    have hfirst := encodesTo_of_decodeB (Nat.mod_lt _ (by decide)) h
    rw [wordB_fields hw hmaj] at hfirst
    exact ⟨hfirst, by simp [not_isLong hmaj rfl]⟩
  case h_1 hmaj | h_6 hmaj | h_8 hmaj | h_10 hmaj =>
    split at h
    next hzero =>
      have hA := wordA_fields hw hzero
      rw [hmaj] at hA
      exact ⟨hA ▸ encodesTo_of_decodeA hd ha (by decide) hb h, by simp [not_isLong hmaj rfl]⟩
    · cases h
  case h_2 hmaj | h_4 hmaj | h_5 hmaj | h_9 hmaj =>
    rw [hmaj] at hI
    exact ⟨hI ▸ encodesTo_of_decodeI hd ha (by decide) hlow h, by simp [not_isLong hmaj rfl]⟩
  case h_11 hmaj | h_12 hmaj | h_13 hmaj | h_14 hmaj | h_15 hmaj | h_16 hmaj | h_17 hmaj =>
    rw [hmaj] at hI
    exact ⟨hI ▸ encodesTo_of_decodeM hd ha (by decide) hlow h, by simp [not_isLong hmaj rfl]⟩
  case h_18 => cases h

end Sys2Proof.Machine

open Sys2Proof Sys2Proof.Machine

/-- Settles O58, format by format: the fields of the word that an instruction encodes to are its own. -/
theorem sorefWordsDecodeBack : Obligations.SorefWordsDecodeBack := by
  unfold Obligations.SorefWordsDecodeBack
  intro i hwf
  rw [← long_iff]
  cases hlong : i.long with
  | true =>
    obtain ⟨hw, hw2, hform, hdecode⟩ := spellsLong_encode hlong
    exact ⟨hw, hw2, hdecode, by simp [hform], by simp [hform]⟩
  | false =>
    obtain ⟨hw, hform, hdecode⟩ := spells_encode hlong hwf
    exact ⟨hw, by simp [encodeSoref_snd_of_short hlong], hdecode _, fun _ => hdecode, by simp [hform]⟩

/-- Settles O59, format by format: a word that decodes has no field but those of its instruction. -/
theorem sorefReservedWordsDoNotDecode : Obligations.SorefReservedWordsDoNotDecode := by
  unfold Obligations.SorefReservedWordsDoNotDecode
  intro w w2 i hw hw2 hdecode
  obtain ⟨⟨hwf, hfirst⟩, hsecond⟩ := encodesTo_of_decodeSoref hw hw2 hdecode
  exact ⟨hwf, hfirst, hsecond⟩

/-- Settles O60, by evaluating the decoder on the words written out. -/
theorem sorefWordsWrittenOut : Obligations.SorefWordsWrittenOut := by
  unfold Obligations.SorefWordsWrittenOut
  decide
end

section
/-!
PROOF. The instructions of arithmetic, logic, shifts, time and control transfer (R181 to R188, R200, R201): the state in
which each completes, and its results and flags as numbers.
-/
namespace Sys2Proof.Machine

open Sys2Proof.Claims

/-! ## General registers -/

@[simp] theorem eng_setGr (e r e' : Nat) (v : Word) (s : State) : (setGr e r v s).eng e' = s.eng e' := by
  unfold setGr
  split <;> rfl

theorem gr_setGr (e d r : Nat) (v : Word) (s : State) :
    (setGr e d v s).gr e r = if r = d ∧ r ≠ 0 then v else s.gr e r := by
  by_cases hr : r = 0
  · simp [hr, State.gr]
  · by_cases hd : r = d
    · subst hd
      simp [hr, State.gr, setGr]
    · have hkey : 32 * e + r ≠ 32 * e + d := by omega
      by_cases hz : d = 0 <;> simp [hr, hd, hz, State.gr, setGr, State.greg_setGreg_of_ne _ _ _ _ hkey]

theorem gr_of_gregs {s t : State} (h : t.pcl.gregs = s.pcl.gregs) (e r : Nat) : t.gr e r = s.gr e r := by
  simp only [State.gr, State.greg, h]

@[simp] theorem gr_fetched (s : State) (e e' r : Nat) : (fetched s e).gr e' r = s.gr e' r :=
  gr_of_gregs (by rw [pcl_fetched]) e' r

@[simp] theorem gr_setEng (s : State) (e e' r : Nat) (x : Eng) : (s.setEng e x).gr e' r = s.gr e' r := rfl

theorem onlyEngine_setGr {u t : State} {e r : Nat} (h : onlyEngine u t e) (hr : r < 32) (v : Word) :
    onlyEngine u (setGr e r v t) e := by
  unfold setGr
  split
  · exact h
  · obtain ⟨hrest, hclus, hctxs, heng, hgreg⟩ := h
    exact ⟨hrest, hclus, hctxs, heng, fun k hk =>
      (State.greg_setGreg_of_ne _ _ _ _ (by omega)).trans (hgreg k hk)⟩

/-! ## The state in which an instruction completes -/

/-- What has changed nothing but engine e, and has it in state `x` without a stall or a cut, completes as `x`. -/
theorem completed_of_onlyEngine {s t : State} {e : Nat} {x : Eng} (npc : Nat) (honly : onlyEngine (fetched s e) t e)
    (heng : t.eng e = x) (hstall : x.stall = .none) (hcut : x.cutPend = none) :
    completed s (finishAt e npc t) e npc x := by
  rw [finishAt_of_no_cut npc (by rwa [heng])]
  exact ⟨by simp [heng, ← hstall], onlyEngine_setEng honly _⟩

/-- What has its registers as `setGr` leaves them completes with them so. -/
theorem writes_of_gr {s t : State} {e : Nat} {d : Fin 32} {v : Word} (npc : Nat)
    (hgr : ∀ r, t.gr e r = (setGr e d v (fetched s e)).gr e r) (hcut : (t.eng e).cutPend = none) :
    writes s (finishAt e npc t) e d v := by
  refine ⟨by simp [State.gr], fun r _ => ?_⟩
  rw [finishAt_of_no_cut npc hcut, gr_setEng, hgr, gr_setGr, gr_fetched]

section
variable {c : Instr} {s : State} {e : Fin 64} {i : Soref} {f : Nat → State → State} (h : runs s e i)
  (hexec : exec c s = soref e i f s)
include h hexec

theorem exec_of_runs {t : State} (hf : f e (fetched s e) = t) : exec c s = .next t := by
  rw [hexec, soref_of_runs h, hf]

/-- An instruction that leaves its engine in state `x` and wrote `v` to RD completes so at `npc`. -/
theorem completes_writing {npc : Nat} {rd : Fin 32} {v : Word} {x : Eng} {t : State}
    (hf : f e (fetched s e) = finishAt e npc t) (honly : onlyEngine (fetched s e) t e)
    (hgr : ∀ r, t.gr e r = (setGr e rd v (fetched s e)).gr e r) (heng : t.eng e = x) (hstall : x.stall = .none)
    (hcut : x.cutPend = none) : ∃ u, exec c s = .next u ∧ writes s u e rd v ∧ completed s u e npc x :=
  ⟨_, exec_of_runs h hexec hf, writes_of_gr npc hgr (by rwa [heng]), completed_of_onlyEngine npc honly heng hstall hcut⟩

theorem completes_writing_setFlags {npc : Nat} {rd : Fin 32} {v : Word} {fl : Nat}
    (hf : f e (fetched s e) = finishAt e npc (setFlags e fl (setGr e rd v (fetched s e)))) :
    ∃ u, exec c s = .next u ∧ writes s u e rd v ∧ completed s u e npc { s.eng e with flags := fl } := by
  obtain ⟨-, hready, -, hcut, -⟩ := id h
  refine completes_writing h hexec hf (onlyEngine_setEng (onlyEngine_setGr (onlyEngine_refl _ e) rd.isLt v) _)
    (fun r => gr_setEng ..) ?_ (stall_of_ready hready) hcut
  rw [setFlags, State.eng_setEng, eng_setGr, eng_fetched]

theorem completes_writing_setGr {npc : Nat} {rd : Fin 32} {v : Word}
    (hf : f e (fetched s e) = finishAt e npc (setGr e rd v (fetched s e))) :
    ∃ u, exec c s = .next u ∧ writes s u e rd v ∧ completed s u e npc (s.eng e) := by
  obtain ⟨-, hready, -, hcut, -⟩ := id h
  exact completes_writing h hexec hf (onlyEngine_setGr (onlyEngine_refl _ e) rd.isLt v) (fun r => rfl)
    (by rw [eng_setGr, eng_fetched]) (stall_of_ready hready) hcut

theorem gives_of_resultF {rd : Fin 32} {v : Word} {fl : Nat}
    (hf : f e (fetched s e) = resultF rd v fl e (fetched s e)) : gives c s e rd v fl := by
  refine completes_writing_setFlags h hexec (hf.trans ?_)
  rw [resultF, finish, setFlags, State.eng_setEng, eng_setGr, eng_fetched]

theorem goesTo_of_finishAt {npc : Nat} {x : Eng} {t : State} (hf : f e (fetched s e) = finishAt e npc t)
    (honly : onlyEngine (fetched s e) t e) (hgregs : t.pcl.gregs = s.pcl.gregs) (heng : t.eng e = x)
    (hstall : x.stall = .none) (hcut : x.cutPend = none) : goesTo c s e npc x := by
  refine ⟨_, exec_of_runs h hexec hf, keepsRegs_of_gregs e ?_, completed_of_onlyEngine npc honly heng hstall hcut⟩
  rw [gregs_finishAt_of_no_cut _ (by rwa [heng]), hgregs]

theorem goesTo_of_finishAt_fetched {npc : Nat} (hf : f e (fetched s e) = finishAt e npc (fetched s e)) :
    goesTo c s e npc (s.eng e) := by
  obtain ⟨-, hready, -, hcut, -⟩ := id h
  exact goesTo_of_finishAt h hexec hf (onlyEngine_refl _ e) (by rw [pcl_fetched]) (by simp) (stall_of_ready hready) hcut

theorem goesTo_of_finishAt_setEng {npc : Nat} {x : Eng}
    (hf : f e (fetched s e) = finishAt e npc ((fetched s e).setEng e x)) (hstall : x.stall = .none)
    (hcut : x.cutPend = none) : goesTo c s e npc x :=
  goesTo_of_finishAt h hexec hf (onlyEngine_setEng (onlyEngine_refl _ e) x)
    (by rw [State.pcl_gregs_setEng, pcl_fetched]) (State.eng_setEng _ _ _) hstall hcut

theorem givesFlags_of_flagsOnly {fl : Nat} (hf : f e (fetched s e) = flagsOnly fl e (fetched s e)) :
    givesFlags c s e fl := by
  obtain ⟨-, hready, -, hcut, -⟩ := id h
  refine goesTo_of_finishAt_setEng h hexec ?_ (stall_of_ready hready) hcut
  rw [hf, flagsOnly, setFlags, finish_setEng, eng_fetched]

theorem traps_of_raiseFault {code addr info : Nat}
    (hf : f e (fetched s e) = raiseFault e code addr info (fetched s e)) : traps c s e code addr info :=
  exec_of_runs h hexec hf

end

/-! ## Flags (Table 8-1) -/

theorem flagBits_eq (n z c v : Bool) : flagBits n z c v = flagNat n z c v := by
  cases n <;> cases z <;> cases c <;> cases v <;> rfl

theorem flagsOf_eq (r : Word) (c v : Bool) : flagsOf r c v = zn r c v := by
  rw [flagsOf, flagBits_eq, zn, BitVec.msb_eq_toInt, beq_eq_decide]

theorem signedOverflow_add (a b : Word) :
    (a.msb == b.msb && (a + b).msb != a.msb) = !fits (a.toInt + b.toInt) := by
  have ha := a.toInt_lt; have ha' := a.le_toInt; have hb := b.toInt_lt; have hb' := b.le_toInt
  simp only [BitVec.msb_eq_toInt, BitVec.toInt_add, fits, Int.bmod_def]
  grind

theorem signedOverflow_sub (a b : Word) :
    (a.msb != b.msb && (a - b).msb != a.msb) = !fits (a.toInt - b.toInt) := by
  have ha := a.toInt_lt; have ha' := a.le_toInt; have hb := b.toInt_lt; have hb' := b.le_toInt
  simp only [BitVec.msb_eq_toInt, BitVec.toInt_sub, fits, Int.bmod_def]
  grind

theorem flagsAdd_eq (a b : Word) : flagsAdd a b = sumFlags a b := by
  simp only [flagsAdd, flagsOf_eq, signedOverflow_add, zn, sumFlags]

theorem flagsSub_eq (a b : Word) : flagsSub a b = diffFlags a b := by
  have hzero : decide (a - b = 0) = decide (a = b) := by simp only [sub_eq_zero]
  simp only [flagsSub, flagsOf_eq, signedOverflow_sub, zn, diffFlags, hzero]

theorem natBit_eq (x i : Nat) : natBit x i = decide (x / 2 ^ i % 2 = 1) := by rw [natBit, beq_eq_decide]

theorem flagN_eq (f : Nat) : flagN f = decide (f / 8 % 2 = 1) := natBit_eq f 3
theorem flagZ_eq (f : Nat) : flagZ f = decide (f / 4 % 2 = 1) := natBit_eq f 2
theorem flagC_eq (f : Nat) : flagC f = decide (f / 2 % 2 = 1) := natBit_eq f 1
theorem flagV_eq (f : Nat) : flagV f = decide (f % 2 = 1) := by simp [flagV, natBit_eq]

theorem flagC_eq_cOf (s : State) (e : Fin 64) : flagC (s.eng e).flags = cOf s e := flagC_eq _
theorem flagV_eq_vOf (s : State) (e : Fin 64) : flagV (s.eng e).flags = vOf s e := flagV_eq _

theorem condHolds_eq (c : Cond) (s : State) (e : Fin 64) : condHolds c (s.eng e).flags = takes c s e := by
  cases c <;> simp only [condHolds, takes, taken, flagN_eq, flagZ_eq, flagC_eq, flagV_eq]

/-! ## Shifts (R184) -/

theorem shiftLeft_eq_ofNat (a : Word) (n : Nat) : a <<< n = BitVec.ofNat 64 (a.toNat * 2 ^ n) :=
  BitVec.eq_of_toNat_eq (by simp [Nat.shiftLeft_eq])

theorem ushiftRight_eq_ofNat (a : Word) (n : Nat) : a >>> n = BitVec.ofNat 64 (a.toNat / 2 ^ n) := by
  apply BitVec.eq_of_toNat_eq
  rw [BitVec.toNat_ushiftRight, Nat.shiftRight_eq_div_pow, BitVec.toNat_ofNat, Nat.mod_eq_of_lt]
  exact (Nat.div_le_self ..).trans_lt a.isLt

theorem sshiftRight_eq_ofInt (a : Word) (n : Nat) : a.sshiftRight n = BitVec.ofInt 64 (a.toInt / 2 ^ n) := by
  rw [BitVec.sshiftRight, Int.shiftRight_eq_div_pow]
  norm_cast

theorem carrySll_eq (a : Word) (n : Nat) : carrySll a n = outLeft a n := by
  simp [carrySll, outLeft, BitVec.getLsbD, Nat.testBit_eq_decide_div_mod_eq, bne, beq_eq_decide]

theorem carrySrl_eq (a : Word) (n : Nat) : carrySrl a n = outRight a n := by
  simp [carrySrl, outRight, BitVec.getLsbD, Nat.testBit_eq_decide_div_mod_eq, bne, beq_eq_decide]

/-! ## Leading zeros (R185) -/

/-- The zeros above the highest 1 of a number of `n` bits. -/
theorem length_takeWhile_not_testBit {n x : Nat} (hx : x < 2 ^ n) :
    ((List.range n).reverse.takeWhile (fun i => !x.testBit i)).length
      = if x = 0 then n else n - 1 - Nat.log 2 x := by
  induction n with
  | zero => simp_all
  | succ n ih =>
    rw [List.range_succ, List.reverse_append, List.reverse_singleton, List.singleton_append]
    by_cases htop : x.testBit n = true
    · have hlow : 2 ^ n ≤ x := Nat.ge_two_pow_of_testBit htop
      have hlog : Nat.log 2 x = n := Nat.log_eq_of_pow_le_of_lt_pow hlow hx
      have hne : x ≠ 0 := by have := Nat.two_pow_pos n; omega
      simp [htop, hne, hlog]
    · have hlt : x < 2 ^ n := by
        by_contra hge
        exact htop (Nat.testBit_of_two_pow_le_and_two_pow_add_one_gt (by omega) hx)
      have hlog : x ≠ 0 → Nat.log 2 x < n := fun h => Nat.log_lt_of_lt_pow h hlt
      rw [List.takeWhile_cons_of_pos (by simpa using htop), List.length_cons, ih hlt]
      split <;> omega

theorem clzOf_eq (a : Word) : clzOf a = if a = 0 then 64 else 63 - Nat.log 2 a.toNat := by
  have hzero : a = 0 ↔ a.toNat = 0 := by simp [← BitVec.toNat_inj]
  simp only [clzOf, BitVec.getLsbD, length_takeWhile_not_testBit a.isLt, hzero]

/-! ## TIMEs (R200, R201) -/

theorem sext_timeDiff_eq (a b : Word) :
    sext64 48 (timeDiff (timeOf b) (timeOf a)) = BitVec.ofInt 64 (elapsed a b) := by
  rw [sext64]
  congr 1
  simp only [signedOf, timeDiff, timeOf, elapsed, Int.bmod_def]
  omega

theorem timeBefore_timeOf (a b : Word) :
    timeBefore (timeOf a) (timeOf b) = decide (elapsed a b < 0 ∧ elapsed a b ≠ -2 ^ 47) := by
  rw [timeBefore, ← Bool.decide_and, decide_eq_decide]
  simp only [timeDiff, timeOf, elapsed, Int.bmod_def]
  omega

theorem timeOf_beq (a b : Word) : (timeOf a == timeOf b) = decide (elapsed a b = 0) := by
  rw [beq_eq_decide, decide_eq_decide]
  simp only [timeOf, elapsed, Int.bmod_def]
  omega

end Sys2Proof.Machine
end

section
/-!
PROOF. Results and flags of the Soref instructions of chapter 8 that write registers and flags alone, by instruction.
-/
open Sys2Proof Sys2Proof.Machine Sys2Proof.Claims

/-- Settles O10: each is a result or flags alone, with the flags of Table 8-1 for a sum or a difference. -/
theorem addSubCompareResults : Obligations.AddSubCompareResults := by
  unfold Obligations.AddSubCompareResults
  intro s e rd ra rb imm
  refine ⟨fun h => ?add, fun h => ?sub, fun h => ?addi, fun h => ?cmp, fun h => ?cmpi⟩
  case add => exact gives_of_resultF h rfl (by simp only [reg2, addOp, gr_fetched, flagsAdd_eq])
  case sub => exact gives_of_resultF h rfl (by simp only [reg2, subOp, gr_fetched, flagsSub_eq])
  case addi => exact gives_of_resultF h rfl (by simp only [reg1, addOp, immS, gr_fetched, flagsAdd_eq])
  case cmp => exact givesFlags_of_flagsOnly h rfl (by simp only [reg2, gr_fetched, flagsSub_eq])
  case cmpi => exact givesFlags_of_flagsOnly h rfl (by simp only [reg1, immS, gr_fetched, flagsSub_eq])

/-- Settles O11: each is a logic result, or its flags alone. -/
theorem logicResults : Obligations.LogicResults := by
  unfold Obligations.LogicResults
  intro s e rd ra rb imm
  refine ⟨fun h => ?and, fun h => ?or, fun h => ?xor, fun h => ?andn, fun h => ?andi, fun h => ?ori, fun h => ?xori,
    fun h => ?tst, fun h => ?tsti⟩
  case and | or | xor | andn =>
    exact gives_of_resultF h rfl (by simp only [reg2, logicOp, flagsLogic, gr_fetched, flagsOf_eq])
  case andi | ori | xori =>
    exact gives_of_resultF h rfl (by simp only [reg1, logicOp, immZ, flagsLogic, gr_fetched, flagsOf_eq])
  case tst => exact givesFlags_of_flagsOnly h rfl (by simp only [reg2, flagsLogic, gr_fetched, flagsOf_eq])
  case tsti => exact givesFlags_of_flagsOnly h rfl (by simp only [reg1, immZ, flagsLogic, gr_fetched, flagsOf_eq])

namespace Sys2Proof.Machine

/-! ## The effects of shifts as numbers -/

section
variable (s : State) (e : Fin 64) (rd : Fin 32) (a : Word) (n : Nat)

theorem sllOp_eq : sllOp rd a n e (fetched s e) = resultF rd (BitVec.ofNat 64 (a.toNat * 2 ^ n))
    (zn (BitVec.ofNat 64 (a.toNat * 2 ^ n)) (outLeft a n) (vOf s e)) e (fetched s e) := by
  simp only [sllOp, flagsShift, flagsOf_eq, State.fl, eng_fetched, flagV_eq_vOf, carrySll_eq, shiftLeft_eq_ofNat]

theorem srlOp_eq : srlOp rd a n e (fetched s e) = resultF rd (BitVec.ofNat 64 (a.toNat / 2 ^ n))
    (zn (BitVec.ofNat 64 (a.toNat / 2 ^ n)) (outRight a n) (vOf s e)) e (fetched s e) := by
  simp only [srlOp, flagsShift, flagsOf_eq, State.fl, eng_fetched, flagV_eq_vOf, carrySrl_eq, ushiftRight_eq_ofNat]

theorem sraOp_eq : sraOp rd a n e (fetched s e) = resultF rd (BitVec.ofInt 64 (a.toInt / 2 ^ n))
    (zn (BitVec.ofInt 64 (a.toInt / 2 ^ n)) (outRight a n) (vOf s e)) e (fetched s e) := by
  simp only [sraOp, flagsShift, flagsOf_eq, State.fl, eng_fetched, flagV_eq_vOf, carrySrl_eq, sshiftRight_eq_ofInt]

theorem znOp_eq : znOp rd a e (fetched s e) = resultF rd a (zn a (cOf s e) (vOf s e)) e (fetched s e) := by
  simp only [znOp, flagsZN, flagsOf_eq, State.fl, eng_fetched, flagC_eq_cOf, flagV_eq_vOf]

end

theorem mul_eq_ofNat (a b : Word) : a * b = BitVec.ofNat 64 (a.toNat * b.toNat) :=
  BitVec.eq_of_toNat_eq (by simp)

end Sys2Proof.Machine

/-- Settles O12: the shift amount is the low six bits, and each shift is one of three effects. -/
theorem shiftResults : Obligations.ShiftResults := by
  unfold Obligations.ShiftResults
  intro s e rd ra rb k
  refine ⟨fun h => ?sll, fun h => ?srl, fun h => ?sra, fun h => ?slli, fun h => ?srli, fun h => ?srai⟩
  case sll => exact gives_of_resultF h rfl (by simp only [reg2, shAmt, gr_fetched, sllOp_eq])
  case srl => exact gives_of_resultF h rfl (by simp only [reg2, shAmt, gr_fetched, srlOp_eq])
  case sra => exact gives_of_resultF h rfl (by simp only [reg2, shAmt, gr_fetched, sraOp_eq])
  case slli => exact gives_of_resultF h rfl (by simp only [reg1, gr_fetched, sllOp_eq])
  case srli => exact gives_of_resultF h rfl (by simp only [reg1, gr_fetched, srlOp_eq])
  case srai => exact gives_of_resultF h rfl (by simp only [reg1, gr_fetched, sraOp_eq])

/-- Settles O13: products, leading zeros and differences of TIMEs set Z and N alone; TCMP writes flags. -/
theorem multiplyCountAndTimeResults : Obligations.MultiplyCountAndTimeResults := by
  unfold Obligations.MultiplyCountAndTimeResults
  intro s e rd ra rb
  refine ⟨fun h => ?mul, fun h => ?mulhu, fun h => ?clz, fun h => ?tdiff, fun h => ?tcmp⟩
  case mul => exact gives_of_resultF h rfl (by simp only [reg2, gr_fetched, znOp_eq, mul_eq_ofNat])
  case mulhu => exact gives_of_resultF h rfl (by simp only [reg2, gr_fetched, znOp_eq])
  case clz => exact gives_of_resultF h rfl (by simp only [reg1, gr_fetched, znOp_eq, clzOf_eq])
  case tdiff => exact gives_of_resultF h rfl (by simp only [reg2, tdiffOp, gr_fetched, znOp_eq, sext_timeDiff_eq])
  case tcmp =>
    exact givesFlags_of_flagsOnly h rfl (by
      simp only [reg2, tcmpOp, gr_fetched, State.fl, eng_fetched, flagBits_eq, timeBefore_timeOf, timeOf_beq,
        flagC_eq_cOf, flagV_eq_vOf])

namespace Sys2Proof.Machine

/-! ## Long immediates at the last word of the store (R160) -/

theorem psCorrect_of_ecc_zero {c word : Nat} {s : State} (h : s.psEccAt (psKey c word) = 0) :
    psCorrect c word s = s := by
  simp [psCorrect, h]

theorem soref_of_long_at_end {s : State} {e : Fin 64} {i j : Soref} (f : Nat → State → State) (hup : up s)
    (hready : s.ready e = true) (hbudget : overBudget (s.eng e) = false)
    (hecc : s.psEccAt (psKey (clOf e) (s.eng e).pc) = 0) (hlong : isLong (wordAt s e 0) = true)
    (hpc : (s.eng e).pc = 131071) (hdecode : decodeSoref (wordAt s e 0) 0 = some j) :
    soref e i f s = .next (raiseFault e 4 0 0 s) := by
  have hue : s.psUe (clOf e) (s.eng e).pc = false := by simp [State.psUe, hecc]
  have hrun : runInsn e (some i) (f e) s = raiseFault e 4 0 0 s := by
    simp only [wordAt, Nat.add_zero] at hlong hdecode
    have hend : 131072 ≤ (s.eng e).pc + 1 := by omega
    simp [runInsn, hready, hbudget, hue, hlong, hend, hdecode, psCorrect_of_ecc_zero hecc]
  simp only [soref, live, show s.inPor = false from hup, Bool.false_eq_true, if_false, hrun]

theorem orh_eq_ofNat (low : BitVec 32) : low.zeroExtend 64 <<< 32 = BitVec.ofNat 64 (low.toNat * 2 ^ 32) := by
  have hlow : low.toNat % 2 ^ 64 = low.toNat := Nat.mod_eq_of_lt (low.isLt.trans (by norm_num))
  rw [shiftLeft_eq_ofNat, BitVec.toNat_setWidth, hlow]

end Sys2Proof.Machine

/-- Settles O14: each long immediate completes two words on; at the last word the fetch raises RANGE. -/
theorem longImmediateResults : Obligations.LongImmediateResults := by
  unfold Obligations.LongImmediateResults
  refine ⟨fun s e rd ra imm low => ⟨fun h => ?li, fun h => ?addl, fun h => ?orh, fun h => ?cmpl⟩, ?range⟩
  case li =>
    exact completes_writing_setGr h rfl (by simp only [liOp, immL, finishL, eng_setGr, eng_fetched])
  case addl =>
    exact completes_writing_setFlags h rfl (by
      simp only [reg1, addlOp, immL, finishL, setFlags, State.eng_setEng, eng_setGr, eng_fetched, gr_fetched,
        flagsAdd_eq])
  case orh =>
    exact completes_writing_setGr h rfl (by
      simp only [reg1, orhOp, finishL, eng_setGr, eng_fetched, gr_fetched, orh_eq_ofNat])
  case cmpl =>
    obtain ⟨-, hready, -, hcut, -⟩ := id h
    refine goesTo_of_finishAt_setEng h rfl ?_ (stall_of_ready hready) hcut
    simp only [reg1, cmplOp, finishL, setFlags, immL, gr_fetched, eng_fetched, State.eng_setEng, flagsSub_eq]
  case range =>
    rintro s e rd ra imm low c j (rfl | rfl | rfl | rfl) hup hready hbudget hecc hlong hpc hdecode
    all_goals exact soref_of_long_at_end _ hup hready hbudget hecc hlong hpc hdecode

namespace Sys2Proof.Machine

/-! ## Jumps (R187, R188) -/

theorem jumpTo_of_out {t : Int} (call : Bool) (e : Nat) (s : State) (h : ¬(0 ≤ t ∧ t < 131072)) :
    jumpTo call t e s = raiseFault e 4 0 0 s :=
  if_pos (by omega)

section
variable {t : Int} {e : Nat} {s : State} (h : 0 ≤ t ∧ t < 131072)
include h

theorem jumpTo_of_full (hfull : 16 ≤ (s.eng e).stack.length) : jumpTo true t e s = raiseFault e 6 0 0 s := by
  simp [jumpTo, show ¬(t < 0 ∨ 131072 ≤ t) by omega, hfull]

theorem jumpTo_of_room (hroom : (s.eng e).stack.length < 16) :
    jumpTo true t e s = finishAt e t.toNat (pushPc e s) := by
  simp [jumpTo, show ¬(t < 0 ∨ 131072 ≤ t) by omega, show ¬16 ≤ (s.eng e).stack.length by omega, when]

theorem jumpTo_of_in : jumpTo false t e s = finishAt e t.toNat s := by
  simp [jumpTo, show ¬(t < 0 ∨ 131072 ≤ t) by omega, when]

end

theorem pushPc_fetched (s : State) (e : Fin 64) : pushPc e (fetched s e) = (fetched s e).setEng e (pushed s e) := by
  simp only [pushPc, pushed, eng_fetched]

/-! ## Branches, calls and returns of an engine about to run one -/

section
variable {c : Instr} {s : State} {e : Fin 64} {i : Soref} {f : Nat → State → State} (h : runs s e i)
  (hexec : exec c s = soref e i f s)
include h hexec

theorem goesTo_of_jump {t : Int} (hf : f e (fetched s e) = jumpTo false t e (fetched s e))
    (hin : 0 ≤ t ∧ t < 131072) : goesTo c s e t.toNat (s.eng e) :=
  goesTo_of_finishAt_fetched h hexec (hf.trans (jumpTo_of_in hin))

theorem traps_of_jump_out {call : Bool} {t : Int} (hf : f e (fetched s e) = jumpTo call t e (fetched s e))
    (hout : ¬(0 ≤ t ∧ t < 131072)) : traps c s e 4 0 0 :=
  traps_of_raiseFault h hexec (hf.trans (jumpTo_of_out call e _ hout))

theorem traps_of_call_full {t : Int} (hf : f e (fetched s e) = jumpTo true t e (fetched s e))
    (hin : 0 ≤ t ∧ t < 131072) (hfull : 16 ≤ (s.eng e).stack.length) : traps c s e 6 0 0 :=
  traps_of_raiseFault h hexec (hf.trans (jumpTo_of_full hin (by rwa [eng_fetched])))

theorem goesTo_of_call {t : Int} (hf : f e (fetched s e) = jumpTo true t e (fetched s e))
    (hin : 0 ≤ t ∧ t < 131072) (hroom : (s.eng e).stack.length < 16) : goesTo c s e t.toNat (pushed s e) := by
  obtain ⟨-, hready, -, hcut, -⟩ := id h
  refine goesTo_of_finishAt_setEng h hexec (hf.trans ?_) (stall_of_ready hready) hcut
  rw [jumpTo_of_room hin (by rwa [eng_fetched]), pushPc_fetched]

theorem goesTo_of_finish (hf : f e (fetched s e) = finish e (fetched s e)) :
    goesTo c s e ((s.eng e).pc + 1) (s.eng e) :=
  goesTo_of_finishAt_fetched h hexec (by rw [hf, finish, eng_fetched])

end

section
variable {s : State} {e : Fin 64} (call : Bool) {c : Cond} (off : BitVec 20)

theorem branchOp_of_not_taken (h : takes c s e = false) : branchOp call c off e (fetched s e) = finish e (fetched s e) := by
  simp [branchOp, State.fl, condHolds_eq, h]

theorem branchOp_of_taken (h : takes c s e = true) :
    branchOp call c off e (fetched s e) = jumpTo call ((s.eng e).pc + off.toInt) e (fetched s e) := by
  simp [branchOp, State.fl, condHolds_eq, h]

end

end Sys2Proof.Machine

/-- Settles O15: an untaken branch completes; every other transfer is a jump, checked for RANGE and then RSTACK, or a
return. -/
theorem branchesCallsAndReturns : Obligations.BranchesCallsAndReturns := by
  unfold Obligations.BranchesCallsAndReturns
  intro s e ra c off x t a
  have hreg (call : Bool) : reg1 ra (fun a => jumpTo call a.toNat) e (fetched s e) = jumpTo call a e (fetched s e) := by
    simp only [reg1, gr_fetched, a]
  refine ⟨fun h => ⟨?bFalls, fun ht => ⟨?bGoes, ?bRange⟩⟩, fun h => ⟨?callFalls, fun ht => ⟨?callGoes, ?callFull, ?callRange⟩⟩,
    fun h => ⟨?jrGoes, ?jrRange⟩, fun h => ⟨?callrGoes, ?callrFull, ?callrRange⟩, fun h => ⟨?retEmpty, ?retGoes⟩⟩
  case bFalls => exact fun ht => goesTo_of_finish h rfl (branchOp_of_not_taken false off ht)
  case bGoes => exact goesTo_of_jump h rfl (branchOp_of_taken false off ht)
  case bRange => exact traps_of_jump_out h rfl (branchOp_of_taken false off ht)
  case callFalls => exact fun ht => goesTo_of_finish h rfl (branchOp_of_not_taken true off ht)
  case callGoes => exact fun ⟨hlo, hhi, hroom⟩ => goesTo_of_call h rfl (branchOp_of_taken true off ht) ⟨hlo, hhi⟩ hroom
  case callFull => exact fun ⟨hlo, hhi, hfull⟩ => traps_of_call_full h rfl (branchOp_of_taken true off ht) ⟨hlo, hhi⟩ hfull
  case callRange => exact traps_of_jump_out h rfl (branchOp_of_taken true off ht)
  case jrGoes => exact fun ha => goesTo_of_jump h rfl (hreg false) (by omega)
  case jrRange => exact fun ha => traps_of_jump_out h rfl (hreg false) (by omega)
  case callrGoes => exact fun ⟨ha, hroom⟩ => goesTo_of_call h rfl (hreg true) (by omega) hroom
  case callrFull => exact fun ⟨ha, hfull⟩ => traps_of_call_full h rfl (hreg true) (by omega) hfull
  case callrRange => exact fun ha => traps_of_jump_out h rfl (hreg true) (by omega)
  case retEmpty => exact fun hempty => traps_of_raiseFault h rfl (by simp only [retOp, eng_fetched, show (s.eng e).stack = [] from hempty])
  case retGoes =>
    intro p rest hstack
    obtain ⟨-, hready, -, hcut, -⟩ := id h
    refine goesTo_of_finishAt_setEng h rfl ?_ (stall_of_ready hready) hcut
    simp only [retOp, eng_fetched, show (s.eng e).stack = p :: rest from hstack]
    rfl
end

section
/-!
PROOF. Fetch and its faults (R146, R147, R160, R174, R175), scratch as bytes and poison (R145, R190, R408), and fault
entry and halt (R141, R143).
-/
namespace Sys2Proof.Machine

open Sys2Proof.Claims

/-! ## Fetch -/

/-- The meaning of every Soref command is one fetch with the command's own effect. -/
theorem exec_of_sorefOf {c : Instr} {e : Fin 64} {i : Option Soref} (h : sorefOf c = some (e, i)) :
    ∃ f, ∀ s, exec c s = live s (runInsn e i f) := by
  cases c <;> cases h <;> exact ⟨_, fun _ => rfl⟩

theorem runInsn_of_not_ready {s : State} {e : Nat} (i : Option Soref) (f : State → State) (h : s.ready e = false) :
    runInsn e i f s = s := by
  simp [runInsn, h]

theorem runInsn_of_overBudget {s : State} {e : Nat} (i : Option Soref) (f : State → State) (h : s.ready e = true)
    (hbudget : overBudget (s.eng e) = true) : runInsn e i f s = budgetFault e s := by
  simp [runInsn, h, hbudget]

section
variable {s : State} {e : Nat} (i : Option Soref) (f : State → State) (h : s.ready e = true)
  (hbudget : overBudget (s.eng e) = false)
include h hbudget

theorem runInsn_of_psUe (hue : s.psUe (clOf e) (s.eng e).pc = true) :
    runInsn e i f s = raiseFault e 2 0 0 (psUeRecord (clOf e) (s.eng e).pc s) := by
  simp [runInsn, h, hbudget, hue]

section
variable (hecc : s.psEccAt (psKey (clOf e) (s.eng e).pc) = 0)
  (hlong : isLong (wordAt s e 0) = true →
    (s.eng e).pc + 1 < 131072 ∧ s.psEccAt (psKey (clOf e) ((s.eng e).pc + 1)) = 0)
include hecc hlong

theorem runInsn_of_other (hother : decodeSoref (wordAt s e 0) (wordAt s e 1) ≠ i) : runInsn e i f s = s := by
  simp only [wordAt, Nat.add_zero] at hlong hother
  by_cases long : isLong (s.psWord (psKey (clOf e) (s.eng e).pc)).toNat = true
  · obtain ⟨hstore, hecc2⟩ := hlong long
    have hin : ¬ 131071 ≤ (s.eng e).pc := by omega
    simp [runInsn, h, hbudget, State.psUe, hecc, hecc2, hin, hother]
  · simp [runInsn, h, hbudget, State.psUe, hecc, long, hother]

theorem runInsn_of_reserved (hnone : decodeSoref (wordAt s e 0) (wordAt s e 1) = none) :
    runInsn e none f s = raiseFault e 1 0 0 s := by
  simp only [wordAt, Nat.add_zero] at hlong hnone
  by_cases long : isLong (s.psWord (psKey (clOf e) (s.eng e).pc)).toNat = true
  · obtain ⟨hstore, hecc2⟩ := hlong long
    have hin : ¬ 131071 ≤ (s.eng e).pc := by omega
    simp [runInsn, h, hbudget, State.psUe, hecc, hecc2, hin, hnone, psCorrect_of_ecc_zero]
  · simp [runInsn, h, hbudget, State.psUe, hecc, long, hnone, psCorrect_of_ecc_zero]

end

end

/-! ## Bytes of a number -/

@[simp] theorem length_leBytes (n v : Nat) : (leBytes n v).length = n := by
  induction n generalizing v with
  | zero => rfl
  | succ n ih => simp [leBytes, ih]

theorem getD_leBytes {i n : Nat} (v : Nat) (d : Byte) (h : i < n) : (leBytes n v).getD i d = BitVec.ofNat 8 (v / 256 ^ i) := by
  induction n generalizing i v with
  | zero => omega
  | succ n ih =>
    cases i with
    | zero => simp [leBytes]
    | succ i =>
      rw [leBytes, List.getD_cons_succ, ih _ (by omega), Nat.div_div_eq_div_mul, ← pow_succ']

/-! ## Scratch -/

/-- The bytes that `scrWrite` stores, written out in order. -/
theorem scrByte_forL_setScrByte {e off start : Nat} (data : List Byte) (k : Nat) (s : State)
    (h : off + start + data.length ≤ 65536) :
    (forL ((List.range' start data.length).zip data)
        (fun x s => s.setScrByte (65536 * e + (off + x.1) % 65536) x.2) s).scrByte k
      = if 65536 * e + off + start ≤ k ∧ k < 65536 * e + off + start + data.length then
          data.getD (k - (65536 * e + off + start)) 0 else s.scrByte k := by
  induction data generalizing start s with
  | nil => simp [forL]
  | cons b rest ih =>
    have hb : (off + start) % 65536 = off + start := Nat.mod_eq_of_lt (by simp at h; omega)
    have hstep : forL ((List.range' start (b :: rest).length).zip (b :: rest))
        (fun x s => s.setScrByte (65536 * e + (off + x.1) % 65536) x.2) s
        = forL ((List.range' (start + 1) rest.length).zip rest)
          (fun x s => s.setScrByte (65536 * e + (off + x.1) % 65536) x.2)
          (s.setScrByte (65536 * e + (off + start)) b) := by
      rw [List.length_cons, List.range'_succ, List.zip_cons_cons, forL, List.foldl_cons, hb, forL]
    rw [hstep, ih _ (by simp at h; omega)]
    simp only [List.length_cons]
    by_cases hk : k = 65536 * e + (off + start)
    · subst hk
      rw [if_neg (by omega), if_pos (by omega), State.scrByte_setScrByte,
        show 65536 * e + (off + start) - (65536 * e + off + start) = 0 by omega, List.getD_cons_zero]
    · rw [State.scrByte_setScrByte_of_ne _ _ _ _ hk]
      by_cases hin : 65536 * e + off + (start + 1) ≤ k ∧ k < 65536 * e + off + (start + 1) + rest.length
      · rw [if_pos hin, if_pos (by omega),
          show k - (65536 * e + off + start) = k - (65536 * e + off + (start + 1)) + 1 by omega, List.getD_cons_succ]
      · rw [if_neg hin, if_neg (by omega)]

theorem scrByte_scrWrite {off : Nat} (e : Nat) {data : List Byte} (ep : Bool) (s : State) (k : Nat)
    (h : off + data.length ≤ 65536) :
    (scrWrite e off data ep s).scrByte k
      = if 65536 * e + off ≤ k ∧ k < 65536 * e + off + data.length then data.getD (k - (65536 * e + off)) 0
        else s.scrByte k := by
  have hbytes := scrByte_forL_setScrByte (e := e) (off := off) (start := 0) data k s (by omega)
  rw [← List.range_eq_range'] at hbytes
  refine (forL_unchanged (fun x => x.scrByte k) (fun w x => ?_) _ _).trans hbytes
  dsimp only
  split
  · rfl
  · split <;> rfl

/-- A write to scratch changes no memory but scratch. -/
theorem scrWrite_rest (e off : Nat) (data : List Byte) (ep : Bool) (s : State) (m : MemGrp) :
    { scrWrite e off data ep s with mem := m } = { s with mem := m } := by
  unfold scrWrite
  dsimp only
  refine (forL_unchanged (fun x : State => { x with mem := m }) (fun w x => ?_) _ _).trans
    (forL_unchanged (fun x : State => { x with mem := m }) (fun b x => ?_) _ s)
  · split
    · rfl
    · split <;> rfl
  · rfl

theorem mem_scrWrite_rest (e off : Nat) (data : List Byte) (ep : Bool) (s : State) (a : SMap Byte) (b : SMap Bool) :
    { (scrWrite e off data ep s).mem with scratch := a, scrPoison := b }
      = { s.mem with scratch := a, scrPoison := b } := by
  unfold scrWrite
  dsimp only
  refine (forL_unchanged (fun x : State => { x.mem with scratch := a, scrPoison := b }) (fun w x => ?_) _ _).trans
    (forL_unchanged (fun x : State => { x.mem with scratch := a, scrPoison := b }) (fun b x => ?_) _ s)
  · split
    · rfl
    · split <;> rfl
  · rfl

@[simp] theorem arb_scrWrite (e off : Nat) (data : List Byte) (ep : Bool) (s : State) :
    (scrWrite e off data ep s).arb = s.arb := by
  have h := congrArg State.arb (scrWrite_rest e off data ep s {})
  exact h

@[simp] theorem cells_scrWrite (e off : Nat) (data : List Byte) (ep : Bool) (s : State) :
    (scrWrite e off data ep s).mem.cells = s.mem.cells := by
  have h := congrArg MemGrp.cells (mem_scrWrite_rest e off data ep s [] [])
  exact h

/-! ## Fault records -/

theorem faultRecord_eq (u : State) (e : Fin 64) (code nest addr info : Nat) :
    u.faultRecord e code nest addr info = recordOf u e code nest addr info := by
  simp [State.faultRecord, recordOf, leBytes, clOf, clNi, psKey, List.replicate]

theorem length_recordOf (u : State) (e : Fin 64) (code nest addr info : Nat) :
    (recordOf u e code nest addr info).length = 64 := by
  simp [recordOf]

theorem scratchTakes_scrWrite (u : State) (e : Fin 64) {off : Nat} (code nest addr info : Nat) (h : off ≤ 0xFFC0) :
    scratchTakes u (scrWrite e off (u.faultRecord e code nest addr info) false u) e off
      (recordOf u e code nest addr info) := by
  intro k
  rw [faultRecord_eq]
  exact scrByte_scrWrite e false u k (by rw [length_recordOf]; omega)

theorem scratchTakes_of_mem {u t t' : State} {e : Fin 64} {off : Nat} {data : List Byte}
    (h : scratchTakes u t e off data) (hmem : t'.mem = t.mem) : scratchTakes u t' e off data := by
  intro k
  rw [← h k, State.scrByte, hmem, State.scrByte]

end Sys2Proof.Machine

open Sys2Proof Sys2Proof.Machine Sys2Proof.Claims

/-- Settles O21, by the cases of a fetch in its order (R175). -/
theorem fetchAndItsFaultsComeFirst : Obligations.FetchAndItsFaultsComeFirst := by
  unfold Obligations.FetchAndItsFaultsComeFirst
  intro c e i s hsoref hup x two
  obtain ⟨f, hf⟩ := exec_of_sorefOf hsoref
  have hexec : Sys2Proof.Machine.exec c s = .next (runInsn e i f s) := by
    rw [hf, live, show s.inPor = false from hup, if_neg Bool.false_ne_true]
  rw [hexec]
  refine ⟨fun hidle => ?idle, fun ⟨hready, hbudget⟩ => ?budget, fun ⟨hready, hbudget, hue⟩ => ?ue,
    fun ⟨hready, hbudget, hecc, hlong⟩ => ⟨fun hother => ?other, fun ⟨hi, hnone⟩ => ?reserved⟩⟩
  case idle => rw [runInsn_of_not_ready i f hidle]
  case budget => rw [runInsn_of_overBudget i f hready hbudget, budgetFault]
  case ue => rw [runInsn_of_psUe i f hready hbudget hue, clOf]
  case other => rw [runInsn_of_other i f hready hbudget hecc hlong hother]
  case reserved => rw [hi, runInsn_of_reserved f hready hbudget hecc hlong hnone]

namespace Sys2Proof.Machine

open Sys2Proof.Claims

/-! ## Halt (R143) -/

/-- A property that one round of a fold establishes and every round keeps holds at its end. -/
theorem forL_establishes {α : Type} {P : State → Prop} {f : α → State → State} (hkeep : ∀ a x, P x → P (f a x)) {a : α}
    (hone : ∀ x, P (f a x)) {l : List α} (ha : a ∈ l) (s : State) : P (forL l f s) := by
  have hrest (l : List α) : ∀ x, P x → P (forL l f x) := by
    induction l with
    | nil => exact fun x hx => hx
    | cons b rest ih => exact fun x hx => ih _ (hkeep b x hx)
  induction l generalizing s with
  | nil => cases ha
  | cons b rest ih =>
    obtain rfl | hin := List.mem_cons.mp ha
    · exact hrest rest _ (hone s)
    · exact ih hin _

theorem held_freeSems {e k : Nat} {s : State} (h : k ∈ s.semsOf e) : ((freeSems e s).sem k).held = false := by
  unfold freeSems
  refine forL_establishes (P := fun x => (x.sem k).held = false) (fun n x hx => ?_) (fun x => ?_) h s
  · by_cases hk : k = n
    · subst hk; simp
    · rwa [State.sem_setSem_of_ne _ _ _ _ hk]
  · simp

/-! What a halt does after its record leaves memory, the general registers, and, but for the engine's own semaphores, the
semaphores. -/

theorem mem_freeSems (e : Nat) (s : State) : (freeSems e s).mem = s.mem := by
  unfold freeSems
  refine forL_unchanged State.mem (fun n x => ?_) _ s
  rfl

theorem gregs_freeSems (e : Nat) (s : State) : (freeSems e s).pcl.gregs = s.pcl.gregs := by
  unfold freeSems
  refine forL_unchanged (fun x => x.pcl.gregs) (fun n x => ?_) _ s
  rfl

theorem mem_returnDone (e : Nat) (s : State) : (returnDone e s).mem = s.mem := by
  unfold returnDone
  refine forL_unchanged State.mem (fun k x => ?_) _ s
  split <;> rfl

theorem gregs_returnDone (e : Nat) (s : State) : (returnDone e s).pcl.gregs = s.pcl.gregs := by
  unfold returnDone
  refine forL_unchanged (fun x => x.pcl.gregs) (fun k x => ?_) _ s
  split <;> rfl

theorem arb_returnDone (e : Nat) (s : State) : (returnDone e s).arb = s.arb := by
  unfold returnDone
  refine forL_unchanged State.arb (fun k x => ?_) _ s
  split <;> rfl

theorem mem_discardHeld (e : Nat) (s : State) : (discardHeld e s).mem = s.mem :=
  forL_unchanged State.mem (f := fun x : Nat × Packet => dropMsg (clOf e) x.2) (fun _ _ => rfl) _ _

theorem gregs_discardHeld (e : Nat) (s : State) : (discardHeld e s).pcl.gregs = s.pcl.gregs :=
  forL_unchanged (fun x => x.pcl.gregs) (f := fun x : Nat × Packet => dropMsg (clOf e) x.2) (fun _ _ => rfl) _ _

theorem arb_discardHeld (e : Nat) (s : State) : (discardHeld e s).arb = s.arb :=
  forL_unchanged State.arb (f := fun x : Nat × Packet => dropMsg (clOf e) x.2) (fun _ _ => rfl) _ _

theorem mem_engSend (e : Nat) (p : Packet) (s : State) : (engSend e p s).mem = s.mem := by
  unfold engSend
  split <;> rfl

theorem gregs_engSend (e : Nat) (p : Packet) (s : State) : (engSend e p s).pcl.gregs = s.pcl.gregs := by
  unfold engSend
  split <;> rfl

theorem sems_engSend (e : Nat) (p : Packet) (s : State) : (engSend e p s).arb.sems = s.arb.sems := by
  unfold engSend
  split <;> rfl

theorem mem_returnQid (e : Nat) (db : Bool) (s : State) : (returnQid e db s).mem = s.mem := by
  unfold returnQid
  dsimp only
  split
  · rfl
  · exact mem_engSend ..

theorem gregs_returnQid (e : Nat) (db : Bool) (s : State) : (returnQid e db s).pcl.gregs = s.pcl.gregs := by
  unfold returnQid
  dsimp only
  split
  · rfl
  · exact gregs_engSend ..

theorem sems_returnQid (e : Nat) (db : Bool) (s : State) : (returnQid e db s).arb.sems = s.arb.sems := by
  unfold returnQid
  dsimp only
  split
  · rfl
  · exact sems_engSend ..

/-- Beside the QID and what waits for its slot, returning the QID leaves the engine. -/
theorem eng_returnQid {β : Type} {g : Eng → β} (hg : ∀ x q o, g { x with qid := q, outq := o } = g x) (e : Nat)
    (db : Bool) (s : State) : g ((returnQid e db s).eng e) = g (s.eng e) := by
  unfold returnQid
  dsimp only
  split
  · rfl
  · rw [State.eng_setEng]
    unfold engSend
    split
    · exact hg (s.eng e) 0xFFFF (s.eng e).outq
    · rw [State.eng_setEng]
      exact hg (s.eng e) 0xFFFF _

/-- What an engine that halts holds is given up. -/
def giveUp (e : Nat) (s : State) : State := discardHeld e (returnDone e (freeSems e s))

@[simp] theorem eng_giveUp (e e' : Nat) (s : State) : (giveUp e s).eng e' = s.eng e' := by
  simp only [State.eng, giveUp, engs_discardHeld, engs_returnDone, engs_freeSems]

theorem mem_giveUp (e : Nat) (s : State) : (giveUp e s).mem = s.mem := by
  rw [giveUp, mem_discardHeld, mem_returnDone, mem_freeSems]

theorem gregs_giveUp (e : Nat) (s : State) : (giveUp e s).pcl.gregs = s.pcl.gregs := by
  rw [giveUp, gregs_discardHeld, gregs_returnDone, gregs_freeSems]

theorem held_giveUp {e k : Nat} {s : State} (h : k ∈ s.semsOf e) : ((giveUp e s).sem k).held = false := by
  rw [giveUp, State.sem, arb_discardHeld, arb_returnDone]
  exact held_freeSems h

/-- The engine of a halt (R143). -/
def haltedEng (x : Eng) (code : Nat) : Eng :=
  { x with
    st := .halted, stall := .none, ending := false, belay := false, cutPend := none, hold := false, lastFault := code,
    ctx := 0x3FF, ctxsts := 0, done := [] }

/-- The state of a halt before the QID returns and the halt is recorded. -/
def haltedAt (e code addr info : Nat) (s : State) : State :=
  giveUp e ((scrWrite e 0xFF40 (s.faultRecord e code 1 addr info) false s).setEng e (haltedEng (s.eng e) code))

/-- After `haltedAt` a halt returns the QID once the contexts are done, and sends records. -/
theorem haltEngine_unchanged {β : Type} {g : State → β} {e : Nat} (hq : ∀ s, g (returnQid e true s) = g s)
    (hsat : ∀ s c, g (s.fsat F.pclFaultCntHalts c 1) = g s) (hviol : ∀ v s, g (viol v s) = g s)
    (htrace : ∀ ni cls ev fn data inj s, g (trace ni cls ev fn data inj s) = g s) (code addr info : Nat) (s : State) :
    g (haltEngine e code addr info s) = g (haltedAt e code addr info s) := by
  have hreturn : g (if ((haltedAt e code addr info s).owned e).isEmpty then returnQid e true (haltedAt e code addr info s)
      else haltedAt e code addr info s) = g (haltedAt e code addr info s) := by
    split
    · exact hq _
    · rfl
  rw [← hreturn]
  unfold haltEngine
  dsimp only
  rw [htrace, hviol, hsat]
  rfl

/-- What a halt leaves of its engine, beside its QID and the packets that wait. -/
theorem eng_haltEngine {β : Type} {g : Eng → β} (hg : ∀ x q o, g { x with qid := q, outq := o } = g x)
    (e code addr info : Nat) (s : State) :
    g ((haltEngine e code addr info s).eng e) = g (haltedEng (s.eng e) code) := by
  rw [haltEngine_unchanged (g := fun x => g (x.eng e)) (fun s => eng_returnQid hg e true s) (fun _ _ => rfl)
    (fun _ _ => rfl) (fun _ _ _ _ _ _ _ => rfl), haltedAt, eng_giveUp, State.eng_setEng]

theorem mem_haltEngine (e code addr info : Nat) (s : State) : (haltEngine e code addr info s).mem
    = (scrWrite e 0xFF40 (s.faultRecord e code 1 addr info) false s).mem := by
  rw [haltEngine_unchanged (g := State.mem) (mem_returnQid e true) (fun _ _ => rfl) (fun _ _ => rfl)
    (fun _ _ _ _ _ _ _ => rfl), haltedAt, mem_giveUp, State.mem_setEng]

theorem gregs_haltEngine (e code addr info : Nat) (s : State) :
    (haltEngine e code addr info s).pcl.gregs = s.pcl.gregs := by
  rw [haltEngine_unchanged (g := fun x => x.pcl.gregs) (gregs_returnQid e true) (fun _ _ => rfl) (fun _ _ => rfl)
    (fun _ _ _ _ _ _ _ => rfl), haltedAt, gregs_giveUp, State.pcl_gregs_setEng, pcl_scrWrite]

theorem held_haltEngine {e k : Nat} {s : State} (code addr info : Nat) (h : k ∈ s.semsOf e) :
    ((haltEngine e code addr info s).sem k).held = false := by
  have hq (x : State) : (returnQid e true x).sem k = x.sem k := by rw [State.sem, sems_returnQid, State.sem]
  rw [haltEngine_unchanged (g := fun x => x.sem k) hq (fun _ _ => rfl) (fun _ _ => rfl) (fun _ _ _ _ _ _ _ => rfl),
    haltedAt]
  refine held_giveUp ?_
  rwa [State.semsOf, State.arb_setEng, arb_scrWrite]

/-! ## Fault entry (R141) -/

/-- A first fault changes no part of the block but scratch, its engine, the fault count and what goes to TRC. -/
theorem raiseFault_unchanged {β : Type} {g : State → β} {e : Nat} {s : State} (h : (s.eng e).fault = 0)
    (hset : ∀ x s, g (s.setEng e x) = g s) (hsat : ∀ s c, g (s.fsat F.pclFaultCntFaults c 1) = g s)
    (htrace : ∀ ni cls ev fn data inj s, g (trace ni cls ev fn data inj s) = g s) (code addr info : Nat) :
    g (raiseFault e code addr info s) = g (scrWrite e 0xFF00 (s.faultRecord e code 0 addr info) false s) := by
  rw [raiseFault, if_neg (not_not.mpr h)]
  exact (htrace ..).trans ((hsat ..).trans (hset ..))

end Sys2Proof.Machine

/-- Settles O22: a fault writes its record and changes its engine alone; a second one halts it, which leaves memory as
its record left it. -/
theorem faultEntryAndHalt : Obligations.FaultEntryAndHalt := by
  unfold Obligations.FaultEntryAndHalt
  intro u e code addr info
  refine ⟨fun h => ?entry, fun h => ?halt⟩
  case entry =>
    have hmem := raiseFault_unchanged (g := State.mem) h (fun _ _ => rfl) (fun _ _ => rfl) (fun _ _ _ _ _ _ _ => rfl)
      code addr info
    have harb := raiseFault_unchanged (g := State.arb) h (fun _ _ => rfl) (fun _ _ => rfl) (fun _ _ _ _ _ _ _ => rfl)
      code addr info
    have hgregs := raiseFault_unchanged (g := fun x => x.pcl.gregs) h (fun _ _ => rfl) (fun _ _ => rfl)
      (fun _ _ _ _ _ _ _ => rfl) code addr info
    have hctxs := raiseFault_unchanged (g := fun x => x.pcl.ctxs) h (fun _ _ => rfl) (fun _ _ => rfl)
      (fun _ _ _ _ _ _ _ => rfl) code addr info
    refine ⟨eng_raiseFault_of_no_fault code addr info h,
      scratchTakes_of_mem (scratchTakes_scrWrite u e code 0 addr info (by norm_num)) hmem, fun k => ?_, fun e' he => ?_,
      harb.trans (arb_scrWrite ..), ?_, ?_⟩
    · rw [State.greg, hgregs, pcl_scrWrite, State.greg]
    · rw [raiseFault, if_neg (not_not.mpr h), eng_trace, eng_fsat, State.eng_setEng_of_ne _ _ _ _ he, eng_scrWrite]
    · rw [hctxs, pcl_scrWrite]
    · rw [hmem, cells_scrWrite]
  case halt =>
    have hhalt : raiseFault e code addr info u = haltEngine e code addr info u := if_pos h
    rw [hhalt]
    refine ⟨st_haltEngine .., eng_haltEngine (g := Eng.fault) (fun _ _ _ => rfl) .., eng_haltEngine (g := Eng.pc) (fun _ _ _ => rfl) ..,
      eng_haltEngine (g := Eng.belay) (fun _ _ _ => rfl) .., fun k hk => held_haltEngine code addr info hk,
      scratchTakes_of_mem (scratchTakes_scrWrite u e code 1 addr info (by norm_num)) (mem_haltEngine ..), fun k => ?_, ?_⟩
    · rw [State.greg, gregs_haltEngine, State.greg]
    · rw [mem_haltEngine, cells_scrWrite]
end

section
/-!
PROOF. Checks of an access (R175, R189), loads from and stores to the own scratch (R190, R223).
-/
namespace Sys2Proof.Machine

open Sys2Proof.Claims

/-! ## Checks of an access -/

section
variable {c : Instr} {s : State} {e : Fin 64} {i : Soref} {f : Nat → State → State} (h : runs s e i)
  (hexec : exec c s = soref e i f s)
include h hexec

/-- An instruction whose effect is `rangeAlign` has the faults of its access, and else the effect `g`. -/
theorem checked_of_rangeAlign {size a n : Nat} {g : State → State} {ok : Prop}
    (hf : f e (fetched s e) = rangeAlign size a n e g (fetched s e))
    (hok : a + n ≤ size → a % n = 0 → f e (fetched s e) = g (fetched s e) → ok) :
    checked c s e size a n ok := by
  refine ⟨fun hout => ?range, fun ⟨hin, halign⟩ => ?align, fun ⟨hin, halign⟩ => hok hin halign ?_⟩
  case range => exact traps_of_raiseFault h hexec (by rw [hf, rangeAlign, if_pos hout])
  case align => exact traps_of_raiseFault h hexec (by rw [hf, rangeAlign, if_neg (by omega), if_pos halign])
  · rw [hf, rangeAlign, if_neg (by omega), if_neg (by omega)]

/-- An instruction whose effect is `ctlChecks` has the faults of a control access, and else the effect `g`. -/
theorem ctlChecked_of_ctlChecks {store wide : Bool} {a n : Nat} {g : State → State} {ok : Prop}
    (hf : f e (fetched s e) = ctlChecks store wide a n e g (fetched s e))
    (hok : a + n ≤ 0x2000000 → a % n = 0 → f e (fetched s e) = g (fetched s e) → ok) :
    ctlChecked c s e store wide a n ok := by
  have hpriv : (a < 0x2000000 ∧ (!progReach store a) = true) ↔ (a < 0x2000000 ∧ progReach store a = false) := by simp
  refine ⟨fun hp => ?priv, fun hp => ⟨fun hw => ?space, fun hw => ?rest⟩⟩
  case priv => exact traps_of_raiseFault h hexec (by rw [hf, ctlChecks, if_pos (hpriv.mpr hp)])
  case space =>
    exact traps_of_raiseFault h hexec (by rw [hf, ctlChecks, if_neg (fun h => hp (hpriv.mp h)), if_pos (by rw [hw]; rfl)])
  case rest =>
    refine checked_of_rangeAlign h hexec ?_ hok
    rw [hf, ctlChecks, if_neg (fun h => hp (hpriv.mp h)), if_neg (by rw [hw]; exact Bool.false_ne_true)]

end

/-! ## Scratch after a fetch -/

/-- A fetch changes of memory only check bits of the program store. -/
theorem mem_fetched_rest (s : State) (e : Nat) (m : SMap Nat) :
    { (fetched s e).mem with psEcc := m } = { s.mem with psEcc := m } := by
  have haer (s : State) : (aerCorrected s).mem = s.mem := by
    have hat (k : Nat) (s : State) : (aerCorrectedAt k s).mem = s.mem := by
      unfold aerCorrectedAt when
      dsimp only
      repeat' split
      all_goals rfl
    exact (hat 1 _).trans (hat 0 s)
  have hcorrect (c k : Nat) (s : State) : { (psCorrect c k s).mem with psEcc := m } = { s.mem with psEcc := m } := by
    unfold psCorrect
    split
    · rw [haer]
      rfl
    · rfl
  unfold fetched touch
  rw [State.mem_setDom]
  split
  · exact (hcorrect ..).trans (hcorrect ..)
  · exact hcorrect ..

@[simp] theorem scrByte_fetched (s : State) (e k : Nat) : (fetched s e).scrByte k = s.scrByte k := by
  have h := congrArg (fun m : MemGrp => mget 0 m.scratch k) (mem_fetched_rest s e [])
  exact h

@[simp] theorem scrPoisonAt_fetched (s : State) (e k : Nat) : (fetched s e).scrPoisonAt k = s.scrPoisonAt k := by
  have h := congrArg (fun m : MemGrp => mget false m.scrPoison k) (mem_fetched_rest s e [])
  exact h

/-! ## LDX -/

theorem scrBytes_of_in {a n : Nat} (s : State) (e : Nat) (h : a + n ≤ 65536) :
    s.scrBytes e a n = (List.range n).map (fun i => s.scrByte (65536 * e + a + i)) := by
  refine List.map_congr_left fun i hi => ?_
  have hi := List.mem_range.mp hi
  rw [Nat.mod_eq_of_lt (by omega), Nat.add_assoc]

theorem mem_wordsOf {a n k : Nat} : k ∈ wordsOf a n ↔ ∃ i < n, k = (a + i) / 8 := by
  unfold wordsOf
  by_cases hn : n = 0
  · simp [hn]
  · simp only [hn, if_false, List.mem_map, List.mem_range]
    constructor
    · rintro ⟨i, hi, rfl⟩
      by_cases hfirst : i = 0
      · exact ⟨0, by omega, by simp [hfirst]⟩
      · exact ⟨8 * (a / 8 + i) - a, by omega, by omega⟩
    · rintro ⟨i, hi, rfl⟩
      exact ⟨(a + i) / 8 - a / 8, by omega, by omega⟩

theorem scrPoisoned_of_in {a n : Nat} (s : State) (e : Nat) (h : a + n ≤ 65536) :
    s.scrPoisoned e a n = (List.range n).any (fun i => s.scrPoisonAt (8192 * e + (a + i) / 8)) := by
  rw [Bool.eq_iff_iff]
  simp only [State.scrPoisoned, List.any_eq_true, mem_wordsOf, List.mem_range]
  constructor
  · rintro ⟨_, ⟨i, hi, rfl⟩, hp⟩
    exact ⟨i, hi, by rwa [Nat.mod_eq_of_lt (by omega)] at hp⟩
  · rintro ⟨i, hi, hp⟩
    exact ⟨_, ⟨i, hi, rfl⟩, by rwa [Nat.mod_eq_of_lt (by omega)]⟩

theorem ldBytes_eq (width : LdWidth) : ldBytes width = ldLen width := by cases width <;> rfl

theorem stBytes_eq (width : StWidth) : stBytes width = stLen width := by cases width <;> rfl

theorem sext64_eq (n k : Nat) : sext64 n k = (BitVec.ofNat n k).signExtend 64 := by
  rw [sext64, BitVec.signExtend, BitVec.toInt_eq_toNat_cond, BitVec.toNat_ofNat, signedOf]
  push_cast
  rfl

theorem ldExt_eq (width : LdWidth) (k : Nat) : ldExt width k = extended width k := by
  have hzero (n : Nat) (hn : n ≤ 64) : BitVec.ofNat 64 (k % 2 ^ n) = (BitVec.ofNat n k).zeroExtend 64 := by
    apply BitVec.eq_of_toNat_eq
    simp
  cases width
  case b => exact hzero 8 (by norm_num)
  case h => exact hzero 16 (by norm_num)
  case w => exact hzero 32 (by norm_num)
  case d => rfl
  case sb => exact sext64_eq _ k
  case sh => exact sext64_eq _ k
  case sw => exact sext64_eq _ k

/-! ## STX -/

/-- The words of a store of at most a word, at a multiple of its length, are one. -/
theorem wordsOf_of_aligned {a : Nat} {width : StWidth} (h : a % stLen width = 0) : wordsOf a (stLen width) = [a / 8] := by
  have hone : (a + stLen width - 1) / 8 + 1 - a / 8 = 1 := by
    cases width <;> simp only [stLen] at h ⊢ <;> omega
  have hpos : stLen width ≠ 0 := by cases width <;> decide
  rw [wordsOf, if_neg hpos, hone]
  simp

theorem scrPoisonAt_forL_setScrByte {α : Type} (key : α → Nat) (val : α → Byte) (l : List α) (k : Nat) (s : State) :
    (forL l (fun x s => s.setScrByte (key x) (val x)) s).scrPoisonAt k = s.scrPoisonAt k :=
  forL_unchanged (fun x => x.scrPoisonAt k) (f := fun a x => x.setScrByte (key a) (val a)) (fun _ _ => rfl) l s

/-- A store without poison takes the poison of a word that it writes whole. -/
theorem scrPoisonAt_scrWrite {a : Nat} {width : StWidth} {data : List Byte} (e k : Nat) (s : State)
    (hlen : data.length = stLen width) (halign : a % stLen width = 0) (h : a + stLen width ≤ 65536) :
    (scrWrite e a data false s).scrPoisonAt k
      = if stLen width = 8 ∧ k = 8192 * e + a / 8 then false else s.scrPoisonAt k := by
  have hword : a / 8 % 8192 = a / 8 :=
    Nat.mod_eq_of_lt (by cases width <;> simp only [stLen] at h <;> omega)
  have hwhole : (decide (a ≤ 8 * (a / 8)) && decide (8 * (a / 8) + 8 ≤ a + stLen width)) = decide (stLen width = 8) := by
    cases width <;> simp only [stLen] at halign ⊢ <;> simp <;> omega
  unfold scrWrite
  rw [hlen, wordsOf_of_aligned halign]
  simp only [forL, List.foldl_cons, List.foldl_nil, hword, hwhole, Bool.false_eq_true, if_false, decide_eq_true_eq]
  by_cases hfull : stLen width = 8
  · rw [if_pos hfull]
    by_cases hk : k = 8192 * e + a / 8
    · subst hk
      rw [if_pos ⟨hfull, rfl⟩, State.scrPoisonAt_setScrPoisonAt]
    · rw [if_neg (fun h => hk h.2), State.scrPoisonAt_setScrPoisonAt_of_ne _ _ _ _ hk]
      exact scrPoisonAt_forL_setScrByte _ _ _ k s
  · rw [if_neg hfull, if_neg (fun h => hfull h.1)]
    exact scrPoisonAt_forL_setScrByte _ _ _ k s

/-- `freeSlots` for one slot. -/
def freeSlot (e a : Nat) (data : List Byte) (k : Nat) (s : State) : State :=
  let v := 0xFE44 + 64 * k
  if a ≤ v ∧ v < a + data.length ∧ data.getD (v - a) 1 = 0 then
    s.setEng e { s.eng e with slots := (s.eng e).slots.set k true }
  else s

theorem freeSlots_eq (e a : Nat) (data : List Byte) (s : State) :
    freeSlots e a data s = freeSlot e a data 2 (freeSlot e a data 1 (freeSlot e a data 0 s)) := rfl

theorem freeSlot_unchanged {β : Type} {g : State → β} {e : Nat} (hset : ∀ x s, g (s.setEng e x) = g s) (a : Nat)
    (data : List Byte) (k : Nat) (s : State) : g (freeSlot e a data k s) = g s := by
  unfold freeSlot
  dsimp only
  split
  · exact hset ..
  · rfl

theorem onlyEngine_freeSlot {u t : State} {e : Nat} (h : onlyEngine u t e) (a : Nat) (data : List Byte) (k : Nat) :
    onlyEngine u (freeSlot e a data k t) e := by
  unfold freeSlot
  dsimp only
  split
  · exact onlyEngine_setEng h _
  · exact h

/-- Freeing a slot changes of its engine the slots alone. -/
theorem eng_freeSlot (e a : Nat) (data : List Byte) (k : Nat) (s : State) :
    (freeSlot e a data k s).eng e = { s.eng e with slots := ((freeSlot e a data k s).eng e).slots } := by
  unfold freeSlot
  dsimp only
  split
  · rw [State.eng_setEng]
  · rfl

theorem getD_set_true (l : List Bool) (j k : Nat) : (l.set k true).getD j true = (decide (j = k) || l.getD j true) := by
  by_cases hj : k = j
  · subst hj
    by_cases hk : k < l.length <;> simp [hk]
  · simp [List.getElem?_set_ne hj, Ne.symm hj]

theorem slots_freeSlot (e a : Nat) (data : List Byte) (k j : Nat) (s : State) :
    ((freeSlot e a data k s).eng e).slots.getD j true
      = ((decide (j = k) && decide (a ≤ 0xFE44 + 64 * k ∧ 0xFE44 + 64 * k < a + data.length)
          && data.getD (0xFE44 + 64 * k - a) 1 == 0) || (s.eng e).slots.getD j true) := by
  unfold freeSlot
  dsimp only
  by_cases hv : a ≤ 0xFE44 + 64 * k ∧ 0xFE44 + 64 * k < a + data.length ∧ data.getD (0xFE44 + 64 * k - a) 1 = 0
  · obtain ⟨hlo, hhi, hzero⟩ := hv
    rw [if_pos ⟨hlo, hhi, hzero⟩, State.eng_setEng]
    simp only [getD_set_true, hlo, hhi, hzero, and_self, decide_true, beq_self_eq_true, Bool.and_true]
  · rw [if_neg hv]
    by_cases hj : j = k
    · have hfalse : (decide (a ≤ 0xFE44 + 64 * k ∧ 0xFE44 + 64 * k < a + data.length)
          && data.getD (0xFE44 + 64 * k - a) 1 == 0) = false := by
        rw [Bool.eq_false_iff]
        simpa [and_assoc] using hv
      rw [Bool.and_assoc, hfalse]
      simp
    · simp [hj]

theorem onlyEngine_freeSlots {u t : State} {e : Nat} (h : onlyEngine u t e) (a : Nat) (data : List Byte) :
    onlyEngine u (freeSlots e a data t) e :=
  onlyEngine_freeSlot (onlyEngine_freeSlot (onlyEngine_freeSlot h ..) ..) ..

theorem freeSlots_unchanged {β : Type} {g : State → β} {e : Nat} (hset : ∀ x s, g (s.setEng e x) = g s) (a : Nat)
    (data : List Byte) (s : State) : g (freeSlots e a data s) = g s := by
  rw [freeSlots_eq, freeSlot_unchanged hset, freeSlot_unchanged hset, freeSlot_unchanged hset]

theorem eng_freeSlots (e a : Nat) (data : List Byte) (s : State) :
    (freeSlots e a data s).eng e = { s.eng e with slots := ((freeSlots e a data s).eng e).slots } := by
  rw [freeSlots_eq, eng_freeSlot, eng_freeSlot, eng_freeSlot]

theorem slots_freeSlots {e a : Nat} {data : List Byte} {k : Nat} (hk : k < 3) (s : State) :
    ((freeSlots e a data s).eng e).slots.getD k true
      = ((decide (a ≤ 0xFE44 + 64 * k ∧ 0xFE44 + 64 * k < a + data.length)
          && data.getD (0xFE44 + 64 * k - a) 1 == 0) || (s.eng e).slots.getD k true) := by
  rw [freeSlots_eq, slots_freeSlot, slots_freeSlot, slots_freeSlot]
  obtain rfl | rfl | rfl : k = 0 ∨ k = 1 ∨ k = 2 := by omega
  all_goals simp

/-- STX that passes its checks. -/
def storeScratch (e a n : Nat) (v : Word) (s : State) : State :=
  freeSlots e a (leBytes n v.toNat) (scrWrite e a (leBytes n v.toNat) false s)

/-- A store to scratch completes as `stored` says, with the slots that it frees. -/
theorem stored_finish {s : State} {e : Fin 64} {a : Nat} {width : StWidth} (v : Word) (h : a + stLen width ≤ 65536)
    (halign : a % stLen width = 0) (hready : s.ready e = true) (hcut : (s.eng e).cutPend = none) :
    stored s (finish e (storeScratch e a (stLen width) v (fetched s e))) e a (stLen width) v := by
  have hwrite : ∀ k, (scrWrite e a (leBytes (stLen width) v.toNat) false (fetched s e)).eng k = s.eng k :=
    fun k => by rw [eng_scrWrite, eng_fetched]
  have hdata : (leBytes (stLen width) v.toNat).length = stLen width := length_leBytes ..
  have heng : (storeScratch e a (stLen width) v (fetched s e)).eng e
      = { s.eng e with slots := ((storeScratch e a (stLen width) v (fetched s e)).eng e).slots } := by
    rw [storeScratch, eng_freeSlots, hwrite]
  have hcut' : ((storeScratch e a (stLen width) v (fetched s e)).eng e).cutPend = none := by rw [heng]; exact hcut
  obtain ⟨hrest, hclus, hctxs, hengs, hgreg⟩ := onlyEngine_freeSlots
    (onlyEngine_refl (scrWrite e a (leBytes (stLen width) v.toNat) false (fetched s e)) e) a (leBytes (stLen width) v.toNat)
  rw [finish, finishAt_of_no_cut _ hcut']
  refine ⟨keepsRegs_of_gregs e ?regs, fun k => ?bytes, fun k => ?poison, fun k hk => ?slots, ?eng, ?rest, ?mem, ?clus,
    ?ctxs, fun e' he => ?engs, fun k hk => ?gregs⟩
  case regs =>
    rw [State.pcl_gregs_setEng, storeScratch, freeSlots_unchanged (g := fun x => x.pcl.gregs) (fun _ _ => rfl),
      pcl_scrWrite, pcl_fetched]
  case bytes =>
    have hbytes : (storeScratch e a (stLen width) v (fetched s e)).scrByte k
        = (scrWrite e a (leBytes (stLen width) v.toNat) false (fetched s e)).scrByte k :=
      freeSlots_unchanged (g := fun x => x.scrByte k) (fun _ _ => rfl) ..
    refine Eq.trans hbytes ?_
    rw [ scrByte_scrWrite e false _ k (by rwa [hdata]), hdata, scrByte_fetched]
    by_cases hin : 65536 * e.val + a ≤ k ∧ k < 65536 * e.val + a + stLen width
    · rw [if_pos hin, if_pos hin, getD_leBytes _ _ (by omega)]
    · rw [if_neg hin, if_neg hin]
  case poison =>
    have hpoison : (storeScratch e a (stLen width) v (fetched s e)).scrPoisonAt k
        = (scrWrite e a (leBytes (stLen width) v.toNat) false (fetched s e)).scrPoisonAt k :=
      freeSlots_unchanged (g := fun x => x.scrPoisonAt k) (fun _ _ => rfl) ..
    refine Eq.trans hpoison ?_
    rw [ scrPoisonAt_scrWrite e k _ hdata halign h, scrPoisonAt_fetched]
  case slots =>
    rw [State.eng_setEng]
    dsimp only
    rw [storeScratch, slots_freeSlots hk, hwrite, hdata]
    by_cases hin : a ≤ 0xFE44 + 64 * k ∧ 0xFE44 + 64 * k < a + stLen width
    · rw [getD_leBytes _ _ (by omega)]
    · simp only [hin, decide_false, Bool.false_and, Bool.false_or]
  case eng =>
    rw [State.eng_setEng, heng, ← stall_of_ready hready]
  case rest =>
    have hpcl := congrArg (fun x : State => { x with pcl := (fetched s e).pcl, mem := (fetched s e).mem }) hrest
    have hmem := congrArg (fun x : State => { x with pcl := (fetched s e).pcl })
      (scrWrite_rest e a (leBytes (stLen width) v.toNat) false (fetched s e) (fetched s e).mem)
    exact hpcl.trans hmem
  case mem =>
    have hkeep : (storeScratch e a (stLen width) v (fetched s e)).mem
        = (scrWrite e a (leBytes (stLen width) v.toNat) false (fetched s e)).mem :=
      freeSlots_unchanged (g := State.mem) (fun _ _ => rfl) ..
    rw [State.mem_setEng, hkeep]
    exact mem_scrWrite_rest ..
  case clus => rw [State.pcl_clus_setEng, storeScratch, hclus, pcl_scrWrite]
  case ctxs => rw [State.pcl_ctxs_setEng, storeScratch, hctxs, pcl_scrWrite]
  case engs => rw [State.eng_setEng_of_ne _ _ _ _ he, storeScratch, hengs e' he, eng_scrWrite]
  case gregs =>
    refine (hgreg k hk).trans ?_
    rw [State.greg, pcl_scrWrite, State.greg]

end Sys2Proof.Machine

open Sys2Proof Sys2Proof.Machine Sys2Proof.Claims

/-- Settles O20: after the checks of its access LDX writes the bytes of scratch, extended, unless a word is poisoned, and
STX stores its bytes. -/
theorem scratchLoadsAndStores : Obligations.ScratchLoadsAndStores := by
  unfold Obligations.ScratchLoadsAndStores
  intro s e width sw rd ra imm a bad
  have haddr : (fetched s e).memAddr e ra imm = a := by simp only [State.memAddr, immS, gr_fetched, a]
  refine ⟨fun h => ?ldx, fun h => ?stx⟩
  case ldx =>
    refine checked_of_rangeAlign h rfl
      (g := fun u => if u.scrPoisoned e a (ldBytes width) then raiseFault e 0x0D a 0 u
        else finish e (setGr e rd (ldExt width (leNat (u.scrBytes e a (ldBytes width)))) u))
      (by rw [withAddr, haddr, ldxOp, ldBytes_eq]) (fun hin _ hf => ?_)
    have hbad : (fetched s e).scrPoisoned e a (ldBytes width) = bad := by
      simp only [ldBytes_eq, scrPoisoned_of_in _ _ hin, scrPoisonAt_fetched, bad]
    have hbytes : leNat ((fetched s e).scrBytes e a (ldBytes width)) = scratchNat s e a (ldLen width) := by
      simp only [ldBytes_eq, scrBytes_of_in _ _ hin, scrByte_fetched, scratchNat]
    simp only [hbad, hbytes, ldExt_eq] at hf
    refine ⟨fun hpoison => traps_of_raiseFault h rfl ?_, fun hsound => completes_writing_setGr h rfl ?_⟩
    · rw [hf, if_pos hpoison]
    · rw [hf, if_neg (by rw [hsound]; exact Bool.false_ne_true), finish, eng_setGr, eng_fetched]
  case stx =>
    refine checked_of_rangeAlign h rfl (g := fun u => finish e (storeScratch e a (stLen sw) (s.gr e rd) u))
      (by rw [withStore, haddr, gr_fetched, stxOp, stBytes_eq]; rfl) (fun hin halign hf => ⟨_, exec_of_runs h rfl hf, ?_⟩)
    obtain ⟨-, hready, -, hcut, -⟩ := h
    exact stored_finish (s.gr e rd) hin halign hready hcut
end

section
/-!
PROOF. Packets of an engine (R127, R128, R173): the request that a stalled engine waits for, and the posted packet with
which an instruction completes.
-/
namespace Sys2Proof.Machine

open Sys2Proof.Claims

/-! ## What a fetch leaves -/

/-- A fetch changes at most memory, registers, configuration and its reports, domains and outputs. -/
theorem fetched_rest (s : State) (e : Nat) (m : MemGrp) (r : RegGrp) (po : PortGrp) (er : ErrGrp) (pw : PwrGrp)
    (o : List Out) :
    { fetched s e with mem := m, reg := r, port := po, err := er, pwr := pw, out := o }
      = { s with mem := m, reg := r, port := po, err := er, pwr := pw, out := o } := by
  have hat (k : Nat) (s : State) : { aerCorrectedAt k s with mem := m, reg := r, port := po, err := er, pwr := pw, out := o }
      = { s with mem := m, reg := r, port := po, err := er, pwr := pw, out := o } := by
    unfold aerCorrectedAt when
    dsimp only
    repeat' split
    all_goals rfl
  have hcorrect (c k : Nat) (s : State) :
      { psCorrect c k s with mem := m, reg := r, port := po, err := er, pwr := pw, out := o }
        = { s with mem := m, reg := r, port := po, err := er, pwr := pw, out := o } := by
    unfold psCorrect
    split
    · exact (hat 1 _).trans (hat 0 _)
    · rfl
  unfold fetched
  split
  · exact (hcorrect ..).trans (hcorrect ..)
  · exact hcorrect ..

@[simp] theorem arb_fetched (s : State) (e : Nat) : (fetched s e).arb = s.arb := by
  have h := congrArg State.arb (fetched_rest s e {} {} {} {} {} [])
  exact h

@[simp] theorem fn_fetched (s : State) (e : Nat) : (fetched s e).fn = s.fn := by
  have h := congrArg State.fn (fetched_rest s e {} {} {} {} {} [])
  exact h

@[simp] theorem fencedAt_fetched (s : State) (e e' fn : Nat) : (fetched s e).fencedAt e' fn = s.fencedAt e' fn := by
  simp only [State.fencedAt, State.under, State.fenced, fn_fetched]

@[simp] theorem clu_fetched (s : State) (e c : Nat) : (fetched s e).clu c = s.clu c := by
  simp only [State.clu, pcl_fetched]

@[simp] theorem ctx_fetched (s : State) (e k : Nat) : (fetched s e).ctx k = s.ctx k := by
  simp only [State.ctx, pcl_fetched]

/-! ## Sending -/

theorem arb_of_onlyEngine {u v : State} {e : Nat} (h : onlyEngine u v e) : v.arb = u.arb := by
  obtain ⟨hrest, -⟩ := h
  have harb := congrArg State.arb hrest
  exact harb

theorem slotFree_of_onlyEngine {u v : State} {e : Nat} (h : onlyEngine u v e)
    (hout : (v.eng e).outq = (u.eng e).outq) : v.slotFree e = u.slotFree e := by
  simp only [State.slotFree, State.arbiter, arb_of_onlyEngine h, hout]

/-- Sending changes of its engine only what waits for the slot. -/
theorem eng_engSend (e : Nat) (p : Packet) (s : State) :
    (engSend e p s).eng e = { s.eng e with outq := ((engSend e p s).eng e).outq } := by
  unfold engSend
  split
  · rfl
  · rw [State.eng_setEng]

theorem eng_engSend_of_ne {e e' : Nat} (p : Packet) (s : State) (h : e' ≠ e) : (engSend e p s).eng e' = s.eng e' := by
  unfold engSend
  split
  · rfl
  · rw [State.eng_setEng_of_ne _ _ _ _ h]

theorem clus_engSend (e : Nat) (p : Packet) (s : State) : (engSend e p s).pcl.clus = s.pcl.clus := by
  unfold engSend
  split <;> rfl

theorem isRaise_eq (p : Packet) : isRaise p = decide (p.ty = 0x12) := by rw [isRaise, beq_eq_decide]

/-- A packet sent after a change of its engine alone, which keeps what waits for the slot, is handed on. -/
theorem hands_engSend {u v : State} {e : Fin 64} (p : Packet) (honly : onlyEngine u v e)
    (hout : (v.eng e).outq = (u.eng e).outq) : hands u (engSend e p v) e p := by
  have hfree := slotFree_of_onlyEngine honly hout
  have harb := arb_of_onlyEngine honly
  obtain ⟨hrest, -, hctxs, hengs, hgreg⟩ := honly
  have hrest' (pc : PclGrp) (ar : ArbGrp) : { v with pcl := pc, arb := ar } = { u with pcl := pc, arb := ar } := by
    have h := congrArg (fun x : State => { x with pcl := pc, arb := ar }) hrest
    exact h
  unfold engSend
  by_cases hgo : u.slotFree e = true ∧ p.ty ≠ 0x12
  · obtain ⟨hslot, hty⟩ := hgo
    rw [if_pos (by rw [hfree, hslot, isRaise_eq]; simpa using hty)]
    refine ⟨?_, fun a ha => ?_, ?_, ?_, hctxs, hengs, hgreg⟩
    · rw [if_pos ⟨hslot, hty⟩]
      refine ⟨hout, ?_⟩
      rw [request, clOf, State.arbiter_setArbiter, State.arbiter, harb, State.arbiter]
    · rw [request, clOf, State.arbiter_setArbiter_of_ne _ _ _ _ ha, State.arbiter, harb, State.arbiter]
    · rw [← harb]; rfl
    · exact hrest' u.pcl u.arb
  · rw [if_neg (by rw [hfree, isRaise_eq]; simpa [Classical.or_iff_not_imp_left] using hgo)]
    refine ⟨?_, fun a ha => ?_, ?_, hrest' u.pcl u.arb, hctxs,
      fun e' he => (State.eng_setEng_of_ne _ _ _ _ he).trans (hengs e' he), hgreg⟩
    · rw [if_neg hgo, State.eng_setEng, hout]
      exact ⟨rfl, congrArg (fun x : ArbGrp => mget {} x.arbs (20 + e.val / 8)) harb⟩
    · exact congrArg (fun x : ArbGrp => mget {} x.arbs a) harb
    · rw [State.arb_setEng, harb]

theorem hands_setEng {u t : State} {e : Fin 64} {p : Packet} {y : Eng} (h : hands u t e p)
    (hy : y.outq = (t.eng e).outq) : hands u (t.setEng e y) e p := by
  obtain ⟨hgo, harbs, harb, hrest, hctxs, hengs, hgreg⟩ := h
  refine ⟨?_, harbs, harb, hrest, hctxs, fun e' he => (State.eng_setEng_of_ne _ _ _ _ he).trans (hengs e' he), hgreg⟩
  rwa [State.eng_setEng, hy]

/-! ## The form of a packet -/

/-- What a packet has of its class, its ends, its function and its tag. -/
def head (p : Packet) : Nat × Nat × Nat × Nat × Nat × Nat := (p.cls, p.ty, p.src, p.dst, p.fn, p.tag)

/-- A data packet made from `engPkt` is a packet of the engine. -/
theorem isReq_of_head {s : State} {e : Fin 64} {p : Packet} {cls ty dst : Nat} (hcls : cls ≠ 3)
    (h : head p = head ((fetched s e).engPkt e cls ty dst)) :
    isReq s e p cls ty dst p.asp p.addr p.len p.data p.xv p.swap := by
  simp only [head, State.engPkt, State.mkPkt, if_neg hcls, eng_fetched, Prod.mk.injEq] at h
  obtain ⟨h1, h2, h3, h4, h5, h6⟩ := h
  exact ⟨h1, h2, h3, h4, h5, h6, rfl, rfl, rfl, rfl, rfl, rfl⟩

/-! ## Stalling and posting -/

theorem eng_notePosted (e dst : Nat) (s : State) : (notePosted e dst s).eng e = { s.eng e with
    posted := if (s.eng e).posted.contains dst then (s.eng e).posted else (s.eng e).posted ++ [dst] } := by
  unfold notePosted
  dsimp only
  split
  · rfl
  · rw [State.eng_setEng]

theorem onlyEngine_notePosted {u v : State} {e : Nat} (h : onlyEngine u v e) (dst : Nat) :
    onlyEngine u (notePosted e dst v) e := by
  unfold notePosted
  dsimp only
  split
  · exact h
  · exact onlyEngine_setEng h _

theorem gregs_notePosted (e dst : Nat) (s : State) : (notePosted e dst s).pcl.gregs = s.pcl.gregs := by
  unfold notePosted
  dsimp only
  split <;> rfl

section
variable {c : Instr} {s : State} {e : Fin 64} {i : Soref} {f : Nat → State → State} (h : runs s e i)
  (hexec : exec c s = soref e i f s)
include h hexec

theorem stallsFor_of_block {st : Stall} {p : Packet} {cls ty dst asp addr len : Nat} {data : List Byte} {xv swap : Nat}
    (hf : f e (fetched s e) = block e st p (fetched s e)) (hp : isReq s e p cls ty dst asp addr len data xv swap) :
    stallsFor c s e st (s.eng e) cls ty dst asp addr len data xv swap := by
  obtain ⟨-, -, -, hdst, -, -, -, haddr, -⟩ := id hp
  refine ⟨_, p, exec_of_runs h hexec hf, hp, keepsRegs_of_gregs e ?_, ?_, ?_, ?_⟩
  · rw [block, gregs_engSend, State.pcl_gregs_setEng, pcl_fetched]
  · rw [block, eng_engSend, State.eng_setEng, eng_fetched, hdst, haddr]
  · exact hands_engSend p (onlyEngine_setEng (onlyEngine_refl _ e) _) (by rw [State.eng_setEng])
  · rw [block, clus_engSend, State.pcl_clus_setEng, pcl_fetched]

/-- A posted packet sent by an engine in state `x`, which differs from what it was in neither place, count, noted
destinations nor what waits, completes its instruction. -/
theorem postsA_of_post {v : State} {x : Eng} {p : Packet} {cls ty dst asp addr len : Nat} {data : List Byte}
    {xv swap : Nat} (hf : f e (fetched s e) = post e p v) (hp : isReq s e p cls ty dst asp addr len data xv swap)
    (honly : onlyEngine (fetched s e) v e) (hgregs : v.pcl.gregs = s.pcl.gregs) (heng : v.eng e = x)
    (hsame : x.pc = (s.eng e).pc ∧ x.icnt = (s.eng e).icnt ∧ x.posted = (s.eng e).posted ∧ x.outq = (s.eng e).outq
      ∧ x.cutPend = (s.eng e).cutPend) :
    postsA c s e x cls ty dst asp addr len data xv swap := by
  obtain ⟨-, -, -, hdst, -⟩ := id hp
  have ht := exec_of_runs h hexec hf
  obtain ⟨-, -, -, hcut, -⟩ := h
  obtain ⟨hpc, hicnt, hposted, hout, hsameCut⟩ := hsame
  have hnoted : onlyEngine (fetched s e) (notePosted e p.dst v) e := onlyEngine_notePosted honly p.dst
  have hsent : (engSend e p (notePosted e p.dst v)).eng e = { x with
      posted := if x.posted.contains p.dst then x.posted else x.posted ++ [p.dst]
      outq := ((engSend e p (notePosted e p.dst v)).eng e).outq } := by
    rw [eng_engSend, eng_notePosted, heng]
  have hclus : (engSend e p (notePosted e p.dst v)).pcl.clus = s.pcl.clus := by
    obtain ⟨-, hkeep, -⟩ := hnoted
    rw [clus_engSend, hkeep, pcl_fetched]
  have hregs : (engSend e p (notePosted e p.dst v)).pcl.gregs = s.pcl.gregs := by
    rw [gregs_engSend, gregs_notePosted, hgregs]
  have hhands : hands (fetched s e) (engSend e p (notePosted e p.dst v)) e p :=
    hands_engSend p hnoted (by rw [eng_notePosted, heng, eng_fetched]; exact hout)
  have hwaits : v.slotFree e = (fetched s e).slotFree e :=
    slotFree_of_onlyEngine honly (by rw [heng, eng_fetched, hout])
  have hfinish : finish e (engSend e p (notePosted e p.dst v)) = (engSend e p (notePosted e p.dst v)).setEng e
      { x with
        posted := if x.posted.contains p.dst then x.posted else x.posted ++ [p.dst]
        outq := ((engSend e p (notePosted e p.dst v)).eng e).outq
        icnt := min (x.icnt + 1) 0xFFFFFFFF, pc := (x.pc + 1) % 2 ^ 17, stall := .none } := by
    rw [finish, finishAt_of_no_cut _ (by rw [hsent]; exact hsameCut.trans hcut), hsent]
  simp only [post, hwaits, hfinish] at ht
  generalize engSend e p (notePosted e p.dst v) = w at *
  refine ⟨_, p, ht, hp, keepsRegs_of_gregs e ?_, ?_, ?_, ?_⟩
  · split <;> simpa only [State.pcl_gregs_setEng] using hregs
  · rw [← hpc, ← hicnt, ← hposted, ← hdst]
    cases (fetched s e).slotFree e <;> simp
  · split
    · exact hands_setEng (hands_setEng hhands rfl) (by simp)
    · exact hands_setEng hhands rfl
  · split <;> simpa only [State.pcl_clus_setEng] using hclus

end

end Sys2Proof.Machine
end

section
/-!
PROOF. Accesses to staging memory and control space, atomics, closing writes, unit messages and interrupts (R189 to R194,
R219, R222, R225).
-/
namespace Sys2Proof.Machine

open Sys2Proof.Claims

/-! ## Loads and atomics -/

section
variable {c : Instr} {s : State} {e : Fin 64} {i : Soref} {f : Nat → State → State} (h : runs s e i)
  (hexec : exec c s = soref e i f s)
include h hexec

/-- Under the reset fence an access writes all ones; else the engine stalls for the reply to its request (R137). -/
theorem refused_or_stallsFor {rd : Fin 32} {st : Stall} {p : Packet} {cls ty dst asp addr len : Nat} {data : List Byte}
    (hf : f e (fetched s e) = if (fetched s e).fencedAt e ((fetched s e).eng e).fn then
        finish e (setGr e rd allOnes (fetched s e)) else block e st p (fetched s e))
    (hp : isReq s e p cls ty dst asp addr len data) :
    (shut s e → gives c s e rd (BitVec.allOnes 64) (s.eng e).flags)
      ∧ (open_ s e → stallsFor c s e st (s.eng e) cls ty dst asp addr len data) := by
  rw [fencedAt_fetched, eng_fetched] at hf
  refine ⟨fun hshut => completes_writing_setGr h hexec (hf.trans ?_), fun hopen => stallsFor_of_block h hexec (hf.trans ?_) hp⟩
  · rw [if_pos hshut, finish, eng_setGr, eng_fetched]
    rfl
  · rw [if_neg (by rw [show s.fencedAt e (s.eng e).fn = false from hopen]; exact Bool.false_ne_true)]

/-- Under the reset fence a posted instruction only goes on; else it posts its packet (R137). -/
theorem skips_or_posts {p : Packet} {cls ty dst asp addr len : Nat} {data : List Byte}
    (hf : f e (fetched s e) = if (fetched s e).fencedAt e ((fetched s e).eng e).fn then finish e (fetched s e)
      else post e p (fetched s e))
    (hp : isReq s e p cls ty dst asp addr len data) :
    (shut s e → goesTo c s e ((s.eng e).pc + 1) (s.eng e))
      ∧ (open_ s e → postsA c s e (s.eng e) cls ty dst asp addr len data) := by
  rw [fencedAt_fetched, eng_fetched] at hf
  refine ⟨fun hshut => goesTo_of_finish h hexec (hf.trans (if_pos hshut)), fun hopen => ?_⟩
  refine postsA_of_post h hexec (hf.trans (if_neg ?_)) hp (onlyEngine_refl _ e) (by rw [pcl_fetched]) (eng_fetched ..)
    ⟨rfl, rfl, rfl, rfl, rfl⟩
  rw [show s.fencedAt e (s.eng e).fn = false from hopen]
  exact Bool.false_ne_true

end

theorem ldWide_eq (width : LdWidth) : ldWide width = (width == .w || width == .sw || width == .d) := by
  cases width <;> rfl

theorem stWide_eq (width : StWidth) : stWide width = (width == .w || width == .d) := by cases width <;> rfl

/-- The request of an atomic of type `ty` with the given operands. -/
theorem isReq_atomic (s : State) (e : Fin 64) (ty a n : Nat) (vals : List Word) :
    isReq s e { ((fetched s e).engPkt e 0 ty (bankNi a)).span 3 a n with
      data := vals.flatMap (fun v => leBytes n v.toNat) } 0 ty (bankOf a) 3 a n (vals.flatMap (fun v => leBytes n v.toNat)) :=
  isReq_of_head (by norm_num) rfl

theorem isReq_load (s : State) (e : Fin 64) (asp dst a n : Nat) :
    isReq s e (((fetched s e).engPkt e 0 0x00 dst).span asp a n) 0 0x00 dst asp a n [] :=
  isReq_of_head (by norm_num) rfl

theorem isReq_store (s : State) (e : Fin 64) (asp dst a n : Nat) (data : List Byte) :
    isReq s e { ((fetched s e).engPkt e 1 0x10 dst).span asp a n with data := data } 1 0x10 dst asp a n data :=
  isReq_of_head (by norm_num) rfl

/-- An atomic is checked, and refused under the fence or stalled for. -/
theorem checked_of_atomOp {c : Instr} {s : State} {e : Fin 64} {i : Soref} {f : Nat → State → State} (h : runs s e i)
    (hexec : exec c s = soref e i f s) {ty a : Nat} {d : Bool} {rd : Fin 32} {vals : List Word} {data : List Byte}
    (hf : f e (fetched s e) = atomOp ty d rd a vals e (fetched s e))
    (hdata : vals.flatMap (fun v => leBytes (atomBytes d) v.toNat) = data) :
    checked c s e 0x4000000 a (atomBytes d)
      ((shut s e → gives c s e rd (BitVec.allOnes 64) (s.eng e).flags)
        ∧ (open_ s e → stallsFor c s e (.atomic rd d) (s.eng e) 0 ty (bankOf a) 3 a (atomBytes d) data)) := by
  refine checked_of_rangeAlign h hexec (g := fun u =>
      if u.fencedAt e (u.eng e).fn then finish e (setGr e rd allOnes u)
      else block e (.atomic rd d) { (u.engPkt e 0 ty (bankNi a)).span 3 a (atomBytes d) with
        data := vals.flatMap (fun v => leBytes (atomBytes d) v.toNat) } u)
    hf fun _ _ hf => refused_or_stallsFor h hexec hf ?_
  rw [← hdata]
  exact isReq_atomic ..

/-! ## Closing writes (R218, R219) -/

/-- Where a LOCK or UNLOCK at `a` goes. -/
def lockGoal (s : State) (e : Nat) (sp : LockSpace) (a : Nat) : LockTarget :=
  match sp with
  | .stg => { dst := bankNi a, asp := 3 }
  | .loc => { dst := s.portNi (xwPort (s.gr e 20)), asp := 2, xv := xwXv (s.gr e 20), swap := xwSwap (s.gr e 20) }

theorem lockPlace_eq (s : State) (e : Fin 64) (sp : LockSpace) (a : Nat) :
    lockPlace s e sp a = ((lockGoal (fetched s e) e sp a).dst, (lockGoal (fetched s e) e sp a).asp,
      (lockGoal (fetched s e) e sp a).xv, (lockGoal (fetched s e) e sp a).swap) := by
  cases sp
  · rfl
  · simp only [lockPlace, lockGoal, gr_fetched]
    rfl

theorem lockBytes_eq (width : LockWidth) : lockBytes width = lockLen width := by cases width <;> rfl

/-- An instruction whose effect is `lockCheck` has the faults of LOCK and UNLOCK, and else the effect `g`. -/
theorem lockChecked_of_lockCheck {c : Instr} {s : State} {e : Fin 64} {i : Soref} {f : Nat → State → State}
    (h : runs s e i) (hexec : exec c s = soref e i f s) {width : LockWidth} {sp : LockSpace} {a : Nat}
    {g : LockTarget → State → State} {ok : Prop}
    (hf : f e (fetched s e) = lockCheck width sp a e g (fetched s e))
    (hok : f e (fetched s e) = g (lockGoal (fetched s e) e sp a) (fetched s e) → ok) :
    lockChecked c s e width sp a ok := by
  cases sp with
  | stg =>
    refine ⟨fun hastray => absurd hastray.1 (by decide), fun _ => ?_⟩
    exact checked_of_rangeAlign h hexec (hf.trans (by rw [lockCheck, lockBytes_eq]; rfl)) fun _ _ => hok
  | loc =>
    have hastray : lockAstray s e .loc a ↔ xwXst ((fetched s e).gr e 20) ≠ 0 ∨ a / 2 ^ 24 ≠ xwLaddr ((fetched s e).gr e 20) / 2 ^ 24 := by
      simp only [lockAstray, true_and, gr_fetched]
      rfl
    refine ⟨fun hout => ?_, fun hin => ?_⟩
    · exact traps_of_raiseFault h hexec (hf.trans (by rw [lockCheck]; exact if_pos (hastray.mp hout)))
    · refine checked_of_rangeAlign h hexec (hf.trans ?_) fun _ _ => hok
      rw [lockCheck, lockBytes_eq]
      exact if_neg (fun h => hin (hastray.mpr h))

theorem asp_lockGoal_beq (s : State) (e : Nat) (sp : LockSpace) (a : Nat) :
    ((lockGoal s e sp a).asp == 2) = (sp == .loc) := by
  cases sp <;> rfl

/-- The write of an UNLOCK. -/
def unlockPkt (s : State) (e : Nat) (rs : Fin 32) (n a : Nat) (t : LockTarget) : Packet :=
  { s.lockPkt e 1 0x11 n a t with data := leBytes n (s.grBytes e rs.val n), stamp := s.stampAt (clNi e) }

theorem grBytes_fetched (s : State) (e e' r n : Nat) : (fetched s e).grBytes e' r n = s.grBytes e' r n := by
  simp only [State.grBytes, gr_fetched]

theorem isReq_unlock (s : State) (e : Fin 64) (rs : Fin 32) (n a : Nat) (t : LockTarget) :
    isReq s e (unlockPkt (fetched s e) e rs n a t) 1 0x11 t.dst t.asp a n (leBytes n (s.grBytes e rs n)) t.xv t.swap := by
  rw [← grBytes_fetched s e e rs n]
  exact isReq_of_head (by norm_num) rfl

/-- UNLOCK of anything but the open belay. -/
theorem unlockOp_refuses {s : State} {e : Fin 64} {sp : LockSpace} {a : Nat} :
    (!((fetched s e).eng e).belay || ((fetched s e).eng e).belayTarget != (lockGoal (fetched s e) e sp a).dst
      || ((fetched s e).eng e).belayLoc != ((lockGoal (fetched s e) e sp a).asp == 2)
      || (fetched s e).fencedAt e ((fetched s e).eng e).fn) = true ↔ ¬closes s e sp a := by
  simp only [closes, lockPlace_eq, open_, eng_fetched, fencedAt_fetched, asp_lockGoal_beq]
  simp only [Bool.or_eq_true, Bool.not_eq_true', bne_iff_ne, ne_eq]
  grind

/-! ## Unit messages and interrupts (R222, R225) -/

theorem unitNi_fetched (s : State) (e : Fin 64) (u : Nat) : (fetched s e).unitNi u = unitAt s e u := by
  unfold State.unitNi unitAt
  split <;> split <;> grind

end Sys2Proof.Machine

open Sys2Proof Sys2Proof.Machine Sys2Proof.Claims

/-- Settles O17: after the checks of its access each is a load or an atomic, refused under the fence or stalled. -/
theorem loadsAndAtomicsStallForTheirReply : Obligations.LoadsAndAtomicsStallForTheirReply := by
  unfold Obligations.LoadsAndAtomicsStallForTheirReply
  intro s e width d rd ra rb imm x a m k b all wide
  have haddr : (fetched s e).memAddr e ra imm = a := by simp only [State.memAddr, immS, gr_fetched, a]
  refine ⟨fun h => ?ldg, fun h => ?ldc, fun h => ?fadd, fun h => ?swp, fun h => ?cas⟩
  case ldg =>
    refine checked_of_rangeAlign h rfl (g := loadFrom width rd 3 (bankNi a) a e)
      (by rw [withAddr, haddr, ldgOp, ldBytes_eq]) fun _ _ hf => refused_or_stallsFor h rfl hf ?_
    rw [ldBytes_eq]
    exact isReq_load ..
  case ldc =>
    refine ctlChecked_of_ctlChecks h rfl (g := loadFrom width rd 4 (ownerNi a) a e)
      (by rw [withAddr, haddr, ldcOp, ldBytes_eq, ldWide_eq]) fun _ _ hf => refused_or_stallsFor h rfl hf ?_
    rw [ldBytes_eq]
    exact isReq_load ..
  case fadd => exact checked_of_atomOp h rfl (by simp only [reg2, gr_fetched, m]) (List.flatMap_singleton ..)
  case swp => exact checked_of_atomOp h rfl (by simp only [reg2, gr_fetched, m]) (List.flatMap_singleton ..)
  case cas =>
    refine checked_of_atomOp (vals := [s.gr e rd, s.gr e rb]) h rfl (by simp only [reg2, reg1, gr_fetched, m]) ?_
    rw [List.flatMap_cons, List.flatMap_singleton]
    rfl
end

section
/-!
PROOF. Posted instructions (R128, R219, R222, R225): each one's checks, and the packet that it posts.
-/
namespace Sys2Proof.Machine

open Sys2Proof.Claims

theorem inq_pfr (at_ : Nat) (p : Packet) (cause info : Nat) (s : State) :
    ∃ r, (pfr at_ p cause info s).inq (25 * at_ + 24) = s.inq (25 * at_ + 24) ++ [r] ∧ r.dst = 41 ∧ r.addr % 16 = 6
      ∧ r.fn = p.fn := by
  refine ⟨{ notice at_ 41 6 0 at_ p.fn (pfrBytes at_ p cause info) with born := s.now }, ?_, rfl, ?_, rfl⟩
  · exact State.inq_setInq ..
  · simp only [notice]
    omega

section
variable {c : Instr} {s : State} {e : Fin 64} {i : Soref} {f : Nat → State → State} (h : runs s e i)
  (hexec : exec c s = soref e i f s)
include h hexec

/-- An UNLOCK that its belay does not await is refused into the posted-fault ring and completes. -/
theorem completes_refused {p : Packet} (hf : f e (fetched s e) = finish e (pfr (clNi e) p 8 0 (fetched s e)))
    (hfn : p.fn = (s.eng e).fn) :
    ∃ t r, exec c s = .next t ∧ keepsRegs s t e ∧ t.pcl.clus = s.pcl.clus ∧ t.arb = s.arb
      ∧ t.inq (25 * clNi e + 24) = (fetched s e).inq (25 * clNi e + 24) ++ [r] ∧ r.dst = 41 ∧ r.addr % 16 = 6
      ∧ r.fn = (s.eng e).fn
      ∧ t.eng e = { s.eng e with pc := ((s.eng e).pc + 1) % 2 ^ 17, icnt := min ((s.eng e).icnt + 1) 0xFFFFFFFF } := by
  have ht := exec_of_runs h hexec hf
  obtain ⟨-, hready, -, hcut, -⟩ := h
  obtain ⟨r, hinq, hdst, haddr, hrfn⟩ := inq_pfr (clNi e) p 8 0 (fetched s e)
  have heng : (pfr (clNi e) p 8 0 (fetched s e)).eng e = s.eng e := eng_fetched ..
  have hpcl : (pfr (clNi e) p 8 0 (fetched s e)).pcl = s.pcl := pcl_fetched ..
  have harb : (pfr (clNi e) p 8 0 (fetched s e)).arb = s.arb := arb_fetched ..
  rw [finish, finishAt_of_no_cut _ (by rwa [heng]), heng] at ht
  refine ⟨_, r, ht, keepsRegs_of_gregs e ?_, ?_, ?_, hinq, hdst, haddr, hrfn.trans hfn, ?_⟩
  · rw [State.pcl_gregs_setEng, hpcl]
  · rw [State.pcl_clus_setEng, hpcl]
  · rw [State.arb_setEng, harb]
  · rw [State.eng_setEng, ← stall_of_ready hready]

/-- UNLOCK closes the belay that awaits it, and else is refused. -/
theorem unlock_closes_or_refused {rs : Fin 32} {sp : LockSpace} {n a : Nat}
    (hf : f e (fetched s e) =
      if (!((fetched s e).eng e).belay || ((fetched s e).eng e).belayTarget != (lockGoal (fetched s e) e sp a).dst
          || ((fetched s e).eng e).belayLoc != ((lockGoal (fetched s e) e sp a).asp == 2)
          || (fetched s e).fencedAt e ((fetched s e).eng e).fn) = true then
        finish e (pfr (clNi e) (unlockPkt (fetched s e) e rs n a (lockGoal (fetched s e) e sp a)) 8 0 (fetched s e))
      else post e (unlockPkt (fetched s e) e rs n a (lockGoal (fetched s e) e sp a))
        ((fetched s e).setEng e { (fetched s e).eng e with belay := false })) :
    (closes s e sp a → postsA c s e { s.eng e with belay := false } 1 0x11 (lockPlace s e sp a).1
        (lockPlace s e sp a).2.1 a n (leBytes n (s.grBytes e rs n)) (lockPlace s e sp a).2.2.1 (lockPlace s e sp a).2.2.2)
      ∧ (¬closes s e sp a → ∃ t r, exec c s = .next t ∧ keepsRegs s t e ∧ t.pcl.clus = s.pcl.clus ∧ t.arb = s.arb
        ∧ t.inq (25 * clNi e + 24) = (fetched s e).inq (25 * clNi e + 24) ++ [r] ∧ r.dst = 41 ∧ r.addr % 16 = 6
        ∧ r.fn = (s.eng e).fn
        ∧ t.eng e = { s.eng e with
            pc := ((s.eng e).pc + 1) % 2 ^ 17, icnt := min ((s.eng e).icnt + 1) 0xFFFFFFFF }) := by
  refine ⟨fun hcloses => ?_, fun hnot => ?_⟩
  · rw [if_neg (fun hr => unlockOp_refuses.mp hr hcloses)] at hf
    rw [lockPlace_eq]
    exact postsA_of_post h hexec hf (isReq_unlock ..) (onlyEngine_setEng (onlyEngine_refl _ e) _)
      (by rw [State.pcl_gregs_setEng, pcl_fetched]) (by rw [State.eng_setEng, eng_fetched]) ⟨rfl, rfl, rfl, rfl, rfl⟩
  · rw [if_pos (unlockOp_refuses.mpr hnot)] at hf
    exact completes_refused h hexec hf (congrArg Eng.fn (eng_fetched ..))

/-- RAISE and RAISER of vector `v` (R225). -/
theorem raises_of_raiseOp {v : Word} (hf : f e (fetched s e) = raiseOp v e (fetched s e)) :
    (2 ^ 11 ≤ v.toNat → traps c s e 4 v.toNat 0)
      ∧ (v.toNat < 2 ^ 11 → (shut s e → goesTo c s e ((s.eng e).pc + 1) (s.eng e))
        ∧ (open_ s e → postsA c s e (s.eng e) 1 0x12 39 0 v.toNat 0 [])) := by
  refine ⟨fun hout => traps_of_raiseFault h hexec (hf.trans (if_pos hout)), fun hin => ?_⟩
  exact skips_or_posts h hexec (hf.trans (if_neg (by omega))) (isReq_of_head (by norm_num) rfl)

end

theorem msgBytes_eq (s : State) (e : Fin 64) :
    (List.range 7).flatMap (fun i => leBytes 8 ((fetched s e).gr e (16 + i)).toNat) = msgBytes s e := by
  simp only [gr_fetched]
  rfl

end Sys2Proof.Machine

open Sys2Proof Sys2Proof.Machine Sys2Proof.Claims

/-- Settles O19: after its checks each posts one packet, is skipped under the fence, or, for a stray UNLOCK, refused. -/
theorem postedInstructionsGoOn : Obligations.PostedInstructionsGoOn := by
  unfold Obligations.PostedInstructionsGoOn
  intro s e width lw sp rs ra imm u v x a m at_ bytes skips intr
  have haddr : (fetched s e).memAddr e ra imm = a := by simp only [State.memAddr, immS, gr_fetched, a]
  refine ⟨fun h => ?stg, fun h => ?stc, fun h => ?unlock, fun h => ?umsg, fun h => ?raise, fun h => ?raiser⟩
  case stg =>
    refine checked_of_rangeAlign h rfl (g := storeTo width (s.gr e rs) 3 (bankNi a) a e)
      (by rw [withStore, haddr, gr_fetched, stgOp, stBytes_eq]) fun _ _ hf => skips_or_posts h rfl hf ?_
    rw [stBytes_eq]
    exact isReq_store ..
  case stc =>
    refine ctlChecked_of_ctlChecks h rfl (g := storeTo width (s.gr e rs) 4 (ownerNi a) a e)
      (by rw [withStore, haddr, gr_fetched, stcOp, stBytes_eq, stWide_eq]) fun _ _ hf => skips_or_posts h rfl hf ?_
    rw [stBytes_eq]
    exact isReq_store ..
  case unlock =>
    refine lockChecked_of_lockCheck h rfl (by rw [reg1, gr_fetched, unlockOp]) fun hf => ?_
    refine unlock_closes_or_refused h rfl (hf.trans ?_)
    rw [lockBytes_eq]
    rfl
  case umsg =>
    have hf : umsgOp u.toNat e (fetched s e) = umsgOp u.toNat e (fetched s e) := rfl
    conv_rhs at hf => rw [umsgOp, unitNi_fetched]
    split
    case h_1 hnone => exact traps_of_raiseFault h rfl (hf.trans (by rw [hnone]))
    case h_2 ni hsome =>
      rw [hsome, msgBytes_eq] at hf
      exact skips_or_posts h rfl hf (isReq_of_head (by norm_num) rfl)
  case raise =>
    have hv : (v.setWidth 64).toNat = v.toNat := by rw [BitVec.toNat_setWidth, Nat.mod_eq_of_lt (by omega)]
    simpa only [hv] using raises_of_raiseOp h rfl (v := v.setWidth 64) rfl
  case raiser => exact raises_of_raiseOp h rfl (by rw [reg1, gr_fetched])
end

section
/-!
PROOF. Waiting packets of an engine (R173, R226), MOVE and CTXACK (R206, R212), END (R140, R202) and FENCE.P (R217).
-/
namespace Sys2Proof.Machine

open Sys2Proof.Claims

theorem live_of_up {s : State} (h : up s) (f : State → State) : live s f = .next (f s) := by
  rw [live, show s.inPor = false from h, if_neg Bool.false_ne_true]

/-! ## Waiting packets -/

theorem exec_engineStallResume_of_up {s : State} (e : Fin 64) (h : up s) :
    exec (.engineStallResume e) s = .next (stallResume e s) := live_of_up h _

theorem exec_raiseRequestPresent_of_up {s : State} (e : Fin 64) (h : up s) :
    exec (.raiseRequestPresent e) s = .next (raisePresent e s) := live_of_up h _

@[simp] theorem eng_request (a i e : Nat) (p : Packet) (s : State) : (request a i p s).eng e = s.eng e := rfl

theorem checkCut_setEng_of_no_cut (s : State) (e : Nat) {x : Eng} (h : x.cutPend = none) :
    checkCut e (s.setEng e x) = s.setEng e x := by
  simp only [checkCut, State.eng_setEng, h]

section
variable {s : State} {e : Fin 64} (hcut : (s.eng e).cutPend = none) (hstall : (s.eng e).stall = .egress)
  (hfree : s.entryFree e = true)
include hcut hstall hfree

theorem stallResume_of_nothing (hout : (s.eng e).outq = []) :
    stallResume e s = s.setEng e { s.eng e with stall := .none } := by
  simp only [stallResume, hfree, hout, hstall, Bool.not_true, Bool.false_eq_true, if_false, beq_self_eq_true, Bool.and_true,
    if_true]
  exact checkCut_setEng_of_no_cut _ _ hcut

theorem stallResume_of_one {p : Packet} (hout : (s.eng e).outq = [p]) (hty : p.ty ≠ 0x12) :
    stallResume e s = (request (20 + clOf e) (e % 8) p (s.setEng e { s.eng e with outq := [] })).setEng e
      { s.eng e with outq := [], stall := .none } := by
  have hraise : isRaise p = false := by simpa [isRaise] using hty
  simp only [stallResume, hfree, hout, hraise, eng_request, State.eng_setEng, hstall, Bool.not_true, Bool.false_eq_true, if_false,
    beq_self_eq_true, Bool.and_true, if_true]
  exact checkCut_setEng_of_no_cut _ _ hcut

end

theorem raisePresent_of_clear {s : State} {e : Nat} {p : Packet} {rest : List Packet} (hout : (s.eng e).outq = p :: rest)
    (hty : p.ty = 0x12) (hfree : s.entryFree e = true) (hclear : s.raiseClear e p = true) :
    raisePresent e s = request (20 + clOf e) (e % 8) p (s.setEng e { s.eng e with outq := rest }) := by
  have hraise : isRaise p = true := by simp [isRaise, hty]
  simp only [raisePresent, hout, hraise, hfree, hclear, Bool.and_self, if_true]

theorem raisePresent_of_not_clear {s : State} {e : Nat} {p : Packet} {rest : List Packet}
    (hout : (s.eng e).outq = p :: rest) (h : p.ty ≠ 0x12 ∨ s.entryFree e = false ∨ s.raiseClear e p = false) :
    raisePresent e s = s := by
  have hno : (isRaise p && s.entryFree e && s.raiseClear e p) = false := by
    rw [isRaise_eq]
    obtain h | h | h := h <;> simp [h]
  simp only [raisePresent, hout, hno, Bool.false_eq_true, if_false]

end Sys2Proof.Machine

open Sys2Proof Sys2Proof.Machine Sys2Proof.Claims

/-- Settles O28: what waits takes the entry and ends the stall; a RAISE takes it only when it is clear to. -/
theorem slotWaitersGoOn : Obligations.SlotWaitersGoOn := by
  unfold Obligations.SlotWaitersGoOn
  intro s e p rest x b asked hup
  refine ⟨fun hcut hstall hfree => ⟨fun hout => ?nothing, fun hout hty => ?one⟩, fun hout hty hfree hclear => ?raises,
    fun hout hnot => ?waits⟩
  case nothing => rw [exec_engineStallResume_of_up e hup, stallResume_of_nothing hcut hstall hfree hout]
  case one =>
    refine ⟨_, exec_engineStallResume_of_up e hup, ?_⟩
    rw [stallResume_of_one hcut hstall hfree hout hty]
    exact ⟨State.eng_setEng .., rfl, rfl, fun e' he =>
      (State.eng_setEng_of_ne _ _ _ _ he).trans (State.eng_setEng_of_ne _ _ _ _ he)⟩
  case raises => rw [exec_raiseRequestPresent_of_up e hup, raisePresent_of_clear hout hty hfree hclear]; rfl
  case waits => rw [exec_raiseRequestPresent_of_up e hup, raisePresent_of_not_clear hout hnot]

namespace Sys2Proof.Machine

open Sys2Proof.Claims

/-! ## MOVE -/

@[simp] theorem desc_fetched (s : State) (e e' : Nat) : (fetched s e).desc e' = s.desc e' := by
  simp only [State.desc, gr_fetched]

@[simp] theorem freeCtx_fetched (s : State) (e c : Nat) : (fetched s e).freeCtx c = s.freeCtx c := by
  simp only [State.freeCtx, ctx_fetched]

@[simp] theorem ctxn_fetched (s : State) (e e' : Nat) : (fetched s e).ctxn e' = s.ctxn e' := by
  simp only [State.ctxn, State.owned, pcl_fetched]

@[simp] theorem pcl_setGr_ctxs (e r : Nat) (v : Word) (s : State) : (setGr e r v s).pcl.ctxs = s.pcl.ctxs := by
  unfold setGr
  split <;> rfl

@[simp] theorem pcl_setGr_clus (e r : Nat) (v : Word) (s : State) : (setGr e r v s).pcl.clus = s.pcl.clus := by
  unfold setGr
  split <;> rfl

theorem setGr_rest (e r : Nat) (v : Word) (s : State) (p : PclGrp) : { setGr e r v s with pcl := p } = { s with pcl := p } := by
  unfold setGr
  split <;> rfl

/-- An instruction that writes RD to what else it did to the pacers' state completes. -/
theorem finish_setGr_facts {u v : State} {e : Fin 64} (rd : Fin 32) (w : Word) (hcut : (v.eng e).cutPend = none)
    (hrest : { v with pcl := u.pcl } = u) (hgregs : v.pcl.gregs = u.pcl.gregs)
    (hengs : ∀ e', e' ≠ e.val → v.eng e' = u.eng e') :
    let t := finish e (setGr e rd w v)
    writes u t e rd w
      ∧ t.eng e = { v.eng e with
          pc := ((v.eng e).pc + 1) % 2 ^ 17, icnt := min ((v.eng e).icnt + 1) 0xFFFFFFFF, stall := .none }
      ∧ t.pcl.ctxs = v.pcl.ctxs ∧ t.pcl.clus = v.pcl.clus
      ∧ { t with pcl := u.pcl } = u ∧ ∀ e', e' ≠ e.val → t.eng e' = u.eng e' := by
  intro t
  have ht : t = (setGr e rd w v).setEng e { v.eng e with
      pc := ((v.eng e).pc + 1) % 2 ^ 17, icnt := min ((v.eng e).icnt + 1) 0xFFFFFFFF, stall := .none } := by
    change finish e (setGr e rd w v) = _
    rw [finish, finishAt_of_no_cut _ (by rw [eng_setGr]; exact hcut), eng_setGr]
  rw [ht]
  refine ⟨⟨by simp [State.gr], fun r _ => ?_⟩, State.eng_setEng .., ?_, ?_, ?_, fun e' he => ?_⟩
  · rw [gr_setEng, gr_setGr, gr_of_gregs hgregs]
  · rw [State.pcl_ctxs_setEng, pcl_setGr_ctxs]
  · rw [State.pcl_clus_setEng, pcl_setGr_clus]
  · exact (setGr_rest e rd w v u.pcl).trans hrest
  · rw [State.eng_setEng_of_ne _ _ _ _ he, eng_setGr, hengs e' he]

theorem writes_of_fetched {s t : State} {e : Fin 64} {rd : Fin 32} {w : Word} (h : writes (fetched s e) t e rd w) :
    writes s t e rd w := by
  obtain ⟨hzero, hall⟩ := h
  exact ⟨hzero, fun r hr => by rw [hall r hr, gr_fetched]⟩

/-- A MOVE that opens context `key`, before it completes. -/
def opened (e key : Nat) (s : State) : State :=
  (s.setClu (clOf e) { s.clu (clOf e) with nextCtx := (s.clu (clOf e)).nextCtx + 1 }).setCtx key
    (openCtx (s.desc e) ((s.desc e).fn (s.eng e).fn) e (s.clu (clOf e)).nextCtx)

theorem opened_rest (e key : Nat) (s : State) : { opened e key s with pcl := s.pcl } = s := rfl

theorem gregs_opened (e key : Nat) (s : State) : (opened e key s).pcl.gregs = s.pcl.gregs := rfl

theorem eng_opened (e key e' : Nat) (s : State) : (opened e key s).eng e' = s.eng e' := rfl

theorem ctx_opened (e key : Nat) (s : State) :
    (opened e key s).ctx key = openCtx (s.desc e) ((s.desc e).fn (s.eng e).fn) e (s.clu (clOf e)).nextCtx :=
  State.ctx_setCtx ..

theorem ctx_opened_of_ne {e key k : Nat} (s : State) (h : k ≠ key) : (opened e key s).ctx k = s.ctx k :=
  State.ctx_setCtx_of_ne _ _ _ _ h

theorem nextCtx_opened (e key : Nat) (s : State) :
    ((opened e key s).clu (clOf e)).nextCtx = (s.clu (clOf e)).nextCtx + 1 :=
  congrArg Cluster.nextCtx (State.clu_setClu s (clOf e) _)

section
variable {s : State} {e : Nat} (rd : Fin 32)

theorem moveOp_fenced (h : s.fencedAt e ((s.desc e).fn (s.eng e).fn) = true) :
    moveOp rd e s = finish e (setGr e rd 2 s) := by
  simp only [moveOp, h, if_true]
  rfl

variable (h : s.fencedAt e ((s.desc e).fn (s.eng e).fn) = false)
include h

theorem moveOp_desc (hvalid : (s.desc e).valid ((s.desc e).fn (s.eng e).fn) = false) :
    moveOp rd e s = finish e (setGr e rd 3 s) := by
  simp only [moveOp, h, hvalid, Bool.false_eq_true, if_false, Bool.not_false, if_true]
  rfl

variable (hvalid : (s.desc e).valid ((s.desc e).fn (s.eng e).fn) = true)
include hvalid

theorem moveOp_xlate (hxlate : (s.desc e).xlate = true) : moveOp rd e s = finish e (setGr e rd 4 s) := by
  simp only [moveOp, h, hvalid, hxlate, Bool.false_eq_true, if_false, Bool.not_true, if_true]
  rfl

variable (hxlate : (s.desc e).xlate = false)
include hxlate

theorem moveOp_noctx (hnone : s.freeCtx (clOf e) = none ∨ (s.eng e).ctxCap ≤ s.ctxn e) :
    moveOp rd e s = finish e (setGr e rd 1 s) := by
  simp only [moveOp, h, hvalid, hxlate, Bool.false_eq_true, if_false, Bool.not_true]
  split
  · rfl
  next key hkey =>
    have hcap : (s.eng e).ctxCap ≤ s.ctxn e := hnone.resolve_left (by rw [hkey]; exact Option.some_ne_none _)
    rw [if_pos hcap]
    rfl

theorem moveOp_opens {key : Nat} (hkey : s.freeCtx (clOf e) = some key) (hcap : s.ctxn e < (s.eng e).ctxCap) :
    moveOp rd e s = finish e (setGr e rd (BitVec.ofNat 64 (256 * (key % 512))) (opened e key s)) := by
  simp only [moveOp, h, hvalid, hxlate, hkey, Bool.false_eq_true, if_false, Bool.not_true,
    if_neg (show ¬(s.eng e).ctxCap ≤ s.ctxn e by omega)]
  rfl

end

/-! ## CTXACK -/

/-- The engine after CTXACK of its context: the next completed one is loaded. -/
def acked (x : Eng) : Eng :=
  { x with
    ctx := (x.done.head?.map (·.1)).getD 0x3FF
    ctxsts := (x.done.head?.map (·.2)).getD 0
    done := x.done.tail
    evt := if x.done = [] then x.evt &&& 0xFFFD else x.evt }

/-- What CTXACK writes to RD: TAG, the context's number and its status. -/
def ackWord (e : Nat) (s : State) : Word :=
  BitVec.ofNat 64 ((s.ctx (512 * clOf e + (s.eng e).ctx)).tag * 2 ^ 32 + (s.eng e).ctx * 256 + (s.eng e).ctxsts)

theorem ackWord_fetched (s : State) (e e' : Nat) : ackWord e' (fetched s e) = ackWord e' s := by
  rw [ackWord, eng_fetched, ctx_fetched, ackWord]

theorem cutPend_acked (x : Eng) : (acked x).cutPend = x.cutPend := rfl

/-- A CTXACK of the context in s.ctx, before it completes. -/
def ackedAt (e : Nat) (s : State) : State := (s.setCtx (512 * clOf e + (s.eng e).ctx) {}).setEng e (acked (s.eng e))

theorem ackedAt_rest (e : Nat) (s : State) : { ackedAt e s with pcl := s.pcl } = s := rfl

theorem gregs_ackedAt (e : Nat) (s : State) : (ackedAt e s).pcl.gregs = s.pcl.gregs := rfl

theorem eng_ackedAt (e : Nat) (s : State) : (ackedAt e s).eng e = acked (s.eng e) := State.eng_setEng ..

theorem eng_ackedAt_of_ne {e e' : Nat} (s : State) (h : e' ≠ e) : (ackedAt e s).eng e' = s.eng e' :=
  State.eng_setEng_of_ne _ _ _ _ h

theorem ctx_ackedAt (e : Nat) (s : State) : (ackedAt e s).ctx (512 * clOf e + (s.eng e).ctx) = {} :=
  State.ctx_setCtx s (512 * clOf e + (s.eng e).ctx) {}

theorem ctx_ackedAt_of_ne {e k : Nat} (s : State) (h : k ≠ 512 * clOf e + (s.eng e).ctx) :
    (ackedAt e s).ctx k = s.ctx k := State.ctx_setCtx_of_ne s (512 * clOf e + (s.eng e).ctx) k {} h

theorem ctxackOp_of_none {s : State} {e : Nat} (rd : Fin 32) (h : (s.eng e).ctx = 0x3FF) :
    ctxackOp rd e s = finish e (setGr e rd 0xFF s) := by
  simp only [ctxackOp, h, if_true]

theorem ctxackOp_of_some {s : State} {e : Nat} (rd : Fin 32) (h : (s.eng e).ctx ≠ 0x3FF) :
    ctxackOp rd e s = finish e (setGr e rd (ackWord e s) (ackedAt e s)) := by
  simp only [ctxackOp, if_neg h, ackWord, ackedAt, acked]
  split
  next d rest hdone => simp [hdone]
  next hdone => simp [hdone]

end Sys2Proof.Machine

/-- Settles O25: MOVE's refusals in their order, the context that it opens, and what CTXACK returns and loads. -/
theorem moveAndCtxack : Obligations.MoveAndCtxack := by
  unfold Obligations.MoveAndCtxack
  intro s e rd x d f c
  have hf : ((fetched s e).desc e).fn ((fetched s e).eng e).fn = f := by rw [desc_fetched, eng_fetched]
  have hfence {b : Bool} (h : s.fencedAt e f = b) :
      (fetched s e).fencedAt e (((fetched s e).desc e).fn ((fetched s e).eng e).fn) = b := by
    rwa [hf, fencedAt_fetched]
  have hdesc {b : Bool} (h : d.valid f = b) :
      ((fetched s e).desc e).valid (((fetched s e).desc e).fn ((fetched s e).eng e).fn) = b := by rwa [hf, desc_fetched]
  have hxl {b : Bool} (h : d.xlate = b) : ((fetched s e).desc e).xlate = b := by rwa [desc_fetched]
  have hgives {i : Instr} {j : Soref} {op : Nat → State → State} (h : runs s e j) (hexec : exec i s = soref e j op s)
      {v : Word} (hop : op e (fetched s e) = finish e (setGr e rd v (fetched s e))) : gives i s e rd v x.flags :=
    completes_writing_setGr h hexec (by rw [hop, finish, eng_setGr, eng_fetched])
  have hfetchedEng (t : State) (ht : ∀ e', e' ≠ e.val → t.eng e' = (fetched s e).eng e') (e' : Nat) (he : e' ≠ e.val) :
      t.eng e' = s.eng e' := (ht e' he).trans (eng_fetched ..)
  refine ⟨fun h => ⟨fun hfenced => ?fenced, fun ⟨hopen, hvalid⟩ => ?desc, fun ⟨hopen, hvalid, hxlate⟩ => ?xlate,
      fun ⟨hopen, hvalid, hxlate⟩ => ⟨fun hnone => ?noctx, fun key ⟨hkey, hcap⟩ => ?opens⟩⟩,
    fun h => ⟨fun hnone => ?nothing, fun hsome => ?acks⟩⟩
  case fenced => exact hgives h rfl (moveOp_fenced rd (hfence hfenced))
  case desc => exact hgives h rfl (moveOp_desc rd (hfence hopen) (hdesc hvalid))
  case xlate =>
    exact hgives h rfl (moveOp_xlate rd (hfence hopen) (hdesc hvalid)
      (hxl hxlate))
  case noctx =>
    exact hgives h rfl (moveOp_noctx rd (hfence hopen) (hdesc hvalid)
      (hxl hxlate) (by rw [freeCtx_fetched, eng_fetched, ctxn_fetched]; exact hnone))
  case opens =>
    obtain ⟨-, hready, -, hcut, -⟩ := id h
    have hop := moveOp_opens rd (hfence hopen) (hdesc hvalid) (hxl hxlate) (key := key) ((freeCtx_fetched ..).trans hkey)
      (by rw [eng_fetched, ctxn_fetched]; exact hcap)
    have ht := exec_of_runs (c := .move e rd) h rfl hop
    have heng : (opened e key (fetched s e)).eng e = s.eng e := (eng_opened ..).trans (eng_fetched ..)
    obtain ⟨hwrites, hme, hctxs, hclus, hrest, hothers⟩ := finish_setGr_facts (u := fetched s e)
      (v := opened e key (fetched s e)) rd (BitVec.ofNat 64 (256 * (key % 512))) (by rw [heng]; exact hcut)
      (opened_rest ..) (gregs_opened ..) (fun _ _ => eng_opened ..)
    generalize finish e (setGr e rd (BitVec.ofNat 64 (256 * (key % 512))) (opened e key (fetched s e))) = t at *
    have hctx (k : Nat) : t.ctx k = (opened e key (fetched s e)).ctx k := by rw [State.ctx, hctxs, State.ctx]
    have hkey : t.ctx key = openCtx d f e (s.clu c).nextCtx := by
      rw [hctx, ctx_opened, hf, desc_fetched, clu_fetched]
      rfl
    refine ⟨t, ht, writes_of_fetched hwrites, ?_, hkey, congrArg Ctx.used hkey, congrArg Ctx.eng hkey,
      congrArg Ctx.fn hkey, congrArg Ctx.saddr hkey, congrArg Ctx.daddr hkey, congrArg Ctx.len hkey,
      congrArg Ctx.tag hkey, fun k hk => ?_, ?_, ?_, hfetchedEng _ hothers⟩
    · rw [hme, heng, ← stall_of_ready hready]
    · rw [hctx, ctx_opened_of_ne _ hk, ctx_fetched]
    · have hnext := nextCtx_opened e key (fetched s e)
      rw [State.clu, ← hclus, clu_fetched] at hnext
      exact hnext
    · exact congrArg (fun y : State => { y with pcl := s.pcl }) hrest
  case nothing => exact hgives h rfl (ctxackOp_of_none rd (by rw [eng_fetched]; exact hnone))
  case acks =>
    obtain ⟨-, hready, -, hcut, -⟩ := id h
    have ht := exec_of_runs (c := .ctxack e rd) h rfl (ctxackOp_of_some rd (by rw [eng_fetched]; exact hsome))
    have heng : (ackedAt e (fetched s e)).eng e = acked (s.eng e) := by rw [eng_ackedAt, eng_fetched]
    obtain ⟨hwrites, hme, hctxs, -, hrest, hothers⟩ := finish_setGr_facts (u := fetched s e) (v := ackedAt e (fetched s e))
      rd (ackWord e (fetched s e)) (by rw [heng, cutPend_acked, hcut]) (ackedAt_rest ..) (gregs_ackedAt ..)
      (fun e' he => eng_ackedAt_of_ne _ he)
    generalize finish e (setGr e rd (ackWord e (fetched s e)) (ackedAt e (fetched s e))) = t at *
    have hctx (k : Nat) : t.ctx k = (ackedAt e (fetched s e)).ctx k := by rw [State.ctx, hctxs, State.ctx]
    have hnum : ((fetched s e).eng e).ctx = (s.eng e).ctx := by rw [eng_fetched]
    rw [ackWord_fetched] at hwrites
    refine ⟨t, ht, writes_of_fetched hwrites, ?_, fun k hk => ?_, ?_, ?_, hfetchedEng _ hothers⟩
    · rw [hctx]
      exact hnum ▸ ctx_ackedAt e (fetched s e)
    · rw [hctx, ctx_ackedAt_of_ne _ (by rw [hnum]; exact hk), ctx_fetched]
    · rw [hme, heng, ← stall_of_ready hready]
      rfl
    · exact congrArg (fun y : State => { y with pcl := s.pcl }) hrest
end

section
/-!
PROOF. NOP, END and FENCE.P (R140, R172, R202, R217).
-/
namespace Sys2Proof.Machine

open Sys2Proof.Claims

/-! ## The end of a task -/

theorem eng_forL_setCtx {l : List Nat} (e : Nat) (s : State) : (forL l (fun k s => s.setCtx k {}) s).eng e = s.eng e := by
  refine forL_unchanged (fun x => x.eng e) (fun k x => ?_) l s
  rfl

theorem gregs_forL_setCtx {l : List Nat} (s : State) :
    (forL l (fun k s => s.setCtx k {}) s).pcl.gregs = s.pcl.gregs := by
  refine forL_unchanged (fun x => x.pcl.gregs) (fun k x => ?_) l s
  rfl

theorem ctx_forL_setCtx_of_mem {l : List Nat} {k : Nat} (hk : k ∈ l) (s : State) :
    (forL l (fun k s => s.setCtx k {}) s).ctx k = {} := by
  refine forL_establishes (P := fun x => x.ctx k = {}) (fun n x hx => ?_) (fun x => ?_) hk s
  · by_cases hn : k = n
    · subst hn
      exact State.ctx_setCtx ..
    · rwa [State.ctx_setCtx_of_ne _ _ _ _ hn]
  · exact State.ctx_setCtx ..

theorem ctx_forL_setCtx_of_not_mem {l : List Nat} {k : Nat} (hk : k ∉ l) (s : State) :
    (forL l (fun k s => s.setCtx k {}) s).ctx k = s.ctx k := by
  induction l generalizing s with
  | nil => rfl
  | cons n rest ih =>
    exact (ih (List.not_mem_of_not_mem_cons hk) (s.setCtx n {})).trans
      (State.ctx_setCtx_of_ne _ _ _ _ (List.ne_of_not_mem_cons hk))

theorem ctxs_engSend (e : Nat) (p : Packet) (s : State) : (engSend e p s).pcl.ctxs = s.pcl.ctxs := by
  unfold engSend
  split <;> rfl

theorem ctxs_returnQid (e : Nat) (db : Bool) (s : State) : (returnQid e db s).pcl.ctxs = s.pcl.ctxs := by
  unfold returnQid
  dsimp only
  split
  · rfl
  · exact ctxs_engSend ..

theorem eng_returnQid_of_ne {e e' : Nat} (db : Bool) (s : State) (h : e' ≠ e) : (returnQid e db s).eng e' = s.eng e' := by
  unfold returnQid
  dsimp only
  split
  · rfl
  · exact (State.eng_setEng_of_ne _ _ _ _ h).trans (eng_engSend_of_ne _ _ h)

/-- Returning the QID leaves its engine without one. -/
theorem eng_returnQid_same (e : Nat) (db : Bool) (s : State) :
    (returnQid e db s).eng e = { s.eng e with qid := 0xFFFF, outq := ((returnQid e db s).eng e).outq } := by
  unfold returnQid
  dsimp only
  split
  next hnone => rw [← hnone]
  · rw [State.eng_setEng, eng_engSend]

theorem ctxs_discardHeld (e : Nat) (s : State) : (discardHeld e s).pcl.ctxs = s.pcl.ctxs :=
  forL_unchanged (fun x => x.pcl.ctxs) (f := fun x : Nat × Packet => dropMsg (clOf e) x.2) (fun _ _ => rfl) _ _

theorem eng_discardHeld (e e' : Nat) (s : State) : (discardHeld e s).eng e' = s.eng e' := by
  rw [State.eng, engs_discardHeld, State.eng]

/-- The state of a task that ends, before its engine turns IDLE. -/
def handedBack (e : Nat) (s : State) : State :=
  discardHeld e (returnQid e (natBit (s.eng e).evt 0) (forL (s.owned e) (fun k s => s.setCtx k {}) s))

/-- The engine that endTask leaves. -/
def idleEng (x : Eng) : Eng :=
  { x with
    st := .idle, ending := false, stall := .none, hold := false, icnt := min (x.icnt + 1) 0xFFFFFFFF,
    ctx := 0x3FF, ctxsts := 0, done := [] }

/-- What neither a cluster's marks of INIT nor its status changes is as the engine's turn to IDLE left it. -/
theorem endTask_unchanged {β : Type} {g : State → β} (hclu : ∀ s c k, g (s.setClu c k) = g s)
    (hset : ∀ s c, g (s.fset F.pclStsInitDone c 1) = g s) (e : Nat) (s : State) :
    g (endTask e s) = g ((handedBack e s).setEng e (idleEng ((handedBack e s).eng e))) := by
  unfold endTask
  dsimp only
  split
  · exact (hset ..).trans (hclu ..)
  · rfl

theorem ended_endTask (e : Fin 64) (s : State) : ended s (endTask e s) e := by
  have hback : (handedBack e s).eng e = { s.eng e with qid := 0xFFFF, outq := ((handedBack e s).eng e).outq } := by
    rw [handedBack, eng_discardHeld, eng_returnQid_same, eng_forL_setCtx]
  have hctxs : (endTask e s).pcl.ctxs = (forL (s.owned e) (fun k s => s.setCtx k {}) s).pcl.ctxs := by
    rw [endTask_unchanged (g := fun x => x.pcl.ctxs) (fun _ _ _ => rfl) (fun _ _ => rfl), State.pcl_ctxs_setEng, handedBack,
      ctxs_discardHeld, ctxs_returnQid]
  have hctx (k : Nat) : (endTask e s).ctx k = (forL (s.owned e) (fun k s => s.setCtx k {}) s).ctx k := by
    rw [State.ctx, hctxs, State.ctx]
  have hgregs : (endTask e s).pcl.gregs = s.pcl.gregs := by
    rw [endTask_unchanged (g := fun x => x.pcl.gregs) (fun _ _ _ => rfl) (fun _ _ => rfl), State.pcl_gregs_setEng,
      handedBack, gregs_discardHeld, gregs_returnQid, gregs_forL_setCtx]
  have heng (k : Nat) : (endTask e s).eng k = ((handedBack e s).setEng e (idleEng ((handedBack e s).eng e))).eng k :=
    endTask_unchanged (g := fun x => x.eng k) (fun _ _ _ => rfl) (fun _ _ => rfl) e s
  refine ⟨?_, fun k hk => ?_, fun k hk => ?_, fun e' he => ?_, fun k => ?_⟩
  · rw [heng, State.eng_setEng, hback]
    rfl
  · rw [hctx, ctx_forL_setCtx_of_mem hk]
  · rw [hctx, ctx_forL_setCtx_of_not_mem hk]
  · rw [heng, State.eng_setEng_of_ne _ _ _ _ he, handedBack, eng_discardHeld, eng_returnQid_of_ne _ _ he, eng_forL_setCtx]
  · rw [State.greg, hgregs, State.greg]

/-- A task that ends after its translation hold was cleared has ended. -/
theorem ended_of_hold_cleared {s u t : State} {e : Fin 64} (h : ended u t e)
    (heng : u.eng e = { s.eng e with hold := false }) (hctxs : u.pcl.ctxs = s.pcl.ctxs)
    (hothers : ∀ e', e' ≠ e.val → u.eng e' = s.eng e') (hgregs : u.pcl.gregs = s.pcl.gregs) : ended s t e := by
  obtain ⟨hme, hfree, hkeep, hengs, hregs⟩ := h
  have howned : u.owned e = s.owned e := by rw [State.owned, hctxs, State.owned]
  refine ⟨by rw [hme, heng], fun k hk => hfree k (howned ▸ hk), fun k hk => ?_, fun e' he => ?_, fun k => ?_⟩
  · rw [hkeep k (howned ▸ hk), State.ctx, hctxs, State.ctx]
  · rw [hengs e' he, hothers e' he]
  · rw [hregs k, State.greg, hgregs, State.greg]

/-! ## END -/

theorem drained_of_ctxs {s u : State} (e : Nat) (h : u.pcl.ctxs = s.pcl.ctxs) : u.drained e = s.drained e := by
  simp only [State.drained, State.owned, State.ctx, h]

@[simp] theorem semn_fetched (s : State) (e e' : Nat) : (fetched s e).semn e' = s.semn e' := by
  simp only [State.semn, State.semsOf, arb_fetched]

section
variable {s : State} {e : Nat}

theorem endInsn_state (h : s.semn e ≠ 0 ∨ (s.eng e).belay = true) : endInsn e s = raiseFault e 0x0B 0 0 s := if_pos h

variable (h : s.semn e = 0 ∧ (s.eng e).belay = false)
include h

theorem endInsn_of_free : endInsn e s =
    if (s.setEng e { s.eng e with hold := false }).drained e then endTask e (s.setEng e { s.eng e with hold := false })
    else (s.setEng e { s.eng e with hold := false }).setEng e
      { (s.setEng e { s.eng e with hold := false }).eng e with st := .wait, ending := true } :=
  if_neg (by simp [h])

theorem endInsn_drained (hd : s.drained e = true) : endInsn e s = endTask e (s.setEng e { s.eng e with hold := false }) :=
  (endInsn_of_free h).trans (if_pos ((drained_of_ctxs e rfl).trans hd))

theorem endInsn_waits (hd : s.drained e = false) : endInsn e s
    = (s.setEng e { s.eng e with hold := false }).setEng e { s.eng e with hold := false, st := .wait, ending := true } := by
  have hno : ¬(s.setEng e { s.eng e with hold := false }).drained e = true :=
    Bool.eq_false_iff.mp ((drained_of_ctxs e rfl).trans hd)
  rw [endInsn_of_free h, if_neg hno, State.eng_setEng]

end

/-! ## FENCE.P -/

/-- The end of a FENCE.P whose engine differs from `u`'s in nothing that its count or completion reads. -/
theorem completesWith_fenceDone {u v : State} {e : Fin 64} {rd : Fin 32} {x : Eng} (dam refused : Bool)
    (hv : { v with pcl := u.pcl } = u) (honly : onlyEngine u v e) (hgregs : v.pcl.gregs = u.pcl.gregs) (heng : v.eng e = x)
    (hfn : x.fn = (u.eng e).fn ∧ x.marker = (u.eng e).marker) (hcut : x.cutPend = none) :
    completesWith u (fenceDone e rd dam refused v) e rd
      (BitVec.ofNat 64 (if refused then 2 else 256 * faultCount u e dam)) x := by
  have hcount : v.pfrCount x.fn x.marker = u.pfrCount (u.eng e).fn (u.eng e).marker := by
    obtain ⟨hfn, hmarker⟩ := hfn
    rw [hfn, hmarker]
    have hsame := congrArg (fun y : State => y.pfrCount (u.eng e).fn (u.eng e).marker) hv
    exact hsame
  have hword : codeWord (if refused then 2 else 256 * (if dam then 0xFFFFFFFF else v.pfrCount x.fn x.marker))
      = BitVec.ofNat 64 (if refused then 2 else 256 * faultCount u e dam) := by
    rw [hcount]
    rfl
  obtain ⟨-, -, -, hothers, -⟩ := id honly
  have hfin : fenceDone e rd dam refused v = finish e (setGr e rd
      (BitVec.ofNat 64 (if refused then 2 else 256 * faultCount u e dam)) v) := by
    simp only [fenceDone, heng]
    rw [hword]
  obtain ⟨hwrites, hme, -⟩ := finish_setGr_facts (u := u) (v := v) rd
    (BitVec.ofNat 64 (if refused then 2 else 256 * faultCount u e dam)) (by rw [heng, hcut]) hv hgregs hothers
  rw [hfin]
  refine ⟨by rw [hme, heng], hwrites, ?_⟩
  rw [finish, finishAt_of_no_cut _ (by rw [eng_setGr, heng, hcut])]
  exact onlyEngine_setEng (onlyEngine_setGr honly rd.isLt _) _

/-- Sends in turn change of their engine only what waits, and no other engine or register. -/
theorem forL_engSend_facts {α : Type} (mk : α → State → Packet) (e : Nat) (l : List α) (s : State) :
    let t := forL l (fun d s => engSend e (mk d s) s) s
    t.eng e = { s.eng e with outq := (t.eng e).outq } ∧ (∀ e', e' ≠ e → t.eng e' = s.eng e')
      ∧ t.pcl.gregs = s.pcl.gregs := by
  induction l generalizing s with
  | nil => exact ⟨rfl, fun _ _ => rfl, rfl⟩
  | cons d rest ih =>
    obtain ⟨hme, hothers, hregs⟩ := ih (engSend e (mk d s) s)
    refine ⟨?_, fun e' he => (hothers e' he).trans (eng_engSend_of_ne _ _ he), hregs.trans (gregs_engSend ..)⟩
    rw [eng_engSend] at hme
    exact hme

end Sys2Proof.Machine

open Sys2Proof Sys2Proof.Machine Sys2Proof.Claims

/-- Settles O26: NOP completes; END faults, ends its task or waits; FENCE.P is refused, answers at once or stalls. -/
theorem nopEndAndPostedFences : Obligations.NopEndAndPostedFences := by
  unfold Obligations.NopEndAndPostedFences
  intro s e rd x
  refine ⟨fun h => ?nop, fun h => ⟨fun hholds => ?state, fun hfree => ⟨fun hd => ?ends, fun hd => ?waits⟩⟩,
    fun hup hending hd => ?drained,
    fun h => ⟨fun hshut => ?fenced, fun hopen hnone => ?atOnce, fun hopen hsome => ?stalls⟩,
    fun dam refused hup hcut hstall => ?answered⟩
  case nop => exact goesTo_of_finish h rfl rfl
  case state =>
    exact traps_of_raiseFault h rfl (endInsn_state (by rw [semn_fetched, eng_fetched]; exact hholds))
  case ends =>
    have hop := endInsn_drained (s := fetched s e) (e := e) (by rw [semn_fetched, eng_fetched]; exact hfree)
      ((drained_of_ctxs e (by rw [pcl_fetched])).trans hd)
    refine ⟨_, exec_of_runs h rfl hop, ended_of_hold_cleared (ended_endTask ..) ?_ ?_ (fun e' he => ?_) ?_⟩
    · rw [State.eng_setEng, eng_fetched]
    · rw [State.pcl_ctxs_setEng, pcl_fetched]
    · rw [State.eng_setEng_of_ne _ _ _ _ he, eng_fetched]
    · rw [State.pcl_gregs_setEng, pcl_fetched]
  case waits =>
    have hop := endInsn_waits (s := fetched s e) (e := e) (by rw [semn_fetched, eng_fetched]; exact hfree)
      ((drained_of_ctxs e (by rw [pcl_fetched])).trans hd)
    refine ⟨_, exec_of_runs h rfl hop, keepsRegs_of_gregs e ?_, ?_,
      onlyEngine_setEng (onlyEngine_setEng (onlyEngine_refl _ e) _) _⟩
    · rw [State.pcl_gregs_setEng, State.pcl_gregs_setEng, pcl_fetched]
    · rw [State.eng_setEng, eng_fetched]
  case drained =>
    refine ⟨endTask e s, ?_, ended_endTask e s⟩
    refine (live_of_up hup _).trans ?_
    rw [show (s.eng e).ending = true from hending, hd]
    rfl
  case fenced =>
    refine completes_writing_setGr h rfl ?_
    rw [fenceOp, eng_fetched, fencedAt_fetched, if_pos hshut, finish, eng_setGr, eng_fetched]
    rfl
  case atOnce =>
    have hop : fenceOp rd e (fetched s e) = fenceDone e rd false false ((fetched s e).setEng e (s.eng e)) := by
      have hempty : (s.eng e).posted.isEmpty = true := by rw [List.isEmpty_iff]; exact hnone
      have hsame : ({ s.eng e with posted := [] } : Eng) = s.eng e := by rw [← show (s.eng e).posted = [] from hnone]
      simp only [fenceOp, eng_fetched, fencedAt_fetched, show s.fencedAt e (s.eng e).fn = false from hopen, hempty,
        Bool.false_eq_true, if_false, if_true, hsame]
    obtain ⟨-, -, -, hcut, -⟩ := id h
    refine ⟨_, exec_of_runs h rfl hop, ?_⟩
    exact completesWith_fenceDone false false rfl (onlyEngine_setEng (onlyEngine_refl _ e) _) (State.pcl_gregs_setEng ..)
      (State.eng_setEng ..) (by rw [eng_fetched]; exact ⟨rfl, rfl⟩) hcut
  case stalls =>
    have hnonempty : (s.eng e).posted.isEmpty = false := by
      rw [Bool.eq_false_iff, ne_eq, List.isEmpty_iff]
      exact hsome
    have hop : fenceOp rd e (fetched s e) = forL (s.eng e).posted (fun d u => engSend e
        { u.engPkt e 0 0x00 d with asp := zeroAsp d, addr := (s.eng e).marker, tag := 2048 + 64 * (e % 8) + d } u)
        (((fetched s e).setEng e { s.eng e with posted := [] }).setEng e
          { s.eng e with posted := [], stall := .fence rd (s.eng e).posted false false }) := by
      simp only [fenceOp, eng_fetched, fencedAt_fetched, show s.fencedAt e (s.eng e).fn = false from hopen, hnonempty,
        Bool.false_eq_true, if_false, State.eng_setEng]
    obtain ⟨hme, hothers, hregs⟩ := forL_engSend_facts (fun d u =>
        { u.engPkt e 0 0x00 d with asp := zeroAsp d, addr := (s.eng e).marker, tag := 2048 + 64 * (e % 8) + d }) e
      (s.eng e).posted (((fetched s e).setEng e { s.eng e with posted := [] }).setEng e
          { s.eng e with posted := [], stall := .fence rd (s.eng e).posted false false })
    refine ⟨_, exec_of_runs h rfl hop, keepsRegs_of_gregs e ?_, ?_, fun e' he => ?_⟩
    · rw [hregs, State.pcl_gregs_setEng, State.pcl_gregs_setEng, pcl_fetched]
    · rw [hme, State.eng_setEng]
    · rw [hothers e' he, State.eng_setEng_of_ne _ _ _ _ he, State.eng_setEng_of_ne _ _ _ _ he, eng_fetched]
  case answered =>
    refine ⟨fenceDone e rd dam refused s, ?_, ?_⟩
    · have hexec : Sys2Proof.Machine.exec (.fencePAnswersDone e) s = execFencePAnswersDone e s := rfl
      rw [hexec, execFencePAnswersDone, live_of_up hup, show (s.eng e).stall = .fence rd [] dam refused from hstall]
    · exact completesWith_fenceDone dam refused rfl (onlyEngine_refl s e) rfl rfl ⟨rfl, rfl⟩ hcut
end

section
/-!
PROOF. The supply and step monitors (R30, R31, R36, R37), the time base (R40 to R42, R67), and milestones (R43, R44, R54 to
R59).
-/
namespace Sys2Proof.Machine

open Sys2Proof.Claims

/-! ## Register writes and flags -/

/-- What a command does outside power-on reset is its effect. -/
theorem next_of_live {c : Instr} {s t : State} {f : State → State} (hup : up s) (hexec : exec c s = live s f)
    (h : f s = t) : exec c s = .next t := by
  rw [hexec, live_of_up hup, h]

theorem guarded_of_writerOk {w : Writer} {r : RegId} {i : Nat} (h : writerOk w r i = true) (v : Word) (f : State → State)
    (s : State) : guarded w r i v f s = f s := if_pos h

theorem guardedP_of_writerOk {w : Writer} {r : RegId} {i : Nat} (h : writerOk w r i = true) (v : Word)
    (f : Packet → State → State) (s : State) : guardedP w r i v f s = f (s.writePkt w r i v) s := if_pos h

theorem flag_eq_true {s : State} {f : Fld} {i : Nat} (h : s.fget f i = 1) : s.flag f i = true := by
  rw [State.flag, h, beq_self_eq_true]

theorem flag_eq_false {s : State} {f : Fld} {i : Nat} (h : s.fget f i ≠ 1) : s.flag f i = false := by
  rw [State.flag, beq_eq_false_iff_ne]
  exact h

theorem fget_of_reg {s t : State} (h : t.reg = s.reg) (f : Fld) (i : Nat) : t.fget f i = s.fget f i := by
  simp only [State.fget, State.rget, h]

theorem fset_rest (f : Fld) (i x : Nat) (s : State) (r : RegGrp) : { s.fset f i x with reg := r } = { s with reg := r } :=
  rfl

theorem pwr_fset (f : Fld) (i x : Nat) (s : State) : (s.fset f i x).pwr = s.pwr := rfl

/-! ## Monitors -/

theorem vmonCode_le (uv n : Nat) : vmonCode uv n ≤ 255 := by
  simp only [vmonCode, clampInt]
  omega

theorem droop_of_ge {uv : Nat} (h : 600000 ≤ uv) (s : State) : droop uv s = s := by
  simp [droop, when, show ¬uv < 600000 by omega]

/-- The state that a 100 ns average leaves at 0.60 V and above. -/
def averaged (uv : Nat) (s : State) : State :=
  when (decide (uv < 635000 + (Config.floorThr s.free).val)) (fun s => s.fset F.coreVmonStsBelowFloor 0 1)
    (when (decide (vmonCode uv s.free < s.fget F.coreVmonStsVmin 0))
      (fun x => x.fset F.coreVmonStsVmin 0 (vmonCode uv s.free))
      { s with free := s.free + 1, pwr := { s.pwr with avg := vmonCode uv s.free } })

theorem vmon100_of_ge {uv : Nat} (h : 600000 ≤ uv) (s : State) : vmon100 uv s = averaged uv s :=
  droop_of_ge h _

/-- What register writes leave, an average leaves as its taking of a free value and its code do. -/
theorem averaged_unchanged {β : Type} {g : State → β} (hset : ∀ f i x s, g (s.fset f i x) = g s) (uv : Nat) (s : State) :
    g (averaged uv s) = g { s with free := s.free + 1, pwr := { s.pwr with avg := vmonCode uv s.free } } := by
  have hwhen (c : Bool) (f : State → State) (hf : ∀ x, g (f x) = g x) (x : State) : g (when c f x) = g x := by
    unfold when
    split
    · exact hf x
    · rfl
  rw [averaged, hwhen _ _ (fun x => hset ..), hwhen _ _ (fun x => hset ..)]

/-- VMIN keeps the lower code. -/
theorem vmin_averaged (uv : Nat) (s : State) :
    (averaged uv s).fget F.coreVmonStsVmin 0 = min (vmonCode uv s.free) (s.fget F.coreVmonStsVmin 0) := by
  have hcode := vmonCode_le uv s.free
  have hfloor (c : Bool) (x : State) :
      (when c (fun s => s.fset F.coreVmonStsBelowFloor 0 1) x).fget F.coreVmonStsVmin 0 = x.fget F.coreVmonStsVmin 0 := by
    unfold when
    split
    · exact fget_fset_disjoint _ _ _ _ _ rfl (by decide) (by decide) (by decide) (by decide)
    · rfl
  rw [averaged, hfloor, when]
  split
  next hlt =>
    rw [fget_fset_same _ _ _ _ (by decide) (by decide)]
    simp only [decide_eq_true_eq] at hlt
    rw [min_eq_left hlt.le]
    exact Nat.mod_eq_of_lt (by simp only [F.coreVmonStsVmin]; omega)
  next hge =>
    simp only [decide_eq_true_eq, not_lt] at hge
    rw [min_eq_right hge]
    rfl

theorem belowFloor_averaged (uv : Nat) (s : State) : (averaged uv s).fget F.coreVmonStsBelowFloor 0 =
    if uv < 635000 + (Config.floorThr s.free).val then 1 else s.fget F.coreVmonStsBelowFloor 0 := by
  rw [averaged, when]
  simp only [decide_eq_true_eq]
  split
  · rw [fget_fset_same _ _ _ _ (by decide) (by decide)]
    rfl
  · unfold when
    split
    · exact fget_fset_disjoint _ _ _ _ _ rfl (by decide) (by decide) (by decide) (by decide)
    · rfl

theorem reg_aerUncor (fn bit : Nat) (name : String) (hdr : List Nat) (advisory : Bool) (s : State) :
    (aerUncor fn bit name hdr advisory s).reg = s.reg := by
  unfold aerUncor
  dsimp only
  repeat' split
  all_goals rfl

theorem reg_aerInternal (s : State) : (aerInternal s).reg = s.reg := by
  refine forL_unchanged State.reg (fun k x => ?_) (List.range 2) s
  unfold when
  split
  · exact reg_aerUncor ..
  · rfl

theorem reg_viol (v : Viol) (s : State) : (viol v s).reg = s.reg := rfl

/-- The report and the record of CORE_UV. -/
def coreUvRecord (s : State) : State :=
  viol { ni := 42, code := 0x0507, value := (aerInternal (s.fset F.coreVmonStsCoreUv 0 1)).fget F.coreVmonStsVmin 0 }
    (aerInternal (s.fset F.coreVmonStsCoreUv 0 1))

theorem coreUv_eq (uv : Nat) (s : State) : coreUv uv s =
    if uv < 570000 + (Config.uvThr s.free).val ∧ s.flag F.coreVmonStsCoreUv 0 = false then
      coreUvRecord (droop uv { s with free := s.free + 1 })
    else droop uv { s with free := s.free + 1 } := rfl

theorem coreUv_of_ge {uv : Nat} (h : 600000 ≤ uv) (s : State) : coreUv uv s = { s with free := s.free + 1 } := by
  have hthr : ¬uv < 570000 + (Config.uvThr s.free).val := by omega
  rw [coreUv_eq, if_neg (fun hc => hthr hc.1), droop_of_ge h]

theorem fget_coreUvRecord (s : State) : (coreUvRecord s).fget F.coreVmonStsCoreUv 0 = 1 := by
  rw [coreUvRecord, fget_of_reg (reg_viol ..), fget_of_reg (reg_aerInternal ..),
    fget_fset_same _ _ _ _ (by decide) (by decide)]
  rfl

theorem coreUv_of_lt {uv : Nat} {s : State} (h : uv < 570000 + (Config.uvThr s.free).val)
    (hclear : s.fget F.coreVmonStsCoreUv 0 ≠ 1) : (coreUv uv s).fget F.coreVmonStsCoreUv 0 = 1 := by
  rw [coreUv_eq, if_pos ⟨h, flag_eq_false hclear⟩, fget_coreUvRecord]

theorem stepMonEnd_of_due {steps b : Nat} {s : State} (hb : s.pwr.winStart = some b)
    (hdue : b + windowNs s.pwr.winFor ≤ s.tb.count) : stepMonEnd steps s
      = { (s.fset F.stepMonResultSteps 0 steps).fset F.stepMonResultValid 0 1 with
          pwr := { s.pwr with winStart := some (b + windowNs s.pwr.winFor) } } := by
  have hnow : s.now ≥ b + windowNs s.pwr.winFor := hdue
  unfold stepMonEnd
  split
  next hnone => rw [hb] at hnone; cases hnone
  next t ht =>
    rw [hb] at ht
    cases ht
    rw [if_pos hnow]
    dsimp only
    rw [pwr_fset, pwr_fset]

theorem stepMon_bits (v : BitVec 32) :
    bitsGet (v.setWidth 64) 2 2 = v.toNat / 4 % 2 ∧ bitsGet (v.setWidth 64) 1 0 = v.toNat % 4 := by
  have hv : (v.setWidth 64).toNat = v.toNat := by rw [BitVec.toNat_setWidth, Nat.mod_eq_of_lt (by omega)]
  constructor <;> simp [bitsGet, hv]

theorem stepMonWrite_rest (v : Word) (s : State) : { stepMonWrite v s with reg := s.reg, pwr := s.pwr } = s := by
  have hrest : { ((s.fset F.stepMonCtlRun 0 (bitsGet v 2 2)).fset F.stepMonCtlWindow 0
      (bitsGet v 1 0)).fset F.stepMonResultValid 0 0 with reg := s.reg } = s := by
    rw [fset_rest, fset_rest, fset_rest]
  have hpwr := congrArg (fun x : State => { x with pwr := s.pwr }) hrest
  exact hpwr

theorem pwr_stepMonWrite (v : Word) (s : State) : (stepMonWrite v s).pwr = { s.pwr with
    winStart := if bitsGet v 2 2 = 1 then some s.tb.count else none, winFor := bitsGet v 1 0 } := by
  unfold stepMonWrite
  dsimp only
  rw [pwr_fset, pwr_fset, pwr_fset]
  rfl

theorem fget_stepMonWrite (v : Word) (s : State) : (stepMonWrite v s).fget F.stepMonResultValid 0 = 0 := by
  have hreg : (stepMonWrite v s).reg = (((s.fset F.stepMonCtlRun 0 (bitsGet v 2 2)).fset F.stepMonCtlWindow 0
    (bitsGet v 1 0)).fset F.stepMonResultValid 0 0).reg := rfl
  rw [fget_of_reg hreg, fget_fset_same _ _ _ _ (by decide) (by decide), Nat.zero_mod]

end Sys2Proof.Machine

open Sys2Proof Sys2Proof.Machine Sys2Proof.Claims

/-- Settles O29, by the monitors' own effects: an average, a window, and the writes that clear them. -/
theorem monitorsMeasureSupplyAndSteps : Obligations.MonitorsMeasureSupplyAndSteps := by
  unfold Obligations.MonitorsMeasureSupplyAndSteps
  intro s w uv steps v hup
  refine ⟨fun h => ⟨averaged uv s, vmonCode uv s.free, ?average, rfl, vmonCode_le .., ?pwr, vmin_averaged .., fun hlt => ?_,
      fun hge => ?_, ?_, ?_⟩, fun h => ?uv50, fun h hclear => ⟨coreUv uv s, next_of_live hup rfl rfl, coreUv_of_lt h hclear⟩,
    next_of_live hup rfl (by rfl), fun hw => ?vminClr, fun hw => ⟨stepMonWrite (v.setWidth 64) s, ?write, ?_, ?_, stepMonWrite_rest ..⟩,
    fun b hb hdue => ?window⟩
  case average => exact next_of_live hup rfl (vmon100_of_ge h s)
  case pwr => exact averaged_unchanged (g := State.pwr) (fun _ _ _ _ => rfl) uv s
  · rw [belowFloor_averaged, if_pos hlt]
  · rw [belowFloor_averaged, if_neg (by omega)]
  · exact averaged_unchanged (g := State.free) (fun _ _ _ _ => rfl) uv s
  · exact averaged_unchanged (g := fun t => { t with reg := s.reg, pwr := s.pwr, free := s.free }) (fun _ _ _ _ => rfl) uv s
  case uv50 => exact next_of_live hup rfl (coreUv_of_ge h s)
  case vminClr => exact next_of_live hup rfl (guarded_of_writerOk hw ..)
  case write => exact next_of_live hup rfl (guarded_of_writerOk hw ..)
  · exact fget_stepMonWrite ..
  · obtain ⟨hrun, hfor⟩ := stepMon_bits v
    rw [pwr_stepMonWrite, hrun, hfor]
  case window => exact next_of_live hup rfl (stepMonEnd_of_due hb hdue)

/-- Settles O30: each row of the time base has its effect where its condition holds, and none where not. -/
theorem timeBaseFollowsItsRegisters : Obligations.TimeBaseFollowsItsRegisters := by
  unfold Obligations.TimeBaseFollowsItsRegisters
  intro s w v hup set
  have hslew : Sys2Proof.Machine.exec .tbSlewAdjust s = execTbSlewAdjust s := rfl
  refine ⟨fun hen => ?lock, fun hw => ⟨fun hlock => ?src, fun hlock => ?srcUnlocked, ?srcZero⟩,
    fun hsrc hcoarse hlock => ?switch, fun hsrc hcoarse => ⟨_, _, ?fallback, rfl, rfl⟩, fun hw => ?step, fun hb => ?apply,
    fun hw => ?slew, fun howed => ?ahead, fun howed => ?behind, fun hperiod => ?anchor⟩
  case lock => exact next_of_live hup rfl (if_pos (flag_eq_true hen))
  case src =>
    refine next_of_live hup rfl ?_
    rw [guarded_of_writerOk hw, srcWrite, flag_eq_true hlock]
    rfl
  case srcUnlocked =>
    refine next_of_live hup rfl ?_
    rw [guarded_of_writerOk hw, srcWrite, flag_eq_false hlock]
    rfl
  case srcZero => exact next_of_live hup rfl (guarded_of_writerOk hw ..)
  case switch =>
    refine next_of_live hup rfl (if_pos ?_)
    rw [flag_eq_true hsrc, flag_eq_true hcoarse, flag_eq_true hlock]
    rfl
  case fallback =>
    refine next_of_live hup rfl (if_pos ?_)
    rw [flag_eq_true hsrc, flag_eq_false hcoarse]
    rfl
  case step => exact next_of_live hup rfl (guarded_of_writerOk hw ..)
  case apply => exact next_of_live hup rfl (if_pos hb)
  case slew =>
    refine next_of_live hup rfl ?_
    rw [guarded_of_writerOk hw]
    simp only [encodingOk, Bool.or_eq_true, decide_eq_true_eq]
    rfl
  case ahead => rw [hslew, execTbSlewAdjust, live_of_up hup, if_pos howed]
  case behind => rw [hslew, execTbSlewAdjust, live_of_up hup, if_neg (by omega), if_pos howed]
  case anchor => exact next_of_live hup rfl (if_pos hperiod)

namespace Sys2Proof.Machine

open Sys2Proof.Claims

/-! ## The full time -/

theorem untimed_unparkNi (ni k : Nat) (s : State) : (unparkNi ni s).untimed k = s.untimed k := by
  have hsends : (forN 10 (fun g s => when (s.feeds ni g) (sendMs ni g false true) s) s).untimed k = s.untimed k := by
    refine forL_unchanged (fun x => x.untimed k) (fun g x => ?_) (List.range 10) s
    unfold when
    split <;> rfl
  exact hsends

/-- The load of the full time at NI `ni`. -/
def loadTime (ni : Nat) (s : State) : State :=
  when (s.untimed ni) (fun s => when (!s.portDown ni) (unparkNi ni) (s.setUntimed ni false)) s

theorem untimed_loadTime (ni k : Nat) (s : State) :
    (loadTime ni s).untimed k = if k = ni then false else s.untimed k := by
  have hset : (s.setUntimed ni false).untimed k = if k = ni then false else s.untimed k := by
    by_cases hk : k = ni
    · subst hk
      rw [if_pos rfl, State.untimed_setUntimed]
    · rw [if_neg hk, State.untimed_setUntimed_of_ne _ _ _ _ hk]
  unfold loadTime when
  split
  · dsimp only
    split
    · exact (untimed_unparkNi ..).trans hset
    · exact hset
  next htimed =>
    by_cases hk : k = ni
    · subst hk
      rw [if_pos rfl]
      exact Bool.eq_false_iff.mpr htimed
    · rw [if_neg hk]

theorem untimed_forN_loadTime {ni n : Nat} (h : ni < n) (s : State) : (forN n loadTime s).untimed ni = false := by
  refine forL_establishes (P := fun x => x.untimed ni = false) (f := loadTime) (fun k x hx => ?_) (a := ni) (fun x => ?_)
    (List.mem_range.mpr h) s
  · rw [untimed_loadTime, hx, ite_self]
  · rw [untimed_loadTime, if_pos rfl]

theorem recv_keepMs (own : Nat) (ms : Milestone) (f : Feeder) : (keepMs own ms f).recv = f.recv := by
  unfold keepMs
  dsimp only
  repeat' split
  all_goals rfl

end Sys2Proof.Machine

/-- Settles O31: the sending of a milestone, the load of the full time at each NI, the end of the hold, and the keeper's
three cases. -/
theorem feedersKeepTime : Obligations.FeedersKeepTime := by
  unfold Obligations.FeedersKeepTime
  refine ⟨fun s ni g hup hfeeds hparked htimed hdue => ?send, fun s hup hperiod => ?load, fun s ni hup => ?hold,
    fun s i ms f hup hms hf => ?keep⟩
  case send =>
    refine ⟨sendMs ni g false false s, next_of_live hup rfl (if_pos ?_), rfl, ?_, rfl⟩
    · rw [hfeeds, hparked, htimed]
      exact decide_eq_true hdue
    · exact State.lastSent_setLastSent ..
  case load =>
    exact ⟨_, next_of_live hup rfl (if_pos hperiod), fun ni hni => untimed_forN_loadTime hni _⟩
  case hold =>
    exact ⟨fun h => next_of_live hup rfl (if_pos h),
      fun h => next_of_live hup rfl (if_neg (Nat.not_le.mpr h))⟩
  case keep =>
    intro own g
    have hkeep : keepMs (s.niTime ms.gate) ms f = g := rfl
    have hexec : Sys2Proof.Machine.exec (.milestoneArrive i) s = execMilestoneArrive i s := rfl
    have hrecv : g.recv = f.recv := recv_keepMs ..
    rw [hexec, execMilestoneArrive, live_of_up hup]
    simp only [hms]
    rw [← hrecv, ← hkeep, hf]
    rfl
end

section
/-!
PROOF. The fused counts and the flash (R465, R471, R472).
-/
namespace Sys2Proof.Machine

open Sys2Proof.Claims

/-! ## RESULT, BUSY and the counts shown -/

theorem result_bootResult (r : Nat) (s : State) : (bootResult r s).fget F.bootResResult 0 = r % 8 :=
  fget_fset_same _ _ _ _ (by decide) (by decide)

theorem busy_bootResult (r : Nat) (s : State) : (bootResult r s).fget F.bootResBusy 0 = s.fget F.bootResBusy 0 :=
  fget_fset_disjoint _ _ _ _ _ rfl (by decide) (by decide) (by decide) (by decide)

theorem osvn_bootResult_showCounts (r : Nat) (s : State) :
    (bootResult r (showCounts s)).fget F.bootSvnOsvnFuse 0 = s.boot.ownerCount % 256 := by
  rw [bootResult, fget_fset_of_ne _ _ _ _ _ _ (by decide), showCounts,
    fget_fset_disjoint _ F.bootSvnVsvnFuse F.bootSvnOsvnFuse _ _ rfl (by decide) (by decide) (by decide) (by decide),
    fget_fset_same _ _ _ _ (by decide) (by decide)]
  rfl

theorem vsvn_bootResult_showCounts (r : Nat) (s : State) :
    (bootResult r (showCounts s)).fget F.bootSvnVsvnFuse 0 = s.boot.vendorCount % 256 := by
  rw [bootResult, fget_fset_of_ne _ _ _ _ _ _ (by decide), showCounts, fget_fset_same _ _ _ _ (by decide) (by decide)]
  rfl

theorem boot_fset (f : Fld) (i x : Nat) (s : State) : (s.fset f i x).boot = s.boot := rfl

theorem mem_fset (f : Fld) (i x : Nat) (s : State) : (s.fset f i x).mem = s.mem := rfl

theorem boot_bootResult (r : Nat) (s : State) : (bootResult r s).boot = s.boot := boot_fset ..

theorem boot_bootResult_showCounts (r : Nat) (s : State) : (bootResult r (showCounts s)).boot = s.boot := by
  rw [bootResult, boot_fset, showCounts, boot_fset, boot_fset]

theorem unlessBusy_of_idle {s : State} (h : s.boot.cmd = none) (f : State → State) : unlessBusy f s = f s := by
  rw [unlessBusy, h]
  rfl

theorem unlessBusy_of_busy {s : State} (h : s.boot.cmd ≠ none) (f : State → State) :
    unlessBusy f s = bootResult 1 s :=
  if_pos (Option.isSome_iff_ne_none.mpr h)

/-! ## What a flash operation changes -/

theorem flashByte_setFlashByte (s : State) (a k : Nat) (v : Byte) :
    (s.setFlashByte a v).flashByte k = if k = a then v else s.flashByte k := by
  by_cases hk : k = a
  · rw [if_pos hk, hk]
    exact State.flashByte_setFlashByte ..
  · rw [if_neg hk]
    exact State.flashByte_setFlashByte_of_ne _ _ _ _ hk

theorem flashByte_forN_setFlashByte (n a : Nat) (data : List Byte) (s : State) (k : Nat) :
    (forN n (fun i s => s.setFlashByte (a + i) (data.getD i 0)) s).flashByte k
      = if a ≤ k ∧ k < a + n then data.getD (k - a) 0 else s.flashByte k := by
  induction n with
  | zero =>
    rw [if_neg (by omega)]
    rfl
  | succ n ih =>
    have hlast : forN (n + 1) (fun i s => s.setFlashByte (a + i) (data.getD i 0)) s
        = (forN n (fun i s => s.setFlashByte (a + i) (data.getD i 0)) s).setFlashByte (a + n) (data.getD n 0) := by
      simp only [forN, List.range_succ, List.foldl_append, List.foldl_cons, List.foldl_nil]
    rw [hlast, flashByte_setFlashByte, ih]
    by_cases hk : k = a + n
    · rw [if_pos hk, if_pos (by omega), hk, Nat.add_sub_cancel_left]
    · rw [if_neg hk]
      split
      · rw [if_pos (by omega)]
      · rw [if_neg (by omega)]

theorem flashByte_putFlash (a : Nat) (data : List Byte) (s : State) (k : Nat) : (putFlash a data s).flashByte k
    = if a ≤ k ∧ k < a + data.length then data.getD (k - a) 0 else s.flashByte k :=
  flashByte_forN_setFlashByte ..

/-- What the write of one byte leaves, a write of flash leaves. -/
theorem putFlash_unchanged {β : Type} {g : State → β} (h : ∀ a v s, g (s.setFlashByte a v) = g s) (a : Nat)
    (data : List Byte) (s : State) : g (putFlash a data s) = g s :=
  forL_unchanged g (fun _ _ => h ..) _ s

theorem cmd_putFlash (a : Nat) (data : List Byte) (s : State) : (putFlash a data s).boot.cmd = s.boot.cmd :=
  putFlash_unchanged (g := fun x => x.boot.cmd) (fun _ _ _ => rfl) a data s

theorem reg_putFlash (a : Nat) (data : List Byte) (s : State) : (putFlash a data s).reg = s.reg :=
  putFlash_unchanged (g := State.reg) (fun _ _ _ => rfl) a data s

/-- The report of a corrected error leaves what no configuration write, no note of its time and no output changes. -/
theorem aerCorrected_unchanged {β : Type} {g : State → β} (hcfg : ∀ k v s, g (s.setCfgAt k v) = g s)
    (hcorr : ∀ k v s, g (s.setLastCorr k v) = g s) (hemit : ∀ o s, g (s.emit o) = g s) (s : State) :
    g (aerCorrected s) = g s := by
  refine forL_unchanged g (fun k x => ?_) (List.range 2) s
  unfold aerCorrectedAt when State.cfgPut
  dsimp only
  repeat' split
  all_goals simp only [hcfg, hcorr, hemit]

theorem boot_stgCheck (w : Nat) (s : State) : (stgCheck w s).boot = s.boot := by
  unfold stgCheck
  dsimp only
  split
  · rfl
  · split
    · exact aerCorrected_unchanged (g := State.boot) (fun _ _ _ => rfl) (fun _ _ _ => rfl) (fun _ _ => rfl) _
    · rfl

theorem cells_stgCheck (w : Nat) (s : State) : (stgCheck w s).mem.cells = s.mem.cells := by
  unfold stgCheck
  dsimp only
  split
  · rfl
  · split
    · exact aerCorrected_unchanged (g := fun x => x.mem.cells) (fun _ _ _ => rfl) (fun _ _ _ => rfl) (fun _ _ => rfl) _
    · rfl

/-- A check counts errors in ERR_CNT and writes no other register. -/
theorem fget_stgCheck (w : Nat) (f : Fld) (i : Nat) (s : State)
    (hce : regKey f.reg i ≠ regKey F.errCntSecdedCe.reg 0) (hue : regKey f.reg i ≠ regKey F.errCntSecdedUe.reg 0) :
    (stgCheck w s).fget f i = s.fget f i := by
  unfold stgCheck
  dsimp only
  split
  · rfl
  · split
    · rw [aerCorrected_unchanged (g := fun x => x.fget f i) (fun _ _ _ => rfl) (fun _ _ _ => rfl) (fun _ _ => rfl)]
      exact fget_fset_of_ne _ _ _ _ _ _ hce
    · rw [fget_of_reg (reg_viol ..)]
      exact fget_fset_of_ne _ _ _ _ _ _ hue

theorem boot_stgCheckRange (a n : Nat) (s : State) : (stgCheckRange a n s).boot = s.boot :=
  forL_unchanged State.boot boot_stgCheck _ s

theorem byte_stgCheckRange (a n k : Nat) (s : State) : (stgCheckRange a n s).byte k = s.byte k := by
  have h : (stgCheckRange a n s).mem.cells = s.mem.cells := forL_unchanged (fun x => x.mem.cells) cells_stgCheck _ s
  rw [State.byte, h]
  rfl

theorem busy_stgCheckRange (a n : Nat) (s : State) :
    (stgCheckRange a n s).fget F.bootResBusy 0 = s.fget F.bootResBusy 0 :=
  forL_unchanged (fun x => x.fget F.bootResBusy 0) (fun w x => fget_stgCheck w _ _ x (by decide) (by decide)) _ s

/-! ## The end of a flash operation -/

/-- The state in which flash command `c` is over and BUSY is clear. -/
def flashOver (s : State) : State := { s with boot := { s.boot with cmd := none } }.fset F.bootResBusy 0 0

theorem cmd_flashOver (s : State) : (flashOver s).boot.cmd = none := by rw [flashOver, boot_fset]

theorem flashByte_flashOver (s : State) (a : Nat) : (flashOver s).flashByte a = s.flashByte a := by
  rw [State.flashByte, flashOver, boot_fset, State.flashByte]

theorem byte_flashOver (s : State) (a : Nat) : (flashOver s).byte a = s.byte a := by
  rw [State.byte, flashOver, mem_fset, State.byte]

theorem busy_flashOver (s : State) : (flashOver s).fget F.bootResBusy 0 = 0 :=
  fget_fset_same _ _ _ _ (by decide) (by decide)

/-- What a flash command that succeeds writes. -/
def flashDone (c : FlashCmd) (s : State) : State :=
  if c.write then putFlash c.dst ((stgCheckRange c.src c.len s).stgBytes c.src c.len) (stgCheckRange c.src c.len s)
  else putFlash c.dst (List.replicate c.len 0xFF) s

theorem flashEnd_of_ok {s : State} {c : FlashCmd} (h : s.boot.cmd = some c) :
    flashEnd true s = bootResult 0 ((flashDone c (flashOver s)).setTornSlot (flashSlot c.dst) false) := by
  unfold flashEnd
  split
  next hnone => rw [h] at hnone; cases hnone
  next c' hc =>
    rw [h] at hc
    cases hc
    rfl

theorem flashEnd_of_error {s : State} {c : FlashCmd} (h : s.boot.cmd = some c) :
    flashEnd false s = bootResult 4 (freeFlash c.dst c.len (flashOver s)) := by
  unfold flashEnd
  split
  next hnone => rw [h] at hnone; cases hnone
  next c' hc =>
    rw [h] at hc
    cases hc
    rfl

theorem cmd_flashDone (c : FlashCmd) (s : State) : (flashDone c s).boot.cmd = s.boot.cmd := by
  unfold flashDone
  split
  · rw [cmd_putFlash, boot_stgCheckRange]
  · exact cmd_putFlash ..

theorem busy_flashDone (c : FlashCmd) (s : State) :
    (flashDone c s).fget F.bootResBusy 0 = s.fget F.bootResBusy 0 := by
  unfold flashDone
  split
  · rw [fget_of_reg (reg_putFlash ..), busy_stgCheckRange]
  · exact fget_of_reg (reg_putFlash ..) ..

theorem flashByte_flashDone (c : FlashCmd) (s : State) (a : Nat) : (flashDone c s).flashByte a =
    if c.dst ≤ a ∧ a < c.dst + c.len then (if c.write then s.byte (c.src + (a - c.dst)) else 0xFF)
    else s.flashByte a := by
  unfold flashDone
  split
  next hw =>
    have hflash : (stgCheckRange c.src c.len s).flashByte a = s.flashByte a := by
      rw [State.flashByte, boot_stgCheckRange, State.flashByte]
    rw [flashByte_putFlash, hflash]
    simp only [State.stgBytes, List.length_map, List.length_range]
    split
    next hin =>
      rw [List.getD_eq_getElem _ _ (by rw [List.length_map, List.length_range]; omega), List.getElem_map,
        List.getElem_range, byte_stgCheckRange]
    · rfl
  next hw =>
    rw [flashByte_putFlash, List.length_replicate]
    split
    next hin => rw [List.getD_eq_getElem _ _ (by rw [List.length_replicate]; omega), List.getElem_replicate]
    · rfl

theorem flashByte_freeFlash {b n : Nat} {a : Nat} (h : ¬(b ≤ a ∧ a < b + n)) (s : State) :
    (freeFlash b n s).flashByte a = s.flashByte a := by
  unfold freeFlash
  dsimp only
  rw [flashByte_putFlash, List.length_map, List.length_range, if_neg h]
  rfl

theorem cmd_freeFlash (b n : Nat) (s : State) : (freeFlash b n s).boot.cmd = s.boot.cmd := cmd_putFlash ..

theorem reg_freeFlash (b n : Nat) (s : State) : (freeFlash b n s).reg = s.reg := reg_putFlash ..

end Sys2Proof.Machine

open Sys2Proof Sys2Proof.Machine Sys2Proof.Claims

/-- Settles O54, by the results of BOOT_CMD while nothing runs and while a flash command runs, and by what its end
leaves. -/
theorem fuseCountsAndFlash : Obligations.FuseCountsAndFlash := by
  unfold Obligations.FuseCountsAndFlash
  intro s hup
  have hrow {c : Instr} {w : Writer} {op : Nat} {t : State} (hw : writerOk w .bootCmd 0 = true)
      (hexec : Sys2Proof.Machine.exec c s = live s (guarded w .bootCmd 0 (BitVec.ofNat 64 op) (bootCmd op)))
      (h : bootCmd op s = t) : Sys2Proof.Machine.exec c s = .next t :=
    next_of_live hup hexec ((guarded_of_writerOk hw ..).trans h)
  refine ⟨fun w hw => ⟨fun hidle => ⟨?owner, ?vendor, fun wr => ?flash⟩, fun hbusy => ⟨?_, ?_, ?_, ?_⟩⟩,
    fun c hc => ⟨?ends, ?fails⟩⟩
  case owner =>
    exact ⟨commitOwner s, hrow (op := 1) hw rfl (unlessBusy_of_idle hidle commitOwner), result_bootResult ..,
      boot_bootResult_showCounts .., osvn_bootResult_showCounts ..⟩
  case vendor =>
    exact ⟨commitVendor s, hrow (op := 2) hw rfl (unlessBusy_of_idle hidle commitVendor), result_bootResult ..,
      boot_bootResult_showCounts .., vsvn_bootResult_showCounts ..⟩
  case flash =>
    intro c row
    have hstart {t : State} (h : flashStart wr s = t) : Sys2Proof.Machine.exec row s = .next t := by
      cases wr with
      | false => exact hrow (op := 3) hw rfl ((unlessBusy_of_idle hidle _).trans h)
      | true => exact hrow (op := 4) hw rfl ((unlessBusy_of_idle hidle _).trans h)
    have heq : flashStart wr s = if !s.flashRangeOk c then bootResult 2 s
      else if s.fget F.bootStsSlot 0 = flashSlot c.dst + 1 then bootResult 3 s
      else { s with boot := { s.boot with cmd := some c } }.fset F.bootResBusy 0 1 := rfl
    refine ⟨fun hbad => hstart ?_, fun hok hslot => hstart ?_, fun hok hslot => hstart ?_⟩
    · rw [heq, hbad]
      rfl
    · rw [heq, hok]
      exact if_pos hslot
    · rw [heq, hok]
      exact if_neg hslot
  · exact hrow (op := 1) hw rfl (unlessBusy_of_busy hbusy _)
  · exact hrow (op := 2) hw rfl (unlessBusy_of_busy hbusy _)
  · exact hrow (op := 3) hw rfl (unlessBusy_of_busy hbusy _)
  · exact hrow (op := 4) hw rfl (unlessBusy_of_busy hbusy _)
  case ends =>
    refine ⟨_, next_of_live hup rfl (flashEnd_of_ok hc), result_bootResult .., ?_, ?_, fun a => ?_⟩
    · rw [busy_bootResult, fget_of_reg (State.reg_setTornSlot ..), busy_flashDone, busy_flashOver]
    · rw [boot_bootResult]
      exact (cmd_flashDone ..).trans (cmd_flashOver s)
    · rw [State.flashByte, boot_bootResult]
      have hdone := flashByte_flashDone c (flashOver s) a
      rw [flashByte_flashOver, byte_flashOver] at hdone
      exact hdone
  case fails =>
    refine ⟨_, next_of_live hup rfl (flashEnd_of_error hc), result_bootResult .., ?_, ?_, fun a ha => ?_⟩
    · rw [busy_bootResult, fget_of_reg (reg_freeFlash ..), busy_flashOver]
    · rw [boot_bootResult]
      exact (cmd_freeFlash ..).trans (cmd_flashOver s)
    · rw [State.flashByte, boot_bootResult]
      exact (flashByte_freeFlash ha _).trans (flashByte_flashOver s a)
end

section
/-!
PROOF. The mailboxes of attestation (R468, R469, R471).
-/
namespace Sys2Proof.Machine

open Sys2Proof.Claims

/-! ## Requests of a mailbox -/

section Mailbox

variable {s t : State} {k : Nat} {c : Instr} {f : State → State}

theorem next_of_doeReq (hup : up s) (hbox : s.mailbox k = true) (hexec : exec c s = doeReq k f s) (h : f s = t) :
    exec c s = .next t := by
  refine next_of_live hup hexec ?_
  rw [when, if_pos hbox, h]

theorem inTurn_of_true (code : Nat) (f : State → State) {ok : Bool} (h : ok = true) : inTurn k code ok f s = f s := if_pos h

theorem inTurn_of_false (code : Nat) (f : State → State) {ok : Bool} (h : ok = false) :
    inTurn k code ok f s = spdmError k "UnexpectedRequest" code s := if_neg (Bool.eq_false_iff.mp h)

theorem next_of_negotiated {code : Nat} (hup : up s) (hbox : s.mailbox k = true) (hat : s.spdmAt k = 3)
    (hexec : exec c s = negotiated k code f s) (h : f s = t) : exec c s = .next t :=
  next_of_doeReq hup hbox hexec ((inTurn_of_true code f (beq_iff_eq.mpr hat)).trans h)

theorem withChain_of_some {code slot : Nat} {chain : List Byte} (h : s.certChain slot = some chain)
    (f : List Byte → State → State) : withChain k code slot f s = f chain s := by
  rw [withChain, h]

theorem withChain_of_none {code slot : Nat} (h : s.certChain slot = none) (f : List Byte → State → State) :
    withChain k code slot f s = spdmError k "InvalidRequest" code s := by
  rw [withChain, h]

end Mailbox

/-! ## Sessions -/

theorem transcript_setSpdmAt (k n j : Nat) (s : State) : (s.setSpdmAt k n).transcript j = s.transcript j := rfl

theorem spdmAt_dropMailbox_eq (k j : Nat) (s : State) : (dropMailbox k s).spdmAt j = (s.setSpdmAt k 0).spdmAt j := rfl

theorem transcript_dropMailbox_eq (k j : Nat) (s : State) :
    (dropMailbox k s).transcript j = (s.setTranscript k []).transcript j := rfl

theorem spdmAt_dropMailbox (k : Nat) (s : State) : (dropMailbox k s).spdmAt k = 0 :=
  (spdmAt_dropMailbox_eq ..).trans (State.spdmAt_setSpdmAt ..)

theorem transcript_dropMailbox (k : Nat) (s : State) : (dropMailbox k s).transcript k = [] :=
  (transcript_dropMailbox_eq ..).trans (State.transcript_setTranscript ..)

theorem spdmAt_dropMailbox_of_ne {k j : Nat} (h : j ≠ k) (s : State) : (dropMailbox k s).spdmAt j = s.spdmAt j :=
  (spdmAt_dropMailbox_eq ..).trans (State.spdmAt_setSpdmAt_of_ne _ _ _ _ h)

theorem transcript_dropMailbox_of_ne {k j : Nat} (h : j ≠ k) (s : State) :
    (dropMailbox k s).transcript j = s.transcript j :=
  (transcript_dropMailbox_eq ..).trans (State.transcript_setTranscript_of_ne _ _ _ _ h)

/-! ## Responses -/

theorem transcript_note (k : Nat) (m : List Nat) (s : State) : (note k m s).transcript k = s.transcript k ++ m :=
  State.transcript_setTranscript ..

theorem transcript_respond_note (k : Nat) (kind : String) (m d : List Nat) (s : State) :
    (respond k kind d (note k m s)).transcript k = s.transcript k ++ m ++ d :=
  (transcript_note k d _).trans (by rw [transcript_note])

theorem respond_note_rest (k : Nat) (kind : String) (m d : List Nat) (s : State) (b : BootGrp) (o : List Out) :
    { respond k kind d (note k m s) with boot := b, out := o } = { s with boot := b, out := o } := by
  simp only [respond, note, State.emit, State.setTranscript]

/-- A request and its response join the transcript, and the mailbox stands where it stood. -/
theorem answersDoe_of_respond {c : Instr} {s u : State} {k n : Nat} {kind : String} {m d : List Nat}
    (h : exec c s = .next (respond k kind d (note k m u))) (hat : u.spdmAt k = n) (hout : u.out = s.out)
    (hrest : { u with boot := s.boot, out := s.out } = s) :
    answersDoe c s k kind d n (u.transcript k ++ m ++ d) := by
  refine ⟨_, h, congrArg (Out.doe k kind d :: ·) hout, hat, transcript_respond_note ..,
    (respond_note_rest k kind m d u s.boot s.out).trans hrest⟩

theorem waitsForSec_of_toSec {c : Instr} {s : State} {k : Nat} {r : SpdmReq} {m : List Nat}
    (h : exec c s = .next (toSec k r (note k m s))) : waitsForSec c s k r m :=
  ⟨_, h, rfl, transcript_note k m s, rfl, rfl, rfl⟩

theorem digests_of_chain (s : State) :
    ((if ([0, 1].filterMap s.certChain).length = 2 then 3 else 1) :: ([0, 1].filterMap s.certChain).map Config.sha512)
      = if s.boot.chain = [] then [1, Config.sha512 Config.certArea]
        else [3, Config.sha512 Config.certArea, Config.sha512 s.boot.chain] := by
  have hfirst : s.certChain 0 = some Config.certArea := if_pos rfl
  by_cases hchain : s.boot.chain = []
  · have hsecond : s.certChain 1 = none := by simp [State.certChain, hchain]
    simp [hfirst, hsecond, hchain]
  · have hsecond : s.certChain 1 = some s.boot.chain := by simp [State.certChain, hchain]
    simp [hfirst, hsecond, hchain]

/-- SEC's queue without its head. -/
def unqueued (rest : List (Nat × SpdmReq)) (s : State) : State := { s with boot := { s.boot with signQ := rest } }

theorem signHead_of_challenge {s : State} {k slot : Nat} {rest : List (Nat × SpdmReq)}
    (h : s.boot.signQ = (k, .challenge slot) :: rest) :
    signHead s = signed k "CHALLENGE_AUTH" [slot, Config.sha512 ((s.certChain slot).getD [])] (unqueued rest s) := by
  rw [signHead, h]
  rfl

theorem signHead_of_measurements {s : State} {k i : Nat} {rest : List (Nat × SpdmReq)}
    (h : s.boot.signQ = (k, .measurements i) :: rest) :
    signHead s = signed k "MEASUREMENTS" (s.measFields i) (unqueued rest s) := by
  rw [signHead, h]
  rfl

theorem transcript_signed (k : Nat) (kind : String) (d : List Nat) (s : State) :
    (signed k kind d s).transcript k = [] := State.transcript_setTranscript ..

theorem out_signed (k : Nat) (kind : String) (d : List Nat) (s : State) : (signed k kind d s).out
    = .doe k kind (d ++ [Config.random s.free]
        ++ [Config.deviceSign (s.transcript k ++ (d ++ [Config.random s.free]))]) :: s.out := by
  have htr := transcript_note k (d ++ [Config.random s.free]) { s with free := s.free + 1 }
  rw [show State.transcript { s with free := s.free + 1 } k = s.transcript k from rfl] at htr
  rw [← htr]
  rfl

end Sys2Proof.Machine

open Sys2Proof Sys2Proof.Machine Sys2Proof.Claims

/-- Settles O55, by the turn of each request, the form of its answer, and the end of SEC's signature. -/
theorem mailboxesAttest : Obligations.MailboxesAttest := by
  unfold Obligations.MailboxesAttest
  intro s k hup at_ tr
  refine ⟨fun hbox => ⟨fun i => ?discovery, ?version, fun hat => ?capabilities, fun hat => ?tooEarly,
      fun hat => ?algorithms, fun hat => ?outOfTurn, fun hat => ⟨?digests, fun slot off len hoff => ?noPortion,
        fun slot off len chain hchain hoff => ?portion, fun slot n chain hchain => ?challenge,
        fun slot n hchain => ?noChain, fun i n hblocks => ?measurements⟩, fun code => ?unsupported⟩,
    fun slot rest hq => ?signChallenge, fun i rest hq => ?signMeasurements, fun hlive hbooted => ?abort⟩
  case discovery =>
    refine next_of_doeReq hup hbox rfl ?_
    simp only [BitVec.toNat_eq]
    rfl
  case version =>
    have h := answersDoe_of_respond (s := s) (u := (s.setTranscript k.val []).setSpdmAt k.val 1)
      (next_of_doeReq (c := .getVersion k) hup hbox rfl rfl) (State.spdmAt_setSpdmAt ..) rfl rfl
    rw [transcript_setSpdmAt, State.transcript_setTranscript] at h
    exact h
  case capabilities =>
    have h := answersDoe_of_respond (s := s) (u := s.setSpdmAt k.val 2) (m := [0xE1]) (d := [0x16])
      (next_of_doeReq (c := .getCapabilities k) hup hbox rfl (inTurn_of_true 0xE1 _ (beq_iff_eq.mpr hat)))
      (State.spdmAt_setSpdmAt ..) rfl rfl
    rw [List.append_assoc] at h
    exact h
  case tooEarly =>
    exact next_of_doeReq hup hbox rfl (inTurn_of_false 0xE1 _ (beq_eq_false_iff_ne.mpr hat))
  case algorithms =>
    have h := answersDoe_of_respond (s := s) (u := s.setSpdmAt k.val 3) (m := [0xE3]) (d := [0x60, 0x4, 0x8])
      (next_of_doeReq (c := .negotiateAlgorithms k) hup hbox rfl (inTurn_of_true 0xE3 _ (beq_iff_eq.mpr hat)))
      (State.spdmAt_setSpdmAt ..) rfl rfl
    rw [List.append_assoc] at h
    exact h
  case outOfTurn =>
    exact next_of_doeReq hup hbox rfl (inTurn_of_false 0xE3 _ (beq_eq_false_iff_ne.mpr hat))
  case digests =>
    have h := answersDoe_of_respond (s := s) (u := s) (m := [0x81])
      (next_of_negotiated (c := .getDigests k) hup hbox hat rfl rfl) hat rfl rfl
    rw [digests_of_chain, List.append_assoc] at h
    exact h
  case noPortion =>
    refine next_of_negotiated hup hbox hat rfl ?_
    cases hchain : s.certChain slot.toNat with
    | none => exact withChain_of_none hchain _
    | some chain => exact (withChain_of_some hchain _).trans (if_pos (hoff chain hchain))
  case portion =>
    exact answersDoe_of_respond (next_of_negotiated (c := .getCertificate k slot off len) hup hbox hat rfl
      ((withChain_of_some hchain _).trans (if_neg (by omega)))) hat rfl rfl
  case challenge =>
    exact waitsForSec_of_toSec (next_of_negotiated hup hbox hat rfl (withChain_of_some hchain _))
  case noChain => exact next_of_negotiated hup hbox hat rfl (withChain_of_none hchain _)
  case measurements =>
    have hsome : ¬(i ≠ 0 ∧ s.blocks i.toNat = []) := fun ⟨hi, hnone⟩ => hblocks.elim hi (· hnone)
    exact ⟨waitsForSec_of_toSec (next_of_negotiated hup hbox hat rfl (if_neg hsome)),
      answersDoe_of_respond (next_of_negotiated (c := .getMeasurements k i false n) hup hbox hat rfl (if_neg hsome))
        hat rfl rfl⟩
  case unsupported => exact next_of_doeReq hup hbox rfl rfl
  case signChallenge =>
    exact ⟨_, next_of_live hup rfl (signHead_of_challenge hq), rfl, rfl, transcript_signed .., out_signed ..⟩
  case signMeasurements =>
    refine ⟨_, next_of_live hup rfl (signHead_of_measurements hq), rfl, rfl, transcript_signed .., ?_⟩
    exact out_signed ..
  case abort =>
    refine ⟨dropMailbox k.val s, next_of_live hup rfl (if_pos ?_), spdmAt_dropMailbox .., transcript_dropMailbox ..,
      fun x hx => ?_, fun j hj => ⟨spdmAt_dropMailbox_of_ne hj s, transcript_dropMailbox_of_ne hj s⟩⟩
    · rw [hlive, hbooted]
      rfl
    · have hkept := (List.mem_filter.mp hx).2
      exact bne_iff_ne.mp hkept
end

section
/-!
PROOF. The stages of bring-up (R254, R458, R460 to R464, R466, R470, R471).
-/
namespace Sys2Proof.Machine

open Sys2Proof.Claims

/-! ## Stages -/

theorem next_of_atStage {c : Instr} {s t : State} {n : Nat} {f : State → State} (hup : up s)
    (hstage : s.fget F.bootStsStage 0 = n) (hexec : exec c s = atStage n f s) (h : f s = t) : exec c s = .next t := by
  refine next_of_live hup hexec ?_
  rw [when, if_pos (beq_iff_eq.mpr (show s.stage = n from hstage)), h]

theorem stage_setStage {n : Nat} (h : n < 16) (s : State) : (setStage n s).fget F.bootStsStage 0 = n :=
  (fget_fset_same _ _ _ _ (by decide) (by decide)).trans (Nat.mod_eq_of_lt h)

theorem fget_setStage {f : Fld} {i : Nat} (h : regKey f.reg i ≠ regKey F.bootStsStage.reg 0) (n : Nat) (s : State) :
    (setStage n s).fget f i = s.fget f i := fget_fset_of_ne _ _ _ _ _ _ h

theorem boot_setStage (n : Nat) (s : State) : (setStage n s).boot = s.boot := boot_fset ..

theorem mem_setStage (n : Nat) (s : State) : (setStage n s).mem = s.mem := mem_fset ..

theorem flag_of_zero {s : State} {f : Fld} {i : Nat} (h : s.fget f i = 0) : s.flag f i = false :=
  flag_eq_false (by rw [h]; decide)

/-- The field of a slot's failure. -/
def failOf (k : Nat) : Fld := if k = 0 then F.bootStsFailA else F.bootStsFailB

theorem fail_slotFails {cause : Nat} (h : cause < 16) (s : State) :
    (slotFails cause s).fget (failOf s.boot.trySlot) 0 = cause := by
  have hset (f : Fld) (hlo : f.lo ≤ f.hi) (h64 : f.hi < 64) (hwide : f.hi + 1 - f.lo = 4) (hreg : f.reg = F.bootStsStage.reg)
      (hapart : f.hi < F.bootStsStage.lo ∨ F.bootStsStage.hi < f.lo) (b : BootGrp) :
      (setStage 2 { s.fset f 0 cause with boot := b }).fget f 0 = cause := by
    rw [setStage, fget_fset_disjoint _ F.bootStsStage f _ _ hreg (by decide) (by decide) hlo hapart]
    refine (fget_fset_same s f 0 cause hlo h64).trans ?_
    rw [hwide]
    exact Nat.mod_eq_of_lt h
  unfold slotFails failOf
  dsimp only
  split
  · exact hset F.bootStsFailA (by decide) (by decide) rfl rfl (by decide) _
  · exact hset F.bootStsFailB (by decide) (by decide) rfl rfl (by decide) _

theorem slotFailed_slotFails {cause : Nat} (h : cause < 16) (s : State) : slotFailed s cause (slotFails cause s) := by
  refine ⟨stage_setStage (by decide) _, ?_, fail_slotFails h s⟩
  rw [slotFails, boot_setStage]

/-! ## Fuses -/

theorem boot_showKeys (s : State) : (showKeys s).boot = s.boot := by
  rw [showKeys, boot_fset, boot_fset, boot_fset]

theorem fget_showCounts {f : Fld} {i : Nat} (h : regKey f.reg i ≠ regKey F.bootSvnOsvnFuse.reg 0) (s : State) :
    (showCounts s).fget f i = s.fget f i := by
  rw [showCounts, fget_fset_of_ne _ F.bootSvnVsvnFuse f 0 i _ h, fget_fset_of_ne _ _ _ _ _ _ h]

theorem debugLock_showKeys (s : State) :
    (showKeys s).fget F.keyStsDebugLock 0 = if s.boot.debugLock then 1 else 0 := by
  rw [showKeys]
  dsimp only
  rw [fget_fset_same _ _ _ _ (by decide) (by decide)]
  cases s.boot.debugLock <;> rfl

theorem osvn_showCounts (s : State) : (showCounts s).fget F.bootSvnOsvnFuse 0 = s.boot.ownerCount % 256 := by
  have h := osvn_bootResult_showCounts 0 s
  rw [bootResult, fget_fset_of_ne _ _ _ _ _ _ (by decide)] at h
  exact h

theorem vsvn_showCounts (s : State) : (showCounts s).fget F.bootSvnVsvnFuse 0 = s.boot.vendorCount % 256 := by
  have h := vsvn_bootResult_showCounts 0 s
  rw [bootResult, fget_fset_of_ne _ _ _ _ _ _ (by decide)] at h
  exact h

theorem zeroStaging_reads (s : State) (a : Nat) :
    (zeroStaging s).byte a = 0 ∧ (zeroStaging s).poisonAt a = false ∧ (zeroStaging s).eccAt a = 0 := ⟨rfl, rfl, rfl⟩

/-! ## Verification -/

/-- The cause with which a slot fails, its torn range counted. -/
def verdict (s : State) : Nat :=
  if s.tornSlot s.boot.trySlot && (s.slotCause s.boot.container == 0 || decide (3 < s.slotCause s.boot.container)) then 3
  else s.slotCause s.boot.container

theorem verdict_of_whole {s : State} (h : s.tornSlot s.boot.trySlot = false) :
    verdict s = s.slotCause s.boot.container := by
  rw [verdict, h]
  rfl

theorem verdict_of_early {s : State} (h0 : s.slotCause s.boot.container ≠ 0) (h3 : s.slotCause s.boot.container ≤ 3) :
    verdict s = s.slotCause s.boot.container := by
  refine if_neg fun h => ?_
  simp only [Bool.and_eq_true, Bool.or_eq_true, beq_iff_eq, decide_eq_true_eq] at h
  omega

theorem verdict_of_torn {s : State} (h0 : s.slotCause s.boot.container = 0) (ht : s.tornSlot s.boot.trySlot = true) :
    verdict s = 3 := by
  rw [verdict, ht, h0]
  rfl

theorem next_of_verdict {s : State} {n : Nat} (hup : up s) (hstage : s.fget F.bootStsStage 0 = 3) (h : verdict s = n)
    (hn : n ≠ 0) : exec .bootVerifySlot s = .next (slotFails n s) := by
  refine next_of_atStage hup hstage rfl ?_
  have hif : (if verdict s = 0 then setStage 4 s else slotFails (verdict s) s) = slotFails n s := by
    rw [h, if_neg hn]
  exact hif

/-! ## The clock step -/

theorem heldLock_of_past {s : State} {m : Nat} (h : m + 1000000 ≤ s.now) : s.heldLock (some m) = true :=
  decide_eq_true h

theorem heldLock_and_of_none {s : State} (h : s.tb.lockSince = none ∨ s.tb.mgcLockSince = none) :
    (s.heldLock s.tb.lockSince && s.heldLock s.tb.mgcLockSince) = false := by
  obtain h | h := h
  · rw [h]
    rfl
  · rw [h]
    exact Bool.and_false _

theorem lockDrop_of_no_step {s : State} (h : s.clockStep = false) (tbu : Bool) : lockDrop tbu s = if tbu then
      if s.flag F.tbCtlPllLock 0 && s.flag F.tbCtlCoarse 0 then
        { s with tb := { s.tb with lockSince := none } }.fset F.tbCtlPllLock 0 0
      else s
    else if s.flag F.pwcClkMgcPllLock 0 && !s.flag F.pwcClkMgcSrc 0 then
      { s with tb := { s.tb with mgcLockSince := none } }.fset F.pwcClkMgcPllLock 0 0
    else s := by
  unfold lockDrop
  rw [h]
  rfl

/-- The state after BOOT_START with a loaded image. -/
def started (s : State) : State :=
  let s1 := (s.fset F.tbCtlPllEn 0 1).fset F.pwcClkMgcPllEn 0 1
  { s1 with boot := { s1.boot with container := [], startAt := s1.now } }

theorem fget_started (s : State) :
    (started s).fget F.tbCtlPllEn 0 = 1 ∧ (started s).fget F.pwcClkMgcPllEn 0 = 1 := by
  have hreg : (started s).reg = ((s.fset F.tbCtlPllEn 0 1).fset F.pwcClkMgcPllEn 0 1).reg := rfl
  rw [fget_of_reg hreg, fget_of_reg hreg, fget_fset_of_ne _ _ _ _ _ _ (by decide),
    fget_fset_same _ _ _ _ (by decide) (by decide), fget_fset_same _ _ _ _ (by decide) (by decide)]
  exact ⟨rfl, rfl⟩

theorem now_fset (f : Fld) (i x : Nat) (s : State) : (s.fset f i x).now = s.now := rfl

theorem boot_started (s : State) : (started s).boot = { s.boot with container := [], startAt := s.now } := by
  unfold started
  dsimp only
  rw [now_fset, now_fset, boot_fset, boot_fset]

end Sys2Proof.Machine

open Sys2Proof Sys2Proof.Machine Sys2Proof.Claims

/-- Settles O53, stage by stage. -/
theorem bringUpRunsItsStages : Obligations.BringUpRunsItsStages := by
  unfold Obligations.BringUpRunsItsStages
  intro s hup stage c
  refine ⟨fun h => ⟨_, next_of_atStage hup h rfl rfl, ?fuseStage, ?osvn, ?vsvn, ?lock⟩,
    fun h => ⟨_, next_of_atStage hup h rfl rfl, stage_setStage (by decide) _, fun a => ?rom⟩,
    fun b h hslot => ⟨fun herased => ?erased, fun hread => ?read⟩,
    fun h => ⟨fun h0 ht => ?pass, fun h0 h3 => ?early, fun h0 ht => ?torn⟩,
    fun h => next_of_atStage hup h rfl rfl, fun h => next_of_atStage hup h rfl rfl, fun h hc => ?start,
    fun m n hstep hm hn hmPast hnPast => ?locked, fun hstep hnone hlate => ?noLock,
    fun hstep => ⟨fun hlock hcoarse => ?tbDrop, fun hlock hsrc => ?mgcDrop⟩,
    fun h hclocked => ⟨fun k hnamed hover hlate => ?init, fun hall hsrc => ?ready⟩, fun h hslot => ?recovery⟩
  case fuseStage => exact stage_setStage (by decide) _
  case osvn => rw [fget_setStage (by decide), osvn_showCounts, boot_showKeys]
  case vsvn => rw [fget_setStage (by decide), vsvn_showCounts, boot_showKeys]
  case lock => rw [fget_setStage (by decide), fget_showCounts (by decide), debugLock_showKeys]
  case rom =>
    have hzero := zeroStaging_reads s a
    rw [State.byte, State.poisonAt, State.eccAt, mem_setStage]
    exact hzero
  case erased =>
    refine ⟨slotFails 6 s, next_of_atStage hup h rfl ?_, slotFailed_slotFails (by decide) s⟩
    rw [if_neg (by cases b <;> simp [hslot, b2n])]
    cases b <;> exact if_pos herased
  case read =>
    let d := s.readSlot (if b then 1 else 0)
    refine ⟨setStage 3 { s with boot := { s.boot with container := d } }, next_of_atStage hup h rfl ?_,
      stage_setStage (by decide) _, ?_⟩
    · rw [if_neg (by cases b <;> simp [hslot, b2n])]
      cases b <;> exact if_neg (Bool.eq_false_iff.mp hread)
    · rw [boot_setStage]
  case pass =>
    refine next_of_atStage hup h rfl ?_
    have hif : (if verdict s = 0 then setStage 4 s else slotFails (verdict s) s) = setStage 4 s :=
      if_pos ((verdict_of_whole ht).trans h0)
    exact hif
  case early =>
    exact ⟨_, next_of_verdict hup h (verdict_of_early h0 h3) h0, slotFailed_slotFails (by omega) s⟩
  case torn =>
    exact ⟨_, next_of_verdict hup h (verdict_of_torn h0 ht) (by decide), slotFailed_slotFails (by decide) s⟩
  case start =>
    have hfull : ¬s.boot.container.isEmpty = true := by simpa using hc
    exact ⟨started s, next_of_atStage hup h rfl (if_neg hfull), (fget_started s).1, (fget_started s).2, boot_started s⟩
  case locked =>
    refine next_of_live hup rfl ?_
    rw [clockHold, hm, hn, heldLock_of_past hmPast, heldLock_of_past hnPast, hstep]
    rfl
  case noLock =>
    refine next_of_live hup rfl ?_
    have hlocks := heldLock_and_of_none hnone
    have hnext : ((s.tb.lockSince.isNone || s.tb.mgcLockSince.isNone)
        && decide (s.now ≥ s.boot.startAt + 1000000)) = true := by
      simpa [hlate] using hnone
    rw [clockHold]
    rw [if_pos hstep, hlocks, if_neg Bool.false_ne_true, if_pos hnext]
    rfl
  case tbDrop =>
    refine next_of_live hup rfl ?_
    rw [lockDrop_of_no_step hstep, flag_eq_true hlock, flag_eq_true hcoarse]
    rfl
  case mgcDrop =>
    refine next_of_live hup rfl ?_
    rw [lockDrop_of_no_step hstep, flag_eq_true hlock, flag_of_zero hsrc]
    rfl
  case init =>
    refine next_of_atStage hup h rfl (if_pos ?_)
    simp only [hclocked, hnamed, hover, Bool.not_false, Bool.and_self, Bool.true_and, decide_eq_true_eq]
    exact hlate
  case ready =>
    refine next_of_atStage hup h rfl (if_pos ?_)
    have hclock : (!s.flag F.tbCtlSrc 0 || !s.flag F.tbCtlCoarse 0) = true := by
      obtain hz | hz := hsrc
      · rw [flag_of_zero hz]
        rfl
      · rw [flag_of_zero hz]
        exact Bool.or_true _
    rw [hclocked, hall, hclock]
    rfl
  case recovery => exact next_of_atStage hup h rfl (if_pos hslot)
end

section
/-!
PROOF. Writes of registers (R7, R11 to R13, R492, R493): the commands with a row of their own, and REGISTER_WRITE.
-/
namespace Sys2Proof.Machine

open Sys2Proof.Claims

/-- The meaning of every command that writes one register is a write guarded by who may write it. -/
theorem exec_of_registerOf {c : Instr} {w : Writer} {r : RegId} {i : Nat} {v : Word}
    (h : registerOf c = some (w, r, i, v)) :
    ∃ f : State → State → State, ∀ s, exec c s = live s (fun x => guarded w r i v (f x) x) := by
  cases c <;> cases h <;> exact ⟨_, fun _ => rfl⟩

theorem guarded_of_not_writerOk {w : Writer} {r : RegId} {i : Nat} (h : writerOk w r i = false) (v : Word)
    (f : State → State) (s : State) : guarded w r i v f s = violSource (s.writePkt w r i v) s :=
  if_neg (Bool.eq_false_iff.mp h)

end Sys2Proof.Machine

open Sys2Proof Sys2Proof.Machine Sys2Proof.Claims

/-- Settles O57: the guard of each such command refuses the writer. -/
theorem wrongWritersAreRecorded : Obligations.WrongWritersAreRecorded := by
  unfold Obligations.WrongWritersAreRecorded
  intro s c w r i v hup hreg hw p
  obtain ⟨f, hf⟩ := exec_of_registerOf hreg
  rw [hf, live_of_up hup, guarded_of_not_writerOk hw]
  rfl

namespace Sys2Proof.Machine

open Sys2Proof.Claims

/-! ## Fields under their access codes -/

/-- Two fields share no bit. -/
def Field.apart (f g : Field) : Prop := f.hi < g.lo ∨ g.hi < f.lo

/-- A field's bits lie in a register. -/
def Field.fits (f : Field) : Prop := f.lo ≤ f.hi ∧ f.hi < 64

theorem Field.apart_symm {f g : Field} (h : f.apart g) : g.apart f := Or.symm h

section Fields

variable {r : RegId} {i : Nat} {v : Word} {f g : Field} {s t : State}

/-- The name of a field of register `r`. -/
abbrev fldOf (r : RegId) (f : Field) : Fld := ⟨r, f.hi, f.lo⟩

theorem bitsGet_mod (v : Word) (f : Field) : bitsGet v f.hi f.lo % 2 ^ (f.hi + 1 - f.lo) = bitsGet v f.hi f.lo := by
  simp only [bitsGet, Nat.mod_mod]

/-- A write of one field leaves the state, or puts a value in the field or in its shadow. -/
theorem writeField_cases (r : RegId) (i : Nat) (v : Word) (f : Field) (s : State) : writeField r i v f s = s
    ∨ (∃ x, writeField r i v f s = s.fset (fldOf r f) i x) ∨ ∃ x, writeField r i v f s = s.fsetS (fldOf r f) i x := by
  have hif (c : Prop) [Decidable c] (t : State) : (if c then t else s) = s ∨ (if c then t else s) = t :=
    (em c).elim (fun h => .inr (if_pos h)) (fun h => .inl (if_neg h))
  unfold writeField
  cases f.acc with
  | ro => exact .inl rfl
  | wo => exact .inl rfl
  | rw => exact (hif ..).imp_right fun h => .inl ⟨_, h⟩
  | rwl => exact (hif ..).imp_right fun h => .inl ⟨_, h⟩
  | rwc => exact (hif ..).imp_right fun h => .inl ⟨_, h⟩
  | rws => exact (hif ..).imp_right fun h => .inr ⟨_, h⟩

theorem fgetS_fsetS_disjoint (x : Nat) (hg : g.fits) (hf : f.fits) (h : f.apart g) :
    (s.fsetS (fldOf r g) i x).fgetS (fldOf r f) i = s.fgetS (fldOf r f) i := by
  simp only [State.fgetS, State.fsetS, sget_sput_same]
  obtain h | h := h
  · exact bitsGet_bitsPut_below _ _ _ _ _ _ hg.1 hg.2 hf.1 h
  · exact bitsGet_bitsPut_above _ _ _ _ _ _ hg.1 hg.2 h

/-- A write of one field leaves those that share no bit with it, active and shadow. -/
theorem writeField_keeps (hg : g.fits) (hf : f.fits) (h : f.apart g) :
    (writeField r i v g s).fget (fldOf r f) i = s.fget (fldOf r f) i
      ∧ (writeField r i v g s).fgetS (fldOf r f) i = s.fgetS (fldOf r f) i := by
  obtain h' | ⟨x, h'⟩ | ⟨x, h'⟩ := writeField_cases r i v g s
  · rw [h']
    exact ⟨rfl, rfl⟩
  · rw [h']
    exact ⟨fget_fset_disjoint _ (fldOf r g) (fldOf r f) _ _ rfl hg.1 hg.2 hf.1 h, rfl⟩
  · rw [h']
    exact ⟨rfl, fgetS_fsetS_disjoint x hg hf h⟩

theorem tookField_writeField (hf : f.fits) : tookField r i v f s (writeField r i v f s) := by
  have hset (x : Nat) : (s.fset (fldOf r f) i x).fget (fldOf r f) i = x % 2 ^ (f.hi + 1 - f.lo) :=
    fget_fset_same _ _ _ _ hf.1 hf.2
  have htake : (if encodingOk r f.lo (bitsGet v f.hi f.lo) then s.fset (fldOf r f) i (bitsGet v f.hi f.lo) else s).fget
      (fldOf r f) i = if encodingOk r f.lo (bitsGet v f.hi f.lo) then bitsGet v f.hi f.lo else s.fget (fldOf r f) i := by
    split
    · exact (hset _).trans (bitsGet_mod v f)
    · rfl
  unfold tookField writeField
  cases f.acc with
  | ro => exact ⟨rfl, rfl⟩
  | wo => exact ⟨rfl, rfl⟩
  | rw => exact htake
  | rwl => exact htake
  | rwc =>
    dsimp only [when]
    split
    next hx =>
      rw [if_neg (bne_iff_ne.mp hx)]
      exact (hset 0).trans (Nat.zero_mod _)
    next hx => rw [if_pos (by simpa using hx)]
  | rws =>
    dsimp only
    split
    · exact ⟨(fgetS_fsetS_same _ _ _ _ hf.1 hf.2).trans (bitsGet_mod v f), rfl⟩
    · exact ⟨rfl, rfl⟩

/-- Whether a field took a write depends on nothing but that field before and after. -/
theorem tookField_congr {s' t' : State} (h : tookField r i v f s t)
    (hs : s'.fget (fldOf r f) i = s.fget (fldOf r f) i ∧ s'.fgetS (fldOf r f) i = s.fgetS (fldOf r f) i)
    (ht : t'.fget (fldOf r f) i = t.fget (fldOf r f) i ∧ t'.fgetS (fldOf r f) i = t.fgetS (fldOf r f) i) :
    tookField r i v f s' t' := by
  unfold tookField at h ⊢
  dsimp only at h ⊢
  rw [ht.1, ht.2, hs.1, hs.2]
  exact h

theorem writeFields_keep {l : List Field} (hfit : ∀ g ∈ l, g.fits) (hf : f.fits) (h : ∀ g ∈ l, f.apart g) :
    (forL l (writeField r i v) s).fget (fldOf r f) i = s.fget (fldOf r f) i
      ∧ (forL l (writeField r i v) s).fgetS (fldOf r f) i = s.fgetS (fldOf r f) i := by
  induction l generalizing s with
  | nil => exact ⟨rfl, rfl⟩
  | cons g rest ih =>
    obtain ⟨hrest, hrestS⟩ := ih (s := writeField r i v g s) (fun x hx => hfit x (List.mem_cons_of_mem _ hx))
      (fun x hx => h x (List.mem_cons_of_mem _ hx))
    obtain ⟨hg, hgS⟩ := writeField_keeps (r := r) (i := i) (v := v) (s := s) (hfit g List.mem_cons_self) hf
      (h g List.mem_cons_self)
    exact ⟨hrest.trans hg, hrestS.trans hgS⟩

/-- Each field of a list of fields that share no bit takes a write by its own access code. -/
theorem tookField_writeFields {l : List Field} (hfit : ∀ f ∈ l, f.fits) (hapart : l.Pairwise Field.apart) :
    ∀ f ∈ l, tookField r i v f s (forL l (writeField r i v) s) := by
  induction l generalizing s with
  | nil => exact fun f hf => absurd hf List.not_mem_nil
  | cons g rest ih =>
    obtain ⟨hhead, htail⟩ := List.pairwise_cons.mp hapart
    have hrestFit : ∀ f ∈ rest, f.fits := fun x hx => hfit x (List.mem_cons_of_mem _ hx)
    intro f hf
    obtain rfl | hf := List.mem_cons.mp hf
    · exact tookField_congr (tookField_writeField (hfit f List.mem_cons_self)) ⟨rfl, rfl⟩
        (writeFields_keep hrestFit (hfit f List.mem_cons_self) hhead)
    · obtain ⟨hget, hgetS⟩ := writeField_keeps (r := r) (i := i) (v := v) (s := s) (hfit g List.mem_cons_self)
        (hrestFit f hf) (Field.apart_symm (hhead f hf))
      exact tookField_congr (ih hrestFit htail f hf) ⟨hget.symm, hgetS.symm⟩ ⟨rfl, rfl⟩

end Fields

theorem writeField_of_ne {r r' : RegId} {i i' : Nat} (h : regKey r' i' ≠ regKey r i) (v : Word) (f : Field)
    (s : State) : (writeField r i v f s).rget r' i' = s.rget r' i' ∧ (writeField r i v f s).sget r' i' = s.sget r' i' := by
  obtain h' | ⟨x, h'⟩ | ⟨x, h'⟩ := writeField_cases r i v f s
  · rw [h']
    exact ⟨rfl, rfl⟩
  · rw [h']
    exact ⟨rget_rput_of_ne _ _ _ _ _ _ h, rfl⟩
  · rw [h']
    refine ⟨rfl, ?_⟩
    simp only [State.sget, State.fsetS, State.sput, mget_mput_ne _ _ _ _ _ h]

theorem writeField_rest (r : RegId) (i : Nat) (v : Word) (f : Field) (s : State) (g : RegGrp) :
    { writeField r i v f s with reg := g } = { s with reg := g } := by
  obtain h' | ⟨x, h'⟩ | ⟨x, h'⟩ := writeField_cases r i v f s
  · rw [h']
  · rw [h']
    rfl
  · rw [h']
    rfl

/-- The fields of the registers without an effect of their own lie in 64 bits and share none. -/
theorem fields_of_plainRegs : ∀ r ∈ plainRegs, (∀ f ∈ r.fields, f.lo ≤ f.hi ∧ f.hi < 64)
    ∧ r.fields.Pairwise (fun f g => f.hi < g.lo ∨ g.hi < f.lo) := by decide

theorem plain_eq (r : RegId) (i : Nat) (v : Word) (s : State) : plain r i v s = forL r.fields (writeField r i v) s := by
  have hall : r.fields.filter (fun f => !([] : List Nat).contains f.lo) = r.fields :=
    List.filter_eq_self.mpr fun _ _ => rfl
  rw [plain, writeFields, hall]

/-- What a write of a register without an effect of its own does. -/
theorem plain_takes {r : RegId} (hr : r ∈ plainRegs) (i : Nat) (v : Word) (s : State) :
    (∀ f ∈ r.fields, tookField r i v f s (plain r i v s))
      ∧ (∀ r' i', regKey r' i' ≠ regKey r i → (plain r i v s).rget r' i' = s.rget r' i'
        ∧ (plain r i v s).sget r' i' = s.sget r' i')
      ∧ { plain r i v s with reg := s.reg } = s := by
  obtain ⟨hfit, hapart⟩ := fields_of_plainRegs r hr
  rw [plain_eq]
  refine ⟨tookField_writeFields hfit hapart, fun r' i' h => ⟨?_, ?_⟩, ?_⟩
  · exact forL_unchanged (fun x => x.rget r' i') (fun f x => (writeField_of_ne h v f x).1) _ s
  · exact forL_unchanged (fun x => x.sget r' i') (fun f x => (writeField_of_ne h v f x).2) _ s
  · exact forL_unchanged (fun x => { x with reg := s.reg }) (fun f x => writeField_rest r i v f x s.reg) _ s

theorem regWrite_of_plainRegs {r : RegId} (hr : r ∈ plainRegs) (w : Writer) (p : Packet) (i : Nat) (v : Word)
    (s : State) : regWrite w p r i v s = plain r i v s := by
  simp only [plainRegs, List.mem_cons, List.not_mem_nil, or_false] at hr
  rcases hr with rfl | rfl | rfl | rfl | rfl | rfl | rfl | rfl | rfl | rfl | rfl | rfl | rfl | rfl | rfl | rfl | rfl
    | rfl | rfl | rfl | rfl | rfl | rfl | rfl | rfl | rfl | rfl | rfl | rfl | rfl | rfl | rfl | rfl | rfl | rfl | rfl | rfl
  all_goals rfl

/-! ## Accesses -/

theorem regAccept_of_dead {s : State} {r : RegId} {i : Nat} (h : s.deadReg r i = true) (w : Writer) (p : Packet)
    (v : Word) : regAccept w p r i v s = s := if_pos h

theorem regAccept_of_not_writerOk {s : State} {w : Writer} {r : RegId} {i : Nat} (hdead : s.deadReg r i = false)
    (hw : writerOk w r i = false) (hhead : r ≠ .qmQhead) (herr : r ≠ .qmQerr) (p : Packet) (v : Word) :
    regAccept w p r i v s = violSource p s := by
  unfold regAccept
  rw [if_neg (Bool.eq_false_iff.mp hdead), if_neg (not_or.mpr ⟨hhead, herr⟩), if_neg (Bool.eq_false_iff.mp hw)]

theorem regAccept_of_writerOk {s : State} {w : Writer} {r : RegId} {i : Nat} (hdead : s.deadReg r i = false)
    (hw : writerOk w r i = true) (p : Packet) (v : Word) : regAccept w p r i v s = regWrite w p r i v s := by
  unfold regAccept
  rw [if_neg (Bool.eq_false_iff.mp hdead), if_pos hw, ite_self]

section Access

variable {w : Writer} {off width : Nat} {p : Packet} {v : Word} {s : State}

theorem ctlWrite_below (h : off < 0x1FF0000) : ctlWrite w p false 0 off width v s =
    match regAt regRows false off width with
    | .reg r i _ => regAccept w p r (instOf w false 0 r i) v s
    | .misaligned => badWidth p s
    | .none => if (width = 4 ∨ width = 8) ∧ off % width = 0 then s else badWidth p s := by
  have hbelow : (!false && decide (0x1FF0000 ≤ off)) = false := decide_eq_false (by omega)
  unfold ctlWrite
  rw [Bool.false_and, if_neg Bool.false_ne_true, hbelow, if_neg Bool.false_ne_true] <;> rfl

theorem registerWrite_below (hw : w = .mgc ∨ ∃ k, w = .host k) (h : off < 0x1FF0000) :
    registerWrite w off width v s = ctlWrite w (s.regPkt w off width v) false 0 off width v s := by
  obtain rfl | ⟨k, rfl⟩ := hw
  · exact if_neg (by omega)
  · exact (if_neg (by omega)).trans (if_neg (by omega))

theorem registerWrite_beyond (hw : w = .mgc ∨ ∃ k, w = .host k) (h : 0x2000000 ≤ off) :
    registerWrite w off width v s = s := by
  obtain rfl | ⟨k, rfl⟩ := hw
  · exact if_pos h
  · exact if_pos h

end Access

end Sys2Proof.Machine

open Sys2Proof Sys2Proof.Machine Sys2Proof.Claims

/-- Settles O56: what an offset hits decides, then who writes, then each field's access code. -/
theorem registerWritesTakeTheirFields : Obligations.RegisterWritesTakeTheirFields := by
  unfold Obligations.RegisterWritesTakeTheirFields
  intro s w off width v hup run p
  have hrun {t : State} (h : registerWrite w off width v s = t) : run = .next t := next_of_live hup rfl h
  refine ⟨fun hw hoff => ⟨fun r i ⟨w', hreg⟩ => ?whole, fun hmis => ?misaligned, fun hnone => ?unoccupied⟩,
    fun k hk hlo hhi => ?area, fun hw hoff => ?beyond, fun e he hreach => ?unreached⟩
  case whole =>
    intro j
    have haccept : registerWrite w off width v s = regAccept w p r j v s := by
      rw [registerWrite_below hw hoff, ctlWrite_below hoff, hreg]
    refine ⟨fun hdead => hrun (haccept.trans (regAccept_of_dead hdead w p v)),
      fun hdead hnot hhead herr => hrun (haccept.trans (regAccept_of_not_writerOk hdead hnot hhead herr p v)),
      fun hdead hok hplain => ⟨plain r j v s, hrun (haccept.trans ?_), plain_takes hplain j v s⟩⟩
    rw [regAccept_of_writerOk hdead hok, regWrite_of_plainRegs hplain]
  case misaligned =>
    refine hrun ?_
    rw [registerWrite_below hw hoff, ctlWrite_below hoff, hmis]
    rfl
  case unoccupied =>
    refine hrun ?_
    rw [registerWrite_below hw hoff, ctlWrite_below hoff, hnone]
    rfl
  case area =>
    subst hk
    exact hrun ((if_neg (Nat.not_le.mpr hhi)).trans (if_pos hlo))
  case beyond => exact hrun (registerWrite_beyond hw hoff)
  case unreached =>
    subst he
    exact hrun (if_neg (Bool.eq_false_iff.mp hreach))
end

section
/-!
PROOF. Power domains (R438 to R455): entry and its refusals, isolation and what OFF loses, the wake sequence, its sources,
WAKE_SENSE and deep idle.
-/
namespace Sys2Proof.Machine

open Sys2Proof.Claims

/-! ## A PD in OFF -/

/-- A cleared range reads as the default; every other place as before. -/
theorem mget_mclear {α : Type} (d : α) (p : Nat → Bool) (m : SMap α) (k : Nat) :
    mget d (mclear p m) k = if p k then d else mget d m k := by
  induction m with
  | nil => simp [mget, mclear]
  | cons x rest ih =>
    obtain ⟨j, v⟩ := x
    have hcons : mclear p ((j, v) :: rest) = if p j then mclear p rest else (j, v) :: mclear p rest := by
      cases hp : p j <;> simp [mclear, hp]
    rw [hcons]
    by_cases hj : k = j
    · subst hj
      cases hp : p k
      · simp [mget]
      · simpa [hp] using ih
    · cases hp : p j
      · simpa [mget, hj] using ih
      · simpa [mget, hj] using ih

/-- A clear of what belongs to cluster `c`, where key `k` belongs to cluster `k / n`. -/
theorem mget_mclear_cluster {α : Type} (d : α) (m : SMap α) {p : Nat → Bool} {c dom n : Nat} (hdom : dom = c + 6)
    (hp : ∀ k, p k = (k / n == c)) (k : Nat) : mget d (mclear p m) k = if k / n + 6 = dom then d else mget d m k := by
  rw [mget_mclear, hp, hdom]
  simp only [beq_iff_eq, Nat.add_right_cancel_iff]

/-- What a PD loses in OFF, and what it leaves of the other PDs. -/
theorem dropDomain_of_pd {d : Nat} (h6 : 6 ≤ d) (h14 : d < 14) (s : State) :
    ((dropDomain d s).dom d).st = (s.dom d).st
      ∧ (∀ e, (dropDomain d s).eng e = if e / 8 + 6 = d then {} else s.eng e)
      ∧ (∀ k, (dropDomain d s).psWord k = if k / 131072 + 6 = d then 0 else s.psWord k)
      ∧ ∀ k, (dropDomain d s).scrByte k = if k / 524288 + 6 = d then 0 else s.scrByte k := by
  have hdrop : dropDomain d s = dropPd (d - 6) (dropRegs d s) := if_pos h14
  have hd : d = d - 6 + 6 := by omega
  rw [hdrop]
  refine ⟨rfl, fun e => mget_mclear_cluster _ _ hd (fun _ => rfl) e, fun k => mget_mclear_cluster _ _ hd (fun _ => rfl) k,
    fun k => mget_mclear_cluster (p := fun k => k / 65536 / 8 == d - 6) _ _ hd (fun k => ?_) k⟩
  rw [Nat.div_div_eq_div_mul]

theorem isolate_of_mayIsolate {s : State} {d : Nat} (hon : (s.dom d).st = 0) (hentry : (s.dom d).trans = 1)
    (h : s.mayIsolate d = true) : isolate d s = when (s.dom d).toOff (dropDomain d)
      (pwrTrace (if (s.dom d).toOff then 2 else 1) d 0
        (s.setDom d { s.dom d with st := if (s.dom d).toOff then 2 else 1, trans := 0, since := s.now })) :=
  if_pos ⟨hon, hentry, h⟩

theorem isolate_of_ret {s : State} {d : Nat} (hon : (s.dom d).st = 0) (hentry : (s.dom d).trans = 1)
    (h : s.mayIsolate d = true) (hret : (s.dom d).toOff = false) : isolate d s = pwrTrace 1 d 0
      (s.setDom d { s.dom d with st := 1, trans := 0, since := s.now }) := by
  have hst : (if (s.dom d).toOff then 2 else 1) = 1 := by
    rw [hret]
    rfl
  rw [isolate_of_mayIsolate hon hentry h, hst]
  exact if_neg (Bool.eq_false_iff.mp hret)

theorem isolate_of_off {s : State} {d : Nat} (hon : (s.dom d).st = 0) (hentry : (s.dom d).trans = 1)
    (h : s.mayIsolate d = true) (hoff : (s.dom d).toOff = true) : isolate d s = dropDomain d (pwrTrace 2 d 0
      (s.setDom d { s.dom d with st := 2, trans := 0, since := s.now })) := by
  have hst : (if (s.dom d).toOff then 2 else 1) = 2 := by
    rw [hoff]
    rfl
  rw [isolate_of_mayIsolate hon hentry h, hst]
  exact if_pos hoff

/-! ## The idle timer -/

section Idle

variable {s : State} {d : Nat} (h : s.idleOver d = true)
include h

theorem idleExpire_of_refuser {r : Refuser} (hr : s.refuser d = some r) :
    idleExpire d s = pwrRefuse d r.cause r.kind r.who s := by
  unfold idleExpire
  rw [h, hr]
  rfl

theorem idleExpire_of_quiet (hr : s.refuser d = none) (hquiet : ¬(16 ≤ d ∧ s.portQuiet (d - 16) = false)) :
    idleExpire d s = beginEntry d (s.mayOff d) s := by
  unfold idleExpire
  rw [h, hr]
  exact if_neg hquiet

theorem idleExpire_of_active (hr : s.refuser d = none) (hport : 16 ≤ d) (hactive : s.portQuiet (d - 16) = false)
    (hsent : (s.lpi (d - 16)).sleepSent = false) : idleExpire d s = sleepExit (d - 16) (sendMl (d - 16) 0x09 []
      (s.setLpi (d - 16) { s.lpi (d - 16) with sleepSent := true, sleepAt := s.now })) := by
  unfold idleExpire
  rw [h, hr]
  refine (if_pos (c := 16 ≤ d ∧ s.portQuiet (d - 16) = false) ⟨hport, hactive⟩).trans ?_
  exact if_neg (Bool.eq_false_iff.mp hsent)

end Idle

/-! ## Wakes -/

theorem waking_of {s : State} {d n : Nat} (htrans : (s.dom d).trans = 2) (hstage : (s.dom d).stage = n) :
    s.waking d n = true := by
  rw [State.waking, htrans, hstage]
  simp

theorem wakeDone_eq (d : Nat) (s : State) : wakeDone d s = afterWake d (backOn s d) := rfl

theorem afterWake_of_lt {d : Nat} (h : d < 14) (s : State) : afterWake d s = s := if_pos h

theorem wakeOne_of_down {s : State} {d : Nat} (h : (s.dom d).st = 1 ∨ (s.dom d).st = 2) (ht : (s.dom d).trans = 0) :
    wakeOne d s = wakesNow s d := if_pos ⟨h, ht⟩

theorem wakeOne_of_on {s : State} {d : Nat} (h : (s.dom d).st = 0) : wakeOne d s = s :=
  if_neg fun ⟨hdown, _⟩ => by omega

theorem dom_fset (f : Fld) (i x d : Nat) (s : State) : (s.fset f i x).dom d = s.dom d := rfl

theorem abortEntry_fset_of_settled {s : State} {d : Nat} (h : (s.dom d).trans = 0) (src : Nat) (f : Fld) (i x : Nat) :
    abortEntry d src (s.fset f i x) = s.fset f i x := by
  refine if_neg ?_
  rw [dom_fset, h]
  decide

theorem startWake_of_lt {d : Nat} (h : d < 16) (s : State) : startWake d s = wakeOne d s := if_neg (by omega)

theorem startWake_of_port {d : Nat} (h : 16 ≤ d) (s : State) : startWake d s =
    forL (span (s.leadOf (d - 16)) (s.groupLen (d - 16))) (fun q => wakeOne (16 + q)) s := if_pos h

theorem wakeFailed_of_failed {s : State} {d : Nat} (h : (s.dom d).st = 3) (ht : (s.dom d).trans = 0) :
    wakeFailed d s = wakesNow s d := if_pos ⟨h, ht⟩

theorem untimed_setUntimed (ni k : Nat) (v : Bool) (s : State) :
    (s.setUntimed ni v).untimed k = if k = ni then v else s.untimed k := by
  by_cases hk : k = ni
  · rw [if_pos hk, hk, State.untimed_setUntimed]
  · rw [if_neg hk, State.untimed_setUntimed_of_ne _ _ _ _ hk]

theorem untimed_backOn {d ni : Nat} (h : ni ∈ nisOf d) (s : State) : (backOn s d).untimed ni = true := by
  refine forL_establishes (P := fun x => x.untimed ni = true) (f := fun ni s => s.setUntimed ni true)
    (fun k x hx => ?_) (a := ni) (fun x => ?_) h _
  · rw [untimed_setUntimed, hx, ite_self]
  · rw [untimed_setUntimed, if_pos rfl]

/-- A request for a wake that the state shows, of a domain that is down. -/
theorem wakeRequest_of_down {s : State} {d : Nat} {src : WakeSource} (hasked : s.wakeAsked d src = true)
    (h : (s.dom d).st = 1 ∨ (s.dom d).st = 2) (ht : (s.dom d).trans = 0) : wakeRequest d src s =
      when ((src == .packetToSend || src == .packet) && (d == 14 || d == 15) && (s.dom d).st == 1)
        (fun s => s.emit (.clkreq (d - 14))) (startWake d s) := by
  refine if_pos ?_
  rw [hasked, ht]
  simpa using h

theorem when_of_false {c : Bool} (h : c = false) (f : State → State) (s : State) : when c f s = s :=
  if_neg (Bool.eq_false_iff.mp h)

theorem when_of_true {c : Bool} (h : c = true) (f : State → State) (s : State) : when c f s = f s := if_pos h

/-- Without CLKREQ, a request does no more than start the wake. -/
theorem wakeRequest_silent {s : State} {d : Nat} {src : WakeSource} (hasked : s.wakeAsked d src = true)
    (h : (s.dom d).st = 1 ∨ (s.dom d).st = 2) (ht : (s.dom d).trans = 0)
    (hsilent : (d ≠ 14 ∧ d ≠ 15) ∨ (src ≠ .packet ∧ src ≠ .packetToSend)) :
    wakeRequest d src s = startWake d s := by
  rw [wakeRequest_of_down hasked h ht]
  refine when_of_false ?_ _ _
  obtain ⟨h14, h15⟩ | ⟨hpacket, hsend⟩ := hsilent
  · simp [h14, h15]
  · simp [hpacket, hsend]

/-! ## Failed attempts -/

/-- An attempt of domain `d` fails, as the state shows it. -/
theorem attemptFail_of_lt {s : State} {d : Nat} (h : (s.dom d).attempts < 4) (cause : Nat) :
    attemptFail d cause s = s.setDom d { s.dom d with stage := 2, at_ := s.now } := if_pos h

theorem dom_touch (d : Nat) (s : State) :
    (touch d s).dom d = { s.dom d with last := s.now, limit := s.fget F.pwrDomIdleT d } := State.dom_setDom ..

theorem dom_pwrTrace (event d cause k : Nat) (s : State) : (pwrTrace event d cause s).dom k = s.dom k := rfl

theorem dom_pwrRefuse (d cause kind who : Nat) (s : State) : ((pwrRefuse d cause kind who s).dom d).st = (s.dom d).st
    ∧ ((pwrRefuse d cause kind who s).dom d).trans = (s.dom d).trans := by
  unfold pwrRefuse
  dsimp only
  rw [dom_touch, dom_pwrTrace, dom_fset, dom_fset, dom_fset, State.fsat, dom_fset]
  exact ⟨rfl, rfl⟩

theorem reg_touch (d : Nat) (s : State) : (touch d s).reg = s.reg := rfl

theorem reg_pwrTrace (event d cause : Nat) (s : State) : (pwrTrace event d cause s).reg = s.reg := rfl

theorem dom_viol (v : Viol) (k : Nat) (s : State) : (viol v s).dom k = s.dom k := rfl

theorem cause_pwrRefuse {cause : Nat} (h : cause < 256) (d kind who : Nat) (s : State) :
    (pwrRefuse d cause kind who s).fget F.pwrRefCause d = cause := by
  unfold pwrRefuse
  dsimp only
  rw [fget_of_reg (reg_touch ..), fget_of_reg (reg_pwrTrace ..),
    fget_fset_disjoint _ F.pwrRefWho F.pwrRefCause _ _ rfl (by decide) (by decide) (by decide) (by decide),
    fget_fset_disjoint _ F.pwrRefKind F.pwrRefCause _ _ rfl (by decide) (by decide) (by decide) (by decide),
    fget_fset_same _ _ _ _ (by decide) (by decide)]
  exact Nat.mod_eq_of_lt h

theorem bit_of_set {n d : Nat} (h : d < 24) :
    (if natBit n d then n else n + 2 ^ d) % 2 ^ 24 / 2 ^ d % 2 = 1 := by
  have hset : (if natBit n d then n else n + 2 ^ d) / 2 ^ d % 2 = 1 := by
    by_cases hb : n / 2 ^ d % 2 = 1
    · rw [natBit_eq, decide_eq_true hb, if_pos rfl]
      exact hb
    · rw [natBit_eq, decide_eq_false hb, if_neg Bool.false_ne_true, Nat.add_div_right _ (by positivity)]
      omega
  rw [show 24 = d + (24 - d) by omega, pow_add, Nat.mod_mul_right_div_self,
    Nat.mod_mod_of_dvd _ (dvd_pow_self 2 (by omega)), hset]

/-- The state of a domain that has failed. -/
theorem domFail_of_lt {d : Nat} (h : d < 16) (cause : Nat) (s : State) :
    ((domFail d cause s).dom d).st = 3 ∧ ((domFail d cause s).dom d).trans = 0
      ∧ (domFail d cause s).fget F.wsCtlArm 0 = 1 ∧ (domFail d cause s).fget F.pwrStsFailed 0 / 2 ^ d % 2 = 1
      ∧ (domFail d cause s).fget F.pwrRefCause d = 0x0A := by
  have hkey (r : RegId) (hr : F.pwrRefCause.reg ≠ r) : regKey F.pwrRefCause.reg d ≠ regKey r 0 :=
    regKey_ne _ _ _ _ (by omega) (by omega) (.inl hr)
  obtain ⟨hst, htrans⟩ := dom_pwrRefuse d 0x0A 1 44 (s.setDom d { s.dom d with st := 3, trans := 0, stage := 0 })
  unfold domFail
  dsimp only
  rw [when_of_false (by simp [show ¬16 ≤ d by omega])]
  rw [dom_pwrTrace, dom_fset, dom_fset, dom_viol, hst, htrans, State.dom_setDom, fget_of_reg (reg_pwrTrace ..),
    fget_of_reg (reg_pwrTrace ..), fget_of_reg (reg_pwrTrace ..)]
  refine ⟨rfl, rfl, ?_, ?_, ?_⟩
  · exact fget_fset_same _ _ _ _ (by decide) (by decide)
  · rw [fget_fset_of_ne _ _ _ _ _ _ (by decide), fget_fset_same _ _ _ _ (by decide) (by decide)]
    exact bit_of_set (by omega)
  · rw [fget_fset_of_ne _ _ _ _ _ _ (hkey _ (by decide)), fget_fset_of_ne _ _ _ _ _ _ (hkey _ (by decide)),
      fget_of_reg (reg_viol ..), cause_pwrRefuse (by decide)]

theorem attemptEnds_of_attemptFail {c : Instr} {s : State} {d cause : Nat}
    (h : exec c s = .next (attemptFail d cause s)) : attemptEnds c s d := by
  refine ⟨fun hlt => h.trans (congrArg _ (attemptFail_of_lt hlt cause)), fun hge h16 => ⟨_, h, ?_⟩⟩
  rw [show attemptFail d cause s = domFail d cause s from if_neg (by omega)]
  exact domFail_of_lt h16 cause s

section Timers

variable {s : State} {d : Fin 24} (hup : up s)
include hup

theorem next_of_powerTimeout (h : s.waking d 0 = true) (hlate : (s.dom d).at_ + 2000000 ≤ s.now) :
    exec (.wakePowerTimeout d) s = .next (attemptFail d 1 s) := by
  have hexec : exec (.wakePowerTimeout d) s = execWakePowerTimeout d s := rfl
  rw [hexec, execWakePowerTimeout, live_of_up hup, if_pos (Bool.and_eq_true_iff.mpr ⟨h, decide_eq_true hlate⟩)]

theorem next_of_pllTimeout (h : s.waking d 1 = true) (hlate : (s.dom d).at_ + 200000 ≤ s.now) :
    exec (.wakePllTimeout d) s = .next (attemptFail d 2 s) := by
  have hexec : exec (.wakePllTimeout d) s = execWakePllTimeout d s := rfl
  rw [hexec, execWakePllTimeout, live_of_up hup, if_pos (Bool.and_eq_true_iff.mpr ⟨h, decide_eq_true hlate⟩)]

theorem next_of_retryDelay (h : s.waking d 2 = true) (hlate : (s.dom d).at_ + 10000 ≤ s.now) :
    exec (.wakeRetryDelayExpire d) s = .next (s.setDom d
      { s.dom d with attempts := (s.dom d).attempts + 1, stage := 0, at_ := s.now }) := by
  have hexec : exec (.wakeRetryDelayExpire d) s = execWakeRetryDelayExpire d s := rfl
  rw [hexec, execWakeRetryDelayExpire, live_of_up hup, if_pos (Bool.and_eq_true_iff.mpr ⟨h, decide_eq_true hlate⟩)]

end Timers

/-! ## The MGC clock -/

theorem tb_fset (f : Fld) (i x : Nat) (s : State) : (s.fset f i x).tb = s.tb := rfl

/-- The state in which the MGC PLL has locked. -/
def mgcLocked (s : State) : State :=
  let s1 := s.fset F.pwcClkMgcPllLock 0 1
  { s1 with tb := { s1.tb with mgcLockSince := some s.now } }

theorem mgcLocked_facts (s : State) :
    (mgcLocked s).fget F.pwcClkMgcPllLock 0 = 1 ∧ (mgcLocked s).tb.mgcLockSince = some s.now := by
  have hreg : (mgcLocked s).reg = (s.fset F.pwcClkMgcPllLock 0 1).reg := rfl
  rw [fget_of_reg hreg, fget_fset_same _ _ _ _ (by decide) (by decide)]
  exact ⟨rfl, rfl⟩

/-- The state once deep idle has begun, before its record. -/
def deepBegun (s : State) : State :=
  ((({ s with pwr := { s.pwr with deep := true }, tb := { s.tb with mgcLockSince := none } } : State).fset F.pwrStsDeep 0
    1).fset F.pwcClkMgcSrc 0 0).fset F.pwcClkMgcPllLock 0 0

/-- The state once deep idle has begun. -/
def deepened (s : State) : State := pwrTrace 6 0 0 (deepBegun s)

theorem pwr_pwrTrace (event d cause : Nat) (s : State) : (pwrTrace event d cause s).pwr = s.pwr := rfl

theorem tb_pwrTrace (event d cause : Nat) (s : State) : (pwrTrace event d cause s).tb = s.tb := rfl

theorem deepened_facts (s : State) : (deepened s).pwr.deep = true ∧ (deepened s).fget F.pwrStsDeep 0 = 1
    ∧ (deepened s).fget F.pwcClkMgcSrc 0 = 0 ∧ (deepened s).fget F.pwcClkMgcPllLock 0 = 0
    ∧ (deepened s).tb.mgcLockSince = none := by
  rw [deepened, pwr_pwrTrace, tb_pwrTrace, fget_of_reg (reg_pwrTrace ..), fget_of_reg (reg_pwrTrace ..),
    fget_of_reg (reg_pwrTrace ..), deepBegun]
  refine ⟨?_, ?_, ?_, ?_, ?_⟩
  · rw [pwr_fset, pwr_fset, pwr_fset]
  · rw [fget_fset_of_ne _ _ _ _ _ _ (by decide), fget_fset_of_ne _ _ _ _ _ _ (by decide),
      fget_fset_same _ _ _ _ (by decide) (by decide)]
    rfl
  · rw [fget_fset_disjoint _ F.pwcClkMgcPllLock F.pwcClkMgcSrc _ _ rfl (by decide) (by decide) (by decide) (by decide),
      fget_fset_same _ _ _ _ (by decide) (by decide)]
    rfl
  · rw [fget_fset_same _ _ _ _ (by decide) (by decide)]
    rfl
  · rw [tb_fset, tb_fset, tb_fset]

end Sys2Proof.Machine

open Sys2Proof Sys2Proof.Machine Sys2Proof.Claims

/-- Settles O52, condition by condition of each row. -/
theorem powerDomainsSleepAndWake : Obligations.PowerDomainsSleepAndWake := by
  unfold Obligations.PowerDomainsSleepAndWake
  intro s hup
  refine ⟨fun d => ?domain, fun c hst ht hdue => ?timerLead, fun k hst ht => ?clkreq, ?sense, fun w hw => ⟨?ring, ?pll⟩,
    fun hdeep => ⟨fun hen => ?lock, fun hen hdown => ?deepIdle⟩⟩
  case domain =>
    intro x
    refine ⟨fun hover => ⟨fun r hr => next_of_live hup rfl (idleExpire_of_refuser hover hr),
        fun hr hquiet => next_of_live hup rfl (idleExpire_of_quiet hover hr hquiet),
        fun hr hport hactive hsent => next_of_live hup rfl (idleExpire_of_active hover hr hport hactive hsent)⟩,
      fun hport hst hsent hrecv hlate => next_of_live hup rfl (if_pos ⟨hport, hst, hsent, hrecv, hlate⟩),
      fun src ht hlt => ?abort, fun hst ht hiso => ⟨fun hret => ?ret, fun hoff h6 h14 => ?off⟩,
      fun ht hstage => ⟨fun hport => ?startPll, fun hlt => ?good, fun hlate => ?noGood⟩,
      fun ht hstage => ⟨?locked, fun hlate => ?noLock⟩, fun ni hni => untimed_backOn hni s,
      fun ht hstage hlate => ?again,
      fun src hasked hdown ht => ⟨fun hlt => ?wakePd, fun hport hpacket hsend => ?wakeHd, fun hport hsrc hst => ?wakeClkreq,
        fun hport => ?wakeLd⟩,
      fun w hw => ⟨fun hst ht => ?retry, fun h2 h16 hdown ht => ?force, fun h2 h16 hst ht => ?forceOn, fun h2 => ?ignored⟩⟩
    case abort =>
      refine next_of_live hup rfl ((if_pos ht).trans (when_of_false ?_ _ _))
      rw [decide_eq_false (by omega), Bool.false_and]
    case ret =>
      exact next_of_live hup rfl (isolate_of_ret hst ht hiso hret)
    case off =>
      obtain ⟨hdom, heng, hps, hscr⟩ := dropDomain_of_pd h6 h14
        (pwrTrace 2 d 0 (s.setDom d { s.dom d with st := 2, trans := 0, since := s.now }))
      refine ⟨_, next_of_live hup rfl (isolate_of_off hst ht hiso hoff), hdom.trans ?_, heng, hps, hscr⟩
      rw [dom_pwrTrace, State.dom_setDom]
    case startPll =>
      exact next_of_live hup rfl ((if_pos (waking_of ht hstage)).trans (if_pos hport))
    case good =>
      refine next_of_live hup rfl ((if_pos (waking_of ht hstage)).trans ((if_neg (by omega)).trans ?_))
      rw [wakeDone_eq, afterWake_of_lt hlt]
    case noGood => exact attemptEnds_of_attemptFail (next_of_powerTimeout hup (waking_of ht hstage) hlate)
    case locked => exact next_of_live hup rfl ((if_pos (waking_of ht hstage)).trans (wakeDone_eq d s))
    case noLock => exact attemptEnds_of_attemptFail (next_of_pllTimeout hup (waking_of ht hstage) hlate)
    case again => exact next_of_retryDelay hup (waking_of ht hstage) hlate
    case wakePd =>
      refine next_of_live hup rfl ((wakeRequest_silent hasked hdown ht (.inl ⟨by omega, by omega⟩)).trans ?_)
      rw [startWake_of_lt (by omega), wakeOne_of_down hdown ht]
    case wakeHd =>
      refine next_of_live hup rfl ((wakeRequest_silent hasked hdown ht (.inr ⟨hpacket, hsend⟩)).trans ?_)
      rw [startWake_of_lt (by omega), wakeOne_of_down hdown ht]
    case wakeClkreq =>
      refine next_of_live hup rfl ((wakeRequest_of_down hasked hdown ht).trans ?_)
      rw [startWake_of_lt (by omega), wakeOne_of_down hdown ht]
      refine when_of_true ?_ _ _
      rw [show (s.dom d).st = 1 from hst]
      obtain hsrc | hsrc := hsrc <;> obtain hport | hport := hport <;> simp [hsrc, hport]
    case wakeLd =>
      refine next_of_live hup rfl ((wakeRequest_silent hasked hdown ht (.inl ⟨by omega, by omega⟩)).trans ?_)
      exact startWake_of_port hport s
    case retry =>
      exact next_of_live hup rfl ((guarded_of_writerOk hw ..).trans (wakeFailed_of_failed hst ht))
    case force =>
      refine next_of_live hup rfl ((guarded_of_writerOk hw ..).trans ((if_neg (by omega)).trans ?_))
      rw [abortEntry_fset_of_settled ht, startWake_of_lt h16]
      exact wakeOne_of_down (by rw [dom_fset]; exact hdown) (by rw [dom_fset]; exact ht)
    case forceOn =>
      refine next_of_live hup rfl ((guarded_of_writerOk hw ..).trans ((if_neg (by omega)).trans ?_))
      rw [abortEntry_fset_of_settled ht, startWake_of_lt h16]
      exact wakeOne_of_on (by rw [dom_fset]; exact hst)
    case ignored => exact next_of_live hup rfl ((guarded_of_writerOk hw ..).trans (if_pos h2))
  case timerLead =>
    have hasked : s.wakeAsked (6 + c.val) .timerLead = true := by
      rw [State.wakeAsked, hst, show 6 + c.val - 6 = c.val by omega, hdue]
      simp
      omega
    refine next_of_live hup rfl ((wakeRequest_silent hasked (.inl hst) ht (.inr ⟨nofun, nofun⟩)).trans ?_)
    rw [startWake_of_lt (by omega), wakeOne_of_down (.inl hst) ht]
  case clkreq =>
    have hasked : s.wakeAsked (14 + k.val) .clkreq = true := by
      rw [State.wakeAsked, hst]
      simp
      omega
    refine next_of_live hup rfl ((wakeRequest_silent hasked (.inl hst) ht (.inr ⟨nofun, nofun⟩)).trans ?_)
    rw [startWake_of_lt (by omega), wakeOne_of_down (.inl hst) ht]
  case sense =>
    intro u
    exact ⟨fun harm => next_of_live hup rfl (if_neg (Bool.eq_false_iff.mp (flag_of_zero (s := u) harm))),
      fun harm => next_of_live hup rfl (if_pos (flag_eq_true (s := u) harm))⟩
  case ring => exact next_of_live hup rfl (guarded_of_writerOk hw ..)
  case pll =>
    refine next_of_live hup rfl ((guarded_of_writerOk hw ..).trans ?_)
    rw [mgcSrc, when, State.flag]
    simp only [beq_iff_eq]
    rfl
  case lock =>
    refine ⟨mgcLocked s, next_of_live hup rfl (if_pos ?_), mgcLocked_facts s⟩
    rw [flag_eq_true hen, hdeep]
    rfl
  case deepIdle =>
    refine ⟨deepened s, next_of_live hup rfl (if_pos ?_), deepened_facts s⟩
    rw [flag_eq_true hen, hdeep, hdown]
    rfl
end

section
/-!
PROOF. Resource arbiters (R97 to R100, R106 to R108) and shared semaphores (R110 to R114, R499).
-/
namespace Sys2Proof.Machine

open Sys2Proof.Claims

/-! ## Requests and contests -/

theorem requestDeliver_of_head {s : State} {a i : Nat} {p : Packet} {rest : List (Nat × Packet)}
    (hwait : (s.arbiter a).waiting = (i, p) :: rest) (hempty : mget none (s.arbiter a).slots i = none) :
    requestDeliver a i s = s.setArbiter a { s.arbiter a with
      slots := mput none (s.arbiter a).slots i (some { pkt := p, at_ := s.now })
      waiting := rest } := by
  have hfind : (s.arbiter a).waiting.find? (fun x => x.1 == i) = some (i, p) := by rw [hwait]; simp
  have hidx : (s.arbiter a).waiting.findIdx (fun x => x.1 == i) = 0 := by rw [hwait]; simp [List.findIdx_cons]
  unfold requestDeliver
  simp only [hempty, hfind, hidx]
  rw [hwait]
  rfl

theorem contestOpen_of_free {s : State} {a : Nat} (hcontest : (s.arbiter a).contest = none)
    (hgrant : (s.arbiter a).grant = none) (h : s.presenting a ≠ []) : contestOpen a s = s.setArbiter a
      { s.arbiter a with contest := some { map := (List.range 47).map (s.inputOf a), compat := s.flag F.arbCtlCompatEn a } } := by
  refine if_pos ?_
  rw [hcontest, hgrant]
  simpa using h

/-- The grant of the request in slot `w`. -/
def grantTo (s : State) (a w : Nat) (r : Req) : Grant :=
  { idx := w, pkt := r.pkt, at_ := s.now, limit := s.fget F.arbCtlHoldLimit a, serving := true }

/-- The indices that lose a contest. -/
def losersTo (s : State) (a w : Nat) : List Nat := (s.presenting a).filter (fun i => i != w)

/-- The arbiter after a contest that index `w` has won. -/
def decided (s : State) (a w : Nat) (c : Contest) (r : Req) : Arb :=
  let b := s.arbiter a
  { b with
    contest := none
    grant := some (grantTo s a w r)
    belay := if opensBelay a r.pkt then some (grantTo s a w r) else b.belay
    slots := mput none b.slots w none
    losses := (losersTo s a w).foldl (fun m i => mput 0 m i (mget 0 m i + 1)) (mput 0 b.losses w 0)
    backoff := (losersTo s a w).foldl (fun m i => mput false m i true) b.backoff
    lastWin := s.rank a c w }

theorem contestDecide_of_winner {s : State} {a w : Nat} {c : Contest} {r : Req} (hc : (s.arbiter a).contest = some c)
    (hw : s.winner a c = some w) (hr : mget none (s.arbiter a).slots w = some r) :
    contestDecide a s = s.setArbiter a (decided s a w c r) := by
  have hw' : s.winner a ((s.arbiter a).contest.getD {}) = some w := by rw [hc]; exact hw
  unfold contestDecide
  dsimp only
  rw [hc] at hw' ⊢
  rw [hw']
  dsimp only
  rw [hr]
  rfl

/-- Values put at other keys leave a place as it was. -/
theorem mget_foldl_mput {α : Type} [DecidableEq α] (d : α) (val : SMap α → Nat → α) {l : List Nat} {k : Nat} (h : k ∉ l)
    (m : SMap α) : mget d (l.foldl (fun m i => mput d m i (val m i)) m) k = mget d m k := by
  induction l generalizing m with
  | nil => rfl
  | cons i rest ih =>
    obtain ⟨hne, hrest⟩ := not_or.mp (List.mem_cons.not.mp h)
    rw [List.foldl_cons, ih hrest, mget_mput_ne _ _ _ _ _ hne]

/-- One value put at every key of a list is read back there. -/
theorem mget_foldl_mput_const {α : Type} [DecidableEq α] (d v : α) {l : List Nat} {k : Nat} (h : k ∈ l) (m : SMap α) :
    mget d (l.foldl (fun m i => mput d m i v) m) k = v := by
  induction l generalizing m with
  | nil => cases h
  | cons i rest ih =>
    rw [List.foldl_cons]
    by_cases hrest : k ∈ rest
    · exact ih hrest _
    · obtain rfl := (List.mem_cons.mp h).resolve_right hrest
      rw [mget_foldl_mput d (fun _ _ => v) hrest, mget_mput_same]

theorem not_mem_losersTo (s : State) (a w : Nat) : w ∉ losersTo s a w := by simp [losersTo]

theorem mem_losersTo {s : State} {a w i : Nat} (h : i ∈ s.presenting a) (hne : i ≠ w) : i ∈ losersTo s a w := by
  simp [losersTo, h, hne]

theorem slots_decided (s : State) (a w : Nat) (c : Contest) (r : Req) :
    mget none (decided s a w c r).slots w = none := by
  unfold decided
  exact mget_mput_same none (s.arbiter a).slots w none

theorem losses_decided (s : State) (a w : Nat) (c : Contest) (r : Req) : mget 0 (decided s a w c r).losses w = 0 := by
  unfold decided
  have hkept := mget_foldl_mput (0 : Nat) (fun m i => mget 0 m i + 1) (not_mem_losersTo s a w)
    (mput 0 (s.arbiter a).losses w 0)
  rw [mget_mput_same] at hkept
  exact hkept

theorem backoff_decided {s : State} {a w i : Nat} (c : Contest) (r : Req) (h : i ∈ s.presenting a) (hne : i ≠ w) :
    mget false (decided s a w c r).backoff i = true :=
  mget_foldl_mput_const false true (mem_losersTo h hne) _

/-! ## The end of a grant -/

section GrantEnd

variable {s : State} {a : Nat} {g : Grant} (hgrant : (s.arbiter a).grant = some g)
include hgrant

/-- A grant at a bank ends with the execution of its packet; nothing closes a belay. -/
theorem grantEnd_of_bank (ha : a < 16) (hidx : g.idx ≠ 46)
    (hclose : closesBelay a g.pkt = false ∨ (s.arbiter a).belay = none) : grantEnd a s =
      (bankExec (18 + a) g.pkt (touch (2 + a / 4) s)).setArbiter a { s.arbiter a with grant := none } := by
  have hcloses : (closesBelay a g.pkt && (match (s.arbiter a).belay with
      | none => false
      | some h => ofHolder a h g.idx g.pkt)) = false := by
    obtain h | h := hclose
    · rw [h, Bool.false_and]
    · rw [h, Bool.and_false]
  unfold grantEnd
  simp only [hgrant]
  rw [if_neg (fun h => hidx h.2), if_pos ha]
  have hdone : { s.arbiter a with
      grant := none
      belay := if (closesBelay a g.pkt && (match (s.arbiter a).belay with
        | none => false
        | some h => ofHolder a h g.idx g.pkt)) = true then none else (s.arbiter a).belay }
      = { s.arbiter a with grant := none } := by rw [hcloses, if_neg Bool.false_ne_true]
  exact congrArg ((bankExec (18 + a) g.pkt (touch (2 + a / 4) s)).setArbiter a) hdone

/-- A grant at a mover egress ends with the offer of its packet. -/
theorem grantEnd_of_egress (h20 : 20 ≤ a) (h28 : a < 28) (hty : g.pkt.ty ≠ 0x11) :
    grantEnd a s = offer g.pkt (s.setArbiter a { s.arbiter a with grant := none }) := by
  have hcloses : closesBelay a g.pkt = false := by simp [closesBelay, hty]
  unfold grantEnd
  simp only [hgrant, hcloses, Bool.false_and]
  rw [if_neg (by omega), if_neg (by omega), if_pos ⟨h20, h28⟩, if_neg hty]
  rfl

theorem holdCut_of_grant (hbelay : (s.arbiter a).belay = none) :
    holdCut a s = if g.past s.now then cutGrant a g s else s := by
  unfold holdCut
  simp only [hbelay, hgrant]

end GrantEnd

end Sys2Proof.Machine

open Sys2Proof Sys2Proof.Machine Sys2Proof.Claims

/-- Settles O35, row by row of an arbiter. -/
theorem arbitersContestGrantAndBelay : Obligations.ArbitersContestGrantAndBelay := by
  unfold Obligations.ArbitersContestGrantAndBelay
  intro s a idx hup b
  refine ⟨fun p rest hwait hempty => next_of_live hup rfl (requestDeliver_of_head hwait hempty),
    fun hcontest hgrant hsome => next_of_live hup rfl (contestOpen_of_free hcontest hgrant hsome),
    fun c w r hc hw hr => ?decide, next_of_live hup rfl (by rfl),
    fun g hg => ⟨fun ha hidx hclose => next_of_live hup rfl (grantEnd_of_bank hg ha hidx hclose),
      fun h20 h28 hty => next_of_live hup rfl (grantEnd_of_egress hg h20 h28 hty),
      fun hbelay => ⟨fun hin => ?within, fun hpast => ?past⟩⟩⟩
  case decide =>
    refine ⟨_, grantTo s a w r, next_of_live hup rfl (contestDecide_of_winner hc hw hr), rfl, ?_⟩
    rw [State.arbiter_setArbiter]
    exact ⟨rfl, rfl, rfl, slots_decided .., losses_decided s a w c r, fun i hi hne => backoff_decided c r hi hne,
      fun a' ha' => State.arbiter_setArbiter_of_ne _ _ _ _ ha', rfl⟩
  case within =>
    refine next_of_live hup rfl ((holdCut_of_grant hg hbelay).trans (if_neg fun h => ?_))
    exact absurd (of_decide_eq_true h) (Nat.not_lt.mpr hin)
  case past =>
    refine next_of_live hup rfl ((holdCut_of_grant hg hbelay).trans (if_pos ?_))
    exact decide_eq_true hpast

namespace Sys2Proof.Machine

open Sys2Proof.Claims

/-! ## Semaphores -/

section Serve

variable {s : State} {g : Grant}

theorem semExec_of_grant {op : Nat} (hgrant : (s.arbiter 28).grant = some g) (hserving : g.serving = true)
    (hop : semOp g.pkt = op) : semExec op s = (semServe g.pkt s).setArbiter 28
      { (semServe g.pkt s).arbiter 28 with grant := some { g with serving := false } } := by
  unfold semExec
  simp only [hgrant]
  exact if_pos (by rw [hserving, hop, beq_self_eq_true]; rfl)

/-- What SEM's decision does to the semaphore. -/
def semTake (p : Packet) (x : Option Sem) (s : State) : State :=
  match x with
  | none => s
  | some y => s.setSem (semNum p) y

/-- The record of a refusal. -/
def semRecord (p : Packet) (v : Option Nat) (s : State) : State :=
  match v with
  | none => s
  | some k =>
    if semOp p = 0 && (decide (p.src < 10) || p.src == 42) then s else violPkt 40 0x0301 p (semNum p) k s

/-- SEM's reply to a packet. -/
def semReply (p : Packet) (csts : Nat) (s : State) : State :=
  offer { p.reply 0x23 csts (leBytes 4 (s.sem (semNum p)).bits) with src := 40 } s

/-- SEM's service in its parts: the semaphore, the record, the answer. -/
theorem semServe_parts (p : Packet) (s : State) : semServe p s =
    if s.semFenced p then (if p.src < 10 then s else offer { p.reply 0x23 1 [] with src := 40 } s)
    else
      let a := s.semDecide p
      let s2 := semRecord p a.viol (semTake p a.sem s)
      if p.src < 10 ∨ p.src = 42 then
        match a.result with
        | none => s2
        | some r => s2.fset F.semResultResult (if p.src = 42 then 2 else p.src) r
      else semReply p a.csts s2 := by
  unfold semServe semTake semRecord semReply
  rfl

/-- SEM answers a pacer that no fence holds back by what it decides. -/
theorem semExec_answers {op csts : Nat} {x : Option Sem} {v : Option Nat} {r : Option Nat}
    (hgrant : (s.arbiter 28).grant = some g) (hserving : g.serving = true) (hop : semOp g.pkt = op)
    (hsrc : 10 ≤ g.pkt.src ∧ g.pkt.src < 18) (hfence : s.semFenced g.pkt = false)
    (hans : s.semDecide g.pkt = { csts := csts, result := r, viol := v, sem := x }) :
    semExec op s = semAnswered s g x csts v := by
  have hmgc : (decide (g.pkt.src < 10) || g.pkt.src == 42) = false := by
    simp only [Bool.or_eq_false_iff, decide_eq_false_iff_not, beq_eq_false_iff_ne]
    omega
  have hserve : semServe g.pkt s = semReply g.pkt csts (semRecord g.pkt v (semTake g.pkt x s)) := by
    have hparts := semServe_parts g.pkt s
    rw [hfence, if_neg Bool.false_ne_true, hans, if_neg (by omega)] at hparts
    exact hparts
  rw [semExec_of_grant hgrant hserving hop, hserve]
  unfold semAnswered semReply semTake semRecord semNum
  rw [hmgc, Bool.and_false]
  cases x with
  | none => cases v <;> rfl
  | some y => cases v <;> rfl

/-- The owner that a pacer's request stands for. -/
def pacerOwner (p : Packet) : Sem :=
  { held := true, okind := 2, engine := 8 * (p.src - 10) + p.tag / 16 % 8, fn := p.fn }

theorem semOwner_of_pacer {p : Packet} (h : 10 ≤ p.src ∧ p.src < 18) : semOwner p = pacerOwner p := by
  unfold semOwner
  rw [if_neg (by omega), if_neg (by omega)]
  rfl

section Decide

variable {p : Packet} (hsrc : 10 ≤ p.src ∧ p.src < 18) (hnum : semNum p < 1024)
include hsrc hnum

theorem semDecide_of_acquire (hop : semOp p = 1) : s.semDecide p =
    if (s.sem (semNum p)).held && sameOwner (s.sem (semNum p)) (pacerOwner p) then { csts := 0, result := some 0 }
    else if s.holdsAbove (pacerOwner p) (semNum p) then { csts := 2, result := some 2, viol := some 2 }
    else if (s.sem (semNum p)).held then { csts := 4, result := some 1 }
    else { csts := 0, result := some 0, sem := some { pacerOwner p with gen := ((s.sem (semNum p)).gen + 1) % 4096 } } := by
  unfold State.semDecide
  rw [semOwner_of_pacer hsrc, hop]
  dsimp only
  rw [if_neg (by decide), if_neg (by omega), if_neg (by omega), if_neg (by omega), if_pos rfl]

theorem semDecide_of_release (hop : semOp p = 2) : s.semDecide p =
    if (s.sem (semNum p)).held && sameOwner (s.sem (semNum p)) (pacerOwner p) then
      { csts := 0, result := some 0, sem := some { gen := (s.sem (semNum p)).gen } }
    else { csts := 2, result := some 3, viol := some 3 } := by
  unfold State.semDecide
  rw [semOwner_of_pacer hsrc, hop]
  dsimp only
  rw [if_neg (by decide), if_neg (by omega), if_neg (by omega), if_neg (by omega), if_neg (by decide), if_pos rfl]

theorem semDecide_of_force (hop : semOp p = 3) : s.semDecide p = { csts := 2, result := some 5, viol := some 5 } := by
  unfold State.semDecide
  rw [semOwner_of_pacer hsrc, hop]
  dsimp only
  rw [if_neg (by decide), if_neg (by omega), if_neg (by omega), if_pos ⟨rfl, rfl⟩]

end Decide

theorem semDecide_of_unused {p : Packet} (hop : semOp p = 0) :
    s.semDecide p = { csts := 1, result := none, viol := some 7 } := by
  unfold State.semDecide
  rw [hop]
  exact if_pos rfl

/-- A host port's force-release of a semaphore below 1,024. -/
theorem semDecide_of_hostForce {p : Packet} (hsrc : p.src < 2) (hnum : semNum p < 1024) (hop : semOp p = 3) :
    s.semDecide p = { csts := 0, result := some 0, viol := some 0, sem := some { gen := (s.sem (semNum p)).gen } } := by
  have howner : (semOwner p).okind = 1 := by
    unfold semOwner
    rw [if_neg (by omega), if_pos (by omega)]
  unfold State.semDecide
  rw [hop]
  dsimp only
  rw [howner, if_neg (by decide), if_neg (by omega), if_neg (by omega), if_neg (by decide), if_neg (by decide),
    if_neg (by decide)]

theorem sem_violPkt (ni code : Nat) (p : Packet) (object value k : Nat) (s : State) :
    (violPkt ni code p object value s).sem k = s.sem k := rfl

theorem sem_fset (f : Fld) (i x k : Nat) (s : State) : (s.fset f i x).sem k = s.sem k := rfl

/-- What a host port's force-release leaves: a free semaphore and the port's result. -/
theorem semServe_of_hostForce {p : Packet} (hsrc : p.src < 2) (hnum : semNum p < 1024) (hop : semOp p = 3)
    (hfence : s.semFenced p = false) : (semServe p s).sem (semNum p) = { gen := (s.sem (semNum p)).gen }
      ∧ (semServe p s).fget F.semResultResult p.src = 0 := by
  have hserve : semServe p s = (violPkt 40 0x0301 p (semNum p) 0
      (s.setSem (semNum p) { gen := (s.sem (semNum p)).gen })).fset F.semResultResult p.src 0 := by
    unfold semServe
    simp only [hfence, semDecide_of_hostForce hsrc hnum hop, hop]
    rw [if_neg Bool.false_ne_true, if_pos (.inl (by omega))]
    simp only [show ¬p.src = 42 by omega, if_false]
    rfl
  rw [hserve, sem_fset, sem_violPkt, State.sem_setSem]
  exact ⟨rfl, fget_fset_same _ _ _ _ (by decide) (by decide)⟩

end Serve

/-! ## Semaphores freed at a reset -/

/-- A semaphore that a function of `mine` holds. -/
def freedBy (mine : Nat → Bool) (x : Sem) : Bool := x.held && mine x.fn && x.okind != 3

/-- Freeing one semaphore. -/
def freeSem (mine : Nat → Bool) (n : Nat) (s : State) : State :=
  if freedBy mine (s.sem n) then s.setSem n { gen := (s.sem n).gen } else s

theorem sem_freeSem (mine : Nat → Bool) (n k : Nat) (s : State) : (freeSem mine n s).sem k =
    if k = n ∧ freedBy mine (s.sem k) then { gen := (s.sem k).gen } else s.sem k := by
  unfold freeSem
  by_cases hk : k = n
  · subst hk
    by_cases hfree : freedBy mine (s.sem k)
    · rw [if_pos hfree, if_pos ⟨rfl, hfree⟩, State.sem_setSem]
    · rw [if_neg hfree, if_neg (fun h => hfree h.2)]
  · rw [if_neg (fun h : k = n ∧ _ => hk h.1)]
    split
    · exact State.sem_setSem_of_ne _ _ _ _ hk
    · rfl

theorem sem_forN_freeSem (mine : Nat → Bool) (n k : Nat) (s : State) : (forN n (freeSem mine) s).sem k =
    if k < n ∧ freedBy mine (s.sem k) then { gen := (s.sem k).gen } else s.sem k := by
  induction n with
  | zero => exact (if_neg (fun h => absurd h.1 (Nat.not_lt_zero k))).symm
  | succ n ih =>
    have hlast : forN (n + 1) (freeSem mine) s = freeSem mine n (forN n (freeSem mine) s) := by
      simp only [forN, List.range_succ, List.foldl_append, List.foldl_cons, List.foldl_nil]
    rw [hlast, sem_freeSem, ih]
    by_cases hk : k = n
    · simp [hk]
    · simp only [hk, false_and, if_false]
      exact if_congr (and_congr_left fun _ => by omega) rfl rfl

theorem sem_semFreeFn {mine : Nat → Bool} {k : Nat} (h : k < 1024) (s : State) : (semFreeFn mine s).sem k =
    if freedBy mine (s.sem k) then { gen := (s.sem k).gen } else s.sem k :=
  (sem_forN_freeSem mine 1024 k s).trans (if_congr (and_iff_right h) rfl rfl)

theorem semFence_freeSem (mine : Nat → Bool) (n k : Nat) (s : State) : (freeSem mine n s).semFence k = s.semFence k := by
  unfold freeSem
  split <;> rfl

theorem semFence_semFreeFn (mine : Nat → Bool) (k : Nat) (s : State) : (semFreeFn mine s).semFence k = s.semFence k :=
  forL_unchanged (fun x => x.semFence k) (fun n x => semFence_freeSem mine n k x) (List.range 1024) s

theorem sem_setSemFence (k : Nat) (v : Bool) (n : Nat) (s : State) : (s.setSemFence k v).sem n = s.sem n := rfl

theorem fenceOf_fn {fn : Nat} (h : fn < 2048) : fenceOf fn = fun f => f == fn := funext fun _ => if_pos h

theorem semEndFence_of_open {x : Nat} {s : State} (h : s.semFence x = false) : semEndFence x s = s :=
  if_neg (by rw [h]; exact Bool.false_ne_true)

theorem semEndFence_of_done {x : Nat} {s : State} (h : s.semFence x = true) (hdone : s.semPending (fenceOf x) = false) :
    semEndFence x s = (semFreeFn (fenceOf x) s).setSemFence x false :=
  if_pos (by rw [h, hdone]; rfl)

theorem freedBy_fn (fn : Nat) (x : Sem) :
    freedBy (fun f => f == fn) x = true ↔ x.held = true ∧ x.fn = fn ∧ x.okind ≠ 3 := by
  simp [freedBy, and_assoc]

end Sys2Proof.Machine

open Sys2Proof Sys2Proof.Machine Sys2Proof.Claims

/-- Settles O36: what SEM decides for each operation, its answer, and the frees of a fence that ends. -/
theorem semaphoresAreOwned : Obligations.SemaphoresAreOwned := by
  unfold Obligations.SemaphoresAreOwned
  refine ⟨fun s g hup hgrant hserving hsrc hfence hnum => ?pacer,
    fun s g hup hgrant hserving hsrc hfence hop hnum => ?host, fun s k num hup => ?command,
    fun s fn hup hfence hport hdone => ?free⟩
  case pacer =>
    intro op n x o
    have hanswer {c : Instr} {k csts : Nat} {y : Option Sem} {v r : Option Nat}
        (hexec : Sys2Proof.Machine.exec c s = live s (semExec k)) (hop : op = k)
        (h : s.semDecide g.pkt = { csts := csts, result := r, viol := v, sem := y }) :
        Sys2Proof.Machine.exec c s = .next (semAnswered s g y csts v) :=
      next_of_live hup hexec (semExec_answers hgrant hserving hop hsrc hfence h)
    have hown : s.sem (semNum g.pkt) = x ∧ pacerOwner g.pkt = o := ⟨rfl, rfl⟩
    refine ⟨fun hop => ⟨fun ⟨hheld, hsame⟩ => ?own, fun hother => ⟨fun habove => ?above, fun hbelow =>
        ⟨fun hheld => ?busy, fun hopen => ?take⟩⟩⟩,
      fun hop => ⟨fun ⟨hheld, hsame⟩ => ?release, fun hother => ?foreign⟩,
      fun hop => hanswer rfl hop (semDecide_of_force hsrc hnum hop), fun hop => hanswer rfl hop (semDecide_of_unused hop)⟩
    case own =>
      exact hanswer rfl hop ((semDecide_of_acquire hsrc hnum hop).trans
        (if_pos (Bool.and_eq_true_iff.mpr ⟨hheld, hsame⟩)))
    case above =>
      exact hanswer rfl hop ((semDecide_of_acquire hsrc hnum hop).trans
        ((if_neg (Bool.eq_false_iff.mp hother)).trans (if_pos habove)))
    case busy =>
      exact hanswer rfl hop ((semDecide_of_acquire hsrc hnum hop).trans
        ((if_neg (Bool.eq_false_iff.mp hother)).trans ((if_neg (Bool.eq_false_iff.mp hbelow)).trans (if_pos hheld))))
    case take =>
      exact hanswer rfl hop ((semDecide_of_acquire hsrc hnum hop).trans
        ((if_neg (Bool.eq_false_iff.mp hother)).trans ((if_neg (Bool.eq_false_iff.mp hbelow)).trans
          (if_neg (Bool.eq_false_iff.mp hopen)))))
    case release =>
      exact hanswer rfl hop ((semDecide_of_release hsrc hnum hop).trans
        (if_pos (Bool.and_eq_true_iff.mpr ⟨hheld, hsame⟩)))
    case foreign =>
      exact hanswer rfl hop ((semDecide_of_release hsrc hnum hop).trans (if_neg (Bool.eq_false_iff.mp hother)))
  case host =>
    obtain ⟨hsem, hresult⟩ := semServe_of_hostForce hsrc hnum hop hfence
    exact ⟨_, next_of_live hup rfl (semExec_of_grant hgrant hserving hop), hsem, hresult⟩
  case command => exact ⟨next_of_live hup rfl rfl, next_of_live hup rfl rfl, next_of_live hup rfl rfl⟩
  case free =>
    have hmine := fenceOf_fn fn.isLt
    have hends : semEndFence fn s = (semFreeFn (fun f => f == fn.val) s).setSemFence fn false := by
      rw [semEndFence_of_done hfence (by rw [hmine]; exact hdone), hmine]
    have hstill : ((semFreeFn (fun f => f == fn.val) s).setSemFence fn false).semFence (2048 + fn.val / 1024) = false := by
      rw [State.semFence_setSemFence_of_ne _ _ _ _ (by omega), semFence_semFreeFn, hport]
    refine ⟨(semFreeFn (fun f => f == fn.val) s).setSemFence fn false, next_of_live hup (by rfl) ?_,
      State.semFence_setSemFence .., fun n hn => ?_⟩
    · exact (congrArg (semEndFence (2048 + fn.val / 1024)) hends).trans (semEndFence_of_open hstill)
    · rw [sem_setSemFence]
      exact (sem_semFreeFn hn s).trans (if_congr (freedBy_fn fn.val _) rfl rfl)
end

section
/-!
PROOF. The fabric (R74, R80, R84, R87, R88, R90, R91, R193) and the registers of the fabric and the arbiters (R94 to R96,
R102, R104, R105).
-/
namespace Sys2Proof.Machine

open Sys2Proof.Claims

/-! ## Routes -/

theorem vote3_self (v : Nat) : vote3 v v v = v := by simp [vote3]

/-- A lookup of copies that agree answers their value and corrects nothing. -/
theorem lookupRoute_of_agreed {s : State} {unit d v : Nat} (h : agreed s unit d v) : lookupRoute unit d s = (v, s) := by
  obtain ⟨h0, h1, h2⟩ := h
  unfold lookupRoute
  simp only [h0, h1, h2, vote3_self, and_self, if_true]

/-! ## Injection -/

section Inject

variable {s : State} {ni q : Nat} {p : Packet} {rest : List Packet} (hq : s.inq (25 * ni + q) = p :: rest)
  (hawake : s.niAwake ni = true)
include hq hawake

theorem niInject_of_under (hcls : p.cls = 0) (hunder : s.under ni p.fn = true) : niInject ni q s =
    (s.setInq (25 * ni + q) rest).setArrived ni (s.arrived ni ++ [{ p.reply 0x21 2 [] with dst := ni, xv := 5 }]) := by
  unfold niInject
  simp only [hq, hawake, hcls, hunder]
  rfl

theorem niInject_of_free {v : Nat} (hopen : ¬(p.cls < 2 ∧ s.under ni p.fn = true)) (hroute : agreed s (20 + ni) p.dst v)
    {u : State} (hu : s.setInq (25 * ni + q) rest = u) (hok : u.routeOk ni p = true)
    (hgo : (u.allowed ni p && u.admits ni p && u.queueFree ni p && !u.untimed ni && !u.postedAhead ni p
      && !(u.niParked ni && passesGate p.dst p)) = true) : niInject ni q s = touchNi ni (enter ni p u) := by
  have hlookup : lookupRoute (20 + ni) p.dst u = (v, u) := lookupRoute_of_agreed (hu ▸ hroute)
  have hfence : (decide (p.cls < 2) && s.under ni p.fn) = false := by
    rw [Bool.eq_false_iff, ne_eq, Bool.and_eq_true_iff, decide_eq_true_iff]
    exact hopen
  unfold niInject
  simp only [hq, hawake, hu, hlookup, hok]
  rw [hfence, hgo]
  rfl

end Inject

/-! ## Heads at a router -/

theorem headArrive_of_head {s : State} {l vc e : Nat} {up : Bool} {f : Flit} {rest : List Flit}
    (hbuf : (s.chan (chanKey l up vc)).buf = f :: rest) (hidx : f.idx = 0) (hnew : (s.chan (chanKey l up vc)).seen = false)
    (hrouter : receiverOf l up < 20) (hroute : agreed s (receiverOf l up) (s.pktOf f.pid).dst e) :
    headArrive l up vc false s = s.setChan (chanKey l up vc) { s.chan (chanKey l up vc) with
      seen := true
      req := if vc % 2 = 1 then
          s.switchback (receiverOf l up) (groupLinks (receiverOf l up) (e / 1024 % 32)) (s.pktOf f.pid).cls
        else s.adaptive (receiverOf l up) (groupLinks (receiverOf l up) (e % 32)) (s.pktOf f.pid).cls } := by
  unfold headArrive
  simp only [hbuf, hidx, hnew, hrouter, Bool.false_eq_true, if_false, lookupRoute_of_agreed hroute]
  rfl

/-! ## Flits -/

/-- The flits that may go out on a link direction: for each channel with a credit, its next one. -/
def readyFlits (s : State) (l : Nat) (up : Bool) : List (Nat × Flit × Contender) :=
  (List.range 8).filterMap (fun vc =>
    if s.hasCredit (chanKey l up vc) then
      (s.nextFlit (chanKey l up vc)).map (fun x => (chanKey l up vc, x.1, x.2))
    else none)

/-- The state after the flit that goes out has left the place it waited in. -/
def sendFlit (d k : Nat) (x : Flit) (c : Contender) (s : State) : State :=
  let s2 := takeFlit x c.via s
  let s3 := s2.setChan k { s2.chan k with used := (s2.chan k).used + 1 }
  s3.setDir d { s3.dir d with wire := some (k, x), tries := 0 }

/-- Of the flits that may go out, the first by rank. -/
def firstFlit (ready : List (Nat × Flit × Contender)) : Option (Nat × Flit × Contender) :=
  match bestOf (ready.map (fun x => { x.2.2 with via := some x.1 })) with
  | none => none
  | some b => ready.find? (fun x => some x.1 == b.via)

theorem nextOut_eq (s : State) (l : Nat) (up : Bool) : nextOut s l up = firstFlit (readyFlits s l up) := rfl

/-- The output sends the first of the flits that are ready. -/
def sendFirst (d : Nat) (ready : List (Nat × Flit × Contender)) (s : State) : State :=
  match bestOf (ready.map (fun x => { x.2.2 with via := some x.1 })) with
  | none => s
  | some b =>
    match ready.find? (fun x => some x.1 == b.via) with
    | none => s
    | some (k, x, c) => sendFlit d k x c s

theorem sendFirst_eq (d : Nat) (ready : List (Nat × Flit × Contender)) (s : State) : sendFirst d ready s =
    match firstFlit ready with
    | none => s
    | some (k, x, c) => sendFlit d k x c s := by
  unfold sendFirst firstFlit
  cases bestOf (ready.map (fun x => { x.2.2 with via := some x.1 })) with
  | none => rfl
  | some b => rfl

theorem outputArb_eq (l : Nat) (up : Bool) (s : State) : outputArb l up s =
    if ((allocate l up s).dir (2 * l + b2n up)).wire.isSome || ((allocate l up s).link l).failed then allocate l up s
    else sendFirst (2 * l + b2n up) (readyFlits (allocate l up s) l up) (allocate l up s) := rfl

section Output

variable {s : State} {l : Nat} {up : Bool} (hwire : ((allocate l up s).dir (2 * l + b2n up)).wire = none)
  (hfail : ((allocate l up s).link l).failed = false)
include hwire hfail

theorem outputArb_of_idle : outputArb l up s =
    sendFirst (2 * l + b2n up) (readyFlits (allocate l up s) l up) (allocate l up s) := by
  rw [outputArb_eq, hwire, hfail]
  rfl

theorem outputArb_of_none (h : nextOut (allocate l up s) l up = none) : outputArb l up s = allocate l up s := by
  rw [nextOut_eq] at h
  rw [outputArb_of_idle hwire hfail, sendFirst_eq, h]

theorem outputArb_of_some {k : Nat} {x : Flit} {c : Contender} (h : nextOut (allocate l up s) l up = some (k, x, c)) :
    outputArb l up s = sendFlit (2 * l + b2n up) k x c (allocate l up s) := by
  rw [nextOut_eq] at h
  rw [outputArb_of_idle hwire hfail, sendFirst_eq, h]

end Output

theorem dir_sendFlit (d k : Nat) (x : Flit) (c : Contender) (s : State) :
    ((sendFlit d k x c s).dir d).wire = some (k, x) ∧ ((sendFlit d k x c s).dir d).tries = 0 := by
  unfold sendFlit
  dsimp only
  rw [State.dir_setDir]
  exact ⟨rfl, rfl⟩

section Arrival

variable {s : State} {l k : Nat} {up : Bool} {x : Flit} (hwire : (s.dir (2 * l + b2n up)).wire = some (k, x))
  (hrouter : receiverOf l up < 20)
include hwire hrouter

theorem flitArrive_at_router_ok (par : Nat) : flitArrive l up .ok par s = acceptFlit l up k x par s := by
  have hrow : decide (20 ≤ receiverOf l up) = false := decide_eq_false (by omega)
  unfold flitArrive
  simp only [hwire, hrow, Bool.false_and, Bool.false_eq_true, if_false]

theorem flitArrive_at_router_ctlCode (par : Nat) : flitArrive l up .ctlCode par s = repeatFlit l up 1 s := by
  have hrow : decide (20 ≤ receiverOf l up) = false := decide_eq_false (by omega)
  unfold flitArrive
  simp only [hwire, hrow, Bool.false_and, Bool.false_eq_true, if_false]

omit hwire in
/-- A router takes a flit into its buffer. -/
theorem acceptFlit_at_router {f : Flight} (hflight : s.flight x.pid = some f) (par : Nat) :
    ((acceptFlit l up k x par s).dir (2 * l + b2n up)).wire = none
      ∧ ((acceptFlit l up k x par s).chan k).buf = (s.chan k).buf ++ [x]
      ∧ { acceptFlit l up k x par s with fab := s.fab } = s := by
  have haccept : acceptFlit l up k x par s = ((s.setDir (2 * l + b2n up)
      { s.dir (2 * l + b2n up) with wire := none, tries := 0 }).setFlight x.pid
        (some { f with pkt := markParity x par f.pkt })).setChan k
        { s.chan k with buf := (s.chan k).buf ++ [x] } := by
    have hflight' : (s.setDir (2 * l + b2n up) { s.dir (2 * l + b2n up) with wire := none, tries := 0 }).flight x.pid
        = some f := hflight
    unfold acceptFlit
    simp only [hflight', hrouter, if_true]
    rfl
  rw [haccept, State.chan_setChan]
  refine ⟨?_, rfl, rfl⟩
  have hdir : ((s.setDir (2 * l + b2n up) { s.dir (2 * l + b2n up) with wire := none, tries := 0 }).dir
      (2 * l + b2n up)).wire = none := by rw [State.dir_setDir]
  exact hdir

end Arrival

theorem repeatFlit_of_ne {s : State} {l : Nat} {up : Bool} (h : (s.dir (2 * l + b2n up)).tries ≠ 63) (kind : Nat) :
    repeatFlit l up kind s = linkRepeat l kind false
      (s.setDir (2 * l + b2n up) { s.dir (2 * l + b2n up) with tries := (s.dir (2 * l + b2n up)).tries + 1 }) :=
  if_neg (by omega)

/-! ## A bank's NI -/

/-- A sound read of a bank goes to its arbiter. -/
theorem destArrive_of_bankRead {s : State} {ni i : Nat} {p : Packet} (hp : (s.arrived ni)[i]? = some p) (h18 : 18 ≤ ni)
    (h34 : ni < 34) (hhdr : p.hdrBad = false) (hcls : p.cls = 0) (hty : p.ty = 0) (hasp : p.asp = 3) (hlen : p.len ≠ 0)
    (hmax : p.len ≤ 4096) (hbad : p.bad = []) (horder : (taken_ s ni i).inOrder ni p = true) :
    destArrive ni i s = request (ni - 18) p.src p (taken_ s ni i) := by
  have htaken : takeArrived ni i s = some (p, taken_ s ni i) := by
    unfold takeArrived
    rw [hp]
    rfl
  have hgate : passesGate ni p = false := by
    rw [passesGate, decide_eq_false (show ¬ni < 10 by omega)]
    rfl
  have hzero : zeroRead p = false := by simp [zeroRead, hlen]
  have hrow : s.ownRow ni p = false := by simp [State.ownRow, hcls, hzero]
  have hsem : s.semAhead ni p = false := by simp [State.semAhead, show ni ≠ 40 by omega]
  have hsound : soundRow ni p = false := by simp [soundRow, show ni ≠ 38 by omega, show ni ≠ 39 by omega]
  have hform : formOk p = true := by simp [formOk, typeOk, hcls, hty, hasp, hmax]
  have hserves : blockServes ni p = true := by simp [blockServes, hcls, hty, hasp, h18, h34]
  have hparity : checkParity ni p (taken_ s ni i) = (p, taken_ s ni i) := by
    unfold checkParity
    rw [hbad]
    rfl
  have hwhole : wholeArrive ni p (taken_ s ni i) = request (ni - 18) p.src p (taken_ s ni i) := by
    unfold wholeArrive blockTake
    rw [if_neg (by simp [hty]), hform, hserves, if_neg (by simp), if_pos ⟨h18, h34⟩]
  unfold destArrive
  simp only [htaken, hhdr, hgate, hcls, hrow, horder, hsem, hparity, hsound, hwhole]
  rfl

/-! ## Requests for more channels -/

section More

variable {s : State} {l : Fin 352} {vc : Fin 8} {e : Nat} {up : Bool} {f : Flit} {rest : List Flit}
  (hup : Claims.up s) (hbuf : (s.chan (chanKey l up vc)).buf = f :: rest)
  (hroute : agreed s (receiverOf l up) (s.pktOf f.pid).dst e) (hseen : (s.chan (chanKey l up vc)).seen = true)
  (hreq : (s.chan (chanKey l up vc)).req ≠ []) (heven : vc.val % 2 = 0)
include hup hbuf hroute hseen hreq heven

theorem next_of_switchbackRequest : exec (.routeSwitchbackRequest l up vc) s = .next (alsoRequest (chanKey l up vc)
    (s.switchback (receiverOf l up) (groupLinks (receiverOf l up) (e / 1024 % 32)) (s.pktOf f.pid).cls) s) := by
  have hasks : ((s.chan (chanKey l up vc)).seen && !(s.chan (chanKey l up vc)).req.isEmpty && vc.val % 2 == 0) = true := by
    rw [hseen, heven]
    simpa using hreq
  refine next_of_live hup (by rfl) ?_
  simp only [hbuf, hasks, if_true, lookupRoute_of_agreed hroute]

theorem next_of_detourRequest (hedge : 6 ≤ receiverOf l up) (hnew : (s.pktOf f.pid).dt = false)
    (haway : niRouter (s.pktOf f.pid).dst ≠ receiverOf l up) (hwait : s.fget F.fabCtlDetourWait 0 ≠ 0) :
    exec (.routeDetourRequest l up vc) s = .next (alsoRequest (chanKey l up vc)
      (s.adaptive (receiverOf l up) (groupLinks (receiverOf l up) (e / 32 % 32)) (s.pktOf f.pid).cls) s) := by
  have hasks : ((s.chan (chanKey l up vc)).seen && !(s.chan (chanKey l up vc)).req.isEmpty && vc.val % 2 == 0
      && decide (6 ≤ receiverOf l up) && !(s.pktOf f.pid).dt && niRouter (s.pktOf f.pid).dst != receiverOf l up
      && s.fget F.fabCtlDetourWait 0 != 0) = true := by
    rw [hseen, heven, decide_eq_true hedge, hnew, bne_iff_ne.mpr haway, bne_iff_ne.mpr hwait]
    simpa using hreq
  refine next_of_live hup (by rfl) ?_
  simp only [hbuf, hasks, if_true, lookupRoute_of_agreed hroute]

end More

theorem next_of_creditReturn {s : State} {l : Fin 352} {up : Bool} {vc : Nat} {rest : List Nat} (hup : Claims.up s)
    (howed : (s.dir (2 * l.val + b2n up)).owed = vc :: rest) (hrouter : receiverOf l up < 20) :
    exec (.creditReturn l up) s = .next ((s.setDir (2 * l.val + b2n up)
      { s.dir (2 * l.val + b2n up) with owed := rest }).setChan (chanKey l up vc)
        { s.chan (chanKey l up vc) with used := (s.chan (chanKey l up vc)).used - 1 }) := by
  have hrow : decide (20 ≤ receiverOf l up) = false := decide_eq_false (by omega)
  refine next_of_live hup (by rfl) ?_
  simp only [howed, hrow, Bool.false_and, Bool.false_eq_true, if_false]

end Sys2Proof.Machine

open Sys2Proof Sys2Proof.Machine Sys2Proof.Claims

/-- Settles O33, hop by hop: the NI, a router's head, its requests, a link's output and its far end, and a bank's NI. -/
theorem fabricMovesPackets : Obligations.FabricMovesPackets := by
  unfold Obligations.FabricMovesPackets
  intro s hup
  refine ⟨fun ni q p rest hq hawake => ?inject, fun l up vc f rest e => ?route, fun l up => ?link,
    fun ni i p hp h18 h34 hhdr hcls hty hasp hlen hmax hbad horder => next_of_live hup rfl
      (destArrive_of_bankRead hp h18 h34 hhdr hcls hty hasp hlen hmax hbad horder)⟩
  case inject =>
    intro u
    refine ⟨fun hcls hunder => next_of_live hup rfl (niInject_of_under hq hawake hcls hunder),
      fun v hopen hroute hok hallowed hadmits hfree htimed hahead hparked => ?_⟩
    refine next_of_live hup rfl (niInject_of_free hq hawake hopen hroute rfl hok ?_)
    rw [hallowed, hadmits, hfree, htimed, hahead, hparked]
    rfl
  case route =>
    intro k x p u asks hbuf hroute
    refine ⟨fun hidx hnew hrouter => next_of_live hup rfl (headArrive_of_head hbuf hidx hnew hrouter hroute),
      fun hseen hreq heven => ⟨next_of_switchbackRequest hup hbuf hroute hseen hreq heven,
        fun hedge hdt haway hwait => next_of_detourRequest hup hbuf hroute hseen hreq heven hedge hdt haway hwait⟩⟩
  case link =>
    intro d a
    refine ⟨fun hwire hfail => ⟨fun hnone => next_of_live hup rfl (outputArb_of_none hwire hfail hnone),
        fun k x c hnext => ⟨_, next_of_live hup rfl (outputArb_of_some hwire hfail hnext), dir_sendFlit ..⟩⟩,
      fun k x err par hwire hrouter => ⟨fun herr f hflight => ?arrive, fun herr htries => ?again⟩,
      fun vc rest howed hrouter => next_of_creditReturn hup howed hrouter⟩
    case arrive =>
      subst herr
      exact ⟨_, next_of_live hup rfl (flitArrive_at_router_ok hwire hrouter par.toNat),
        acceptFlit_at_router hrouter hflight par.toNat⟩
    case again =>
      subst herr
      exact next_of_live hup rfl ((flitArrive_at_router_ctlCode hwire hrouter par.toNat).trans (repeatFlit_of_ne htries 1))
end

section
/-!
PROOF. Registers of the fabric and the arbiters that act (R90, R91, R94 to R96, R102, R104, R105).
-/
namespace Sys2Proof.Machine

open Sys2Proof.Claims

/-! ## Limiters -/

/-- A limiter's count once it has `b` bytes: at its ceiling none is kept. -/
theorem tokens_setToken {s : State} {i : Nat} {b : Int} :
    (s.setToken i (if b = s.burst i then none else some b)).tokens i = b := by
  have hburst : (s.setToken i (if b = s.burst i then none else some b)).burst i = s.burst i := rfl
  rw [State.tokens, hburst, State.token_setToken]
  split
  next h => exact h.symm
  · rfl

/-- The state after a limiter's gain. -/
def gained (i : Nat) (s : State) : State :=
  let b := min (s.burst i) (s.tokens i + s.fget F.injLimRate i)
  (s.setToken i (if b = s.burst i then none else some b)).setTokenTime i s.now

theorem tokens_gained (i : Nat) (s : State) :
    (gained i s).tokens i = min (s.burst i) (s.tokens i + s.fget F.injLimRate i) := tokens_setToken

/-! ## Commits -/

/-- One register takes its shadow. -/
def commitOne (r : RegId) (a i : Nat) (s : State) : State := s.rput r (a + i) (s.sget r (a + i))

theorem commitRws_eq (r : RegId) (a n : Nat) (s : State) : commitRws r a n s = forL (List.range n) (commitOne r a) s := rfl

theorem commitRws_succ (r : RegId) (a n : Nat) (s : State) :
    commitRws r a (n + 1) s = commitOne r a n (commitRws r a n s) := by
  simp only [commitRws_eq, forL, List.range_succ, List.foldl_append, List.foldl_cons, List.foldl_nil]

theorem sget_commitRws (r r' : RegId) (a n i : Nat) (s : State) : (commitRws r a n s).sget r' i = s.sget r' i :=
  forL_unchanged (fun x => x.sget r' i) (f := commitOne r a) (fun _ _ => rfl) (List.range n) s

/-- A commit gives each register of its range its shadow, and keeps the others. -/
theorem rget_commitRws {r : RegId} {a n i : Nat} (hn : a + n < 65536) (hi : i < 65536) (s : State) :
    (commitRws r a n s).rget r i = if a ≤ i ∧ i < a + n then s.sget r i else s.rget r i := by
  induction n with
  | zero =>
    rw [if_neg (by omega)]
    rfl
  | succ n ih =>
    rw [commitRws_succ, commitOne, sget_commitRws]
    by_cases h : i = a + n
    · subst h
      rw [rget_rput_same, if_pos (by omega)]
    · rw [rget_rput_of_ne _ _ _ _ _ _ (regKey_ne _ _ _ _ hi (by omega) (.inr h)), ih (by omega)]
      exact if_congr (by omega) rfl rfl

theorem rget_commitRws_of_ne {r r' : RegId} {a n i : Nat} (hr : r' ≠ r) (hn : a + n < 65536) (hi : i < 65536)
    (s : State) : (commitRws r a n s).rget r' i = s.rget r' i := by
  induction n with
  | zero => rfl
  | succ n ih =>
    rw [commitRws_succ, commitOne, rget_rput_of_ne _ _ _ _ _ _ (regKey_ne _ _ _ _ hi (by omega) (.inl hr)), ih (by omega)]

/-- Limiter `i` keeps the tokens it had in `s`, clamped to its ceiling. -/
def clampTokens (s : State) (i : Nat) (s1 : State) : State :=
  let b := min (s.tokens i) (s1.burst i)
  s1.setToken i (if b = s1.burst i then none else some b)

theorem rget_forN_clampTokens (s : State) (n : Nat) (r : RegId) (i : Nat) (s1 : State) :
    (forN n (clampTokens s) s1).rget r i = s1.rget r i :=
  forL_unchanged (fun x => x.rget r i) (f := clampTokens s) (fun _ _ => rfl) (List.range n) s1

/-- A commit of the limiters that is not refused gives each its shadow. -/
theorem rget_fabCommit {s : State} (hok : s.limitsOk = true) {i : Nat} (hi : i < 368) :
    (fabCommit s).rget .injLim i = s.sget .injLim i := by
  have htokens : (fabCommit s).rget .injLim i = (commitRws .injLim 0 368 s).rget .injLim i := by
    have hcommit : fabCommit s = forN 368 (clampTokens s) (commitRws .injLim 0 368 s) := if_pos hok
    rw [hcommit, rget_forN_clampTokens]
  rw [htokens, rget_commitRws (by decide) (by omega), if_pos (by omega)]

theorem rget_arbCommit (a : Fin 29) (s : State) : (arbCommit a s).rget .arbCtl a = s.sget .arbCtl a
    ∧ ∀ i < 6, (arbCommit a s).rget .arbMap (6 * a + i) = s.sget .arbMap (6 * a + i) := by
  refine ⟨?_, fun i hi => ?_⟩
  · rw [arbCommit, rget_commitRws_of_ne (by decide) (by omega) (by omega), rget_commitRws (by omega) (by omega),
      if_pos (by omega)]
  · rw [arbCommit, rget_commitRws (by omega) (by omega), if_pos (by omega), sget_commitRws]

/-! ## FORCE_OUT -/

section Force

variable {s : State} (hin : (s.link (s.fget F.linkSelLink 0)).forced = false)
include hin

theorem forceOut_of_spare (hlast : s.lastOfGroup (s.fget F.linkSelLink 0) = false) (p : Packet) : forceOut p true s =
    (let l := s.fget F.linkSelLink 0
    let u := s.setLink l { s.link l with forced := true }
    if (s.link l).out then u else aerCorrected (fabFault (nearestNi l) 5 l F.fabStsLinkOut false u)) := by
  unfold forceOut
  dsimp only
  rw [if_pos rfl, if_neg (Bool.eq_false_iff.mp hin), if_neg (Bool.eq_false_iff.mp hlast)]

theorem forceOut_of_last (hlast : s.lastOfGroup (s.fget F.linkSelLink 0) = true) (p : Packet) :
    forceOut p true s = violSource p s := by
  unfold forceOut
  dsimp only
  rw [if_pos rfl, if_neg (Bool.eq_false_iff.mp hin), if_pos hlast]

end Force

/-! ## Routes -/

theorem routeCopy_putRoute {unit d v c : Nat} (hc : c < 3) (s : State) :
    (putRoute unit d v s).routeOf unit d c = v := by
  have hcopy : (putRoute unit d v s).routeCopy (3 * (64 * unit + d) + c)
      = if v = romRoute unit d then none else some v := by
    refine forL_establishes (a := c)
      (P := fun x => x.routeCopy (3 * (64 * unit + d) + c) = if v = romRoute unit d then none else some v)
      (f := fun c s => s.setRouteCopy (3 * (64 * unit + d) + c) (if v = romRoute unit d then none else some v))
      (fun k x hx => ?_) (fun x => State.routeCopy_setRouteCopy ..) (List.mem_range.mpr hc) s
    by_cases hk : c = k
    · subst hk
      exact State.routeCopy_setRouteCopy ..
    · exact (State.routeCopy_setRouteCopy_of_ne _ _ _ _ (by omega)).trans hx
  rw [State.routeOf, hcopy]
  split
  next h => exact h.symm
  · rfl

theorem agreed_putRoute (unit d v : Nat) (s : State) : agreed (putRoute unit d v s) unit d v :=
  ⟨routeCopy_putRoute (by decide) s, routeCopy_putRoute (by decide) s, routeCopy_putRoute (by decide) s⟩

/-! ## Compatibility priorities -/

section C52

variable {s : State} {a : Nat} {v : Word}

theorem rget_c52_rput : (s.rput .c52PrioLo a v).rget .c52PrioHi a = s.rget .c52PrioHi a := by
  refine rget_rput_of_ne _ _ _ _ _ _ ?_
  simp only [regKey]
  have h : (RegId.c52PrioHi).ctorIdx ≠ (RegId.c52PrioLo).ctorIdx := by decide
  omega

theorem c52Write_of_inconsistent (h : consistent v (s.rget .c52PrioHi a) = false) :
    c52Write a false v s = (s.rput .c52PrioLo a v).fset F.c52StsPairSkew a 1 := by
  unfold c52Write
  simp only [Bool.false_eq_true, if_false, rget_rput_same, rget_c52_rput, h]

/-- What a consistent pair in force reads as. -/
theorem c52Force_getD {d x : Word} {k : Nat} : ((s.setC52Force k (if x = d then none else some x)).c52Force k).getD d = x := by
  rw [State.c52Force_setC52Force]
  split
  next h => exact h.symm
  · rfl

/-- The pair in force after a write that makes it consistent. -/
def c52InForce (a : Nat) (lo hi : Word) (s : State) : State :=
  (s.setC52Force (2 * a) (if lo = 0x76543210 then none else some lo)).setC52Force (2 * a + 1)
    (if hi = 0xFEDCBA98 then none else some hi)

theorem c52Force_inForce (a : Nat) (lo hi : Word) (s : State) :
    ((c52InForce a lo hi s).c52Force (2 * a)).getD 0x76543210 = lo
      ∧ ((c52InForce a lo hi s).c52Force (2 * a + 1)).getD 0xFEDCBA98 = hi := by
  refine ⟨?_, c52Force_getD⟩
  rw [c52InForce, State.c52Force_setC52Force_of_ne _ _ _ _ (by omega)]
  exact c52Force_getD

theorem c52Write_of_consistent (h : consistent v (s.rget .c52PrioHi a) = true) (hskew : s.fget F.c52StsPairSkew a ≠ 1) :
    c52Write a false v s = c52InForce a v (s.rget .c52PrioHi a) (s.rput .c52PrioLo a v) := by
  have hkey : regKey .c52Sts a ≠ regKey .c52PrioLo a := by
    have h : (RegId.c52Sts).ctorIdx ≠ (RegId.c52PrioLo).ctorIdx := by decide
    simp only [regKey]
    omega
  have hflag : (c52InForce a v (s.rget .c52PrioHi a) (s.rput .c52PrioLo a v)).flag F.c52StsPairSkew a = false := by
    refine flag_eq_false ?_
    have hget : (c52InForce a v (s.rget .c52PrioHi a) (s.rput .c52PrioLo a v)).fget F.c52StsPairSkew a
        = s.fget F.c52StsPairSkew a :=
      congrArg (fun x => bitsGet x F.c52StsPairSkew.hi F.c52StsPairSkew.lo) (rget_rput_of_ne s _ _ _ _ v hkey)
    rw [hget]
    exact hskew
  unfold c52Write
  simp only [Bool.false_eq_true, if_false, rget_rput_same, rget_c52_rput, h, if_true]
  exact if_neg (Bool.eq_false_iff.mp hflag)

end C52

end Sys2Proof.Machine

open Sys2Proof Sys2Proof.Machine Sys2Proof.Claims

/-- Settles O34, register by register. -/
theorem fabricAndArbiterRegisters : Obligations.FabricAndArbiterRegisters := by
  unfold Obligations.FabricAndArbiterRegisters
  intro s w hup
  refine ⟨fun ni qc hen hdue => ?limiter,
    fun hw => ⟨fun hok => ⟨fabCommit s, ?_, fun i hi => rget_fabCommit hok hi⟩, fun hbad => ?_⟩,
    fun hw => ?force, fun v hw => ?route, fun a hw => ⟨arbCommit a s, ?_, rget_arbCommit a s⟩,
    fun a v hw => ?c52⟩
  case limiter =>
    refine ⟨gained (8 * ni.val + qc.val) s, next_of_live hup (by rfl) (if_pos ?_), tokens_gained .., ?_, rfl⟩
    · rw [flag_eq_true hen]
      exact decide_eq_true hdue
    · exact State.tokenTime_setTokenTime ..
  · exact next_of_live hup rfl (guarded_of_writerOk hw ..)
  · exact next_of_live hup rfl ((guarded_of_writerOk hw ..).trans (if_neg (Bool.eq_false_iff.mp hbad)))
  case force =>
    intro l
    refine ⟨?in_, fun hin hlast => ?out, fun hin hlast => ?refused⟩
    case in_ => exact next_of_live hup rfl (guardedP_of_writerOk hw ..)
    case out =>
      exact next_of_live hup rfl ((guardedP_of_writerOk hw ..).trans (forceOut_of_spare hin hlast _))
    case refused =>
      exact next_of_live hup rfl ((guardedP_of_writerOk hw ..).trans (forceOut_of_last hin hlast _))
  case route => exact ⟨_, next_of_live hup rfl (guarded_of_writerOk hw ..), agreed_putRoute ..⟩
  · exact next_of_live hup rfl (guarded_of_writerOk hw ..)
  case c52 =>
    intro u
    exact ⟨fun h => next_of_live hup rfl ((guarded_of_writerOk hw ..).trans (c52Write_of_inconsistent h)),
      fun h hskew => ⟨_, next_of_live hup rfl ((guarded_of_writerOk hw ..).trans (c52Write_of_consistent h hskew)),
        c52Force_inForce ..⟩⟩
end

section
/-!
PROOF. What has arrived at an NI is taken whole (R413), and the movers' reads, writes and completions (R205 to R211).
-/
namespace Sys2Proof.Machine

open Sys2Proof Sys2Proof.Claims

/-! ## Packets that have arrived -/

theorem takeArrived_of_get {s : State} {ni i : Nat} {p : Packet} (hp : (s.arrived ni)[i]? = some p) :
    takeArrived ni i s = some (p, taken_ s ni i) := by
  unfold takeArrived
  rw [hp]
  rfl

theorem checkParity_of_sound {ni : Nat} {p : Packet} {s : State} (hbad : p.bad = []) : checkParity ni p s = (p, s) := by
  unfold checkParity
  rw [hbad]
  rfl

/-! ## Reads of a context -/

theorem cluster_of_key (c : Fin 8) (k : Fin 512) : (512 * c.val + k.val) / 512 = c.val := by omega

section Issue

variable {s : State} {c key : Nat} (hkey : key / 512 = c) (hused : (s.ctx key).used = true)
  (hdone : (s.ctx key).done = false) (hfail : (s.ctx key).fail = 0) (hgo : (s.ctx key).stopped = false)
  (hleft : (s.ctx key).rdOff < (s.ctx key).len) (hblocks : (s.ctx key).blocks < 128) (hroom : s.blocksIn c < 512)
include hkey hused hdone hfail hgo hleft hblocks hroom

theorem readIssue_of_scratch (hasp : (s.ctx key).sasp = 5) : readIssue key s = s.setCtx key { s.ctx key with
    rdOff := (s.ctx key).rdOff + (s.ctx key).readLen
    got := (s.ctx key).got ++ [((s.ctx key).rdOff,
      s.scrBytes (s.ctx key).eng ((s.ctx key).saddr + (s.ctx key).rdOff) (s.ctx key).readLen,
      s.scrPoisoned (s.ctx key).eng ((s.ctx key).saddr + (s.ctx key).rdOff) (s.ctx key).readLen)] } := by
  subst hkey
  have hat : (s.ctx key).srcAt (s.ctx key).rdOff = (s.ctx key).saddr + (s.ctx key).rdOff := by simp [Ctx.srcAt, hasp]
  simp only [readIssue, hused, hdone, hfail, hgo, hleft, hblocks, hroom, hasp, hat, Bool.not_false, decide_true,
    BEq.rfl, Bool.and_self, if_true]

theorem readIssue_of_staging (hasp : (s.ctx key).sasp = 3) : readIssue key s = moverSend c
    { (s.ctxPkt key (s.ctx key) 0 0 (bankNi ((s.ctx key).saddr + (s.ctx key).rdOff))).span 3
        ((s.ctx key).saddr + (s.ctx key).rdOff) (s.ctx key).readLen with tag := s.readTag c }
    (s.setCtx key { s.ctx key with
      rdOff := (s.ctx key).rdOff + (s.ctx key).readLen
      reads := (s.ctx key).reads ++ [{
        tag := s.readTag c
        off := (s.ctx key).rdOff
        len := (s.ctx key).readLen }] }) := by
  subst hkey
  have hat : (s.ctx key).srcAt (s.ctx key).rdOff = (s.ctx key).saddr + (s.ctx key).rdOff := by simp [Ctx.srcAt, hasp]
  simp only [readIssue, hused, hdone, hfail, hgo, hleft, hblocks, hroom, hasp, hat, Bool.not_false, decide_true,
    BEq.rfl, Bool.and_self, if_true]
  rfl

end Issue

section Complete

variable {s : State} {c i key : Nat} {p : Packet} {y : Ctx} {r : CtxRead} (hp : whole s (10 + c) i p) (hcls : p.cls = 2)
  (htag : p.tag < 0x3000)
  (hctx : (s.ctxsOf c).find? (fun y => y.2.reads.any (fun r => r.tag == p.tag)) = some (key, y))
  (hread : y.reads.find? (fun r => r.tag == p.tag) = some r)
include hp hcls htag hctx hread

theorem readComplete_of_data (hok : p.csts = 0) (hlen : p.data.length = r.len) (hgo : y.stopped = false) :
    readComplete c i s = askBanks key ((taken_ s (10 + c) i).setCtx key { y with
      reads := y.reads.filter (fun q => q.tag != r.tag)
      got := y.got ++ [(r.off, p.data, p.ep)] }) := by
  obtain ⟨harr, hhdr, hbad⟩ := hp
  have hctx' : ((taken_ s (10 + c) i).ctxsOf c).find? (fun y => y.2.reads.any (fun r => r.tag == p.tag)) = some (key, y) :=
    hctx
  have hst : readStatus p r.len = 0 := by simp [readStatus, hok, hlen]
  simp only [readComplete, takeArrived_of_get harr, hcls, hhdr, hctx', hread, checkParity_of_sound hbad, hst, hgo]
  rw [if_neg (by simp), if_neg (by omega), if_neg (by simp), if_neg (by simp)]

theorem readComplete_of_refused (hcsts : p.csts = 1) (hxv : p.xv = 0) (hfirst : y.fail = 0) :
    readComplete c i s = askBanks key ((taken_ s (10 + c) i).setCtx key { y with
      reads := y.reads.filter (fun q => q.tag != r.tag)
      fail := 1 }) := by
  obtain ⟨harr, hhdr, hbad⟩ := hp
  have hctx' : ((taken_ s (10 + c) i).ctxsOf c).find? (fun y => y.2.reads.any (fun r => r.tag == p.tag)) = some (key, y) :=
    hctx
  have hst : readStatus p r.len = 1 := by simp [readStatus, hcsts, hxv]
  simp only [readComplete, takeArrived_of_get harr, hcls, hhdr, hctx', hread, checkParity_of_sound hbad, hst, hfirst]
  rw [if_neg (by simp), if_neg (by omega), if_pos (by simp)]
  rfl

end Complete

/-! ## Writes of a context -/

section Send

variable {s : State} {c key : Nat} {bs : List (Byte × Bool)} (hkey : key / 512 = c) (hused : (s.ctx key).used = true)
  (hdone : (s.ctx key).done = false) (hgo : (s.ctx key).stopped = false) (hleft : (s.ctx key).wrOff < (s.ctx key).len)
  (hbytes : bytesIn (s.ctx key).got (s.ctx key).wrOff (s.ctx key).writeLen = some bs)
include hkey hused hdone hgo hleft hbytes

omit hkey in
theorem writeSend_of_scratch (hasp : (s.ctx key).dasp = 5) : writeSend key s =
    scrWrite (s.ctx key).eng ((s.ctx key).daddr + (s.ctx key).wrOff) (bs.map (·.1)) (bs.any (·.2))
      (s.setCtx key { s.ctx key with
        wrOff := (s.ctx key).wrOff + (s.ctx key).writeLen
        got := dropBlocks (s.ctx key).got ((s.ctx key).wrOff + (s.ctx key).writeLen)
        poisoned := (s.ctx key).poisoned || bs.any (·.2) }) := by
  have hat : (s.ctx key).dstAt (s.ctx key).wrOff = (s.ctx key).daddr + (s.ctx key).wrOff := by simp [Ctx.dstAt, hasp]
  have hlen : decide ((s.ctx key).len ≤ (s.ctx key).wrOff) = false := decide_eq_false (by omega)
  simp only [writeSend, hused, hdone, hgo, hlen, hbytes, hasp, hat, Bool.not_true, Bool.or_self, Bool.false_eq_true,
    if_false, if_true]

theorem writeSend_of_staging (hasp : (s.ctx key).dasp = 3)
    (hknown : (s.ctx key).banks.contains (bankNi ((s.ctx key).daddr + (s.ctx key).wrOff)) = true) :
    writeSend key s = askBanks key (moverSend c
      { (s.ctxPkt key (s.ctx key) 1 0x10 (bankNi ((s.ctx key).daddr + (s.ctx key).wrOff))).span 3
          ((s.ctx key).daddr + (s.ctx key).wrOff) (s.ctx key).writeLen with
        data := bs.map (·.1)
        ep := bs.any (·.2)
        uo := (s.ctx key).uo }
      (notePosted (s.ctx key).eng (bankNi ((s.ctx key).daddr + (s.ctx key).wrOff)) (s.setCtx key { s.ctx key with
        wrOff := (s.ctx key).wrOff + (s.ctx key).writeLen
        got := dropBlocks (s.ctx key).got ((s.ctx key).wrOff + (s.ctx key).writeLen)
        poisoned := (s.ctx key).poisoned || bs.any (·.2) }))) := by
  subst hkey
  have hat : (s.ctx key).dstAt (s.ctx key).wrOff = (s.ctx key).daddr + (s.ctx key).wrOff := by simp [Ctx.dstAt, hasp]
  have hlen : decide ((s.ctx key).len ≤ (s.ctx key).wrOff) = false := decide_eq_false (by omega)
  have hni : s.sideNi 3 ((s.ctx key).daddr + (s.ctx key).wrOff) (s.ctx key).dxlt
      = bankNi ((s.ctx key).daddr + (s.ctx key).wrOff) := rfl
  have h5 : ¬(3 = 5) := by decide
  have h2 : ¬(3 = 2) := by decide
  simp only [writeSend, hused, hdone, hgo, hlen, hbytes, hasp, hat, hni, hknown, h5, h2, Bool.not_true, Bool.or_self,
    Bool.false_eq_true, if_false, if_true]
  rfl

end Send

/-! ## Completion -/

/-- A context without a failure completes into the free registers of its engine. -/
theorem completeCtx_of_free {s : State} {key : Nat} (hfail : (s.ctx key).fail = 0)
    (hrun : (s.eng (s.ctx key).eng).st ≠ .halted) (hfree : (s.eng (s.ctx key).eng).ctx = 0x3FF) :
    completeCtx key s = setEvt (s.ctx key).eng 1 ((s.setCtx key { s.ctx key with done := true }).setEng (s.ctx key).eng
      { s.eng (s.ctx key).eng with
        ctx := key % 512
        ctxsts := if (s.ctx key).poisoned then 4 else 0 }) := by
  have hstatus : (s.ctx key).status = if (s.ctx key).poisoned then 4 else 0 := by simp [Ctx.status, hfail]
  have hsame : undefRange (s.ctx key) s = s := by
    unfold undefRange
    rw [hstatus]
    exact if_pos (by cases (s.ctx key).poisoned <;> simp)
  unfold completeCtx
  simp only [hsame, hfree, hstatus, beq_eq_false_iff_ne.mpr hrun, Bool.false_eq_true, if_false, if_true]

end Sys2Proof.Machine

open Sys2Proof Sys2Proof.Machine Sys2Proof.Claims

/-- Settles O39: a read issued, a read that completes, a write sent, and the completion. -/
theorem moversCopy : Obligations.MoversCopy := by
  unfold Obligations.MoversCopy
  intro s c k hup key x
  have hkey : key / 512 = c.val := cluster_of_key c k
  refine ⟨fun hused hdone hfail hgo hleft hblocks hroom => ⟨fun hasp => ?_, fun hasp => ?_⟩,
    fun i key p y r hp hcls htag hctx hread => ⟨fun hok hlen hgo => ?_, fun hcsts hxv hfirst => ?_⟩,
    fun bs hused hdone hgo hleft hbytes => ⟨fun hasp => ?_, fun hasp hknown => ?_⟩,
    fun hready hfail hrun hfree => ?_⟩
  · exact next_of_live hup rfl (readIssue_of_scratch hkey hused hdone hfail hgo hleft hblocks hroom hasp)
  · exact next_of_live hup rfl (readIssue_of_staging hkey hused hdone hfail hgo hleft hblocks hroom hasp)
  · exact next_of_live hup rfl (readComplete_of_data hp hcls htag hctx hread hok hlen hgo)
  · exact next_of_live hup rfl (readComplete_of_refused hp hcls htag hctx hread hcsts hxv hfirst)
  · exact next_of_live hup rfl (writeSend_of_scratch hused hdone hgo hleft hbytes hasp)
  · exact next_of_live hup rfl (writeSend_of_staging hkey hused hdone hgo hleft hbytes hasp hknown)
  · refine next_of_live hup (by rfl) ((if_pos hready).trans ?_)
    exact completeCtx_of_free hfail hrun hfree
end

section
/-!
PROOF. Translation (chapter 11): an XU's answer, the commit sequencer, the drains, and the registers of the edit sets.
-/
namespace Sys2Proof.Machine

open Sys2Proof Sys2Proof.Claims

/-! ## What a write of staging memory leaves -/

theorem stgWriteWord_unchanged {β : Type} {g : State → β} (hcheck : ∀ w s, g (stgCheck w s) = g s)
    (hecc : ∀ w v s, g (State.setEccAt s w v) = g s) (hpoison : ∀ w v s, g (State.setPoisonAt s w v) = g s)
    (hbyte : ∀ a v s, g (State.setByte s a v) = g s) (ep : Bool) (a : Nat) (data : List Byte) (en : List Bool) (w : Nat)
    (s : State) : g (stgWriteWord ep a data en w s) = g s := by
  unfold stgWriteWord
  simp only
  split
  · rfl
  · refine (forL_unchanged g (fun _ _ => hbyte ..) _ _).trans ?_
    split
    · exact (hpoison ..).trans (hecc ..)
    · split
      · exact (hpoison ..).trans (hcheck ..)
      · exact hcheck ..

theorem stgPut_unchanged {β : Type} {g : State → β} (hcheck : ∀ w s, g (stgCheck w s) = g s)
    (hecc : ∀ w v s, g (State.setEccAt s w v) = g s) (hpoison : ∀ w v s, g (State.setPoisonAt s w v) = g s)
    (hbyte : ∀ a v s, g (State.setByte s a v) = g s) (a : Nat) (data : List Byte) (s : State) :
    g (stgPut a data s) = g s :=
  forL_unchanged g (fun _ _ => stgWriteWord_unchanged hcheck hecc hpoison hbyte ..) _ _

theorem xlt_stgCheck (w : Nat) (s : State) : (stgCheck w s).xlt = s.xlt := by
  unfold stgCheck
  simp only
  split
  · rfl
  · split
    · exact aerCorrected_unchanged (g := State.xlt) (fun _ _ _ => rfl) (fun _ _ _ => rfl) (fun _ _ => rfl) _
    · rfl

theorem xlt_stgPut (a : Nat) (data : List Byte) (s : State) : (stgPut a data s).xlt = s.xlt :=
  stgPut_unchanged xlt_stgCheck (fun _ _ _ => rfl) (fun _ _ _ => rfl) (fun _ _ _ => rfl) a data s

theorem seq_bumpEpoch (k : Nat) (s : State) : (bumpEpoch k s).xlt.seq = s.xlt.seq := rfl

theorem drains_bumpEpoch (k : Nat) (s : State) : (bumpEpoch k s).xlt.drains = s.xlt.drains := rfl

theorem seq_setQuarAt (k : Nat) (v : Bool) (s : State) : (s.setQuarAt k v).xlt.seq = s.xlt.seq := rfl

theorem xlt_putDescs (w : Nat) (d : List Nat) (n : Nat) (s : State) : (forN n (putDesc w d) s).xlt = s.xlt :=
  forL_unchanged State.xlt (f := putDesc w d) (fun _ _ => xlt_stgPut ..) _ s


/-! ## Lookups -/

theorem lookup_of_cached {s : State} {x e : Nat} {p : Packet} {d v : List Nat} (hopen : s.under (34 + x) p.fn = false)
    (hwin : s.quarAt (reqWin p) = false) (hdesc : s.cached x false (reqWin p) = some d)
    (hcheck : descCheck d (reqOff p) p.fn = .inr e) (hent : s.quarAt (4096 + e) = false)
    (hline : s.cached x true e = some v) : lookup x p s = some (xltAnswer x p e (xltWord d v (reqOff p)) s) := by
  have hentry : missEntry x { pkt := p } d s
      = ({ ({ pkt := p } : Miss) with replied := true }, xltAnswer x p e (xltWord d v (reqOff p)) s) := by
    simp only [missEntry, hcheck, hent, hline, Bool.false_eq_true, if_false]
    rfl
  simp only [lookup, hopen, hwin, hdesc, hentry, Bool.false_eq_true, if_false, if_true]

theorem resolveEnt_self (v : List Nat) : resolveEnt (some v) (some v) = some v := by simp [resolveEnt]

/-- The second copy that agrees with the first ends a miss. -/
theorem missCopy_of_agreed {s : State} {x i e : Nat} {m : Miss} {d v : List Nat} {u t : State}
    (hm : (s.missList x)[i]? = some m)
    (hread : m.readD = false) (hopen : m.replied = false) (hdesc : m.desc = some d) (hent : m.ent = some e)
    (hgot : m.eGot = [(0, some v)]) (hu : u = stgCheckRange (s.entBase 1 + 16 * e) 16 s)
    (ht : t = xltAnswer x m.pkt e (xltWord d v (reqOff m.pkt)) (cacheIn x { entry := true, idx := e, words := v } u))
    (hcopy : u.entCopy 1 e = some v) (hepoch : u.epochAt (4096 + e) = m.eEpoch) :
    missCopy x i 4 s = t.setMissList x (dropAt (t.missList x) i) := by
  cases m
  cases hread; cases hopen; cases hdesc; cases hent; cases hgot
  have hfix : toFix [(0, some v), (1, some v)] v = [] := by simp [toFix]
  have hfirst : ((([(0, some v), (1, some v)] : List (Nat × Option (List Nat))).find? (fun g => g.1 == 0)).map
      (·.2)).getD none = some v := rfl
  have hsecond : ((([(0, some v), (1, some v)] : List (Nat × Option (List Nat))).find? (fun g => g.1 == 1)).map
      (·.2)).getD none = some v := rfl
  have hsub : 4 - 3 = 1 := rfl
  have hstart : ([(0, some v)] : List (Nat × Option (List Nat))).any (fun g => g.1 == 1) = false := rfl
  simp only [missCopy, hm, hsub, hstart, ← hu, hcopy, List.cons_append, List.nil_append, List.length_cons,
    List.length_nil, Bool.or_self, Bool.false_eq_true, missEnt, hfirst, hsecond, resolveEnt_self, hfix, hepoch,
    ne_eq, not_true_eq_false, beq_self_eq_true, when_of_true rfl, Option.getD_some, missAnswer, ← ht, putMiss, Miss.over,
    Bool.not_false, Bool.true_or, Bool.and_self, Nat.zero_add, Nat.reduceAdd, Nat.reduceLT, if_false, if_true]

/-! ## The commit sequencer -/

section Sequencer

variable {s : State} {c : SeqCmd} {rest : List SeqCmd}

theorem seqHead_of_atHead (h : atHead s c rest) : s.seqHead = some c := by
  obtain ⟨hcur, hseq, -⟩ := h
  rw [State.seqHead, hcur, hseq]
  rfl

theorem m39_of_atHead (h : atHead s c rest) : s.m39 = false := h.2.2

theorem seqPop_of_atHead (h : atHead s c rest) : seqPop s = seqIs s rest none := by
  obtain ⟨hcur, hseq, -⟩ := h
  show seqIs s s.xlt.seq.tail s.xlt.cur = _
  rw [hcur, hseq]
  rfl

theorem seqOut_of_seq {t : State} (h : t.xlt.seq = c :: rest) (c' : SeqCmd) : seqOut c' t = seqIs t rest (some c') := by
  rw [seqOut, h]
  rfl

theorem rewriteExec_unresolved {w : Nat} (h : atHead s (.rewrite false w (s.epochAt w) none []) rest)
    (hquar : s.quarAt w = false) : rewriteExec s
      = viol { ni := 34, code := 0x0503, object := w } (((seqIs s rest none).setQuarAt w true).fsat F.xltCntQuarEvents 0 1) := by
  have hq : (seqIs s rest none).quarAt w = false := hquar
  have he : (seqIs s rest none).epochAt w = s.epochAt w := rfl
  simp only [rewriteExec, seqHead_of_atHead h, seqPop_of_atHead h, he, quarantine, hq, Bool.false_eq_true, if_false,
    ne_eq, not_true_eq_false, b2n]

theorem activeVersions_of_desc {w : Nat} {d : List Nat} (h : s.activeDesc w = some d) :
    activeVersions w s = ((dXv d, dDxv d), s) := by
  unfold activeVersions
  rw [h]

theorem setErr_of_lt {k : Nat} (h : k < 11) (code : Nat) (s : State) : setErr k code s = s.fset F.winStsErr k code :=
  if_pos h

section Commit

variable {k w : Nat} {words d : List Nat} (h : atHead s (.commit k w words) rest) (hdesc : s.activeDesc w = some d)
include h hdesc

theorem commitExec_of_ok (hok : commitError words (dXv d) (dDxv d) = 0) : commitExec s
    = seqIs (bumpEpoch w ((forN 3 (putDesc w (withDxv (withXv words (dXv d + 1)) (dDxv d))) s).setQuarAt w false)) rest
      (some (.commit k w words)) := by
  have hseq : (bumpEpoch w ((forN 3 (putDesc w (withDxv (withXv words (dXv d + 1)) (dDxv d))) s).setQuarAt w
      false)).xlt.seq = .commit k w words :: rest := by rw [seq_bumpEpoch, seq_setQuarAt, xlt_putDescs, h.2.1]
  simp only [commitExec, seqHead_of_atHead h, m39_of_atHead h, activeVersions_of_desc hdesc, hok, Bool.false_eq_true,
    if_false, ne_eq, not_true_eq_false]
  exact seqOut_of_seq hseq _

theorem commitExec_of_err (herr : commitError words (dXv d) (dDxv d) ≠ 0) (hk : k < 11) : commitExec s
    = (seqIs s rest none).fset F.winStsErr k (commitError words (dXv d) (dDxv d)) := by
  simp only [commitExec, seqHead_of_atHead h, m39_of_atHead h, activeVersions_of_desc hdesc, herr, Bool.false_eq_true,
    if_false, ne_eq, not_false_eq_true, if_true, seqPop_of_atHead h]
  exact setErr_of_lt hk ..

end Commit

theorem bumpExec_of_room {k w : Nat} {d : List Nat} (h : atHead s (.bump k w false) rest) (hdrain : s.bumpDrain w = false)
    (hdesc : s.activeDesc w = some d) (hroom : (dXv d + 1 + 256 - dDxv d) % 256 < 128) : bumpExec s
      = seqIs (bumpEpoch w (forN 3 (putDesc w (withXv d (dXv d + 1))) s)) rest (some (.bump k w false)) := by
  have hseq : (bumpEpoch w (forN 3 (putDesc w (withXv d (dXv d + 1))) s)).xlt.seq = .bump k w false :: rest := by
    rw [seq_bumpEpoch, xlt_putDescs, h.2.1]
  simp only [bumpExec, seqHead_of_atHead h, m39_of_atHead h, hdrain, hdesc, Bool.or_self, Bool.false_eq_true, if_false,
    ge_iff_le, not_le.mpr hroom]
  exact seqOut_of_seq hseq _

theorem entryExec_of_equal {k e w0 : Nat} {x : List Nat} (h : atHead s (.entry k e w0) rest)
    (ha : s.entCopy 0 e = some x) (hb : s.entCopy 1 e = some x) : entryExec s
      = forgetEntry e (bumpEpoch (4096 + e)
          ((forN 2 (putEnt e [w0 % 2 ^ 23, (x.getD 1 0 + 1) % 2 ^ 32]) (seqIs s rest none)).setQuarAt (4096 + e) false)) := by
  have hwver : higherWver (some x) (some x) s = (x.getD 1 0, s) := by simp [higherWver]
  simp only [entryExec, seqHead_of_atHead h, m39_of_atHead h, ha, hb, hwver, seqPop_of_atHead h, Bool.false_eq_true,
    if_false]

theorem acksDone_of_commit {k w : Nat} {words : List Nat} (h : s.xlt.cur = some (.commit k w words)) (hk : k < 11) :
    acksDone s = (forgetWindow w (seqIs s s.xlt.seq none)).fset F.winStsErr k 0 := by
  unfold acksDone
  simp only [h]
  exact setErr_of_lt hk ..

/-- The report of a drain that an edit set asked for. -/
theorem reportDrain_of_set {j : Drain} {k : Nat} (hreq : j.req = none) (hset : j.set = some k) (hk : k < 11) (v : Nat)
    (s : State) : reportDrain j v s = (endDrain j s).fset F.winStsErr k 0 := by
  unfold reportDrain
  simp only [hreq, hset]
  exact setErr_of_lt hk ..

theorem dxvExec_of_set {w v tag k : Nat} {d : List Nat} {j : Drain} (h : atHead s (.dxv w v tag) rest)
    (hdesc : s.activeDesc w = some d) (hj : s.xlt.drains.find? (fun y => y.tag == tag) = some j) (hreq : j.req = none)
    (hset : j.set = some k) (hk : k < 11) : dxvExec s
      = (endDrain j (bumpEpoch w (forN 3 (putDesc w (withDxv d v)) (seqIs s rest none)))).fset F.winStsErr k 0 := by
  have hwrite : writeDxv w v (seqIs s rest none) = bumpEpoch w (forN 3 (putDesc w (withDxv d v)) (seqIs s rest none)) := by
    have hactive : (seqIs s rest none).activeDesc w = some d := hdesc
    rw [writeDxv, hactive]
  have hfind : (bumpEpoch w (forN 3 (putDesc w (withDxv d v)) (seqIs s rest none))).xlt.drains.find?
      (fun y => y.tag == tag) = some j := by
    rw [drains_bumpEpoch, xlt_putDescs]
    exact hj
  simp only [dxvExec, seqHead_of_atHead h, seqPop_of_atHead h, hwrite, hfind]
  exact reportDrain_of_set hreq hset hk ..

end Sequencer

end Sys2Proof.Machine

open Sys2Proof Sys2Proof.Machine Sys2Proof.Claims

/-- Settles O41: a lookup, a miss that ends, and each command of the sequencer. -/
theorem translationLooksUpAndCommits : Obligations.TranslationLooksUpAndCommits := by
  unfold Obligations.TranslationLooksUpAndCommits
  intro s hup
  refine ⟨fun x g d v e hgrant hserving hkind hopen hwin hdesc hcheck hent hline => ?lookup,
    fun x i e m d v hm hread hopen hdesc hent hgot => ?miss,
    fun w rest h hquar => next_of_live hup rfl (rewriteExec_unresolved h hquar),
    fun k w words rest d h hdesc => ⟨fun hok => next_of_live hup rfl (commitExec_of_ok h hdesc hok),
      fun herr hk => next_of_live hup rfl (commitExec_of_err h hdesc herr hk)⟩,
    fun k w words h hk => next_of_live hup rfl (acksDone_of_commit h hk),
    fun k w rest d h hdrain hdesc hroom => next_of_live hup rfl (bumpExec_of_room h hdrain hdesc hroom),
    fun k e w0 rest x h ha hb => next_of_live hup rfl (entryExec_of_equal h ha hb),
    fun w v tag rest d j k h hdesc hj hreq hset hk => next_of_live hup rfl (dxvExec_of_set h hdesc hj hreq hset hk)⟩
  case lookup =>
    refine next_of_live hup rfl ?_
    simp only [xltLookup, hgrant, hserving, hkind, lookup_of_cached hopen hwin hdesc hcheck hent hline, Bool.not_true,
      Bool.false_eq_true, if_false]
  case miss =>
    intro u line t hcopy hepoch
    exact next_of_live hup rfl (missCopy_of_agreed hm hread hopen hdesc hent hgot rfl rfl hcopy hepoch)
end

section
/-!
PROOF. The drains, their probes, and the registers of the edit sets (R256, R262 to R269, R280).
-/
namespace Sys2Proof.Machine

open Sys2Proof Sys2Proof.Claims

theorem setOf_lt (w : Writer) : setOf w < 11 := by
  cases w <;> simp only [setOf] <;> omega

/-! ## WIN_CMD -/

section WinCmd

variable {s : State} {w : Writer}

theorem winCmd_of_busy {op : Nat} (hop : op ≠ 0) (h : (s.winBusy (setOf w) || s.winDraining (setOf w)) = true) :
    winCmd w op s = s.fset F.winStsErr (setOf w) 5 := by
  simp only [winCmd, hop, h, if_false, if_true]
  exact setErr_of_lt (setOf_lt w) ..

variable (h : (s.winBusy (setOf w) || s.winDraining (setOf w)) = false)
include h

theorem winCmd_commit_of_idle : winCmd w 1 s
    = enqueue (.commit (setOf w) (s.fget F.winSelWin (setOf w)) (s.setWords (setOf w))) s := by
  simp only [winCmd, h, Nat.one_ne_zero, Bool.false_eq_true, if_false, if_true]

theorem winCmd_drain_of_idle : winCmd w 2 s = addDrain {
    x := s.fget F.winSelWin (setOf w) % 4
    win := s.fget F.winSelWin (setOf w)
    set := some (setOf w) } s := by
  simp [winCmd, h]

theorem winCmd_bump_of_idle : winCmd w 3 s = enqueue (.bump (setOf w) (s.fget F.winSelWin (setOf w)) false) s := by
  simp [winCmd, h]

end WinCmd

/-! ## TE_CMD -/

section TeCmd

variable {s : State} {w : Writer}

theorem teCmd_of_busy (h : s.teBusy (setOf w) = true) (f : Nat → State → State) :
    teCmd w f s = s.fset F.teStsIgn (setOf w) 1 := if_pos h

theorem teCmd_of_idle (h : s.teBusy (setOf w) = false) (f : Nat → State → State) : teCmd w f s = f (setOf w) s :=
  if_neg (by simp [h])

theorem teRead_of_equal {k : Nat} {v : List Nat} {u : State}
    (hu : u = stgCheckRange (s.entBase 1 + 16 * s.fget F.teSelEntry k) 16
      (stgCheckRange (s.entBase 0 + 16 * s.fget F.teSelEntry k) 16 s))
    (ha : u.entCopy 0 (s.fget F.teSelEntry k) = some v) (hb : u.entCopy 1 (s.fget F.teSelEntry k) = some v)
    (hquar : u.quarAt (4096 + s.fget F.teSelEntry k) = false) : teRead k s
      = ((u.rput .teData k (BitVec.ofNat 64 (v.getD 0 0))).rput .teWver k
          (BitVec.ofNat 64 (v.getD 1 0 % 2 ^ 32))).fset F.teStsQuar k 0 := by
  have hfix : toFix [(0, some v), (1, some v)] v = [] := by simp [toFix]
  simp only [teRead, ← hu, ha, hb, resolveEnt_self, hquar, hfix, Bool.false_eq_true, if_false, ne_eq, not_true_eq_false]

end TeCmd

/-! ## Drains and probes -/

section Drains

variable {s : State} {x i : Nat} {d : Drain} (hd : s.drainAt x i = some d)
include hd

section Start

variable {q : List Nat} (hnew : d.started = false) (hseq : s.inSeq d.win = false) (hdesc : s.activeDesc d.win = some q)
include hnew hseq hdesc

theorem drainStart_of_drained {j : Nat} (hv : dXv q = dDxv q) (hreq : d.req = none) (hset : d.set = some j) (hj : j < 11) :
    drainStart x i s = (endDrain d s).fset F.winStsErr j 0 := by
  simp only [drainStart, hd, hnew, hseq, activeVersions_of_desc hdesc, hv, Bool.and_false, Bool.or_self, Bool.false_eq_true,
    if_false, if_true]
  exact reportDrain_of_set hreq hset hj ..

theorem drainStart_of_ahead (hv : dXv q ≠ dDxv q) : drainStart x i s = forL probeNis
    (fun ni s => offer { s.mkPkt 0 0 (34 + x) ni 0 with asp := 6, addr := d.win, tag := d.tag } s)
    (putDrain { d with started := true, v := dXv q } s) := by
  simp only [drainStart, hd, hnew, hseq, activeVersions_of_desc hdesc, hv, Bool.and_false, Bool.or_self, Bool.false_eq_true,
    if_false]

end Start

theorem probesDone_of_answered (hrun : d.started = true) (hown : d.forBump = false)
    (hall : probeNis.all (fun n => (s.arrived (34 + x)).any (probeAnswerOf d n)) = true) : probesDone x i s
      = enqueue (.dxv d.win d.v d.tag) (putDrain { d with started := true } (s.setArrived (34 + x)
          ((s.arrived (34 + x)).filter (fun p => !probeNis.any (fun n => probeAnswerOf d n p))))) := by
  simp only [probesDone, hd, hrun, hown, hall, Bool.and_self, Bool.false_eq_true, if_false, if_true]

end Drains

theorem probeArrive_at_port {s : State} {ni i : Nat} {p : Packet} (hni : ni < 2) (hp : whole s ni i p) (hcls : p.cls = 0)
    (hty : p.ty = 0) (hasp : p.asp = 6) (hlen : p.len = 0) (h34 : 34 ≤ p.src) (h38 : p.src < 38) :
    probeArrive ni i s = (taken_ s ni i).setProbesAt ni (s.probesAt ni ++ [{ pkt := p, at_ := s.now }]) := by
  obtain ⟨harr, hhdr, -⟩ := hp
  have hcl : (decide (10 ≤ ni) && decide (ni < 18)) = false := by rw [decide_eq_false (by omega), Bool.false_and]
  simp only [probeArrive, takeArrived_of_get harr, hcl, Bool.false_eq_true, if_false]
  rw [if_neg (by simp [hhdr, hcls, hty, hasp, hlen]; omega)]
  rfl

theorem probeAnswer_of_ready {s : State} {ni i : Nat} {x : Probe} (hx : (s.probesAt ni)[i]? = some x)
    (hready : s.probeReady ni x = true) : probeAnswer ni i s = offer { x.pkt.reply 0x21 0 [] with src := ni }
      (s.setProbesAt ni ((s.probesAt ni).eraseIdx i)) := by
  simp only [probeAnswer, hx, hready, if_true]
  rfl

/-! ## WIN_SEL -/

theorem sget_sput_of_ne {r r' : RegId} {i i' : Nat} (h : regKey r' i' ≠ regKey r i) (s : State) (v : Word) :
    (s.sput r i v).sget r' i' = s.sget r' i' := by
  simp only [State.sget, State.sput, mget_mput_ne _ _ _ _ _ h]

/-- Which window a set has selected does not matter to the descriptors. -/
theorem activeDesc_fset_winSel {k : Nat} (hk : k < 11) (s : State) (x w : Nat) : (s.fset F.winSelWin k x).activeDesc w = s.activeDesc w := by
  have hbase : ∀ c, (s.fset F.winSelWin k x).descBase c = s.descBase c := by
    intro c
    have hne : regKey .xltLoc 0 ≠ regKey .winSel k :=
      regKey_ne _ _ _ _ (Nat.zero_lt_succ _) (by omega) (.inl (by simp))
    unfold State.descBase
    rw [fget_fset_of_ne _ F.winSelWin F.xltLocD0 k 0 _ hne, fget_fset_of_ne _ F.winSelWin F.xltLocD1 k 0 _ hne,
      fget_fset_of_ne _ F.winSelWin F.xltLocD2 k 0 _ hne]
  have hcopy : ∀ c, (s.fset F.winSelWin k x).descCopy c w = s.descCopy c w := by
    intro c
    unfold State.descCopy
    rw [hbase]
    rfl
  unfold State.activeDesc
  simp only [hcopy]

theorem loadShadows_of_desc {s : State} {k : Nat} {d : List Nat} (h : s.activeDesc (s.fget F.winSelWin k) = some d) :
    loadShadows k s = ((s.sput .winCw k (BitVec.ofNat 64 (d.getD 0 0 % 2 ^ 50))).sput .winAcc k
      (BitVec.ofNat 64 (d.getD 1 0 % 2 ^ 44))).sput .winTag k (BitVec.ofNat 64 (d.getD 2 0)) := by
  unfold loadShadows
  simp only [h]


/-- Selecting a window while its set is idle. -/
theorem winSelWrite_of_idle {s : State} {w : Writer} (h : (s.winBusy (setOf w) || s.winDraining (setOf w)) = false)
    (p : Packet) (v : Word) : winSelWrite w p v s
      = loadShadows (setOf w) (s.fset F.winSelWin (setOf w) (v.toNat % 4096)) := by
  simp only [winSelWrite, h, Bool.false_and, Bool.false_eq_true, if_false]

theorem loadShadows_reads {s : State} {k n : Nat} {d : List Nat} (hk : k < 11) (hn : n < 4096)
    (h : s.activeDesc n = some d) :
    (loadShadows k (s.fset F.winSelWin k n)).fget F.winSelWin k = n
    ∧ (loadShadows k (s.fset F.winSelWin k n)).sget .winCw k = BitVec.ofNat 64 (d.getD 0 0 % 2 ^ 50)
    ∧ (loadShadows k (s.fset F.winSelWin k n)).sget .winAcc k = BitVec.ofNat 64 (d.getD 1 0 % 2 ^ 44)
    ∧ (loadShadows k (s.fset F.winSelWin k n)).sget .winTag k = BitVec.ofNat 64 (d.getD 2 0) := by
  have hsel : (s.fset F.winSelWin k n).fget F.winSelWin k = n :=
    (fget_fset_same _ _ _ _ (by decide) (by decide)).trans (Nat.mod_eq_of_lt hn)
  have hne : ∀ {r r' : RegId}, r ≠ r' → regKey r k ≠ regKey r' k := fun h =>
    regKey_ne _ _ _ _ (by omega) (by omega) (.inl h)
  rw [loadShadows_of_desc (d := d) (by rw [hsel, activeDesc_fset_winSel hk]; exact h)]
  refine ⟨hsel, ?_, ?_, sget_sput_same ..⟩
  · rw [sget_sput_of_ne (hne (by decide)), sget_sput_of_ne (hne (by decide)), sget_sput_same]
  · rw [sget_sput_of_ne (hne (by decide)), sget_sput_same]

end Sys2Proof.Machine

open Sys2Proof Sys2Proof.Machine Sys2Proof.Claims

/-- Settles O42: WIN_CMD, TE_CMD, the drains with their probes, and the registers that act. -/
theorem drainsAndWindowRegisters : Obligations.DrainsAndWindowRegisters := by
  unfold Obligations.DrainsAndWindowRegisters
  intro s w hup k win
  refine ⟨fun hw => ⟨fun hidle => ?winIdle, fun hbusy => ?winBusy⟩,
    fun hw => ⟨fun hidle => ?teWrite, fun hbusy => ?teBusy, fun v hidle => ?teRead⟩,
    fun x i d hd => ⟨fun hnew hown hseq q hdesc => ⟨fun hv j hreq hset hj => ?drained, fun hv => ?ahead⟩,
      fun hrun hown hall => next_of_live hup rfl (probesDone_of_answered hd hrun hown hall)⟩,
    fun ni i p hni hp hcls hty hasp hlen h34 h38 => next_of_live hup rfl
      (probeArrive_at_port hni hp hcls hty hasp hlen h34 h38),
    fun ni i x hx hready => next_of_live hup rfl (probeAnswer_of_ready hx hready),
    fun v d hw hidle hdesc => ?select, fun fn v hw => next_of_live hup rfl (guarded_of_writerOk hw ..),
    fun v hw => next_of_live hup rfl (guarded_of_writerOk hw ..)⟩
  case winIdle =>
    exact ⟨next_of_live hup rfl ((guarded_of_writerOk hw ..).trans (winCmd_commit_of_idle hidle)),
      next_of_live hup rfl ((guarded_of_writerOk hw ..).trans (winCmd_bump_of_idle hidle)),
      next_of_live hup rfl ((guarded_of_writerOk hw ..).trans (winCmd_drain_of_idle hidle))⟩
  case winBusy =>
    exact ⟨next_of_live hup rfl ((guarded_of_writerOk hw ..).trans (winCmd_of_busy (by decide) hbusy)),
      next_of_live hup rfl ((guarded_of_writerOk hw ..).trans (winCmd_of_busy (by decide) hbusy)),
      next_of_live hup rfl ((guarded_of_writerOk hw ..).trans (winCmd_of_busy (by decide) hbusy))⟩
  case teWrite => exact next_of_live hup rfl ((guarded_of_writerOk hw ..).trans (teCmd_of_idle hidle _))
  case teBusy =>
    exact ⟨next_of_live hup rfl ((guarded_of_writerOk hw ..).trans (teCmd_of_busy hbusy _)),
      next_of_live hup rfl ((guarded_of_writerOk hw ..).trans (teCmd_of_busy hbusy _))⟩
  case teRead =>
    intro u ha hb hquar
    exact next_of_live hup rfl ((guarded_of_writerOk hw ..).trans ((teCmd_of_idle hidle _).trans
      (teRead_of_equal rfl ha hb hquar)))
  case drained => exact next_of_live hup rfl (drainStart_of_drained hd hnew hseq hdesc hv hreq hset hj)
  case ahead => exact next_of_live hup rfl (drainStart_of_ahead hd hnew hseq hdesc hv)
  case select =>
    have hval : (v.setWidth 64 : Word).toNat = v.toNat := by
      rw [BitVec.toNat_setWidth]
      exact Nat.mod_eq_of_lt (by omega)
    refine ⟨_, next_of_live hup rfl ((guardedP_of_writerOk hw ..).trans (winSelWrite_of_idle hidle _ _)), ?_⟩
    rw [hval]
    exact loadShadows_reads (setOf_lt w) (Nat.mod_lt _ (by decide)) hdesc
end

section
/-!
PROOF. The host links, configuration requests, and the resets of functions and ports (chapters 12 and 16).
-/
namespace Sys2Proof.Machine

open Sys2Proof Sys2Proof.Claims

/-! ## A change of the link's state -/

theorem setHostLink_unchanged {β : Type} {g : State → β} (hhpi : ∀ k v s, g (State.setHpi s k v) = g s)
    (htouch : ∀ d s, g (touch d s) = g s) (htrace : ∀ ni cls event fn data s, g (trace ni cls event fn data false s) = g s)
    (k : Nat) (x : LinkState) (s : State) : g (setHostLink k x s) = g s := by
  unfold setHostLink
  simp only
  split
  · rfl
  · exact (htrace ..).trans ((htouch ..).trans (hhpi ..))

theorem st_touch (d e : Nat) (s : State) : ((touch d s).dom e).st = (s.dom e).st := by
  by_cases h : e = d
  · rw [h, dom_touch]
  · rw [touch, State.dom_setDom_of_ne _ _ _ _ h]

theorem domOn_setHostLink (k d : Nat) (x : LinkState) (s : State) : (setHostLink k x s).domOn d = s.domOn d :=
  setHostLink_unchanged (g := fun u => u.domOn d) (fun _ _ _ => rfl) (fun _ _ => congrArg (· == 0) (st_touch ..))
    (fun _ _ _ _ _ _ => rfl) k x s

theorem domOn_fset (f : Fld) (i x d : Nat) (s : State) : (s.fset f i x).domOn d = s.domOn d := rfl

theorem domOn_noLink (k d : Nat) (x : LinkState) (s : State) : (noLink k x s).domOn d = s.domOn d := by
  rw [noLink, domOn_setHostLink, domOn_fset, domOn_fset, domOn_fset]

theorem niParked_fset (f : Fld) (i x ni : Nat) (s : State) : (s.fset f i x).niParked ni = s.niParked ni := rfl

theorem niParked_setHpi (k ni : Nat) (h : Hpi) (s : State) : (s.setHpi k h).niParked ni = s.niParked ni := rfl

theorem niParked_setHostLink (k ni : Nat) (x : LinkState) (s : State) :
    (setHostLink k x s).niParked ni = s.niParked ni :=
  setHostLink_unchanged (g := fun u => u.niParked ni) (fun _ _ _ => rfl) (fun _ _ => rfl) (fun _ _ _ _ _ _ => rfl) k x s

/-! ## PERST -/

theorem dropEntry_of_settled {s : State} {k : Nat} (h : (s.dom (14 + k)).trans = 0) : dropEntry k s = s :=
  when_of_false (by rw [hostDom, h]; rfl) _ _

section Perst

variable {s : State} {k : Nat} (hsettled : (s.dom (14 + k)).trans = 0)
include hsettled

theorem perstAssert_eq (hperst : (s.hpi k).perst = false) : perstAssert k s
    = if s.domOn (14 + k) then startFlush k 0 (noLink k .flushing (s.setHpi k { s.hpi k with perst := true }))
      else startWake (14 + k) (noLink k .flushing (s.setHpi k { s.hpi k with perst := true })) := by
  have hdrop : dropEntry k (s.setHpi k { s.hpi k with perst := true }) = s.setHpi k { s.hpi k with perst := true } :=
    dropEntry_of_settled hsettled
  have hon : (noLink k .flushing (s.setHpi k { s.hpi k with perst := true })).domOn (14 + k) = s.domOn (14 + k) :=
    domOn_noLink ..
  simp only [perstAssert, hperst, hdrop, hostDom, hon, Bool.false_eq_true, if_false]

theorem perstDeassert_eq : perstDeassert k s
    = if (s.dom (14 + k)).st = 2 then startWake (14 + k) (s.setHpi k { s.hpi k with perst := false })
      else hostTrain k (s.setHpi k { s.hpi k with perst := false }) := by
  have hdrop : dropEntry k (s.setHpi k { s.hpi k with perst := false }) = s.setHpi k { s.hpi k with perst := false } :=
    dropEntry_of_settled hsettled
  simp only [perstDeassert, hdrop, hostDom]
  rfl

end Perst

/-- A port trains from its state down. -/
theorem hostTrain_of_down {s : State} {k : Nat} (hperst : (s.hpi k).perst = false) (hon : s.domOn (14 + k) = true)
    (hlink : (s.hpi k).link = .down) : hostTrain k s = setHostLink k .training s := by
  simp only [hostTrain, hperst, hostDom, hon, hlink, bne_self_eq_false, Bool.not_true, Bool.or_self, Bool.false_eq_true,
    if_false]

/-! ## The link comes up, and narrows -/

theorem hostLinkUp_of_training {s : State} {k speed w : Nat} {flit : Bool} (hperst : (s.hpi k).perst = false)
    (hlink : (s.hpi k).link = .training) (hon : s.domOn (14 + k) = true) (hreset : s.fnReset (2048 + k) = none)
    (hspeed : 1 ≤ speed) (hmode : flit = true ∨ speed ≠ 6) (hw : w ∈ [1, 2, 4, 8, 16]) (hparked : s.niParked k = false) :
    hostLinkUp k speed w flit s = setHostLink k .l0 ((((s.setHpi k { s.hpi k with width := w }).fset F.hpiLinkStsSpeed k
      speed).fset F.hpiLinkStsWidth k w).fset F.hpiLinkStsFlit k (b2n flit)) := by
  have hhas : s.hasLink k = true := by simp [State.hasLink, hperst, hlink]
  have hdown : s.hostUp k = false := by simp [State.hostUp, hlink, linkActive]
  have hflit : (flit || speed != 6) = true := by simpa [bne_iff_ne] using hmode
  have hwidth : [1, 2, 4, 8, 16].contains w = true := List.contains_iff_mem.mpr hw
  simp only [hostLinkUp, hhas, hdown, hostDom, hon, hreset, decide_eq_true hspeed, hflit, hwidth, Bool.not_false,
    Bool.and_self, if_true]
  refine when_of_false ?_ _ _
  rw [niParked_setHostLink, niParked_fset, niParked_fset, niParked_fset, niParked_setHpi, hparked, Bool.false_and]

theorem hostLinkMove_narrow {s : State} {k w : Nat} (hlink : (s.hpi k).link = .l0) (hon : s.domOn (14 + k) = true)
    (hw : w ∈ [1, 2, 4, 8]) (hlt : w < (s.hpi k).width) :
    hostLinkMove k .l0p w s = setHostLink k .l0p (s.fset F.hpiLinkStsWidth k w) := by
  have hmove : linkMove (s.hpi k).link .l0p = true := by rw [hlink]; rfl
  have hwidth : (w == 1 || w == 2 || w == 4 || w == 8) = true := by simpa [or_assoc] using hw
  simp only [hostLinkMove, hmove, hon, decide_eq_true hlt, hwidth, Bool.and_self, Bool.or_true, if_true]

/-! ## Configuration requests -/

theorem isPf_of_port (k : Nat) : isPf (1024 * k) = true := by simp [isPf]

theorem portOf_pf (k : Nat) : portOf (1024 * k) = k := by
  unfold portOf
  omega

section Config

variable {s : State} {k : Nat} (hlive : s.hostLive k = true)
include hlive

theorem configRequest_before_ready (hboot : s.booted = false) (r : CfgReq) :
    configRequest k 0 r s = s.emit (.tlpCpl k (1024 * k) 0 0 2 [] false false) := by
  simp [configRequest, hlive, hboot]

variable (hboot : s.booted = true) (hreset : s.inReset (1024 * k) = false)
include hboot hreset

theorem configRequest_read (f : CfgField) : configRequest k 0 (.read f) s
    = s.emit (.tlpCpl k (1024 * k) 0 0 0 (leBytes 8 (s.cfgGet (1024 * k) f)) false false) := by
  simp [configRequest, hlive, hboot, hreset, State.cfgRead, isPf_of_port]

theorem configRequest_write_mps (v : Nat) : configRequest k 0 (.write .maxPayloadSize v) s
    = (irtCheck (1024 * k) (s.cfgPut (1024 * k) .maxPayloadSize (v % 8))).emit
        (.tlpCpl k (1024 * k) 0 0 0 [] false false) := by
  have hfield : cfgField (1024 * k) .maxPayloadSize v s = s.cfgPut (1024 * k) .maxPayloadSize (v % 8) := by
    simp [cfgField, isPf_of_port, cfgWidth]
  simp [configRequest, hlive, hboot, hreset, cfgWrite, hfield]

end Config

/-! ## Resets of functions -/

theorem not_inReset_of_configurable {s : State} {fn : Nat} (h : s.configurable fn = true) : s.inReset fn = false := by
  simp only [State.configurable, Bool.and_eq_true, Bool.not_eq_true'] at h
  exact h.2

theorem initiateFlr_of_vf {s : State} {fn : Nat} (hreset : s.inReset fn = false) (hvf : fn % 1024 ≠ 0) :
    initiateFlr fn s = stampFence (fn / 1024) fn 0 false [fn] s := by
  have hpf : isPf fn = false := by simpa [isPf] using hvf
  simp only [initiateFlr, hreset, hpf, startFnReset, Bool.false_eq_true, if_false]
  rfl

theorem cfgWrite_clear_vfEnable {s : State} {k : Nat} (h : s.cfgGet (1024 * k) .vfEnable = 1) :
    cfgWrite (1024 * k) .vfEnable 0 s = irtCheck (1024 * k)
      (forL (s.functionsOf k).tail (startFnReset 1) (s.cfgPut (1024 * k) .vfEnable 0)) := by
  simp only [cfgWrite, cfgField, isPf_of_port, portOf_pf, h, clearVfs, Bool.not_true, Bool.false_and, Bool.false_eq_true,
    if_false, Nat.zero_mod, Nat.zero_ne_one, if_true]

theorem fenceApply_of_awake {s : State} {ni i x : Nat} (hx : (s.notices ni)[i]? = some x) (hawake : s.niAwake ni = true) :
    fenceApply ni i s = flushOver x (noteApplied ni x (applyFence ni x (s.setNotices ni ((s.notices ni).eraseIdx i)))) := by
  simp only [fenceApply, hx, hawake, if_true]
  rfl

theorem resetDone_of_fn {s : State} {fn : Nat} {r : FnReset} (hport : s.fnReset (2048 + fn / 1024) = none)
    (hr : s.fnReset fn = some r) (hleft : r.left = []) (hdrained : s.drainLeft (fenceOf fn) = false)
    (hsem : s.semFence fn = false) :
    resetDone fn s = (endReset false r.stamp fn (liftFences fn s)).setFnReset fn none := by
  have hover : s.drainOver fn r = true := by simp [State.drainOver, hleft, hdrained, hsem]
  simp only [resetDone, portOf, hport, hr, hover, if_true]

end Sys2Proof.Machine

open Sys2Proof Sys2Proof.Machine Sys2Proof.Claims

/-- Settles O43: PERST, the link's other resets, its way up, configuration requests, and the resets of functions. -/
theorem hostLinksResetAndFlush : Obligations.HostLinksResetAndFlush := by
  unfold Obligations.HostLinksResetAndFlush
  intro s k hup d h
  refine ⟨fun hperst hsettled => ⟨fun hon => ?assertOn, fun hon => ?assertOff⟩,
    fun hsettled => ⟨fun hoff => ?wake, fun hon hlink => ?train⟩,
    fun hlink => ⟨next_of_live hup rfl (if_pos hlink), next_of_live hup rfl (if_pos hlink)⟩,
    fun hlink => ⟨next_of_live hup (by rfl) (if_pos hlink), fun hperst => ?removal⟩,
    fun speed w flit hperst hlink hon hreset hspeed hmode hw hparked => next_of_live hup rfl
      (hostLinkUp_of_training hperst hlink hon hreset hspeed hmode hw hparked),
    fun w hlink hon hw hlt => next_of_live hup rfl (hostLinkMove_narrow hlink hon hw hlt),
    fun f v hlive => ⟨fun hboot => next_of_live hup rfl (configRequest_before_ready hlive hboot _),
      fun hboot hreset => ⟨next_of_live hup rfl (configRequest_read hlive hboot hreset f),
        next_of_live hup rfl (configRequest_write_mps hlive hboot hreset v)⟩⟩,
    fun fn hcfg hvf => next_of_live hup (by rfl) ((if_pos hcfg).trans
      (initiateFlr_of_vf (not_inReset_of_configurable hcfg) hvf)),
    fun hcfg hvf => next_of_live hup (by rfl) ((if_pos hcfg).trans (cfgWrite_clear_vfEnable hvf)),
    fun ni i x hx hawake => next_of_live hup rfl (fenceApply_of_awake hx hawake),
    fun fn r hport hr hleft hdrained hsem => next_of_live hup rfl (resetDone_of_fn hport hr hleft hdrained hsem)⟩
  case assertOn => exact next_of_live hup rfl ((perstAssert_eq hsettled hperst).trans (if_pos hon))
  case assertOff => exact next_of_live hup rfl ((perstAssert_eq hsettled hperst).trans (if_neg (by simp [d, hon])))
  case wake => exact next_of_live hup rfl ((perstDeassert_eq hsettled).trans (if_pos hoff))
  case train =>
    have hst : (s.dom (14 + k.val)).st ≠ 2 := by
      have hzero : (s.dom (14 + k.val)).st = 0 := beq_iff_eq.mp hon
      omega
    refine next_of_live hup rfl ((perstDeassert_eq hsettled).trans ((if_neg hst).trans (hostTrain_of_down ?_ hon ?_)))
    · exact congrArg Hpi.perst (State.hpi_setHpi ..)
    · exact (congrArg Hpi.link (State.hpi_setHpi ..)).trans hlink
  case removal =>
    refine next_of_live hup rfl (if_pos ?_)
    rw [hlink, hperst]
    rfl
end

section
/-!
PROOF. What host ports receive, send and time out, and their egress slots (chapter 12, R394 to R397).
-/
namespace Sys2Proof.Machine

open Sys2Proof Sys2Proof.Claims

/-! ## Host requests -/

theorem bar2Access_of_miss {s : State} {k fn kind off : Nat} {t : Tlp} (hen : s.fget F.fWinEn fn = 1)
    (hmiss : s.cacheHit k fn (s.fget F.fWinWin fn) off = none) : bar2Access k fn kind off t s = offer
      { s.mkPkt 0 6 k (34 + 2 * k + s.fget F.fWinWin fn % 2) fn with
        addr := s.fget F.fWinWin fn * 2 ^ 42 + off
        tag := s.xltTag k
        len := 0 }
      (hostPush k {
        kind := kind
        tlp := t
        fn := fn
        win := s.fget F.fWinWin fn
        off := off
        xltTag := s.xltTag k } s) := by
  simp only [bar2Access, flag_eq_true hen, hmiss, Bool.not_true, Bool.false_eq_true, if_false]

theorem hostAccess_of_reaches {s : State} {k kind fn off : Nat} {t : Tlp} (h : reaches s k kind t fn true off) :
    hostAccess k kind t s = bar2Access k fn kind off t s := by
  obtain ⟨hlive, hroom, hhit, hopen, hmem, hd0, hecrc, hep⟩ := h
  simp only [hostAccess, hlive, hroom, hhit, hopen, hmem, hd0, hecrc, hep, Bool.not_true, Bool.or_self, Bool.false_and,
    Bool.false_eq_true, if_false, if_true, when_of_false rfl]

theorem translationReply_of_word {s : State} {k i : Nat} {p : Packet} {r : HostReq} {w : Word} (hp : whole s k i p)
    (hcls : p.cls = 2) (htag : 8192 ≤ p.tag) (hty : p.ty = 0x22) (hcsts : p.csts = 0) (hep : p.ep = false)
    (hr : (s.hpi k).reqs.find? (fun r => r.xltTag == p.tag) = some r) (hold : r.nocache = true)
    (hw : w = BitVec.ofNat 64 (leNat p.data)) (hxst : xwXst w = 0) (hwp : xwWp w = 0 ∨ r.kind = 1) :
    translationReply k i s
      = resolveReq k r (.inr ((taken_ s k i).bar2Pkt k r.fn r.kind r.tlp w)) (taken_ s k i) := by
  obtain ⟨harr, hhdr, hbad⟩ := hp
  have hanswer : (taken_ s k i).bar2Answer k r.fn r.kind r.tlp w = .inr ((taken_ s k i).bar2Pkt k r.fn r.kind r.tlp w) := by
    have hro : ¬(xwWp w = 1 ∧ r.kind ≠ 1) := by
      rintro ⟨h1, hne⟩
      rcases hwp with h0 | hread
      · omega
      · exact hne hread
    simp only [State.bar2Answer, hxst, hro, ne_eq, not_true_eq_false, if_false]
  simp only [translationReply, takeArrived_of_get harr, hr, hcls, hhdr, checkParity_of_sound hbad, hty, hcsts, hep, hold,
    ← hw, hanswer, Bool.not_true, Bool.and_false, when_of_false rfl]
  rw [if_neg (by simp; omega), if_neg (by simp)]

/-! ## Reads of the host -/

section Issue

variable {s : State} {k i : Nat} {e : Egress} (he : (s.hpi k).np[i]? = some e) (hlive : s.hostLive k = true)
  (hfirst : ((s.hpi k).np.take i).any (fun x => x.pkt.fn == e.pkt.fn) = false)
include he hlive hfirst

theorem requestIssue_of_no_master (hbme : s.bme e.pkt.fn = false) : requestIssue k i s
    = hostGather k (onGather e.pkt (fun g => g.failed (e.pkt.len - e.off) 1 0))
        (gatherOpen k e (npNext k i e.pkt.len e s)) := by
  simp only [requestIssue, he, hlive, hfirst, hbme, Bool.not_true, Bool.not_false, Bool.or_self, Bool.false_eq_true, if_false,
    if_true]

theorem requestIssue_of_master {t : Nat} (hbme : s.bme e.pkt.fn = true) (htag : s.freeTag k = some t)
    (hcap : s.underCap k e.pkt.fn = true) : requestIssue k i s = sendTlp k
      (.tlpRead k e.pkt.fn (e.pkt.addr + e.off) (s.reqLen k e) t e.pkt.ro e.pkt.ns e.pkt.ido (s.ecrcOf e.pkt.fn))
      ((gatherOpen k e (npNext k i (e.off + s.reqLen k e) e s)).setTag (4096 * k + t) {
        out := true
        fn := e.pkt.fn
        off := e.off
        len := s.reqLen k e
        at_ := s.now
        limit := ctoLimit (s.cfgGet (1024 * k) .ctoValue)
        req := e.pkt }) := by
  simp only [requestIssue, he, hlive, hfirst, hbme, htag, hcap, Bool.not_true, Bool.or_self, Bool.false_eq_true, if_false,
    if_true]

end Issue

theorem completionArrive_of_last {s : State} {k : Nat} {c : Cpl} {t : Tag} (hlive : s.hostLive k = true)
    (hlt : c.tag < 4096) (ht : s.tag (4096 * k + c.tag) = t) (hout : t.out = true) (hopen : t.cooled = false)
    (hstatus : c.status = 0) (hep : c.ep = false) (hecrc : c.ecrcErr = false)
    (hlast : t.got + c.data.length = t.len) : completionArrive k c s
      = hostGather k (onGather t.req (fun g => g.land (t.off + t.got) c.data false))
          ((stgWrite (landing k c.tag + t.got) c.data (List.replicate c.data.length true) false s).setTag
            (4096 * k + c.tag) {}) := by
  have hdata : c.data.take (t.len - t.got) = c.data := List.take_of_length_le (by omega)
  have hwhole : t.len ≤ t.got + c.data.length := hlast.ge
  simp only [completionArrive, hlive, hlt, ht, hout, hopen, goodCpl, hstatus, hep, hecrc, hdata, hwhole, Bool.not_true,
    Bool.false_and, Bool.or_self, Bool.false_eq_true, if_false, if_true, when_of_false rfl, ne_eq, not_true_eq_false]

/-- The condition of a completion timeout. -/
theorem late_of_out {s : State} {k tag : Nat} (hout : (s.tag (4096 * k + tag)).out = true)
    (hopen : (s.tag (4096 * k + tag)).cooled = false) (hcto : s.cfgGet (1024 * k) .ctoDisable = 0)
    (hlate : (s.tag (4096 * k + tag)).at_ + (s.tag (4096 * k + tag)).limit < s.now) :
    ((s.tag (4096 * k + tag)).out && !(s.tag (4096 * k + tag)).cooled && s.cfgGet (1024 * k) .ctoDisable == 0
      && decide (s.now > (s.tag (4096 * k + tag)).at_ + (s.tag (4096 * k + tag)).limit)) = true := by
  rw [hout, hopen, hcto, decide_eq_true hlate]
  rfl

/-! ## Messages -/

theorem vdmArrive_of_tunnel {s : State} {k fn dw3 : Nat} {msg : List Byte} (hlive : s.hostLive k = true)
    (hopen : s.under k fn = false) (hzero : dw3 / 512 % 128 = 0)
    (hen : s.fget F.lbTunEn (s.leadOf (dw3 / 64 % 8) * 64 + dw3 % 64) = 1)
    (hkind : s.fget F.lbTunKind (s.leadOf (dw3 / 64 % 8) * 64 + dw3 % 64) = 0)
    (hfn : s.fget F.lbTunFn (s.leadOf (dw3 / 64 % 8) * 64 + dw3 % 64) = fn) (hport : fn / 1024 = k) :
    vdmArrive k fn 0x1F6B dw3 msg s = hostPush k {
      fn := fn
      pkt := some { s.mkPkt 1 0x15 k (s.portNi (dw3 / 64 % 8)) fn with
        asp := 6
        addr := dw3 % 64
        len := msg.length
        data := msg } } s := by
  have hpass : (!s.hostLive k || (0x1F6B : Nat) != 0x1F6B) = false := by rw [hlive]; rfl
  simp only [vdmArrive, hpass, hopen, Bool.false_eq_true, if_false]
  exact if_pos ⟨hzero, flag_eq_true hen, hkind, hfn, hport⟩

/-! ## Egress -/

section Egress

variable {s : State} {k : Nat} {e : Egress}

theorem slotScan_of_ready (n : Nat) {l : List Egress} (hslot : s.slotAt k (s.hpi k).slot < 8)
    (he : l.find? (fun e => e.pkt.qc == s.slotAt k (s.hpi k).slot) = some e) :
    slotScan k l (n + 1) s = (some (s.slotAt k (s.hpi k).slot), s) := by
  have hany : l.any (fun e => e.pkt.qc == s.slotAt k (s.hpi k).slot) = true :=
    List.any_eq_true.mpr ⟨e, List.mem_of_find?_eq_some he, by simpa using List.find?_some he⟩
  simp only [slotScan]
  exact if_pos ⟨hslot, hany⟩

theorem sendHead_of_read (hcls : e.pkt.cls = 0) (hty : e.pkt.ty = 0) (hlen : e.pkt.len ≠ 0) (hsrc : 10 ≤ e.pkt.src) :
    sendHead k e s = {
      tlp := true
      st := (egressDrop k e.order s).setHpi k { (egressDrop k e.order s).hpi k with
        np := ((egressDrop k e.order s).hpi k).np ++ [e] } } := by
  have hpartner : ¬(2 ≤ e.pkt.src ∧ e.pkt.src < 10 ∧ (s.freeTag k).isNone = true) := by omega
  simp only [sendHead, hcls, sendRead, hty, hlen, hpartner, ne_eq, not_true_eq_false, if_false, if_true]
  rfl

theorem hostEgress_of_read (hlive : s.hostLive k = true) (hslot : s.slotAt k (s.hpi k).slot < 8)
    (he : (s.heads k).find? (fun e => e.pkt.qc == s.slotAt k (s.hpi k).slot) = some e) (hcls : e.pkt.cls = 0)
    (hty : e.pkt.ty = 0) (hlen : e.pkt.len ≠ 0) (hsrc : 10 ≤ e.pkt.src) : hostEgress k s
      = slotNext k ((egressDrop k e.order s).setHpi k { (egressDrop k e.order s).hpi k with
          np := ((egressDrop k e.order s).hpi k).np ++ [e] }) := by
  have hfuel : 512 + (s.hpi k).egress.length = (511 + (s.hpi k).egress.length) + 1 := by omega
  simp only [hostEgress, hlive, slotScan_of_ready 255 hslot he, hfuel, slotSend, he, sendHead_of_read hcls hty hlen hsrc,
    Bool.not_true, Bool.false_eq_true, if_false]
  rw [if_pos (.inr ⟨trivial, trivial⟩)]

end Egress

/-! ## A slot commit -/

/-- The shadows of a port's slots, noted for the next round. -/
def noteSlots (k : Nat) (s : State) : State :=
  forN 32 (fun j s => s.setSlotWord (32 * k + j) (some (s.sget .slot (32 * k + j)))) s

theorem noteSlots_unchanged {β : Type} {g : State → β} (h : ∀ k v s, g (State.setSlotWord s k v) = g s) (k : Nat)
    (s : State) : g (noteSlots k s) = g s :=
  forL_unchanged g (f := fun j s => s.setSlotWord (32 * k + j) (some (s.sget .slot (32 * k + j)))) (fun _ _ => h ..) _ s

theorem slotWord_setHpi (k j : Nat) (h : Hpi) (s : State) : (s.setHpi k h).slotWord j = s.slotWord j := rfl

theorem reg_noteSlots (k : Nat) (s : State) : (noteSlots k s).reg = s.reg :=
  noteSlots_unchanged (g := State.reg) (fun _ _ _ => rfl) k s

theorem slotWord_noteSlots {k j : Nat} (h : j < 32) (s : State) :
    (noteSlots k s).slotWord (32 * k + j) = some (s.sget .slot (32 * k + j)) := by
  have hone : ∀ x : State, x.reg = s.reg →
      (x.setSlotWord (32 * k + j) (some (x.sget .slot (32 * k + j)))).slotWord (32 * k + j)
        = some (s.sget .slot (32 * k + j)) := by
    intro x hreg
    rw [State.slotWord_setSlotWord, State.sget, hreg]
    rfl
  refine forL_establishes (P := fun x => x.reg = s.reg → x.slotWord (32 * k + j) = some (s.sget .slot (32 * k + j)))
    (f := fun j s => s.setSlotWord (32 * k + j) (some (s.sget .slot (32 * k + j)))) (fun a x hx hreg => ?_) hone
    (List.mem_range.mpr h) s (reg_noteSlots k s)
  by_cases ha : j = a
  · subst ha
    exact hone x hreg
  · rw [State.slotWord_setSlotWord_of_ne _ _ _ _ (by omega)]
    exact hx hreg

/-- A commit with a packet waiting is only noted. -/
theorem slotCommit_of_waiting {s : State} {k : Nat} (h : (s.heads k).isEmpty = false) :
    slotCommit k s = (noteSlots k s).setHpi k { s.hpi k with pendTable := true } := by
  have hhpi : (noteSlots k s).hpi k = s.hpi k := noteSlots_unchanged (g := fun x => x.hpi k) (fun _ _ _ => rfl) k s
  have hheads : ((noteSlots k s).setHpi k { s.hpi k with pendTable := true }).heads k = s.heads k := by
    unfold State.heads
    rw [State.hpi_setHpi]
  have hcommit : slotCommit k s = if (((noteSlots k s).setHpi k { (noteSlots k s).hpi k with pendTable := true }).heads
      k).isEmpty then slotApply k ((noteSlots k s).setHpi k { (noteSlots k s).hpi k with pendTable := true })
      else (noteSlots k s).setHpi k { (noteSlots k s).hpi k with pendTable := true } := rfl
  rw [hcommit, hhpi, hheads, h]
  exact if_neg (by simp)

end Sys2Proof.Machine

open Sys2Proof Sys2Proof.Machine Sys2Proof.Claims

/-- Settles O44: what a port takes from the host, what it asks of it, and its egress. -/
theorem hostRequestsAreServed : Obligations.HostRequestsAreServed := by
  unfold Obligations.HostRequestsAreServed
  intro s k hup h
  refine ⟨fun c kind t fn off op hc hreach hen hmiss => ?request,
    fun i p r hp hcls htag hty hcsts hep hr hold hxst hwp => next_of_live hup rfl
      (translationReply_of_word hp hcls htag hty hcsts hep hr hold rfl hxst hwp),
    fun i t e he hlive hfirst => ⟨fun hbme => next_of_live hup rfl (requestIssue_of_no_master he hlive hfirst hbme),
      fun hbme htag hcap => next_of_live hup rfl (requestIssue_of_master he hlive hfirst hbme htag hcap)⟩,
    fun c t hlive hlt ht hout hopen hstatus hep hecrc hlast => next_of_live hup rfl
      (completionArrive_of_last hlive hlt ht hout hopen hstatus hep hecrc hlast),
    fun tag t ht hout hopen hcto hlate => ?timeout,
    fun g tag hcooled hlate => next_of_live hup (by rfl) (if_pos (by rw [hcooled, decide_eq_true hlate]; rfl)),
    fun fn d m hlive hopen hzero hen hkind hfn hport => next_of_live hup rfl
      (vdmArrive_of_tunnel hlive hopen hzero hen hkind hfn hport),
    fun hlive hen hne => ?ltr,
    fun e hlive hslot he hcls hty hlen hsrc => next_of_live hup rfl
      (hostEgress_of_read hlive hslot he hcls hty hlen hsrc),
    fun w hw hheads => ?slots⟩
  case request =>
    have haccess : ∀ kind, reaches s k kind t fn true off → hostAccess k kind t s = _ := fun kind hreach =>
      (hostAccess_of_reaches hreach).trans (bar2Access_of_miss hen hmiss)
    simp only [List.mem_cons, Prod.mk.injEq, List.not_mem_nil, or_false] at hc
    obtain ⟨rfl, rfl⟩ | ⟨rfl, rfl⟩ | ⟨rfl, rfl⟩ := hc
    · exact next_of_live hup rfl (haccess _ hreach)
    · exact next_of_live hup rfl (haccess _ hreach)
    · exact next_of_live hup rfl (haccess _ hreach)
  case timeout =>
    subst ht
    exact next_of_live hup rfl (if_pos (late_of_out hout hopen hcto hlate))
  case ltr =>
    refine next_of_live hup rfl (if_pos ?_)
    rw [hlive, hen, bne_iff_ne.mpr hne]
    rfl
  case slots =>
    refine ⟨(noteSlots k s).setHpi k { s.hpi k with pendTable := true },
      next_of_live hup rfl ((guarded_of_writerOk hw ..).trans (slotCommit_of_waiting hheads)), State.hpi_setHpi ..,
      (State.reg_setHpi ..).trans (reg_noteSlots k s), fun j hj => ?_⟩
    rw [slotWord_setHpi]
    exact slotWord_noteSlots hj s
end

section
/-!
PROOF. The training of Drevlink ports (chapter 13, R353): what enters each state, and what each message and timer does.
-/
namespace Sys2Proof.Machine

open Sys2Proof Sys2Proof.Claims

/-! ## The state that a step of training enters -/

theorem lpi_fset (f : Fld) (i x p : Nat) (s : State) : (s.fset f i x).lpi p = s.lpi p := rfl

theorem lpi_sendMl (q ty : Nat) (l : List Nat) (p : Nat) (s : State) : (sendMl q ty l s).lpi p = s.lpi p := rfl

theorem lpi_trace (ni cls event fn : Nat) (data : List Byte) (inj : Bool) (s : State) (p : Nat) :
    (trace ni cls event fn data inj s).lpi p = s.lpi p := rfl

theorem when_unchanged {β : Type} {g : State → β} {f : State → State} (h : ∀ s, g (f s) = g s) (c : Bool) (s : State) :
    g (when c f s) = g s := by
  cases c
  · rfl
  · exact h s

theorem st_setTrain (p n : Nat) (s : State) : ((setTrain p n s).lpi p).st = n := by
  unfold setTrain
  simp only
  rw [when_unchanged (g := fun x => (x.lpi p).st) fun _ => congrArg Lpi.st (lpi_trace ..),
    when_unchanged (g := fun x => (x.lpi p).st) fun _ => congrArg Lpi.st (lpi_fset ..), State.lpi_setLpi]

theorem st_toDetect (p : Nat) (s : State) : ((toDetect p s).lpi p).st = 1 := by
  rw [toDetect, lpi_fset, State.lpi_setLpi]
  exact st_setTrain ..

theorem st_toConfig (p : Nat) (s : State) : ((toConfig p s).lpi p).st = 2 := by
  rw [toConfig, lpi_sendMl, State.lpi_setLpi]
  exact st_setTrain ..

theorem st_toFailed (p cause : Nat) (s : State) : ((toFailed p cause s).lpi p).st = 8 := by
  rw [toFailed, lpi_fset]
  exact st_setTrain ..

theorem st_toEq (p : Nat) (fresh : Bool) (s : State) : ((toEq p fresh s).lpi p).st = 3 := by
  rw [toEq, State.lpi_setLpi]
  exact st_setTrain ..

theorem st_toLock (p : Nat) (retr : Bool) (s : State) : ((toLock p retr s).lpi p).st = 4 := by
  rw [toLock, State.lpi_setLpi]
  exact st_setTrain ..

theorem st_toTest (p : Nat) (s : State) : ((toTest p s).lpi p).st = 7 := st_setTrain ..

theorem lpi_fsat (f : Fld) (i k p : Nat) (s : State) : (s.fsat f i k).lpi p = s.lpi p := rfl

theorem st_startRetrain {p : Nat} {s : State} (h : (s.lpi p).st = 5) : ((startRetrain p s).lpi p).st = 4 := by
  rw [startRetrain, if_pos h, lpi_sendMl, lpi_fsat]
  exact st_toLock ..

theorem startRetrain_of_ne {p : Nat} {s : State} (h : (s.lpi p).st ≠ 5) : startRetrain p s = s := if_neg h

/-! ## What the last type heard leaves -/

theorem fget_heard {f : Fld} (h : f.reg ≠ .mlSts) {i : Nat} (hi : i < 65536) {p : Nat} (hp : p < 65536) (s : State)
    (ty : Nat) : (heard s p ty).fget f i = s.fget f i :=
  fget_fset_of_ne _ _ _ _ _ _ (regKey_ne _ _ _ _ hi hp (.inl h))

theorem lpi_heard (s : State) (p ty q : Nat) : (heard s p ty).lpi q = s.lpi q := lpi_fset ..

theorem mlRecv_of_leads {s : State} {p : Nat} (h : s.leads p = true) (ty : Nat) (f : State → State) :
    mlRecv p ty f s = f (heard s p ty) := if_pos h

theorem groupLen_heard {p q : Nat} (hp : p < 8) (hq : q < 8) (s : State) (ty : Nat) :
    (heard s q ty).groupLen p = s.groupLen p := by
  unfold State.groupLen
  rw [fget_heard (by decide) (by omega) (by omega), fget_heard (by decide) (by omega) (by omega)]

theorem targetRate_heard {p : Nat} (hp : p < 8) (s : State) (ty : Nat) : (heard s p ty).targetRate p = s.targetRate p := by
  unfold State.targetRate State.commonRate
  rw [lpi_heard, fget_heard (by decide) (by omega) (by omega), fget_heard (by decide) (by omega) (by omega)]

end Sys2Proof.Machine
end

section
/-!
PROOF. LNK_CTL, management messages and timers of a leading port (R312, R320 to R326, R353).
-/
namespace Sys2Proof.Machine

open Sys2Proof Sys2Proof.Claims

/-- A command whose effect leaves the port in a training state. -/
theorem trainsTo_of_live {c : Instr} {s t : State} {f : State → State} {p n : Nat} (hup : up s)
    (hexec : exec c s = live s f) (h : f s = t) (hst : (t.lpi p).st = n) : trainsTo s c p n :=
  ⟨t, next_of_live hup hexec h, hst⟩

theorem trainsTo_of_effect {c : Instr} {s : State} {f : State → State} {p n : Nat} (hup : up s)
    (hexec : exec c s = live s f) (hst : ((f s).lpi p).st = n) : trainsTo s c p n :=
  trainsTo_of_live hup hexec rfl hst

/-! ## LNK_CTL -/

section LnkCtl

variable {s : State} {p : Nat} (hlead : s.leads p = true)
include hlead

theorem linkEnable_of_disabled (hst : (s.lpi p).st = 0) (hdom : (s.dom (16 + p)).st ≠ 2) :
    linkEnable p s = restartPort p (s.fset F.lnkCtlEn p 1) := by
  simp only [linkEnable, hlead, hst, when_of_false (beq_eq_false_iff_ne.mpr hdom), when_of_true (beq_self_eq_true 0),
    Bool.not_true, Bool.false_eq_true, if_false]

theorem linkDisable_of_enabled (hst : (s.lpi p).st ≠ 0) : linkDisable p s
    = sendMl p 0x08 [] (setTrain p 0 (leaveActive p false (s.fset F.lnkCtlEn p 0))) := by
  simp only [linkDisable, hlead, when_of_true (bne_iff_ne.mpr hst), Bool.not_true, Bool.false_eq_true, if_false]

theorem linkMode_test (hst : (s.lpi p).st ≠ 0) (h7 : (s.lpi p).st ≠ 7) :
    linkMode p true s = toTest p (s.fset F.lnkCtlMode p (b2n true)) := by
  have hgo : ((s.lpi p).st != 0 && (s.lpi p).st != 7) = true := by rw [bne_iff_ne.mpr hst, bne_iff_ne.mpr h7]; rfl
  simp only [linkMode, hlead, when_of_true hgo, Bool.not_true, Bool.false_eq_true, if_false, if_true]

theorem linkMode_of_test (h7 : (s.lpi p).st = 7) :
    linkMode p false s = toDetect p (s.fset F.lnkCtlMode p (b2n false)) := by
  simp only [linkMode, hlead, h7, when_of_true (beq_self_eq_true 7), Bool.not_true, Bool.false_eq_true, if_false]

end LnkCtl

theorem widthWrite_of_other {s : State} {p v : Nat} (h3 : v ≠ 3) (hne : v ≠ s.fget F.lnkCtlWidth p) :
    widthWrite p v s = changeWidth p v s := by
  have hsame : (v == 3 || v == s.fget F.lnkCtlWidth p) = false := by
    rw [beq_eq_false_iff_ne.mpr h3, beq_eq_false_iff_ne.mpr hne]
    rfl
  exact if_neg (by simp [hsame])

/-! ## HELLO and RATE -/

theorem helloSend_in_detect {s : State} {p : Nat} (hlead : s.leads p = true) (hst : (s.lpi p).st = 1)
    (hfirst : (s.lpi p).helloAt = none) (hon : s.ldOn p = true) : helloSend p s
      = sendMl p 1 (s.helloBytes p) (s.setLpi p { s.lpi p with helloAt := some s.now }) := by
  simp [helloSend, hlead, hst, hfirst, hon, when]

/-- The state that has noted the partner's HELLO. -/
def greeted (p rate ident : Nat) (s : State) : State :=
  let s1 := (s.rput .mlPartner p (BitVec.ofNat 64 ident)).fset F.mlStsHelloOk p 1
  s1.setLpi p { s1.lpi p with partnerRate := rate }

theorem hello_in_detect {s : State} {p rate : Nat} {l : Lpi} (width ident : Nat) (hl : s.lpi p = l) (hst : l.st = 1)
    (hrate : rate ≠ 0) : hello p rate width ident s = configOrFail p width (greeted p rate ident s) := by
  subst hl
  unfold hello
  rw [if_neg hrate]
  simp only [hst]
  rfl

theorem fget_setLpi (p : Nat) (l : Lpi) (f : Fld) (i : Nat) (s : State) : (s.setLpi p l).fget f i = s.fget f i := rfl

theorem fget_rput_of_ne {r : RegId} {k i : Nat} {f : Fld} (h : regKey f.reg i ≠ regKey r k) (v : Word) (s : State) :
    (s.rput r k v).fget f i = s.fget f i := by
  unfold State.fget
  rw [rget_rput_of_ne _ _ _ _ _ _ h]

theorem width_greeted {p : Nat} (hp : p < 8) (rate ident : Nat) (s : State) :
    (greeted p rate ident s).fget F.lnkCtlWidth p = s.fget F.lnkCtlWidth p := by
  rw [greeted, fget_setLpi,
    fget_fset_of_ne _ F.mlStsHelloOk F.lnkCtlWidth p p _ (regKey_ne _ _ _ _ (by omega) (by omega) (.inl (by decide))),
    fget_rput_of_ne (regKey_ne _ _ _ _ (by omega) (by omega) (.inl (by decide)))]

theorem st_configOrFail (p width : Nat) (s : State) :
    ((configOrFail p width s).lpi p).st = if width = s.fget F.lnkCtlWidth p then 2 else 8 := by
  unfold configOrFail
  by_cases h : width = s.fget F.lnkCtlWidth p
  · rw [if_neg (not_not.mpr h), if_pos h]
    exact st_toConfig ..
  · rw [if_pos h, if_neg h]
    exact st_toFailed ..

theorem rateRecv_of_target {s : State} {p rate : Nat} {l : Lpi} (hl : s.lpi p = l) (hst : l.st = 2) (hrate : rate ≠ 0)
    (htarget : rate = s.targetRate p) : rateRecv p rate s = toEq p true s := by
  subst hl
  refine when_of_true ?_ _ _
  rw [hst, bne_iff_ne.mpr hrate, beq_iff_eq.mpr htarget]
  rfl

/-! ## EQ and LOCK -/

theorem eqReq_in_eq {s : State} {p pos tap : Nat} {high : Bool} {l : Lpi} (hl : s.lpi p = l) (hst : l.st = 3)
    (hpos : pos < 4 * s.groupLen p) {r : Int × Int × Int × Bool} (hr : r = eqStep tap (if high then 1 else -1) (s.fget F.laneEqPre (4 * p + pos))
      (s.fget F.laneEqMain (4 * p + pos)) (s.fget F.laneEqPost (4 * p + pos))) : eqReq p pos tap high s
      = sendMl p 4 [pos, r.1.toNat, r.2.1.toNat, r.2.2.1.toNat, b2n r.2.2.2] (putTaps (4 * p + pos) r.1 r.2.1 r.2.2.1 s) := by
  subst hr hl
  exact if_pos ⟨hst, hpos⟩

theorem eqExit_of_both {s : State} {p : Nat} (hsent : (s.lpi p).eqSent = true) (hrecv : (s.lpi p).eqRecv = true) :
    eqExit p s = toLock p false s := when_of_true (by rw [hsent, hrecv]; rfl) _ _

theorem eqExit_of_not_sent {s : State} {p : Nat} (hsent : (s.lpi p).eqSent = false) : eqExit p s = s :=
  when_of_false (by rw [hsent]; rfl) _ _

theorem eqExit_of_not_received {s : State} {p : Nat} (hrecv : (s.lpi p).eqRecv = false) : eqExit p s = s :=
  when_of_false (by rw [hrecv, Bool.and_false]) _ _

section EqDone

variable {s : State} {p : Nat} {l : Lpi} (hl : s.lpi p = l) (hst : l.st = 3)
include hl hst

theorem eqDone_in_eq : when ((s.lpi p).st == 3) (fun s => eqExit p (s.setLpi p { s.lpi p with eqRecv := true })) s
    = eqExit p (s.setLpi p { l with eqRecv := true }) := by
  subst hl
  exact when_of_true (by rw [hst]; rfl) _ _

theorem eqDone_of_sent (hsent : l.eqSent = true) :
    when ((s.lpi p).st == 3) (fun s => eqExit p (s.setLpi p { s.lpi p with eqRecv := true })) s
      = toLock p false (s.setLpi p { l with eqRecv := true }) :=
  (eqDone_in_eq hl hst).trans (eqExit_of_both (by rw [State.lpi_setLpi, hsent]) (by rw [State.lpi_setLpi]))

theorem eqDone_of_not_sent (hsent : l.eqSent = false) :
    when ((s.lpi p).st == 3) (fun s => eqExit p (s.setLpi p { s.lpi p with eqRecv := true })) s
      = s.setLpi p { l with eqRecv := true } :=
  (eqDone_in_eq hl hst).trans (eqExit_of_not_sent (by rw [State.lpi_setLpi, hsent]))

end EqDone

theorem eqPass_of_due {s : State} {p : Nat} (hlead : s.leads p = true) (hst : (s.lpi p).st = 3)
    (hsent : (s.lpi p).eqSent = false) (hdue : (s.lpi p).stAt + 100000 ≤ s.now) :
    eqPass p s = eqExit p (sendMl p 5 [] (s.setLpi p { s.lpi p with eqSent := true })) := by
  refine if_pos ?_
  rw [hlead, hst, hsent, decide_eq_true hdue]
  rfl

theorem lockExit_of_both {s : State} {p : Nat} (hsent : (s.lpi p).lockSent = true) (hrecv : (s.lpi p).lockRecv = true) :
    lockExit p s = enterActive p s := when_of_true (by rw [hsent, hrecv]; rfl) _ _

theorem lockExit_of_not_sent {s : State} {p : Nat} (hsent : (s.lpi p).lockSent = false) : lockExit p s = s :=
  when_of_false (by rw [hsent]; rfl) _ _

theorem lockExit_of_not_received {s : State} {p : Nat} (hrecv : (s.lpi p).lockRecv = false) : lockExit p s = s :=
  when_of_false (by rw [hrecv, Bool.and_false]) _ _

section Locked

variable {s : State} {p : Nat} {l : Lpi} (hl : s.lpi p = l) (hst : l.st = 4)
include hl hst

theorem locked_in_lock : when ((s.lpi p).st == 4) (fun s => lockExit p (s.setLpi p { s.lpi p with lockRecv := true })) s
    = lockExit p (s.setLpi p { l with lockRecv := true }) := by
  subst hl
  exact when_of_true (by rw [hst]; rfl) _ _

theorem locked_of_sent (hsent : l.lockSent = true) :
    when ((s.lpi p).st == 4) (fun s => lockExit p (s.setLpi p { s.lpi p with lockRecv := true })) s
      = enterActive p (s.setLpi p { l with lockRecv := true }) :=
  (locked_in_lock hl hst).trans (lockExit_of_both (by rw [State.lpi_setLpi, hsent]) (by rw [State.lpi_setLpi]))

theorem locked_of_not_sent (hsent : l.lockSent = false) :
    when ((s.lpi p).st == 4) (fun s => lockExit p (s.setLpi p { s.lpi p with lockRecv := true })) s
      = s.setLpi p { l with lockRecv := true } :=
  (locked_in_lock hl hst).trans (lockExit_of_not_sent (by rw [State.lpi_setLpi, hsent]))

end Locked

theorem trainTimeout_of_retrain {s : State} {p : Nat} (hst : (s.lpi p).st = 4) (hretr : (s.lpi p).retr = true)
    (hdue : (s.lpi p).stAt + 2000000 ≤ s.now) : trainTimeout p s = toEq p false s := by
  have h2 : ¬(4 = 2) := by decide
  have h3 : ¬(4 = 3) := by decide
  simp only [trainTimeout, hst, hretr, h2, h3, if_false, if_true]
  exact when_of_true (decide_eq_true hdue) _ _

/-! ## Leaving ACTIVE and TEST -/

section Active

variable {s : State} {p : Nat} {l : Lpi} (hl : s.lpi p = l) (hst : l.st = 5)
include hl hst

theorem linkDown_in_active : when ((s.lpi p).st == 5) (fun s => toDetect p (leaveActive p false s)) s
    = toDetect p (leaveActive p false s) := by
  subst hl
  exact when_of_true (by rw [hst]; rfl) _ _

theorem sleep_of_sent (hsent : l.sleepSent = true) :
    when ((s.lpi p).st == 5) (fun s => sleepExit p (s.setLpi p { s.lpi p with sleepRecv := true })) s
      = beginEntry (16 + p) false (setTrain p 6 (leaveActive p true (s.setLpi p { l with sleepRecv := true }))) := by
  subst hl
  refine (when_of_true (by rw [hst]; rfl) _ _).trans (when_of_true ?_ _ _)
  rw [State.lpi_setLpi, hst, hsent]
  rfl

end Active

section LoopReq

variable {s : State} {p : Nat} {l : Lpi}

theorem loopReq_leaves (hl : s.lpi p = l) (hst : l.st = 7) (hok : s.fget F.lnkCtlFarLoopOk p = 1) (mask : Nat) :
    loopReq p mask false s = sendMl p 11 [1] (toDetect p s) := by
  subst hl
  have hgo : (!s.flag F.lnkCtlFarLoopOk p || !((s.lpi p).st == 7 || (false && (s.lpi p).st == 5))) = false := by
    rw [flag_eq_true hok, hst]
    rfl
  simp only [loopReq, hgo, Bool.false_eq_true, if_false]

theorem loopReq_refused (hok : s.fget F.lnkCtlFarLoopOk p = 0) (mask : Nat) (enter : Bool) :
    loopReq p mask enter s = sendMl p 11 [0] s := by
  refine if_pos ?_
  rw [flag_of_zero hok]
  rfl

end LoopReq

theorem departLink_agreed {s : State} {p t : Nat} (h : (s.lpi p).gone = some (t, true)) : departLink p s
    = setLst p 2 (pfClean p (s.setLpi p { s.lpi p with
        gone := none
        pf := (s.lpi p).pf.map (fun b => { b with dropped := true })
        holdEnd := none })) := by
  simp only [departLink, h, Bool.not_true, Bool.false_and, Bool.false_eq_true, if_false, if_true]

theorem holdOver_of_past {s : State} {p e : Nat} (hlst : (s.lpi p).lst = 2) (hend : (s.lpi p).holdEnd = some e)
    (hpast : e ≤ s.now) : s.holdOver p = true := by
  unfold State.holdOver
  rw [hlst, hend]
  exact decide_eq_true hpast

theorem wakePattern_in_sleep {s : State} {p : Nat} (hlead : s.leads p = true) (hst : (s.lpi p).st = 6) :
    wakePattern p s = startWake (16 + p) (toDetect p (s.fset F.mlStsWakeSeen p 1)) := by
  rw [wakePattern, if_pos hlead, when_of_true (by rw [hst]; rfl)]

end Sys2Proof.Machine

open Sys2Proof Sys2Proof.Machine Sys2Proof.Claims

/-- Settles O45: LNK_CTL, then each message and timer, from its own state of training. -/
theorem linksTrain : Obligations.LinksTrain := by
  unfold Obligations.LinksTrain
  intro s p hup hlead l
  have hheard : ∀ (ty : Nat) (f : State → State), mlRecv p.val ty f s = f (heard s p.val ty) := mlRecv_of_leads hlead
  refine ⟨fun w hw => ⟨fun hst hdom => ?enable, fun hst => ?disable, fun hst h7 => ?test, fun h7 => ?leaveTest,
      fun hst => ?retrainCtl, fun hst => ?noRetrain, fun v h3 hne => ?width⟩,
    fun hst hfirst hon => next_of_live hup rfl (helloSend_in_detect hlead hst hfirst hon),
    fun rate width ok ident hst hrate => ?hello, fun rate hst hrate htarget => ?rate,
    fun lane tap high hst hpos => ?eqReq, fun lane a b c k => next_of_live hup rfl (hheard ..),
    fun d => next_of_live hup rfl (hheard ..), fun hst => ⟨fun hsent => ?eqDone, fun hsent hdue => ?eqPass, fun hsent => ?eqNoted⟩,
    fun hst => ?lock, fun hst => ⟨?retrain, ?linkDown, fun hsent => ?sleep⟩,
    fun mask hst => ⟨fun hok => ?leaveLoop, fun hok => ?noLoop⟩, fun t hgone => next_of_live hup rfl (departLink_agreed hgone),
    fun e hlst hend hpast => next_of_live hup (by rfl) (if_pos (holdOver_of_past hlst hend hpast)),
    fun hst => next_of_live hup rfl (wakePattern_in_sleep hlead hst)⟩
  case enable => exact next_of_live hup rfl ((guarded_of_writerOk hw ..).trans (linkEnable_of_disabled hlead hst hdom))
  case disable =>
    refine trainsTo_of_live hup rfl ((guarded_of_writerOk hw ..).trans (linkDisable_of_enabled hlead hst)) ?_
    rw [lpi_sendMl]
    exact st_setTrain ..
  case test =>
    exact trainsTo_of_live hup rfl ((guarded_of_writerOk hw ..).trans (linkMode_test hlead hst h7)) (st_toTest ..)
  case leaveTest =>
    exact trainsTo_of_live hup rfl ((guarded_of_writerOk hw ..).trans (linkMode_of_test hlead h7)) (st_toDetect ..)
  case retrainCtl =>
    exact trainsTo_of_live hup rfl ((guarded_of_writerOk hw ..).trans (when_of_true hlead ..)) (st_startRetrain hst)
  case noRetrain =>
    exact next_of_live hup rfl ((guarded_of_writerOk hw ..).trans ((when_of_true hlead ..).trans (startRetrain_of_ne hst)))
  case width =>
    intro c
    have hv3 : v.toNat ≠ 3 := fun h => h3 (BitVec.eq_of_toNat_eq h)
    refine ⟨fun hidle => ?_, fun hbusy => ?_⟩
    · refine next_of_live hup (by rfl) ((guardedP_of_writerOk hw ..).trans ?_)
      rw [hlead, hidle]
      exact widthWrite_of_other hv3 hne
    · refine next_of_live hup (by rfl) ((guardedP_of_writerOk hw ..).trans ?_)
      rw [hlead, hbusy]
      rfl
  case hello =>
    have hne : rate.toNat ≠ 0 := fun h => hrate (BitVec.eq_of_toNat_eq h)
    refine trainsTo_of_live hup rfl ((hheard ..).trans (hello_in_detect _ _ (lpi_heard ..) hst hne)) ?_
    rw [st_configOrFail, width_greeted p.isLt, fget_heard (by decide) (by omega) (by omega)]
  case rate =>
    have hne : rate.toNat ≠ 0 := fun h => hrate (BitVec.eq_of_toNat_eq h)
    exact trainsTo_of_live hup rfl ((hheard ..).trans (rateRecv_of_target (lpi_heard ..) hst hne
      (htarget.trans (targetRate_heard p.isLt s 2).symm))) (st_toEq ..)
  case eqReq =>
    intro u i r
    refine next_of_live hup rfl ((hheard ..).trans (eqReq_in_eq (lpi_heard ..) hst ?_ rfl))
    rw [groupLen_heard p.isLt p.isLt]
    exact hpos
  case eqDone =>
    refine trainsTo_of_effect hup (by rfl) ?_
    rw [hheard, eqDone_of_sent (lpi_heard ..) hst hsent]
    exact st_toLock ..
  case eqNoted =>
    refine next_of_live hup (by rfl) ?_
    exact (hheard ..).trans (eqDone_of_not_sent (lpi_heard ..) hst hsent)
  case eqPass =>
    refine ⟨fun hrecv => ?_, fun hrecv => ?_⟩
    · refine trainsTo_of_live hup rfl ((eqPass_of_due hlead hst hsent hdue).trans (eqExit_of_both ?_ ?_)) (st_toLock ..)
      · rw [lpi_sendMl, State.lpi_setLpi]
      · rw [lpi_sendMl, State.lpi_setLpi]
        exact hrecv
    · refine next_of_live hup rfl ((eqPass_of_due hlead hst hsent hdue).trans (eqExit_of_not_received ?_))
      rw [lpi_sendMl, State.lpi_setLpi]
      exact hrecv
  case lock =>
    intro u
    refine ⟨fun hsent => next_of_live hup (by rfl) ?_, fun hsent => next_of_live hup (by rfl) ?_, fun hretr hdue => ?_⟩
    · exact (hheard ..).trans (locked_of_sent (lpi_heard ..) hst hsent)
    · exact (hheard ..).trans (locked_of_not_sent (lpi_heard ..) hst hsent)
    · refine trainsTo_of_effect hup (by rfl) ?_
      rw [when_of_true hlead, trainTimeout_of_retrain hst hretr hdue]
      exact st_toEq ..
  case retrain =>
    exact trainsTo_of_live hup rfl (hheard ..) (st_startRetrain ((congrArg Lpi.st (lpi_heard ..)).trans hst))
  case linkDown =>
    refine trainsTo_of_effect hup (by rfl) ?_
    rw [hheard, linkDown_in_active (lpi_heard ..) hst]
    exact st_toDetect ..
  case sleep =>
    refine next_of_live hup (by rfl) ?_
    exact (hheard ..).trans (sleep_of_sent (lpi_heard ..) hst hsent)
  case leaveLoop =>
    refine trainsTo_of_live hup rfl ((hheard ..).trans (loopReq_leaves (lpi_heard ..) hst ?_ _)) ?_
    · rw [fget_heard (by decide) (by omega) (by omega), hok]
    · rw [lpi_sendMl]
      exact st_toDetect ..
  case noLoop =>
    refine next_of_live hup rfl ((hheard ..).trans (loopReq_refused ?_ _ _))
    rw [fget_heard (by decide) (by omega) (by omega), hok]
end

section
/-!
PROOF. What is watched on lanes and ports: codewords, injections, checkers, stalls, leaks and temperatures (R317 to R334,
R351, R352, R489 to R491).
-/
namespace Sys2Proof.Machine

open Sys2Proof Sys2Proof.Claims

/-! ## Codewords and lock -/

theorem codeword_in_active {s : State} {p : Nat} (h : (s.lpi (s.leadOf p)).st = 5) (n : Nat) (bad : Bool) :
    codeword p n bad s = if bad then s.fsat F.fecUncCodewords (s.leadOf p) 1
      else s.fsat F.fecCorrSymbols (s.leadOf p) (min n 15) := if_pos (.inr h)

theorem lockLoss_in_active {s : State} {p lane : Nat} (h : (s.lpi (s.leadOf p)).st = 5) :
    ((lockLoss p lane s).lpi (s.leadOf p)).st = 4 := by
  simp only [lockLoss, h, or_true, if_true]
  refine st_startRetrain ?_
  rw [State.lpi_setLpi]

theorem lockGain_of_last {s : State} {p lane : Nat} {inv : Bool} (hst : (s.lpi (s.leadOf p)).st = 4)
    (hsent : (s.lpi (s.leadOf p)).lockSent = false) (hrecv : (s.lpi (s.leadOf p)).lockRecv = false) {locks : List Nat}
    (hlocks : locks = (4 * p + lane) :: (s.lpi (s.leadOf p)).locks.filter (fun x => x != 4 * p + lane))
    (hall : (s.lanesOf (s.leadOf p)).all locks.contains = true) : lockGain p lane inv s
      = sendMl (s.leadOf p) 6 [] ((s.fset F.laneTstPolInv (4 * p + lane) (b2n inv)).setLpi (s.leadOf p)
          { s.lpi (s.leadOf p) with locks := locks, lockSent := true }) := by
  subst hlocks
  simp only [lockGain, hst, hsent, hall, Bool.not_false, Bool.and_self, if_true]
  refine lockExit_of_not_received ?_
  rw [lpi_sendMl, State.lpi_setLpi]
  exact hrecv

/-! ## Injection -/

section Inject

variable {s : State} {p lane : Nat} (h : s.laneRuns p = true)
include h

theorem laneGo_single : laneGo p lane 0 s = (s.fset F.laneInjKind (4 * p + lane) 0).emit (.laneFlip p lane 1) := by
  simp only [laneGo, h, Bool.not_true, Bool.false_eq_true, if_false, if_true]

theorem laneGo_burst : laneGo p lane 1 s
    = (s.fset F.laneInjKind (4 * p + lane) 1).emit (.laneFlip p lane (s.fget F.laneInjBurst (4 * p + lane) + 1)) := by
  simp only [laneGo, h, Bool.not_true, Bool.false_eq_true, if_false, if_true, Nat.one_ne_zero]

theorem laneGo_rate : laneGo p lane 2 s = (s.fset F.laneInjKind (4 * p + lane) 2).setLpi p
    { s.lpi p with inj := lane :: (s.lpi p).inj.filter (fun x => x != lane) } := by
  have h0 : ¬(2 = 0) := by decide
  have h1 : ¬(2 = 1) := by decide
  have hl : (s.fset F.laneInjKind (4 * p + lane) 2).lpi p = s.lpi p := lpi_fset ..
  simp only [laneGo, h, h0, h1, hl, Bool.not_true, Bool.false_eq_true, if_false, if_true]

theorem laneGo_stop : laneGo p lane 3 s = (s.fset F.laneInjKind (4 * p + lane) 3).setLpi p
    { s.lpi p with inj := (s.lpi p).inj.filter (fun x => x != lane) } := by
  have h0 : ¬(3 = 0) := by decide
  have h1 : ¬(3 = 1) := by decide
  have hl : (s.fset F.laneInjKind (4 * p + lane) 3).lpi p = s.lpi p := lpi_fset ..
  have h2 : ¬(3 = 2) := by decide
  simp only [laneGo, h, h0, h1, h2, hl, Bool.not_true, Bool.false_eq_true, if_false]

end Inject

/-! ## Checkers -/

theorem checkerEnable_of_off {s : State} {i : Nat} (h : s.fget F.laneTstChkEn i = 0) : checkerEnable i s
    = ((s.fset F.laneErrErrors i 0).fset F.laneTstChkLock i 0).fset F.laneTstChkEn i 1 := by
  unfold checkerEnable
  rw [when_of_true (by rw [flag_of_zero h]; rfl)]

theorem checker_starts_from_zero {i : Nat} (hi : i < 65536) (s : State) {t : State}
    (ht : t = ((s.fset F.laneErrErrors i 0).fset F.laneTstChkLock i 0).fset F.laneTstChkEn i 1) :
    t.fget F.laneTstChkEn i = 1 ∧ t.fget F.laneErrErrors i = 0 ∧ t.fget F.laneTstChkLock i = 0 := by
  have hne : ∀ {f : Fld}, f.reg = .laneTst → regKey F.laneErrErrors.reg i ≠ regKey f.reg i := fun hf =>
    regKey_ne _ _ _ _ hi hi (.inl (by rw [hf]; decide))
  subst ht
  refine ⟨fget_fset_same _ _ _ _ (by decide) (by decide), ?_, ?_⟩
  · rw [fget_fset_of_ne _ _ _ _ _ _ (hne rfl), fget_fset_of_ne _ _ _ _ _ _ (hne rfl)]
    exact fget_fset_same _ _ _ _ (by decide) (by decide)
  · rw [fget_fset_disjoint _ F.laneTstChkEn F.laneTstChkLock _ _ rfl (by decide) (by decide) (by decide) (by decide)]
    exact fget_fset_same _ _ _ _ (by decide) (by decide)

section Loss

variable {s : State} {p i wrong : Nat} (hrun : s.checking p i = true) (hlock : s.fget F.laneTstChkLock i = 1)
include hrun hlock

theorem checkerLoss_few (h : wrong < 64) : checkerLoss p i wrong s = s.fsat F.laneErrErrors i wrong := by
  rw [checkerLoss, hrun, flag_eq_true hlock, Bool.and_self, if_pos rfl, when_of_false (decide_eq_false (by omega)),
    Nat.min_eq_left (by omega)]

theorem checkerLoss_many (h : 64 ≤ wrong) : checkerLoss p i wrong s
    = (s.fsat F.laneErrErrors i (min wrong 256)).fset F.laneTstChkLock i 0 := by
  rw [checkerLoss, hrun, flag_eq_true hlock, Bool.and_self, if_pos rfl, when_of_true (decide_eq_true h)]

end Loss

/-! ## Stalls and leaks -/

section Stall

variable {s : State} {p : Nat} (hlive : s.portUp p = true) (hpast : 1000 ≤ s.now)
  (hnew : (s.lpi p).stallAt ≠ s.now / 1000) (hold : (s.lpi p).up ≤ 1000 * (s.now / 1000 - 1))
  (hstarved : (s.lpi p).starved 1 (1000 * (s.now / 1000 - 1)) = true) {u : State}
  (hu : u = (s.setLpi p { s.lpi p with stallAt := s.now / 1000 }).fsat F.llDrDrCnt p 1)
include hlive hpast hnew hold hstarved hu

theorem stallMicro_below (hcnt : u.fget F.llDrDrCnt p ≠ u.fget F.llDrDrTh p) : stallMicro p s = u := by
  have hwhole : 1 ≤ s.now / 1000 := by omega
  simp only [stallMicro, hlive, decide_eq_true hwhole, bne_iff_ne.mpr hnew, decide_eq_true hold, hstarved, Bool.or_true,
    Bool.and_self, ← hu, hcnt, if_false, if_true]

theorem stallMicro_at_threshold (hcnt : u.fget F.llDrDrCnt p = u.fget F.llDrDrTh p)
    (hretrain : u.fget F.llCtlDrRetrain p = 0) :
    stallMicro p s = violPort p 0x0110 0 (u.fget F.llDrDrCnt p) (u.fsat F.llDrDrEvents p 1) := by
  have hwhole : 1 ≤ s.now / 1000 := by omega
  simp only [stallMicro, hlive, decide_eq_true hwhole, bne_iff_ne.mpr hnew, decide_eq_true hold, hstarved, Bool.or_true,
    Bool.and_self, ← hu, if_true]
  rw [if_pos hcnt, when_of_false (flag_of_zero hretrain)]

end Stall

theorem leakSnap_of_empty {s : State} {p : Nat} (hlive : s.portUp p = true) (hreplay : (s.lpi p).replay = [])
    (hegress : (s.lpi p).egress = []) (hdue : (s.lpi p).emptyAt + 10000 ≤ s.now) : leakSnap p s
      = (s.fset F.llLeakHdrShort p (min 0xFFFF ((s.lpi p).np.hShort + (s.lpi p).po.hShort))).fset F.llLeakDataShort p
          (min 0xFFFF (s.lpi p).po.dShort) := by
  refine if_pos ?_
  rw [hlive, hreplay, hegress, decide_eq_true hdue]
  rfl

/-! ## Temperatures -/

theorem tripNow_of_clear {s : State} (h : s.fget F.thermCtlTrip 0 = 0) :
    tripNow s = (s.fset F.thermCtlTrip 0 1).emit .thermtrip := by
  rw [tripNow, flag_of_zero h]
  exact if_neg (by simp)

theorem trip_threshold (i : Nat) : 468 + ((Config.tripThr i).val : Int) ≤ 4 * 123 := by
  have hlt := (Config.tripThr i).isLt
  omega

end Sys2Proof.Machine

open Sys2Proof Sys2Proof.Machine Sys2Proof.Claims

/-- Settles O46: a lane's codewords, injections and checker, then the port's monitors, and the sensors. -/
theorem lanesAndPortsAreWatched : Obligations.LanesAndPortsAreWatched := by
  unfold Obligations.LanesAndPortsAreWatched
  intro s p hup l q
  refine ⟨fun hlead ty => ⟨next_of_live hup (by rfl) (when_of_true hlead ..), next_of_live hup (by rfl) (when_of_true hlead ..)⟩,
    fun lane => ?lane, fun hlive hpast hnew hold hstarved => ?stall,
    fun hne => next_of_live hup (by rfl) (if_pos hne),
    fun hlive hreplay hegress hdue => next_of_live hup rfl (leakSnap_of_empty hlive hreplay hegress hdue),
    fun t0 t1 t2 t3 => next_of_live hup (by rfl) rfl, fun i t => ?trip, next_of_live hup (by rfl) rfl⟩
  case lane =>
    intro i m
    have hi : i < 65536 := by omega
    refine ⟨fun hst n => ⟨next_of_live hup rfl (codeword_in_active hst n false),
        next_of_live hup rfl (codeword_in_active hst n true), _, next_of_live hup rfl rfl, lockLoss_in_active hst⟩,
      fun hst hsent hrecv inv => ?gain, fun w hw hrun => ?inject, fun w hw hoff => ?enable,
      fun hrun => ⟨next_of_live hup (by rfl) (when_of_true hrun ..), fun hlock wrong => ?loss⟩⟩
    case gain => exact fun hall => next_of_live hup rfl (lockGain_of_last hst hsent hrecv rfl hall)
    case inject =>
      exact ⟨next_of_live hup rfl ((guarded_of_writerOk hw ..).trans (laneGo_single hrun)),
        next_of_live hup rfl ((guarded_of_writerOk hw ..).trans (laneGo_burst hrun)),
        next_of_live hup rfl ((guarded_of_writerOk hw ..).trans (laneGo_rate hrun)),
        next_of_live hup rfl ((guarded_of_writerOk hw ..).trans (laneGo_stop hrun))⟩
    case enable =>
      exact ⟨_, next_of_live hup rfl ((guarded_of_writerOk hw ..).trans (checkerEnable_of_off hoff)),
        checker_starts_from_zero hi s rfl⟩
    case loss =>
      exact ⟨fun h => next_of_live hup rfl (checkerLoss_few hrun hlock h),
        fun h => next_of_live hup rfl (checkerLoss_many hrun hlock h)⟩
  case stall =>
    intro u
    exact ⟨fun hcnt => next_of_live hup rfl (stallMicro_below hlive hpast hnew hold hstarved rfl hcnt),
      fun hcnt hretrain => next_of_live hup rfl
        (stallMicro_at_threshold hlive hpast hnew hold hstarved rfl hcnt hretrain)⟩
  case trip =>
    intro u
    have hthr := trip_threshold s.free
    refine ⟨fun hhot hclear => ?_, fun hcold => ?_⟩
    · refine next_of_live hup (by rfl) ?_
      exact (when_of_true (decide_eq_true (hthr.trans hhot)) tripNow u).trans (tripNow_of_clear hclear)
    · refine next_of_live hup (by rfl) ?_
      refine when_of_false (decide_eq_false ?_) tripNow u
      have hlow : ((4 * 117 : Int)) ≤ 468 + ((Config.tripThr s.free).val : Int) := by omega
      exact not_le.mpr (lt_of_lt_of_le hcold hlow)
end

section
/-!
PROOF. The link layer of a Drevlink port and what leaves it (chapter 14, R361, R371, R372).
-/
namespace Sys2Proof.Machine

open Sys2Proof Sys2Proof.Claims

/-! ## Control slots -/

theorem portUp_iff {s : State} {p : Nat} : s.portUp p = true ↔ (s.lpi p).st = 5 ∧ (s.lpi p).lst = 1 := by
  simp [State.portUp]

section Up

variable {s : State} {p : Nat} (hlive : s.portUp p = true)
include hlive

theorem slotBlock_first_init (h : (s.lpi p).initSent = 0) : slotBlock p s
    = (s.setLpi p { s.lpi p with initSent := 1, gaveP := {} }).emit
        (.ctlBlock p (ctlWord 0x66 0 0 (s.giveP p) (s.giveD p))) := by
  obtain ⟨hst, hlst⟩ := portUp_iff.mp hlive
  have hup : ¬((s.lpi p).st ≠ 5 ∨ (s.lpi p).lst = 0) := by omega
  simp only [slotBlock, if_neg hup, if_neg (not_not.mpr hlst), if_pos h]

theorem slotBlock_after_inits (h : (s.lpi p).initSent = 2) : slotBlock p s =
    if s.nakNow p then
      ((s.setLpi p { s.lpi p with nakDue := false, nakLock := true, nakAt := s.now }).fsat F.llCntNakTx p 1).emit
        (.ctlBlock p (ctlWord 0x55 (s.lpi p).rxAck 0 0 0))
    else if (s.lpi p).lcbNp then
      (s.setLpi p { s.lpi p with
        gaveN := { (s.lpi p).gaveN with hAnn := (s.lpi p).gaveN.hTaken, dAnn := (s.lpi p).gaveN.dTaken }
        lcbNp := false }).emit
        (.ctlBlock p (ctlWord 0x4B (s.lpi p).rxAck 1 (s.lpi p).gaveN.hTaken (s.lpi p).gaveN.dTaken))
    else
      (s.setLpi p { s.lpi p with
        gaveP := { (s.lpi p).gaveP with hAnn := (s.lpi p).gaveP.hTaken, dAnn := (s.lpi p).gaveP.dTaken }
        lcbNp := true }).emit
        (.ctlBlock p (ctlWord 0x4B (s.lpi p).rxAck 0 (s.lpi p).gaveP.hTaken (s.lpi p).gaveP.dTaken)) := by
  obtain ⟨hst, hlst⟩ := portUp_iff.mp hlive
  have hup : ¬((s.lpi p).st ≠ 5 ∨ (s.lpi p).lst = 0) := by omega
  have h0 : ¬(s.lpi p).initSent = 0 := by omega
  have h1 : ¬(s.lpi p).initSent = 1 := by omega
  simp only [slotBlock, if_neg hup, if_neg (not_not.mpr hlst), if_neg h0, if_neg h1]
  split
  · rfl
  · cases (s.lpi p).lcbNp <;> rfl

theorem lcbRecv_posted {a h d : Nat} {u : State} (hu : u = applyAck p a s) (hinit : (u.lpi p).po.init = true)
    (hok : ((u.lpi p).po.count h d u.now).2 = false) : lcbRecv p a false h d s
      = u.setLpi p { u.lpi p with po := ((u.lpi p).po.count h d u.now).1 } := by
  simp only [lcbRecv, hlive, ← hu, hinit, hok, when_of_false rfl, Bool.not_true, Bool.false_eq_true, if_false]

theorem nakRecv_of_idle {a : Nat} {u : State} (hu : u = applyAck p a (s.fsat F.llCntNakRx p 1))
    (hidle : (u.lpi p).replay.any (·.again) = false) : nakRecv p a s = startReplay p u := by
  simp only [nakRecv, hlive, ← hu, hidle, Bool.not_true, Bool.false_and, Bool.false_eq_true, if_false]

theorem initRecv_nonposted {h d : Nat} (hh : h ≤ 32767) (hd : d ≤ 8388607) : initRecv p true h d s
    = (s.rput .llLeak p 0).setLpi p { s.lpi p with np := {
        init := true
        hInit := h
        dInit := d
        at_ := s.now } } := by
  have hok : initOk true h d = true := by simp [initOk, hh, hd]
  simp only [initRecv, hlive, hok, Bool.not_true, Bool.false_eq_true, if_false, if_true]

theorem recvFrame_of_errored {f : Frame} (h : f.errored = true) (g : State → State) : recvFrame p f true g s
    = ((touch (16 + p) s).setLpi p { s.lpi p with nakDue := true }).fsat F.llCntCrcErr p 1 := by
  simp only [recvFrame, hlive, h, discardFrame, Bool.not_true, Bool.or_self, Bool.true_or, Bool.false_eq_true, if_false,
    if_true]
  rfl

theorem replayTimeout_of_late {t : TxFrame} {rest : List TxFrame} (hreplay : (s.lpi p).replay = t :: rest)
    (hlate : max t.at_ (s.lpi p).purgeAt + s.replayTo p ≤ s.now) :
    replayTimeout p s = startReplay p (s.fsat F.llCntReplayTmo p 1) := by
  simp only [replayTimeout, hreplay, hlive, ge_iff_le, decide_eq_true hlate, Bool.and_self, if_true]

/-! ## What leaves -/

section Send

variable {e : Egress} (hidle : (s.lpi p).replay.find? (·.again) = none) (hroom : (s.lpi p).replay.length < 2047)
  (he : s.nextEntry p = some e)
include hidle hroom he

theorem frameSend_of_write (hcls : e.pkt.cls = 1) (hty : e.pkt.ty = 0x10) : frameSend p s
    = answerZeros p (putFrame p e (frameFor e.pkt 0x10 0 (partnerRange e.pkt).addr (partnerRange e.pkt)
        (swapData e.pkt.swap e.pkt.range (partnerRange e.pkt) e.pkt.data)) (lpiDrop p e.order s)) := by
  have hclosing : isClosing e.pkt = false := by simp [isClosing, hty]
  have hfull : ¬2047 ≤ (s.lpi p).replay.length := by omega
  have h2 : ¬(1 = 2) := by decide
  have h14 : ¬(0x10 = 0x14) := by decide
  have h15 : ¬(0x10 = 0x15) := by decide
  simp only [frameSend, hlive, hidle, hfull, he, hcls, sendPosted, hclosing, hty, h2, h14, h15, Bool.not_true,
    Bool.false_eq_true, if_false, if_true]

theorem farOpen_of_atomic {t : Nat} (hcls : e.pkt.cls = 0) (h1 : 1 ≤ e.pkt.ty) (h3 : e.pkt.ty ≤ 3)
    (htag : s.lpiTag p = some t) {u : State} (hu : u = putFrame p e (frameFor e.pkt 0x04 t (partnerRange e.pkt).addr
      (partnerRange e.pkt) []) (lpiTagOut p t e.pkt 0 e.pkt.len true none (lpiDrop p e.order s))) : farOpen p s
      = u.setLpi p { u.lpi p with far := (u.lpi p).far ++ [{
          tag := t
          addr := (partnerRange e.pkt).addr
          len := (partnerRange e.pkt).len
          req := e.pkt
          host := true }] } := by
  have hagain : (s.lpi p).replay.any (·.again) = false := by
    simpa [List.find?_eq_none] using hidle
  have hfull : decide (2047 ≤ (s.lpi p).replay.length) = false := decide_eq_false (by omega)
  have hhost : decide (e.pkt.ty < 4) = true := decide_eq_true (by omega)
  have hatomic : e.pkt.cls = 0 ∧ 1 ≤ e.pkt.ty ∧ e.pkt.ty ≤ 3 := ⟨hcls, h1, h3⟩
  simp only [farOpen, hlive, hagain, hfull, he, if_pos hatomic, sendLocked, htag, ← hu, hhost, Bool.not_true, Bool.or_self,
    Bool.false_eq_true, if_false]

end Send

end Up

/-! ## RESUME, timeouts, expiry, answers -/

theorem resumeRecv_without_keep {s : State} {p a : Nat} (hst : (s.lpi p).st = 5) (hlst : (s.lpi p).lst = 3)
    (hnew : (s.lpi p).resumeRecv = false) (hkeep : (s.lpi p).keep = false) :
    resumeRecv p a false s = resumeDone p (s.setLpi p { s.lpi p with resumeRecv := true }) := by
  simp only [resumeRecv, hst, hlst, hnew, hkeep, ne_eq, not_true_eq_false, Bool.and_self, Bool.false_eq_true, or_self,
    if_false]

theorem llTimeout_of_late {s : State} {p tag : Nat} {t : Tag} (ht : s.tag (4096 * (2 + p) + tag) = t)
    (hout : t.out = true) (hopen : t.cooled = false) (hlate : t.at_ + t.limit ≤ s.now) : llTimeout p tag s
      = tagFailed p tag t 2 3 ((violFrame p 0x0202 tag 0
          (frameFor t.req (if isOpening t.req then 0x04 else 0x00) tag (tagRange t).addr (tagRange t) []) s).setTag
            (4096 * (2 + p) + tag) { t with cooled := true, coolAt := s.now }) := by
  subst ht
  refine if_pos ?_
  rw [hout, hopen, decide_eq_true hlate]
  rfl

theorem pfExpire_of_old {s : State} {p i : Nat} {b : PfBlock} (hb : (s.lpi p).pf[i]? = some b) (harr : b.arrived = true)
    (hold : b.at_ + 1000 * s.fget F.lbPfLife p ≤ s.now) : pfExpire p i s
      = pfClean p (s.setLpi p { s.lpi p with pf := (s.lpi p).pf.set i { b with dropped := true } }) := by
  simp only [pfExpire, hb, harr, ge_iff_le, decide_eq_true hold, Bool.and_self, if_true]

theorem portResponse_of_answer {s : State} {p i : Nat} {x : Packet} (hx : whole s (2 + p) i x) (hcls : x.cls = 2)
    (hgate : passesGate (2 + p) x = false) (hlead : s.leads p = true) :
    portResponse p i s = lpiPush p x (taken_ s (2 + p) i) := by
  obtain ⟨harr, hhdr, hbad⟩ := hx
  have hmine : x.cls = 2 ∧ x.hdrBad = false ∧ passesGate (2 + p) x = false ∧ s.leads p = true :=
    ⟨hcls, hhdr, hgate, hlead⟩
  simp only [portResponse, takeArrived_of_get harr, if_pos hmine, checkParity_of_sound hbad]

end Sys2Proof.Machine

open Sys2Proof Sys2Proof.Machine Sys2Proof.Claims

/-- Settles O47: control slots and blocks, replay, credits, what leaves, and what times out. -/
theorem framesAreKeptInOrder : Obligations.FramesAreKeptInOrder := by
  unfold Obligations.FramesAreKeptInOrder
  intro s p hup l
  refine ⟨fun hlive => ⟨fun h => next_of_live hup rfl (slotBlock_first_init hlive h), fun h hnak => ?nakSlot,
      fun h hnak hclass => ?lcbSlot, fun a h d hinit hok => next_of_live hup rfl (lcbRecv_posted hlive rfl hinit hok),
      fun a hidle => next_of_live hup rfl (nakRecv_of_idle hlive rfl hidle),
      fun h d hh hd => next_of_live hup rfl (initRecv_nonposted hlive hh hd), fun f hf => ?errored,
      fun t rest hreplay hlate => next_of_live hup rfl (replayTimeout_of_late hlive hreplay hlate),
      fun e hidle hroom he => ⟨fun hcls hty => next_of_live hup rfl (frameSend_of_write hlive hidle hroom he hcls hty),
        fun t hcls h1 h3 htag => next_of_live hup rfl (farOpen_of_atomic hlive hidle hroom he hcls h1 h3 htag rfl)⟩⟩,
    fun a hst hlst hnew hkeep => next_of_live hup rfl (resumeRecv_without_keep hst hlst hnew hkeep),
    fun tag t ht hout hopen hlate => next_of_live hup rfl (llTimeout_of_late ht hout hopen hlate),
    fun i b hb harr hold => next_of_live hup rfl (pfExpire_of_old hb harr hold),
    fun i x hx hcls hgate hlead => next_of_live hup rfl (portResponse_of_answer hx hcls hgate hlead)⟩
  case nakSlot => exact next_of_live hup rfl ((slotBlock_after_inits hlive h).trans (if_pos hnak))
  case lcbSlot =>
    exact next_of_live hup rfl ((slotBlock_after_inits hlive h).trans
      ((if_neg (by simp [hnak])).trans (if_pos hclass)))
  case errored =>
    refine next_of_live hup (by rfl) ?_
    rw [hf, Bool.true_or]
    exact recvFrame_of_errored hlive hf id
end

section
/-!
PROOF. The frames that a Drevlink port takes become packets, answers or records (chapter 15).
-/
namespace Sys2Proof.Machine

open Sys2Proof Sys2Proof.Claims

/-! ## The state that has taken a frame -/

/-- A frame that the port takes and that is of a row's kind has the row's effect. -/
theorem recvFrame_of_gets {s : State} {p : Nat} {f : Frame} (h : getsFrame s p f) (g : State → State) :
    recvFrame p f true g s = g (tookFrame s p f) := by
  obtain ⟨hlive, hsound, hseq, hcredits⟩ := h
  have hbad : (f.errored || s.seqDist p f != 0) = false := by rw [hsound, hseq]; rfl
  have hcredits' : (touch (16 + p) s).withinCredits p f = true := hcredits
  simp only [recvFrame, hlive, hbad, acceptFrame, hcredits', Bool.not_true, Bool.or_self, Bool.false_eq_true, if_false,
    if_true]
  rfl

theorem reg_tookFrame (s : State) (p : Nat) (f : Frame) : (tookFrame s p f).reg = s.reg := rfl

theorem fget_tookFrame (s : State) (p : Nat) (f : Frame) (r : Fld) (i : Nat) : (tookFrame s p f).fget r i = s.fget r i :=
  fget_of_reg (reg_tookFrame s p f) r i

theorem fnAllowed_tookFrame (s : State) (p fn : Nat) (f : Frame) : (tookFrame s p f).fnAllowed p fn = s.fnAllowed p fn := by
  unfold State.fnAllowed
  rw [fget_tookFrame, fget_tookFrame]

theorem groupLen_tookFrame (s : State) (p : Nat) (f : Frame) : (tookFrame s p f).groupLen p = s.groupLen p := by
  unfold State.groupLen
  rw [fget_tookFrame, fget_tookFrame]

theorem tag_tookFrame (s : State) (p k : Nat) (f : Frame) : (tookFrame s p f).tag k = s.tag k := rfl

/-! ## Requests of the partner -/

section Requests

variable {u : State} {p : Nat} {f : Frame} (hfn : u.fnAllowed p f.fn = true)
include hfn

theorem partnerWrite_toHost (haddr : f.addr < 2 ^ 62) : partnerWrite p f u
    = offer (u.partnerPkt p f (f.fn / 1024) (f.fn / 1024) f.addr 0) u := by
  have hmap : decide (2 ^ 63 ≤ f.addr) = false := decide_eq_false (by omega)
  simp only [partnerWrite, hfn, hmap, haddr, Bool.not_true, Bool.or_self, Bool.false_eq_true, if_false, if_true, portOf]

theorem partnerRead_toHost (haddr : f.addr < 2 ^ 62) (hroom : (u.lpi p).parts.length < 1024 * u.groupLen p)
    (hnew : (u.lpi p).parts.any (fun r => !r.dead && r.frame.tag == f.tag) = false) (hcross : (u.lpi p).crossing p = false)
    {v : State} (hv : makeRoom p u = some v) : partnerRead p f u
      = partnerAsk p f (f.fn / 1024) (f.fn / 1024) f.addr true v := by
  have hmap : decide (2 ^ 63 ≤ f.addr) = false := decide_eq_false (by omega)
  have hfree : ¬(1024 * u.groupLen p ≤ (u.lpi p).parts.length
      ∨ (u.lpi p).parts.any (fun r => !r.dead && r.frame.tag == f.tag) = true) := by
    rw [hnew]
    simpa using hroom
  simp only [partnerRead, if_neg hfree, hfn, hmap, hcross, haddr, hv, Bool.not_true, Bool.or_self, Bool.false_eq_true,
    if_false, if_true, portOf]

theorem partnerInterrupt_of_allowed : partnerInterrupt p f u
    = offer { u.mkPkt 1 0x12 (2 + p) 39 f.fn with addr := f.addr % 2048 } u := if_pos hfn

theorem partnerTunnel_toPeer (hc : f.addr % 65536 < 64) (hen : u.fget F.lbTunEn (64 * p + f.addr % 65536) = 1)
    (hkind : u.fget F.lbTunKind (64 * p + f.addr % 65536) = 1) : partnerTunnel p f u
      = offer (u.tunnelPkt p (u.portNi (u.fget F.lbTunPeerPort (64 * p + f.addr % 65536))) f.fn
          (u.fget F.lbTunPeerCh (64 * p + f.addr % 65536)) f) u := by
  have hopen : ¬(64 ≤ f.addr % 65536 ∨ u.flag F.lbTunEn (64 * p + f.addr % 65536) = false) := by
    rw [flag_eq_true hen]
    simpa using hc
  simp only [partnerTunnel, hfn, if_neg hopen, hkind, Bool.not_true, Bool.false_eq_true, if_false]

end Requests

theorem partnerUnit_of_unit {u : State} {p ni : Nat} {f : Frame} (hunit : f.addr % 4096 ≤ 0x48)
    (hni : u.unitNi (f.addr % 4096) = some ni) : partnerUnit p f u = offer { u.mkPkt 1 0x14 (2 + p) ni f.fn with
      addr := f.addr % 4096
      asp := 6
      len := 56
      data := f.data
      fbe := 0xFF
      lbe := 0xFF
      eng := 0xFE
      ep := f.ep } u := by
  simp only [partnerUnit, hunit, hni, if_true]

theorem partnerCompletion_of_part {u : State} {p : Nat} {f : Frame} {t : Tag} (hsts : f.sts = 0) (hpart : f.last = false)
    (ht : u.tag (4096 * (2 + p) + f.tag % 4096) = t) (hout : t.out = true) (hopen : t.cooled = false)
    (hcont : continues (tagRange t) t.got f = true) : partnerCompletion p f u
      = (stgWrite (landing (2 + p) f.tag + t.got) f.data (List.replicate f.data.length true) f.ep u).setTag
          (4096 * (2 + p) + f.tag) { t with
            got := t.got + f.len
            raw := t.raw ++ f.data
            ep := t.ep || f.ep } := by
  have h12 : ¬(0 = 1 ∨ 0 = 2) := by decide
  have h3 : ¬(0 = 3) := by decide
  simp only [partnerCompletion, ht, hout, hopen, goodPartner, hsts, h12, h3, hcont, hpart, Bool.not_false, Bool.and_self,
    Bool.false_eq_true, if_false, if_true]

/-- The answer that a request gets and any other frame does not. -/
theorem when_request (p : Nat) (f : Frame) (v : State) :
    when (f.cls == 0) (answerFrame p 1 f) v = if f.cls = 0 then answerFrame p 1 f v else v := by
  unfold when
  simp only [beq_iff_eq]

end Sys2Proof.Machine

open Sys2Proof Sys2Proof.Machine Sys2Proof.Claims

/-- Settles O48: each kind of frame has its effect on the state that has taken it. -/
theorem partnersFramesAreBridged : Obligations.PartnersFramesAreBridged := by
  unfold Obligations.PartnersFramesAreBridged
  intro s p f hup hgets u
  have hrow : ∀ {mine : Bool} (g : State → State), mine = true → recvFrame p.val f mine g s = g u := by
    rintro mine g rfl
    exact recvFrame_of_gets hgets g
  refine ⟨fun hok => ⟨fun htt hfn haddr => ?write, fun htt hfn haddr hroom hnew hcross v hv => ?read, fun htt => ?doorbell,
    fun htt hfn => ?interrupt, fun htt hunit ni hni => ?unit, fun htt hfn hc => ?tunnel,
    fun hcls hsts hpart t ht htag hout hopen hcont => ?completion, fun htt => ?lock⟩, fun hbad => ?undefined⟩
  case write =>
    refine next_of_live hup rfl ((hrow _ (by rw [hok, htt]; rfl)).trans (partnerWrite_toHost ?_ haddr))
    rw [fnAllowed_tookFrame, hfn]
  case read =>
    refine next_of_live hup rfl ((hrow _ (by rw [hok, htt]; rfl)).trans (partnerRead_toHost ?_ haddr ?_ hnew hcross hv))
    · rw [fnAllowed_tookFrame, hfn]
    · rw [groupLen_tookFrame]
      exact hroom
  case doorbell => exact next_of_live hup rfl (hrow _ (by rw [hok, htt]; rfl))
  case interrupt =>
    refine next_of_live hup rfl ((hrow _ (by rw [hok, htt]; rfl)).trans (partnerInterrupt_of_allowed ?_))
    rw [fnAllowed_tookFrame, hfn]
  case unit =>
    exact next_of_live hup rfl ((hrow _ (by rw [hok, htt]; rfl)).trans (partnerUnit_of_unit hunit hni))
  case tunnel =>
    intro i hen hkind
    refine next_of_live hup rfl ((hrow _ (by rw [hok, htt]; rfl)).trans (partnerTunnel_toPeer ?_ hc ?_ ?_))
    · rw [fnAllowed_tookFrame, hfn]
    · rw [fget_tookFrame, hen]
    · rw [fget_tookFrame, hkind]
  case completion =>
    refine next_of_live hup rfl ((hrow _ (by rw [hok, hcls]; rfl)).trans
      (partnerCompletion_of_part hsts hpart ?_ hout hopen hcont))
    rw [tag_tookFrame, ht]
  case lock =>
    intro v
    have hmine : (frameOk f && (f.tt == 0x04 || f.tt == 0x11 || f.tt == 0x12)) = true := by
      simpa [hok, or_assoc] using htt
    refine next_of_live hup (by rfl) ?_
    exact (hrow _ hmine).trans (when_request ..)
  case undefined =>
    intro v
    exact next_of_live hup rfl ((hrow _ (by rw [hbad]; rfl)).trans (when_request ..))
end

section
/-!
PROOF. Interrupt requests, MSI-X writes and moderation, the table, and the binding registers (chapter 16).
-/
namespace Sys2Proof.Machine

open Sys2Proof Sys2Proof.Claims

/-! ## Requests -/

theorem takeSound_of_sound {s : State} {ni i : Nat} {p : Packet} (h : sound s ni i p) :
    takeSound ni i s = some (p, taken_ s ni i) := by
  obtain ⟨⟨harr, hhdr, hbad⟩, hep, horder⟩ := h
  unfold takeSound
  rw [takeArrived_of_get harr]
  simp only [hhdr, hbad, hep, horder, List.isEmpty_nil, Bool.not_true, Bool.or_self, Bool.false_eq_true, if_false]

/-- An interrupt request that reaches the IRT is served. -/
theorem interruptRequest_of_sound {s : State} {i : Nat} {q : Packet} (h : sound s 39 i q) (hcls : q.cls = 1)
    (hty : q.ty = 0x12) : interruptRequest i s = irtRequest q (taken_ s 39 i) := by
  unfold interruptRequest
  rw [takeSound_of_sound h]
  exact if_pos ⟨hcls, hty⟩

theorem vecBound_of_one {s : State} {fn : Nat} (h : s.fget F.fVecEn fn = 1) : s.vecBound fn = true := flag_eq_true h

theorem deliverable_setVec {s : State} {fn p : Nat} {v : Vec} (h : v.mask = (s.vec p).mask) :
    (s.setVec p v).deliverable fn p = s.deliverable fn p := by
  unfold State.deliverable
  rw [State.vec_setVec, h]
  rfl

theorem vec_msixSend (fn p : Nat) (s : State) :
    (msixSend fn p s).vec p = { s.vec p with last := some s.now, held := 0 } := mget_mput_same ..

theorem msix_msixSend (fn p : Nat) (s : State) : (msixSend fn p s).fn.msix
    = s.fn.msix ++ [(fn, (s.vec p).addr, (s.vec p).data, (s.vec p).reqTime)] := rfl

/-- What an MSI-X write of an entry tells the host. -/
theorem tellsHost_of_msixSend {c : Instr} {s u : State} {f : State → State} {fn p : Nat} {x : Vec} (hup : up s)
    (hexec : exec c s = live s f) (hf : f s = msixSend fn p u) (hvec : u.vec p = x) (hnow : u.now = s.now)
    (hmsix : u.fn.msix = s.fn.msix) : tellsHost c s fn p x := by
  refine ⟨msixSend fn p u, next_of_live hup hexec hf, ?_, ?_⟩
  · rw [vec_msixSend, hvec, hnow]
  · rw [msix_msixSend, hvec, hmsix]

theorem deliver_of_unmoderated {s : State} {fn p : Nat} (h : (s.vec p).modInt = 0) : deliver fn p s = msixSend fn p s :=
  if_pos (.inl h)

theorem not_due_of_within {v : Vec} {m now : Nat} (hlast : v.last = some m) (h : now < m + 256 * v.modInt) :
    v.due now = false := by
  unfold Vec.due
  rw [hlast]
  exact decide_eq_false (by omega)

theorem deliver_within_interval {s : State} {fn p m : Nat} (hmod : (s.vec p).modInt ≠ 0) (hcnt : (s.vec p).modCnt = 0)
    (hlast : (s.vec p).last = some m) (h : s.now < m + 256 * (s.vec p).modInt) :
    deliver fn p s = s.setVec p { s.vec p with held := (s.vec p).held + 1 } := by
  have hnow : ¬((s.vec p).modInt = 0 ∨ (s.vec p).due s.now = true) := by simp [hmod, not_due_of_within hlast h]
  have hfew : ¬((s.vec p).modCnt ≠ 0 ∧ (s.vec p).modCnt ≤ (s.vec p).held + 1) := fun hc => hc.1 hcnt
  simp only [deliver, if_neg hnow, if_neg hfew]

section Request

variable {u : State} {q : Packet} (hopen : u.under 39 q.fn = false)
include hopen

theorem irtRequest_of_unbound (hen : u.fget F.fVecEn q.fn = 0) : irtRequest q u
    = violPkt 39 0x0305 q (q.addr % 2048) 0 (u.fsat F.irtCntBadVec 0 1) := by
  have hbound : u.vecBound q.fn = false := flag_of_zero hen
  simp only [irtRequest, hopen, hbound, Bool.not_false, Bool.true_or, Bool.false_eq_true, if_false, if_true, b2n]

theorem irtRequest_of_bound (hen : u.fget F.fVecEn q.fn = 1) (hv : q.addr % 2048 < u.vectorsOf q.fn) {p : Nat}
    (hp : p = u.poolEntry q.fn (q.addr % 2048)) (hheld : (u.vec p).held = 0) (hpend : (u.vec p).pending = false) {t : State}
    (ht : t = u.setVec p { u.vec p with reqTime := q.stamp.time }) : irtRequest q u
      = if u.deliverable q.fn p then deliver q.fn p t else signalPme q.fn (t.setVec p { t.vec p with pending := true }) := by
  have hpass : (!u.vecBound q.fn || decide (u.vectorsOf q.fn ≤ q.addr % 2048)) = false := by
    rw [vecBound_of_one hen, decide_eq_false (by omega)]
    rfl
  have hdel : t.deliverable q.fn p = u.deliverable q.fn p := by
    rw [ht]
    exact deliverable_setVec rfl
  have hfirst : (u.vec p).held = 0 ∧ (u.vec p).pending = false := ⟨hheld, hpend⟩
  subst ht
  simp only [irtRequest, hopen, hpass, ← hp, if_pos hfirst, Bool.false_eq_true, if_false]
  exact if_congr (iff_of_eq (congrArg (· = true) hdel)) rfl rfl

end Request

theorem signalPme_unchanged {β : Type} {g : State → β} (hcfg : ∀ k v s, g (State.setCfgAt s k v) = g s)
    (hemit : ∀ o s, g (State.emit s o) = g s) (fn : Nat) (s : State) : g (signalPme fn s) = g s :=
  when_unchanged (g := g) (fun _ => (hemit ..).trans (hcfg ..)) _ s

/-! ## MSI-X writes -/

theorem msixStamp_of_due {s : State} {i fn addr data m : Nat} (hm : s.fn.msix[i]? = some (fn, addr, data, m))
    (hfirst : (s.fn.msix.take i).any (fun x => x.1 == fn) = false) (hdue : timeBefore (m + 5) (s.niTime 39) = true)
    {u : State} (hu : u = { s with fn := { s.fn with msix := s.fn.msix.eraseIdx i } }) : msixStamp i s
      = offer { u.mkPkt 1 0x12 39 (fn / 1024) fn with
          asp := fn / 1024
          addr := addr
          len := 4
          data := leBytes 4 data
          fbe := fbeFor addr 4
          lbe := lbeFor addr 4 } (u.fsat F.irtCntSent 0 1) := by
  subst hu
  simp only [msixStamp, hm, hfirst, hdue, Bool.not_true, Bool.or_self, Bool.false_eq_true, if_false, portOf, dropAt]

theorem modExpire_of_due {s : State} {p fn v m : Nat} (howner : s.entryOwner p = some (fn, v)) (hheld : 0 < (s.vec p).held)
    (hlast : (s.vec p).last = some m) (hdue : m + 256 * (s.vec p).modInt ≤ s.now) : modExpire p s = msixSend fn p s := by
  have hover : (s.vec p).due s.now = true := by
    unfold Vec.due
    rw [hlast]
    exact decide_eq_true hdue
  simp only [modExpire, hheld, hover, and_self, howner, if_true]

theorem pendingDeliver_of_deliverable {s : State} {fn v p : Nat} (hp : p = s.poolEntry fn v)
    (hen : s.fget F.fVecEn fn = 1) (hv : v < s.vectorsOf fn) (hpend : (s.vec p).pending = true)
    (hdel : s.deliverable fn p = true) (hmod : (s.vec p).modInt = 0) :
    pendingDeliver fn v s = msixSend fn p (s.setVec p { s.vec p with pending := false }) := by
  have hgo : (s.vecBound fn && decide (v < s.vectorsOf fn) && (s.vec p).pending && s.deliverable fn p) = true := by
    rw [vecBound_of_one hen, decide_eq_true hv, hpend, hdel]
    rfl
  simp only [pendingDeliver, ← hp, hgo, if_true]
  refine deliver_of_unmoderated ?_
  rw [State.vec_setVec]
  exact hmod

/-! ## The MSI-X table -/

theorem irtCheck_unchanged {β : Type} {g : State → β}
    (h : ∀ (p : Nat) (s : State), g (s.setVec p { s.vec p with held := 0, pending := true }) = g s) (fn : Nat) (s : State) :
    g (irtCheck fn s) = g s := by
  unfold irtCheck
  split
  · refine forL_unchanged g (fun v s => ?_) _ s
    dsimp only
    split
    · exact h ..
    · rfl
  · rfl

/-- Turning pending keeps what an entry says. -/
theorem vec_irtCheck {β : Type} {g : Vec → β} (h : ∀ (x : Vec), g { x with held := 0, pending := true } = g x) (fn k : Nat)
    (s : State) : g ((irtCheck fn s).vec k) = g (s.vec k) := by
  refine irtCheck_unchanged (g := fun s => g (s.vec k)) (fun p s => ?_) fn s
  by_cases hk : k = p
  · subst hk
    exact (congrArg g (State.vec_setVec ..)).trans (h _)
  · exact congrArg g (State.vec_setVec_of_ne _ _ _ _ hk)

theorem tableWrite_word {s : State} {fn off value p : Nat} (hlo : 0x8000 ≤ off) (hhi : off < 0xC000)
    (hen : s.fget F.fVecEn fn = 1) (hv : (off - 0x8000) / 16 < s.vectorsOf fn)
    (hp : p = s.poolEntry fn ((off - 0x8000) / 16)) : tableWrite fn off 4 value s
      = irtCheck fn (s.setVec p ((s.vec p).putWord (off / 4 % 4) (value % 2 ^ 32))) := by
  have hk : off % 16 / 4 = off / 4 % 4 := by omega
  have h48 : ¬(4 = 8) := by decide
  simp only [tableWrite, tableWordPut, hlo, hhi, vecBound_of_one hen, hv, and_self, if_true, h48, if_false, hk, hp]

theorem putWord_fields (y : Vec) {k : Nat} (hk : k < 4) (w : Nat) :
    (y.putWord k w).addr = (if k = 0 then y.addr / 2 ^ 32 * 2 ^ 32 + w else if k = 1 then w * 2 ^ 32 + y.addr % 2 ^ 32
        else y.addr)
    ∧ (y.putWord k w).data = (if k = 2 then w else y.data)
    ∧ (y.putWord k w).mask = (if k = 3 then decide (w % 2 = 1) else y.mask) := by
  match k with
  | 0 => exact ⟨rfl, rfl, rfl⟩
  | 1 => exact ⟨rfl, rfl, rfl⟩
  | 2 => exact ⟨rfl, rfl, rfl⟩
  | 3 => exact ⟨rfl, rfl, rfl⟩

/-! ## Binding and service classes -/

section Binding

variable {s : State} {w : Writer} {pk : Packet} {fn : Nat} {v : Word} (hoff : s.cfgGet fn .msixEnable = 0)
include hoff

theorem fVecWrite_of_fits (hok : ¬(bitsGet v 31 31 = 1 ∧ (32768 < bitsGet v 14 0 + s.vectorsOf fn
      ∨ s.overlaps fn (bitsGet v 14 0) = true))) :
    (fVecWrite w pk fn v s).fget F.fVecEn fn = bitsGet v 31 31
      ∧ (fVecWrite w pk fn v s).fget F.fVecBase fn = bitsGet v 14 0 := by
  have hfree : ¬s.cfgGet fn .msixEnable = 1 := by omega
  by_cases hsame : s.fget F.fVecEn fn = bitsGet v 31 31 ∧ s.fget F.fVecBase fn = bitsGet v 14 0
  · have hkept : fVecWrite w pk fn v s = s := if_pos hsame
    rw [hkept]
    exact hsame
  · have htaken : fVecWrite w pk fn v s = (s.fset F.fVecEn fn (bitsGet v 31 31)).fset F.fVecBase fn (bitsGet v 14 0) := by
      simp only [fVecWrite, if_neg hsame, if_neg hfree, if_neg hok]
    rw [htaken]
    refine ⟨?_, ?_⟩
    · rw [fget_fset_disjoint _ F.fVecBase F.fVecEn _ _ rfl (by decide) (by decide) (by decide) (by decide)]
      exact (fget_fset_same _ F.fVecEn _ _ (by decide) (by decide)).trans (Nat.mod_mod ..)
    · exact (fget_fset_same _ F.fVecBase _ _ (by decide) (by decide)).trans (Nat.mod_mod ..)

theorem fVecWrite_past_pool (hen : bitsGet v 31 31 = 1) (hpast : 32768 < bitsGet v 14 0 + s.vectorsOf fn)
    (hnew : ¬(s.fget F.fVecEn fn = bitsGet v 31 31 ∧ s.fget F.fVecBase fn = bitsGet v 14 0)) :
    fVecWrite w pk fn v s = violSource pk s := by
  have hfree : ¬s.cfgGet fn .msixEnable = 1 := by omega
  have hbad : bitsGet v 31 31 = 1 ∧ (32768 < bitsGet v 14 0 + s.vectorsOf fn ∨ s.overlaps fn (bitsGet v 14 0) = true) :=
    ⟨hen, .inl hpast⟩
  simp only [fVecWrite, if_neg hnew, if_neg hfree, if_pos hbad]

end Binding

theorem fSvcWrite_reads (fn : Nat) (v : Word) (s : State) :
    (fSvcWrite fn v s).fget F.fSvcTagCap fn = bitsGet v 23 16 ∧ (fSvcWrite fn v s).fget F.fSvcQc fn = bitsGet v 2 0 := by
  unfold fSvcWrite
  refine ⟨?_, ?_⟩
  · rw [fget_fset_disjoint _ F.fSvcQc F.fSvcTagCap _ _ rfl (by decide) (by decide) (by decide) (by decide)]
    exact (fget_fset_same _ F.fSvcTagCap _ _ (by decide) (by decide)).trans (Nat.mod_mod ..)
  · exact (fget_fset_same _ F.fSvcQc _ _ (by decide) (by decide)).trans (Nat.mod_mod ..)

theorem toNat_wide (x : BitVec 32) : (x.setWidth 64 : Word).toNat = x.toNat := by
  rw [BitVec.toNat_setWidth]
  exact Nat.mod_eq_of_lt (by omega)

/-- Bit 31 and bits 14:0 of a 32-bit value. -/
theorem binding_bits (x : BitVec 32) : bitsGet (x.setWidth 64) 31 31 = x.toNat / 2 ^ 31
    ∧ bitsGet (x.setWidth 64) 14 0 = x.toNat % 2 ^ 15 := by
  unfold bitsGet
  rw [toNat_wide]
  omega

/-- Bits 23:16 and 2:0 of a 32-bit value. -/
theorem service_bits (x : BitVec 32) : bitsGet (x.setWidth 64) 23 16 = x.toNat / 2 ^ 16 % 256
    ∧ bitsGet (x.setWidth 64) 2 0 = x.toNat % 8 := by
  unfold bitsGet
  rw [toNat_wide]
  omega

end Sys2Proof.Machine

open Sys2Proof Sys2Proof.Machine Sys2Proof.Claims

/-- Settles O49: requests, waiting writes, intervals and pending vectors, then the table and the registers. -/
theorem interruptsAreDelivered : Obligations.InterruptsAreDelivered := by
  unfold Obligations.InterruptsAreDelivered
  intro s hup
  refine ⟨fun i q hq hcls hty hopen => ?request,
    fun i fn addr data m hm hfirst hdue => next_of_live hup rfl (msixStamp_of_due hm hfirst hdue rfl),
    fun p fn v m howner hheld hlast hdue => tellsHost_of_msixSend hup rfl (modExpire_of_due howner hheld hlast hdue) rfl rfl rfl,
    fun fn v hen hv => ?pending, fun fn off x halign hlo hhi hen => ?table, fun w fn x hw hoff => ?binding,
    fun w fn x hw => ?service, fun w hw => ?svcLv⟩
  case request =>
    intro n p x u
    have hserve : interruptRequest i s = irtRequest q u := interruptRequest_of_sound hq hcls hty
    have hopen' : u.under 39 q.fn = false := hopen
    refine ⟨fun hen => next_of_live hup rfl (hserve.trans (irtRequest_of_unbound hopen' hen)),
      fun hen hv hheld hpend => ?_⟩
    intro y
    have hbound : interruptRequest i s = if s.deliverable q.fn p then deliver q.fn p (u.setVec p y)
        else signalPme q.fn ((u.setVec p y).setVec p { (u.setVec p y).vec p with pending := true }) :=
      hserve.trans (irtRequest_of_bound hopen' hen hv rfl hheld hpend rfl)
    have hvec : (u.setVec p y).vec p = y := State.vec_setVec ..
    refine ⟨fun hdel hmod => ?_, fun hdel hmod hcnt hwithin => ?_, fun hdel => ?_⟩
    · refine tellsHost_of_msixSend hup rfl (hbound.trans ((if_pos hdel).trans (deliver_of_unmoderated ?_))) hvec rfl rfl
      rw [hvec]
      exact hmod
    · obtain ⟨m, hlast, hlt⟩ := hwithin
      refine ⟨(u.setVec p y).setVec p { y with held := 1 }, next_of_live hup rfl (hbound.trans ((if_pos hdel).trans ?_)),
        rfl, State.vec_setVec ..⟩
      rw [deliver_within_interval (m := m) (by rw [hvec]; exact hmod) (by rw [hvec]; exact hcnt)
        (by rw [hvec]; exact hlast) (by rw [hvec]; exact hlt), hvec]
      have hone : y.held + 1 = 1 := by rw [show y.held = 0 from hheld]
      rw [hone]
    · refine ⟨_, next_of_live hup rfl (hbound.trans (if_neg (by simp [hdel]))), ?_, ?_⟩
      · exact (signalPme_unchanged (g := fun t => t.fn.msix) (fun _ _ _ => rfl) (fun _ _ => rfl) q.fn _).trans rfl
      · rw [signalPme_unchanged (g := fun t => t.vec p) (fun _ _ _ => rfl) (fun _ _ => rfl) q.fn, State.vec_setVec, hvec]
  case pending =>
    intro p hpend hdel hmod
    exact tellsHost_of_msixSend hup rfl (pendingDeliver_of_deliverable rfl hen hv hpend hdel hmod) (State.vec_setVec ..)
      rfl rfl
  case table =>
    intro v hv p y k w
    obtain ⟨haddr, hdata, hmask⟩ := putWord_fields y (k := k) (Nat.mod_lt _ (by decide)) w
    have hput : (s.setVec p (y.putWord k w)).vec p = y.putWord k w := State.vec_setVec ..
    have hform : (4 = 4 ∨ 4 = 8) ∧ off % 4 = 0 := ⟨.inl rfl, halign⟩
    refine ⟨irtCheck fn.val (s.setVec p (y.putWord k w)), next_of_live hup (by rfl)
      ((if_pos hform).trans (tableWrite_word hlo hhi hen hv rfl)), ?_, ?_, ?_, ?_⟩
    · exact (vec_irtCheck (g := Vec.addr) (fun _ => rfl) ..).trans ((congrArg Vec.addr hput).trans haddr)
    · exact (vec_irtCheck (g := Vec.data) (fun _ => rfl) ..).trans ((congrArg Vec.data hput).trans hdata)
    · exact (vec_irtCheck (g := Vec.mask) (fun _ => rfl) ..).trans ((congrArg Vec.mask hput).trans hmask)
    · exact irtCheck_unchanged (g := fun t => ({ t with fn := s.fn } : State)) (fun _ _ => rfl) _ _
  case binding =>
    intro en base
    obtain ⟨hen, hbase⟩ := binding_bits x
    refine ⟨fun hok => ⟨_, next_of_live hup rfl (guardedP_of_writerOk hw ..), ?_⟩, fun hone hpast hnew => ?_⟩
    · have hfits := fVecWrite_of_fits (w := w) (pk := s.writePkt w .fVec fn.val (x.setWidth 64)) (fn := fn.val)
        (v := x.setWidth 64) hoff
      rw [hen, hbase] at hfits
      refine hfits fun hbad => ?_
      obtain hzero | ⟨hroom, hfree⟩ := hok
      · omega
      · obtain hpast | hover := hbad.2
        · omega
        · rw [hfree] at hover
          cases hover
    · have hrefused := fVecWrite_past_pool (w := w) (pk := s.writePkt w .fVec fn.val (x.setWidth 64)) (fn := fn.val)
        (v := x.setWidth 64) hoff
      rw [hen, hbase] at hrefused
      exact next_of_live hup rfl ((guardedP_of_writerOk hw ..).trans (hrefused hone hpast hnew))
  case service =>
    obtain ⟨hcap, hqc⟩ := service_bits x
    refine ⟨_, next_of_live hup rfl (guarded_of_writerOk hw ..), ?_⟩
    rw [← hcap, ← hqc]
    exact fSvcWrite_reads ..
  case svcLv =>
    refine ⟨_, next_of_live hup rfl (guarded_of_writerOk hw ..), ?_⟩
    rw [rget_commitRws (by omega) (by omega)]
    rfl
end

section
/-!
PROOF. Notices about damaged packets and the logs that TRC writes (chapter 17).
-/
namespace Sys2Proof.Machine

open Sys2Proof Sys2Proof.Claims

/-! ## Notices -/

theorem takeNotice_of_tells {s : State} {ni i kind : Nat} {p : Packet} (h : tellsOf s ni i p kind) :
    takeNotice ni i kind s = some (p, taken_ s ni i) := by
  obtain ⟨⟨harr, hhdr, -⟩, hcls, hty, hkind⟩ := h
  unfold takeNotice
  rw [takeArrived_of_get harr]
  exact if_pos ⟨hcls, hty, hkind, hhdr⟩

/-- Where no count has been seen, every count beyond the confirmed one is missing. -/
theorem missingCounts_nil (base c : Nat) :
    missingCounts [] base c = (List.range (beyond base c)).map fun i => (base + 1 + i) % 4096 := by
  unfold missingCounts
  exact List.filter_eq_self.mpr fun _ _ => rfl

theorem length_missingCounts_nil (base c : Nat) : (missingCounts [] base c).length = beyond base c := by
  rw [missingCounts_nil, List.length_map, List.length_range]

/-- The only count on offer is settled once it is reached and lies beyond the confirmed one. -/
theorem resolveCounts_of_single {ni src r c : Nat} {s : State} (hseen : s.seenCnt (ckey ni src) = [])
    (hr : reached r c = true) (hpos : 0 < beyond (s.confirmed (ckey ni src)) c)
    (hhalf : beyond (s.confirmed (ckey ni src)) c < 2048) :
    resolveCounts ni src r [c] s = settleCounts ni src c s := by
  have hkeep : (reached r c && beyond (s.confirmed (ckey ni src)) c != 0
      && decide (beyond (s.confirmed (ckey ni src)) c < 2048)) = true := by
    simp only [hr, Bool.true_and, Bool.and_eq_true, bne_iff_ne, decide_eq_true_eq]
    omega
  unfold resolveCounts
  simp only [hseen, List.nil_append, List.filter_cons, List.filter_nil, hkeep, if_true, List.foldl_cons, List.foldl_nil]

theorem settled_sets (ni k c : Nat) (rest : List Packet) (seen : List Nat) (s : State) :
    (((s.setDamagedAt ni rest).setConfirmed k c).setSeenCnt k seen).confirmed k = c
      ∧ (((s.setDamagedAt ni rest).setConfirmed k c).setSeenCnt k seen).damagedAt ni = rest :=
  ⟨State.confirmed_setConfirmed (s.setDamagedAt ni rest) k c, State.damagedAt_setDamagedAt s ni rest⟩

/-- A settled count is confirmed, and its damaged packets leave the list of those that wait. -/
theorem settleCounts_of_enough {ni src c : Nat} {s : State} (hseen : s.seenCnt (ckey ni src) = [])
    (hlen : beyond (s.confirmed (ckey ni src)) c ≤ ((s.damagedAt ni).filter (fun x => x.src == src)).length) :
    (settleCounts ni src c s).confirmed (ckey ni src) = c % 4096
      ∧ (settleCounts ni src c s).damagedAt ni = (s.damagedAt ni).filter (fun x => x.src != src)
        ++ ((s.damagedAt ni).filter (fun x => x.src == src)).drop (beyond (s.confirmed (ckey ni src)) c) := by
  unfold settleCounts
  simp only [hseen, length_missingCounts_nil, if_pos hlen]
  exact settled_sets ..

/-! ## Writes to staging memory -/

/-- Bytes set one by one: each place of the list takes its byte. -/
theorem byte_forL_setByte (l : List Nat) (a : Nat) (data : List Byte) (k : Nat) (s : State) :
    (forL l (fun i s => s.setByte (a + i) (data.getD i 0)) s).byte k
      = if a ≤ k ∧ k - a ∈ l then data.getD (k - a) 0 else s.byte k := by
  induction l generalizing s with
  | nil => simp [forL]
  | cons i rest ih =>
    refine (ih _).trans ?_
    by_cases hk : k = a + i
    · subst hk
      simp
    · have hi : a ≤ k → k - a ≠ i := fun hle h => hk (by omega)
      rw [State.byte_setByte_of_ne _ _ _ _ hk]
      by_cases hle : a ≤ k
      · simp [hle, hi hle]
      · simp [hle]

/-- A word's write sets the bytes of the packet that lie in it. -/
theorem byte_stgWriteWord (a w k : Nat) (data : List Byte) (s : State) :
    (stgWriteWord false a data (List.replicate data.length true) w s).byte k
      = if a ≤ k ∧ k < a + data.length ∧ k / 8 = w then data.getD (k - a) 0 else s.byte k := by
  have hen (i : Nat) : (List.replicate data.length true).getD i true = true := by
    simp only [List.getD_eq_getElem?_getD, List.getElem?_replicate]
    split <;> rfl
  have hmem : a ≤ k → (k - a ∈ (List.range data.length).filter (fun i => (a + i) / 8 == w && true)
      ↔ k < a + data.length ∧ k / 8 = w) := by
    intro hle
    simp only [List.mem_filter, List.mem_range, Bool.and_true, beq_iff_eq, show a + (k - a) = k by omega]
    omega
  have hcheck : (stgCheck w s).byte k = s.byte k := by rw [State.byte, cells_stgCheck, State.byte]
  unfold stgWriteWord
  simp only [hen]
  split
  case isTrue hnone =>
    rw [List.isEmpty_iff] at hnone
    rw [if_neg]
    intro ⟨hle, hin⟩
    have := (hmem hle).mpr hin
    rw [hnone] at this
    exact List.not_mem_nil this
  case isFalse =>
    rw [byte_forL_setByte]
    have hbase : (if ((List.range data.length).filter fun i => (a + i) / 8 == w && true).length = 8
        then (s.setEccAt w 0).setPoisonAt w false else stgCheck w s).byte k = s.byte k := by
      split
      · rfl
      · exact hcheck
    simp only [Bool.false_eq_true, if_false]
    rw [hbase]
    by_cases hle : a ≤ k
    · simp only [hmem hle, hle, true_and]
    · simp only [hle, false_and]

theorem byte_forL_stgWriteWord (ws : List Nat) (a k : Nat) (data : List Byte) (s : State) :
    (forL ws (stgWriteWord false a data (List.replicate data.length true)) s).byte k
      = if a ≤ k ∧ k < a + data.length ∧ k / 8 ∈ ws then data.getD (k - a) 0 else s.byte k := by
  induction ws generalizing s with
  | nil => simp [forL]
  | cons w rest ih =>
    refine (ih _).trans ?_
    rw [byte_stgWriteWord]
    by_cases hin : a ≤ k ∧ k < a + data.length
    · obtain ⟨hle, hlt⟩ := hin
      by_cases hw : k / 8 = w
      · simp [hle, hlt, hw]
      · simp [hle, hlt, hw]
    · rw [if_neg (fun h => hin ⟨h.1, h.2.1⟩), if_neg (fun h => hin ⟨h.1, h.2.1⟩), if_neg (fun h => hin ⟨h.1, h.2.1⟩)]

theorem word_mem_wordsOf {a n k : Nat} (hle : a ≤ k) (hlt : k < a + n) : k / 8 ∈ wordsOf a n :=
  mem_wordsOf.mpr ⟨k - a, by omega, by rw [Nat.add_sub_cancel' hle]⟩

/-- A block's own write sets exactly its bytes. -/
theorem byte_stgPut (a k : Nat) (data : List Byte) (s : State) :
    (stgPut a data s).byte k = if a ≤ k ∧ k < a + data.length then data.getD (k - a) 0 else s.byte k := by
  refine (byte_forL_stgWriteWord ..).trans ?_
  by_cases hin : a ≤ k ∧ k < a + data.length
  · rw [if_pos ⟨hin.1, hin.2, word_mem_wordsOf hin.1 hin.2⟩, if_pos hin]
  · rw [if_neg (fun h => hin ⟨h.1, h.2.1⟩), if_neg hin]

/-- A block's own write counts errors in ERR_CNT and writes no other register. -/
theorem fget_stgPut (f : Fld) (i a : Nat) (data : List Byte) (s : State) (hne : f.reg ≠ .errCnt) (hi : i < 65536) :
    (stgPut a data s).fget f i = s.fget f i :=
  stgPut_unchanged (g := fun x => x.fget f i)
    (fun w x => fget_stgCheck w f i x (regKey_ne _ _ _ _ hi (Nat.zero_lt_succ _) (.inl hne))
      (regKey_ne _ _ _ _ hi (Nat.zero_lt_succ _) (.inl hne)))
    (fun _ _ _ => rfl) (fun _ _ _ => rfl) (fun _ _ _ => rfl) a data s

theorem resetOf_stgCheck (fn w : Nat) (s : State) : (stgCheck w s).resetOf fn = s.resetOf fn := by
  unfold stgCheck
  simp only
  split
  · rfl
  · split
    · exact aerCorrected_unchanged (g := fun x => x.resetOf fn) (fun _ _ _ => rfl) (fun _ _ _ => rfl) (fun _ _ => rfl) _
    · rfl

theorem inReset_stgPut (fn a : Nat) (data : List Byte) (s : State) : (stgPut a data s).inReset fn = s.inReset fn :=
  congrArg Option.isSome (stgPut_unchanged (g := fun x => x.resetOf fn) (fun w x => resetOf_stgCheck fn w x)
    (fun _ _ _ => rfl) (fun _ _ _ => rfl) (fun _ _ _ => rfl) a data s)

theorem byte_fset (f : Fld) (i x k : Nat) (s : State) : (s.fset f i x).byte k = s.byte k := by
  rw [State.byte, mem_fset, State.byte]

theorem byte_fsat (f : Fld) (i x k : Nat) (s : State) : (s.fsat f i x).byte k = s.byte k := byte_fset ..

theorem fget_fwrap (s : State) (f : Fld) (i k : Nat) (h : f.lo ≤ f.hi) (h64 : f.hi < 64) :
    (s.fwrap f i k).fget f i = (s.fget f i + k) % 2 ^ (f.hi + 1 - f.lo) := by
  rw [State.fwrap, fget_fset_same _ _ _ _ h h64, Nat.mod_mod]

theorem trcWrite_of_live {s : State} (h : (s.dom 5).st ≠ 3) (f : State → State) : trcWrite f s = f s := if_neg h

/-! ## The violation log -/

theorem unread_fwrap (f : Fld) (i n k : Nat) (s : State) : (s.fwrap f i n).unread k = s.unread k := rfl

theorem fget_setUnread (f : Fld) (i k : Nat) (v : Bool) (s : State) : (s.setUnread k v).fget f i = s.fget f i := rfl

/-- LOST counts beside NEXT, in the same register. -/
theorem vlogNext_lost (c : Bool) (s : State) :
    (when c (fun s => s.fsat F.vlogStsLost 0 1) s).fget F.vlogStsNext 0 = s.fget F.vlogStsNext 0 :=
  when_unchanged (g := fun x => x.fget F.vlogStsNext 0)
    (fun _ => fget_fset_disjoint _ F.vlogStsLost F.vlogStsNext _ _ rfl (by decide) (by decide) (by decide) (by decide)) c s

theorem vlogNext_vlogWrite (rec_ : List Byte) (s : State) :
    (vlogWrite rec_ s).fget F.vlogStsNext 0 = (s.fget F.vlogStsNext 0 + 1) % 2 ^ 32 := by
  unfold vlogWrite
  simp only
  rw [fget_fwrap _ F.vlogStsNext _ _ (by decide) (by decide), fget_setUnread,
    fget_stgPut F.vlogStsNext _ _ _ _ (by decide) (Nat.zero_lt_succ _), vlogNext_lost]
  rfl

theorem unread_vlogWrite (rec_ : List Byte) (s : State) :
    (vlogWrite rec_ s).unread (s.fget F.vlogStsNext 0 % 4096) = true := by
  unfold vlogWrite
  simp only
  rw [unread_fwrap, State.unread_setUnread]

theorem byte_setUnread (k j : Nat) (v : Bool) (s : State) : (s.setUnread j v).byte k = s.byte k := rfl

/-- A violation record lands in its slot with its number. -/
theorem putsBytes_vlogWrite {rec_ : List Byte} (hlen : rec_.length = 64) (s : State) :
    putsBytes s (vlogWrite rec_ s) (0x3900000 + 64 * (s.fget F.vlogStsNext 0 % 4096))
      (rec_.take 24 ++ leBytes 4 (s.fget F.vlogStsNext 0) ++ rec_.drop 28) := by
  intro k
  have hrest : (rec_.drop 28).take 36 = rec_.drop 28 := List.take_of_length_le (by rw [List.length_drop]; omega)
  unfold vlogWrite
  simp only [hrest]
  rw [State.fwrap, byte_fset, byte_setUnread, byte_stgPut, when_unchanged (g := fun x => x.byte k) fun _ => byte_fsat ..]
  rfl

/-! ## The rings of posted faults -/

/-- The state whose ring has taken the record: TOTAL counted, an overwriting noted, the bytes stored. -/
def ringed (fn : Nat) (rec_ : List Byte) (s : State) : State :=
  let s1 := s.fwrap F.pfrStsTotal fn 1
  let t := s1.fget F.pfrStsTotal fn
  stgPut (pfrBase fn + 32 * ((t + 15) % 16)) (rec_.take 8 ++ leBytes 4 t ++ (rec_.drop 12).take 20)
    (when (decide (16 < t)) (fun s => s.setRingOver fn (some s.now)) s1)

/-- The report of a posted fault: AER, then the request for the fault vector. -/
def reportPosted (fn : Nat) (rec_ : List Byte) (s : State) : State :=
  let s4 := aerPosted fn (leNat ((rec_.drop 12).take 1)) (faultHdr fn rec_) s
  when (s4.flag F.pfrCtlEn fn) (fun s => offer { s.mkPkt 1 0x12 41 39 fn with addr := s.fget F.pfrCtlVec fn } s) s4

theorem ringWrite_eq (fn : Nat) (rec_ : List Byte) (s : State) :
    ringWrite fn rec_ s
      = if (ringed fn rec_ s).inReset fn then ringed fn rec_ s else reportPosted fn rec_ (ringed fn rec_ s) := rfl

theorem fget_setRingOver (f : Fld) (i k : Nat) (v : Option Nat) (s : State) : (s.setRingOver k v).fget f i = s.fget f i := rfl

theorem byte_setRingOver (k j : Nat) (v : Option Nat) (s : State) : (s.setRingOver j v).byte k = s.byte k := rfl

theorem inReset_setRingOver (fn j : Nat) (v : Option Nat) (s : State) : (s.setRingOver j v).inReset fn = s.inReset fn := rfl

/-- TOTAL of the function counts the record and wraps. -/
theorem total_fwrap (fn : Nat) (s : State) :
    (s.fwrap F.pfrStsTotal fn 1).fget F.pfrStsTotal fn = (s.fget F.pfrStsTotal fn + 1) % 2 ^ 32 :=
  fget_fwrap _ F.pfrStsTotal _ _ (by decide) (by decide)

theorem total_ringed {fn : Nat} (hfn : fn < 2048) (rec_ : List Byte) (s : State) :
    (ringed fn rec_ s).fget F.pfrStsTotal fn = (s.fget F.pfrStsTotal fn + 1) % 2 ^ 32 := by
  unfold ringed
  simp only
  rw [fget_stgPut F.pfrStsTotal _ _ _ _ (by decide) (by omega),
    when_unchanged (g := fun x => x.fget F.pfrStsTotal fn) fun _ => fget_setRingOver .., total_fwrap]

/-- A record in a ring writes no register but TOTAL and the error counts. -/
theorem fget_ringed {fn i : Nat} {f : Fld} (hne : f.reg ≠ .errCnt) (hsts : f.reg ≠ F.pfrStsTotal.reg) (hfn : fn < 2048)
    (hi : i < 65536) (rec_ : List Byte) (s : State) : (ringed fn rec_ s).fget f i = s.fget f i := by
  unfold ringed
  simp only
  rw [fget_stgPut f _ _ _ _ hne hi, when_unchanged (g := fun x => x.fget f i) fun _ => fget_setRingOver .., State.fwrap]
  exact fget_fset_of_ne _ _ _ _ _ _ (regKey_ne _ _ _ _ hi (by omega) (.inl hsts))

theorem inReset_ringed (fn : Nat) (rec_ : List Byte) (s : State) : (ringed fn rec_ s).inReset fn = s.inReset fn := by
  unfold ringed
  simp only
  rw [inReset_stgPut, when_unchanged (g := fun x => x.inReset fn) fun _ => inReset_setRingOver ..]
  rfl

theorem putsBytes_ringed {fn : Nat} {rec_ : List Byte} (hlen : rec_.length = 32) (s : State) :
    putsBytes s (ringed fn rec_ s)
      (0x3800000 + 512 * fn + 32 * (((s.fget F.pfrStsTotal fn + 1) % 2 ^ 32 + 15) % 16))
      (rec_.take 8 ++ leBytes 4 ((s.fget F.pfrStsTotal fn + 1) % 2 ^ 32) ++ rec_.drop 12) := by
  intro k
  have hrest : (rec_.drop 12).take 20 = rec_.drop 12 := List.take_of_length_le (by rw [List.length_drop]; omega)
  unfold ringed
  simp only [hrest, total_fwrap]
  rw [byte_stgPut, when_unchanged (g := fun x => x.byte k) fun _ => byte_setRingOver .., State.fwrap, byte_fset]
  rfl

theorem aerPosted_unchanged {β : Type} {g : State → β} (hcfg : ∀ k v s, g (s.setCfgAt k v) = g s)
    (hemit : ∀ o s, g (s.emit o) = g s) (fn cause : Nat) (hdr : List Nat) (s : State) :
    g (aerPosted fn cause hdr s) = g s := by
  unfold aerPosted State.cfgPut
  simp only
  repeat' split
  all_goals simp only [hcfg, hemit]

theorem reportPosted_unchanged {β : Type} {g : State → β} (hcfg : ∀ k v s, g (s.setCfgAt k v) = g s)
    (hemit : ∀ o s, g (s.emit o) = g s) (hoffer : ∀ p s, g (offer p s) = g s) (fn : Nat) (rec_ : List Byte) (s : State) :
    g (reportPosted fn rec_ s) = g s := by
  unfold reportPosted
  simp only
  rw [when_unchanged fun _ => hoffer .., aerPosted_unchanged hcfg hemit]

theorem fget_aerPosted (f : Fld) (i fn cause : Nat) (hdr : List Nat) (s : State) :
    (aerPosted fn cause hdr s).fget f i = s.fget f i :=
  aerPosted_unchanged (g := fun x => x.fget f i) (fun _ _ _ => rfl) (fun _ _ => rfl) ..

theorem ringWrite_unchanged {β : Type} {g : State → β} (hcfg : ∀ k v s, g (s.setCfgAt k v) = g s)
    (hemit : ∀ o s, g (s.emit o) = g s) (hoffer : ∀ p s, g (offer p s) = g s) (fn : Nat) (rec_ : List Byte) (s : State) :
    g (ringWrite fn rec_ s) = g (ringed fn rec_ s) := by
  rw [ringWrite_eq]
  split
  · rfl
  · exact reportPosted_unchanged hcfg hemit hoffer ..

theorem total_ringWrite {fn : Nat} (hfn : fn < 2048) (rec_ : List Byte) (s : State) :
    (ringWrite fn rec_ s).fget F.pfrStsTotal fn = (s.fget F.pfrStsTotal fn + 1) % 2 ^ 32 :=
  (ringWrite_unchanged (g := fun x => x.fget F.pfrStsTotal fn) (fun _ _ _ => rfl) (fun _ _ => rfl) (fun _ _ => rfl) ..).trans
    (total_ringed hfn rec_ s)

theorem putsBytes_ringWrite {fn : Nat} {rec_ : List Byte} (hlen : rec_.length = 32) (s : State) :
    putsBytes s (ringWrite fn rec_ s)
      (0x3800000 + 512 * fn + 32 * (((s.fget F.pfrStsTotal fn + 1) % 2 ^ 32 + 15) % 16))
      (rec_.take 8 ++ leBytes 4 ((s.fget F.pfrStsTotal fn + 1) % 2 ^ 32) ++ rec_.drop 12) := fun k =>
  (ringWrite_unchanged (g := fun x => x.byte k) (fun _ _ _ => rfl) (fun _ _ => rfl) (fun _ _ => rfl) ..).trans
    (putsBytes_ringed hlen s k)

/-- The fault vector's request of a function: the packet that TRC offers to the IRT. -/
def faultRequest (fn : Nat) (s : State) : Packet :=
  { s.mkPkt 1 0x12 41 39 fn with
    addr := s.fget F.pfrCtlVec fn
    born := s.now }

theorem mem_inq_offer (p : Packet) (s : State) :
    { p with born := s.now } ∈ (offer p s).inq (25 * p.src + (if p.cls = 3 then 24 else 8 * p.cls + p.qc)) := by
  unfold offer
  rw [State.inq_setInq]
  exact List.mem_append_right _ (List.mem_singleton_self _)

theorem faultRequest_mem_inq (fn : Nat) (s : State) :
    faultRequest fn s ∈ (offer { s.mkPkt 1 0x12 41 39 fn with addr := s.fget F.pfrCtlVec fn } s).inq
      (25 * 41 + (8 + s.fget F.fSvcQc fn)) :=
  mem_inq_offer { s.mkPkt 1 0x12 41 39 fn with addr := s.fget F.pfrCtlVec fn } s

/-- With the fault vector enabled the report ends with its request. -/
theorem mem_inq_reportPosted {fn : Nat} {s : State} (hen : s.fget F.pfrCtlEn fn = 1) (rec_ : List Byte) :
    ∃ q, q.cls = 1 ∧ q.ty = 0x12 ∧ q.dst = 39 ∧ q.fn = fn ∧ q.addr = s.fget F.pfrCtlVec fn
      ∧ q ∈ (reportPosted fn rec_ s).inq (25 * 41 + (8 + s.fget F.fSvcQc fn)) := by
  unfold reportPosted
  simp only
  rw [when_of_true (flag_eq_true ((fget_aerPosted ..).trans hen))]
  rw [← fget_aerPosted F.fSvcQc fn fn (leNat ((rec_.drop 12).take 1)) (faultHdr fn rec_) s]
  exact ⟨_, rfl, rfl, rfl, rfl, fget_aerPosted F.pfrCtlVec fn .., faultRequest_mem_inq fn _⟩

theorem mem_inq_ringWrite {fn : Nat} {s : State} (hfn : fn < 2048) (hreset : s.inReset fn = false)
    (hen : s.fget F.pfrCtlEn fn = 1) (rec_ : List Byte) :
    ∃ q, q.cls = 1 ∧ q.ty = 0x12 ∧ q.dst = 39 ∧ q.fn = fn ∧ q.addr = s.fget F.pfrCtlVec fn
      ∧ q ∈ (ringWrite fn rec_ s).inq (25 * 41 + (8 + s.fget F.fSvcQc fn)) := by
  have hkept (f : Fld) (hne : f.reg ≠ .errCnt) (hsts : f.reg ≠ F.pfrStsTotal.reg) :
      (ringed fn rec_ s).fget f fn = s.fget f fn := fget_ringed hne hsts hfn (by omega) rec_ s
  have hin := mem_inq_reportPosted (s := ringed fn rec_ s)
    ((hkept F.pfrCtlEn (by decide) (by decide)).trans hen) rec_
  rw [ringWrite_eq, inReset_ringed, hreset]
  rw [hkept F.pfrCtlVec (by decide) (by decide), hkept F.fSvcQc (by decide) (by decide)] at hin
  exact hin

/-! ## The trace buffer -/

/-- Where the buffer takes records, one lands at WP, which counts on. -/
theorem traceTakes_traceWrite {s : State} (hroom : ¬(s.fget F.trcStsFull 0 = 1 ∧ s.fget F.trcCtlStop 0 = 1))
    (rec_ : List Byte) : traceTakes s (traceWrite rec_ s) rec_ := by
  have hgate : (s.flag F.trcStsFull 0 && s.flag F.trcCtlStop 0) = false := by
    by_cases hfull : s.fget F.trcStsFull 0 = 1
    · rw [flag_eq_false fun hstop => hroom ⟨hfull, hstop⟩, Bool.and_false]
    · rw [flag_eq_false hfull, Bool.false_and]
  unfold traceWrite
  simp only [hgate, Bool.false_eq_true, if_false]
  refine ⟨fun k => ?_, ?_⟩
  · rw [when_unchanged (g := fun x => x.byte k) fun _ => byte_fset .., byte_fset, byte_stgPut]
    rfl
  · rw [when_unchanged (g := fun x => x.fget F.trcStsWp 0) fun _ =>
      fget_fset_disjoint _ F.trcStsFull F.trcStsWp _ _ rfl (by decide) (by decide) (by decide) (by decide),
      fget_fset_same _ F.trcStsWp _ _ (by decide) (by decide)]
    rfl

/-- A recorded event is traced while SG3 can be written. -/
theorem traceEvent_of_traced {s : State} {rec_ : List Byte} (hdom : (s.dom 5).st ≠ 3)
    (ht : s.traced (leNat ((rec_.drop 8).take 1)) = true) : traceEvent rec_ s = traceWrite rec_ s :=
  (when_of_true ht _ s).trans (trcWrite_of_live hdom _)

/-- The class of a mark's record is 6. -/
theorem class_mark (stamp fn : Nat) (x : BitVec 64) :
    leNat (((leBytes 8 stamp ++ leBytes 1 6 ++ leBytes 1 1 ++ leBytes 1 41 ++ leBytes 1 0 ++ leBytes 2 fn ++ leBytes 2 0
      ++ leBytes 8 x.toNat ++ leBytes 8 fn).drop 8).take 1) = 6 := by
  simp only [List.append_assoc]
  rw [List.drop_left' (length_leBytes ..), List.take_left' (length_leBytes ..)]
  rfl

/-- The fixed bytes of a mark's record. -/
theorem bytes_mark (stamp fn : Nat) (x : BitVec 64) :
    leBytes 8 stamp ++ leBytes 1 6 ++ leBytes 1 1 ++ leBytes 1 41 ++ leBytes 1 0 ++ leBytes 2 fn ++ leBytes 2 0
      ++ leBytes 8 x.toNat ++ leBytes 8 fn
    = leBytes 8 stamp ++ [6, 1, 41, 0] ++ leBytes 2 fn ++ [0, 0] ++ leBytes 8 x.toNat ++ leBytes 8 fn := by
  have hfixed : leBytes 1 6 ++ (leBytes 1 1 ++ (leBytes 1 41 ++ leBytes 1 0)) = [6, 1, 41, 0] := by decide
  have hzero : leBytes 2 0 = [0, 0] := by decide
  rw [← hfixed, ← hzero]
  simp only [List.append_assoc]

/-- A one-bit field that is not 1 is 0. -/
theorem full_of_ne {s : State} (h : s.fget F.trcStsFull 0 ≠ 1) : s.fget F.trcStsFull 0 = 0 := by
  have hlt : s.fget F.trcStsFull 0 < 2 := Nat.mod_lt _ (by decide)
  omega

theorem fullClear_of_full {s : State} (h : s.fget F.trcStsFull 0 = 1) :
    (fullClear s).fget F.trcStsFull 0 = 0 ∧ (fullClear s).fget F.trcStsWp 0 = 0 := by
  unfold fullClear
  rw [when_of_true (flag_eq_true h)]
  constructor
  · rw [fget_fset_disjoint _ F.trcStsWp F.trcStsFull _ _ rfl (by decide) (by decide) (by decide) (by decide),
      fget_fset_same _ F.trcStsFull _ _ (by decide) (by decide)]
    rfl
  · rw [fget_fset_same _ F.trcStsWp _ _ (by decide) (by decide)]
    rfl

theorem fullClear_of_room {s : State} (h : s.fget F.trcStsFull 0 ≠ 1) : fullClear s = s :=
  when_of_false (flag_eq_false h) _ s

end Sys2Proof.Machine

open Sys2Proof Sys2Proof.Machine Sys2Proof.Claims

/-- Settles O50: a notice acts on what its kind says, TRC writes each record where its log stands, and clearing FULL
restarts the buffer. -/
theorem logsAreWritten : Obligations.LogsAreWritten := by
  unfold Obligations.LogsAreWritten
  intro s hup
  refine ⟨fun ni i p => ⟨fun h => ?query, fun h hseen hr hpos hhalf hlen => ?answer, fun h => ?request, fun h => ?posted⟩,
    fun i p hdom => ⟨fun h hlen => ?viol, fun h hlen hfn => ?ring, fun h => ⟨fun ht => ?untraced, fun ht hroom => ?traced⟩⟩,
    fun w x hw ht hdom hroom => ?mark, fun w hw => ?clear⟩
  case query =>
    refine next_of_live hup (by rfl) ?_
    rw [takeNotice_of_tells h]
    rfl
  case answer =>
    have hn : beyond (s.confirmed (46 * ni.val + p.src)) (p.addr / 16 % 4096)
        = (p.addr / 16 % 4096 + 4096 - s.confirmed (46 * ni.val + p.src) % 4096) % 4096 := by rw [beyond, Nat.mod_mod]
    obtain ⟨hconf, hdam⟩ := settleCounts_of_enough (s := taken_ s ni i) (c := p.addr / 16 % 4096) hseen (hn.trans_le hlen)
    refine ⟨settleCounts ni p.src (p.addr / 16 % 4096) (taken_ s ni i), next_of_live hup (by rfl) ?_,
      hconf.trans (Nat.mod_mod ..), hdam.trans (congrArg (fun n => _ ++ List.drop n _) hn)⟩
    rw [takeNotice_of_tells h]
    exact (if_pos hr).trans (resolveCounts_of_single (s := taken_ s ni i) hseen hr (hpos.trans_eq hn.symm)
      (hn.trans_lt hhalf))
  case request =>
    refine next_of_live hup (by rfl) ?_
    rw [takeNotice_of_tells h]
  case posted =>
    refine next_of_live hup (by rfl) ?_
    rw [takeNotice_of_tells h]
  case viol =>
    refine ⟨vlogWrite p.data (taken_ s 41 i), next_of_live hup (by rfl) ?_, vlogNext_vlogWrite ..,
      unread_vlogWrite p.data (taken_ s 41 i), putsBytes_vlogWrite hlen (taken_ s 41 i)⟩
    rw [takeNotice_of_tells h]
    exact trcWrite_of_live (s := taken_ s 41 i) hdom _
  case ring =>
    refine ⟨ringWrite p.fn p.data (taken_ s 41 i), next_of_live hup (by rfl) ?_, total_ringWrite hfn ..,
      putsBytes_ringWrite hlen (taken_ s 41 i), fun hreset hen => mem_inq_ringWrite (s := taken_ s 41 i) hfn hreset hen _⟩
    rw [takeNotice_of_tells h]
    exact trcWrite_of_live (s := taken_ s 41 i) hdom _
  case untraced =>
    refine next_of_live hup (by rfl) ?_
    rw [takeNotice_of_tells h]
    exact when_of_false ht _ _
  case traced =>
    refine ⟨traceWrite p.data (taken_ s 41 i), next_of_live hup (by rfl) ?_,
      traceTakes_traceWrite (s := taken_ s 41 i) hroom p.data⟩
    rw [takeNotice_of_tells h]
    exact traceEvent_of_traced (s := taken_ s 41 i) hdom ht
  case mark =>
    rw [← bytes_mark]
    refine ⟨_, next_of_live hup (by rfl) ?_, traceTakes_traceWrite hroom _⟩
    rw [guarded_of_writerOk hw]
    exact traceEvent_of_traced hdom ((congrArg s.traced (class_mark ..)).trans ht)
  case clear =>
    refine ⟨fullClear s, next_of_live hup (by rfl) (guarded_of_writerOk hw ..), ?_⟩
    by_cases hfull : s.fget F.trcStsFull 0 = 1
    · obtain ⟨hclear, hwp⟩ := fullClear_of_full hfull
      exact ⟨hclear, fun _ => hwp⟩
    · exact ⟨(congrArg (fun x => x.fget F.trcStsFull 0) (fullClear_of_room hfull)).trans (full_of_ne hfull),
        fun h => absurd h hfull⟩

end
